-- ==== Sys2Proof/Word.lean ====
section
/-! DEFINITION. The word types of the part and the plainest arithmetic on them: registers are 64 bits wide (R14), the engines'
general registers too (R223), and bit ranges are written [hi:lo] with bit 0 the least significant (R13). -/
namespace Sys2Proof

/-- A register of BAR0 (R14). -/
abbrev W64 := BitVec 64

/-- A byte. -/
abbrev Byte := BitVec 8

/-- The number in bits [hi:lo] of a natural number read as bits (R13). -/
def bitsOf (n hi lo : Nat) : Nat := (n >>> lo) % 2 ^ (hi + 1 - lo)

/-- Bit k of a natural number read as bits (R13). -/
def bitOf (n k : Nat) : Bool := (n >>> k) % 2 = 1

/-- 1 for true and 0 for false. -/
def ofBool (b : Bool) : Nat := if b then 1 else 0

end Sys2Proof
end

