-- ==== Sys2Proof/Types.lean ====
section
/-! DEFINITION. The names and records that commands carry: who accesses a register, what the light of a burst showed, what
a frame on the wire held. A command's operands are what reaches the part from outside it (the light, the line, the host, the
memory chips, the other part); everything the part itself decides is computed from its state. -/
namespace Sys2Proof

/-- A fibre tree, 0 to 31 (R2). -/
abbrev Tree := Fin 32

/-- A wavelength: 0 is 50G-PON, 1 is XGS-PON (R66). -/
abbrev Wl := Fin 2

/-- A crucible, 0 to 31 and the spare 32 (R28). -/
abbrev Cru := Fin 33

/-- A host endpoint: the port is bifurcable into two (R2, R20). -/
abbrev Ep := Fin 2

/-- Who makes a register access (R17). -/
inductive Origin where
  | host (e : Ep)
  | engine (c : Cru)
  | sideBand
  deriving DecidableEq, Repr

/-- The part of a 64-bit register an access reaches (R15). -/
inductive Lanes where
  | low
  | high
  | full
  deriving DecidableEq, Repr, Inhabited

/-- A register write's value and the part of the register it reaches; a half's value stands in bits [31:0] (R15, R673). -/
structure LaneWrite where
  lanes : Lanes
  value : W64
  deriving DecidableEq, Repr, Inhabited

/-- How many bytes an access covers (R15, R634). -/
inductive AccessSize where
  | one
  | two
  | four
  | eight
  deriving DecidableEq, Repr, Inhabited

/-- What a check of a 13-bit header error check showed (R78, R83). -/
inductive Hec where
  | good
  | corrected
  | bad
  deriving DecidableEq, Repr, Inhabited

/-- One place in a search window: its offset from the expected position in units of 1/16 reference bit, and the bits received there,
the first in bit 63 (R76). -/
structure DelimSpot where
  offset : Int
  bits : W64
  deriving DecidableEq, Repr, Inhabited

/-- What the light of a burst showed up to its header: the places of its search window, the header's check and its ONU-ID (R75, R78). -/
structure BurstHead where
  spots : List DelimSpot
  hec : Hec
  onu : Fin 1024
  deriving DecidableEq, Repr, Inhabited

/-- What one allocation of a burst carried: the DBRu's buffer occupancy if its CRC-8 passed (R81), and the 4-byte words of
XGEM frames other than idle ones, headers included (R134). -/
structure AllocLight where
  dbru : Option (BitVec 24)
  used : Nat
  deriving DecidableEq, Repr, Inhabited

/-- What the light of one burst showed at the receiver: its head, whether the equaliser had converged at the end of the preamble (R77),
the corrected symbols of each codeword or none where it was uncorrectable (R92), the PLOAMu if one was decoded (R80), the allocations,
the trailer check (R93), the received level and the tick of the delimiter. -/
structure BurstLight where
  head : BurstHead
  trained : Bool
  codewords : List (Option Nat)
  ploamu : Option (List Byte)
  allocs : List AllocLight
  bipOk : Bool
  level : Byte
  tick : Nat
  deriving DecidableEq, Repr, Inhabited

/-- A stretch of light where none is granted, in a guard, a quiet window or an ungranted interval (R96): its place in units from the
upstream frame's start, its level and its length in ns. -/
structure DarkSpan where
  pos : Nat
  level : Byte
  ns : Nat
  deriving DecidableEq, Repr, Inhabited

/-- An XGEM frame as it leaves the deframer: the head of its burst and the codewords of the burst so far (R84), the header check, its
fields, the payload bytes received, and its position in its allocation's payload in bytes (R754). -/
structure XgemLight where
  head : BurstHead
  codewords : List (Option Nat)
  hec : Hec
  pli : Nat
  keyIndex : Fin 4
  port : Fin 65536
  last : Bool
  payload : List Byte
  position : Nat
  tick : Nat
  deriving DecidableEq, Repr, Inhabited

/-- What a pair of cipher units showed while it served a frame, by the pair's place: nothing amiss, results that differ with neither
unit reporting (R454), one unit's own error (R456), or keystream not in time (R459). -/
inductive UnitReport where
  | fine
  | mismatch (place : Nat)
  | unitError (place : Nat) (second : Bool)
  | late
  deriving DecidableEq, Repr, Inhabited

/-- Which table words that a frame's lookups read fail their W20 or parity check: the rule, the destination's, the source's and the
flow's entry (R336, R382). -/
structure LookupFaults where
  rule : Bool := false
  dst : Bool := false
  src : Bool := false
  flow : Bool := false
  deriving DecidableEq, Repr, Inhabited

/-- A posted descriptor: its four words as the host wrote them (R638, R643). -/
structure Desc where
  w0 : W64 := 0
  w1 : W64 := 0
  w2 : W64 := 0
  w3 : W64 := 0
  deriving DecidableEq, Repr, Inhabited

/-- A lane frame of the Gulrov link as it arrives: the sync headers of its 1,024 blocks, the marker's first, with what is not listed valid; its first block;
and the payload of its data blocks as received (R610, R612). -/
structure LaneLight where
  headers : List (BitVec 2)
  marker : W64
  payload : List Byte
  deriving DecidableEq, Repr, Inhabited

/-- A row of the Gulrov link: the lane frames of the lanes in use, the lowest lane first (R598, R610). -/
structure RowLight where
  lanes : List LaneLight
  deriving DecidableEq, Repr, Inhabited

/-- An on-die word that the scrubber reads (R572): of a control store, of the local data of a half of a physical flask, of a crucible's store or
instruction RAM (16-byte words), of a packet-buffer cell that a queue's, an egress channel's or a pipe half's frame holds (the frame's place in it), of a
table entry, of a key slot, or any other. -/
inductive SramWord where
  | control (c : Cru) (word : Fin 16384) (reserveBad : Bool)
  | localData (c : Cru) (flask : Fin 33) (drag : Bool)
  | store (c : Cru) (word : Fin 262144)
  | iram (c : Cru) (word : Fin 16384)
  | queued (queue : Fin 1048576) (place : Nat)
  | egress (channel : Fin 104) (place : Nat)
  | piped (half : Fin 8) (place : Nat)
  | entry (table : Fin 2) (index : Fin 1048576)
  | keySlot (slot : Fin 40960)
  | other
  deriving DecidableEq, Repr, Inhabited

/-- What W20 finds in a word. -/
inductive WordCheck where
  | clean
  | corrected
  | uncorrectable
  deriving DecidableEq, Repr, Inhabited

/-- Bits that turn wrong in a stored word of a control store, its 128 control bits before its 32 check bits (R282, R313, R314). -/
structure Upset where
  word : Fin 16384
  wrong : BitVec 160
  deriving DecidableEq, Repr, Inhabited

/-- What befalls the control store before a long instruction's words are fetched from it. -/
abbrev CsFetch := List Upset

/-- An mPacket that arrived on an uplink, or a frame of its express MAC: the octet that begins it, the fragment count that follows that of a
continuation, its octets, the 32 bits of its check, first octet most significant, and the tick at which its timestamp point crossed the balls (R497,
R665). -/
structure EthLight where
  smd : Byte
  count : Byte
  bytes : List Byte
  check : BitVec 32
  tick : Nat
  deriving DecidableEq, Repr, Inhabited

end Sys2Proof
end

