-- ==== Sys2Proof/Syntax.lean ====
section
/-! DEFINITION. The commands of the part, one constructor per row of the opcode table. A command's operands are what reaches the part from outside it,
and which unit of the part it concerns. -/
namespace Sys2Proof

/-- The commands. -/
inductive Instr where
  /-- A host, engine or side-band write to a register that has no row of its own acts as its access type defines. (R17) -/
  | registerWrite (origin : Origin) (a : BitVec 32) (size : AccessSize) (v : W64)
  /-- A 32-bit read at offset + 4 of an RC register returns the latched high half, or 0 with no effect. (R20) -/
  | rcHighRead (e : Ep) (a : BitVec 32)
  /-- A 32-bit read of a counter's low half latches bits [47:32] for the next high-half read by the same endpoint. (R673) -/
  | counterLowRead (e : Ep) (a : BitVec 32)
  /-- A write of GO to PONU_COMMIT checks the staged values and sets PENDING, or sets STAGE_ERR. (R122) -/
  | ponuGo (t : Tree)
  /-- A granted burst reaches its granted end and ends in exactly one outcome, which is counted. (R92) -/
  | burstEnd (t : Tree) (w : Wl) (n : BitVec 51) (start : BitVec 16) (x : BurstLight)
  /-- A ranging grant's quiet window closes and the granted burst ends with the outcome of the first burst decoded in it. (R114) -/
  | quietWindowClose (t : Tree) (w : Wl) (n : BitVec 51) (start : BitVec 16) (lights : List BurstLight)
  /-- An upstream frame ends at the receiver and its LOS run and dark-light total are judged. (R95) -/
  | upstreamFrameEnd (t : Tree) (w : Wl) (n : BitVec 51) (light : Bool) (spans : List DarkSpan)
  /-- Once every burst granted in a frame's map has ended, the receiver sends that frame's summary message. (R98) -/
  | burstSummary (t : Tree) (w : Wl) (n : BitVec 51) (spans : List DarkSpan)
  /-- An XGEM frame leaves the deframer and is passed to CIPH and the pipe if its port binds to the burst's ONU-ID. (R86) -/
  | xgemDeframe (t : Tree) (w : Wl) (n : BitVec 51) (start : BitVec 16) (a : Fin 1024) (x : XgemLight) (unit : UnitReport)
  /-- A partial frame is discarded after eight upstream frames pass without a burst of its Alloc-ID. (R90) -/
  | fragTimeout (t : Tree) (w : Wl) (alloc : Fin 16384)
  /-- A write of GO to ALLOC_COMMIT checks the staged values and sets PENDING, or sets STAGE_ERR. (R163) -/
  | allocGo
  /-- A write of an Alloc or terminal record through ALLOC_REC_DATA or the ALLOC window applies, or is refused as a duplicate or over the terminal limit. (R130) -/
  | allocRecWrite (t : Tree) (w : Wl) (kind : Fin 4) (idx : Fin 4096) (v : W64)
  /-- A 64-bit write to ALLOC_OWNER sets OLD, NEW and FROM_FRAME, or is discarded and sets OWNER_ERR. (R166) -/
  | allocOwnerWrite (t : Tree) (lanes : Lanes) (v : W64)
  /-- The grant checker applies every rule to a complete map and gives its verdict. (R153) -/
  | mapVerdict (t : Tree) (w : Wl) (n : BitVec 51)
  /-- At t0(n) − 6 µs, any map for frame n that is not complete is LATE and the frame is treated as refused. (R136) -/
  | checkerDeadline (t : Tree) (w : Wl)
  /-- At t0(n) − 3 µs, POND takes the passed map, or the repeat, together with the PLOAMd entries queued by then. (R138) -/
  | mapTake (t : Tree) (w : Wl)
  /-- A write of GO to POND_COMMIT checks the staged values and sets PENDING, or sets STAGE_ERR. (R215) -/
  | pondGo (t : Tree)
  /-- A write of ARM, accepted only while the tree's transmitters and receivers are disabled, stops any running timing and starts frame FC_START at START_TIME. (R174) -/
  | timingArm (t : Tree)
  /-- Every 19,440 REFCLK periods a tree's next downstream frame begins and its frame count advances. (R176) -/
  | frameStart (t : Tree)
  /-- A write of a transmitter enable in POND_CTRL starts or stops the wavelength's transmitter at a frame boundary. (R178) -/
  | txEnableWrite (t : Tree) (en0 en1 : Bool)
  /-- A write of a FLUSH bit empties the wavelength's PLOAM queue without sending its entries. (R187) -/
  | ploamFlush (t : Tree) (w : Wl)
  /-- A write to POND_PLOAM_HOST7 posts the eight host registers as one PLOAM entry, or discards it when the queue is full. (R184) -/
  | ploamHostPost (t : Tree) (w : Wl) (lanes : Lanes) (v : W64)
  /-- POND takes an SDU from TM and wraps it, or a fragment of it, in an XGEM frame of the downstream frame. (R189) -/
  | sduPlace (t : Tree) (w : Wl) (unit : UnitReport)
  /-- A write of a frame count with ARMED 1 to POND_TOD_ARM arms a time-of-day capture. (R205) -/
  | todArm (t : Tree) (v : W64)
  /-- A write of POND_STAT_SEL sets BUSY and starts a copy of the selected context's counters. (R209) -/
  | statSelWrite (t : Tree) (v : W64)
  /-- Within 2 µs, the selected context's three counters reach the POND_STAT registers and BUSY clears. (R209) -/
  | statCopyDone (t : Tree)
  /-- A write to a POND_STAT counter register while BUSY is 0 sets both the context counter and the copy. (R210) -/
  | statWrite (t : Tree) (k : Fin 3) (x : LaneWrite)
  /-- The device folds on-die per-context accumulators into DDR5 before any of them can overflow. (R208) -/
  | statFold (t : Tree) (ctx : Fin 32768) (dir : Fin 2)
  /-- A read of POND_STAT_HALF_FIFO takes its oldest entry. (R20) -/
  | statHalfFifoRead (t : Tree) (e : Ep) (lanes : Lanes)
  /-- ADD writes ra + rb modulo 2^64 to rd. (R237) -/
  | add (c : Cru) (t : Fin 256) (rd ra rb : Fin 32)
  /-- SUB writes ra − rb modulo 2^64 to rd. (R237) -/
  | sub (c : Cru) (t : Fin 256) (rd ra rb : Fin 32)
  /-- AND writes the bitwise AND of ra and rb to rd. (R237) -/
  | and (c : Cru) (t : Fin 256) (rd ra rb : Fin 32)
  /-- OR writes the bitwise OR of ra and rb to rd. (R237) -/
  | or (c : Cru) (t : Fin 256) (rd ra rb : Fin 32)
  /-- XOR writes the bitwise XOR of ra and rb to rd. (R237) -/
  | xor (c : Cru) (t : Fin 256) (rd ra rb : Fin 32)
  /-- SHL shifts ra left by rb[5:0]. (R237) -/
  | shl (c : Cru) (t : Fin 256) (rd ra rb : Fin 32)
  /-- SHR shifts ra logically right by rb[5:0]. (R237) -/
  | shr (c : Cru) (t : Fin 256) (rd ra rb : Fin 32)
  /-- SRA shifts ra arithmetically right by rb[5:0]. (R237) -/
  | sra (c : Cru) (t : Fin 256) (rd ra rb : Fin 32)
  /-- ROR rotates ra right by rb[5:0]. (R237) -/
  | ror (c : Cru) (t : Fin 256) (rd ra rb : Fin 32)
  /-- CMPEQ sets rd to 1 when ra equals rb, else 0. (R237) -/
  | cmpeq (c : Cru) (t : Fin 256) (rd ra rb : Fin 32)
  /-- CMPLT sets rd to 1 when ra < rb signed, else 0. (R237) -/
  | cmplt (c : Cru) (t : Fin 256) (rd ra rb : Fin 32)
  /-- CMPLTU sets rd to 1 when ra < rb unsigned, else 0. (R237) -/
  | cmpltu (c : Cru) (t : Fin 256) (rd ra rb : Fin 32)
  /-- CLZ writes the number of leading zeros of ra to rd. (R237) -/
  | clz (c : Cru) (t : Fin 256) (rd ra rb : Fin 32)
  /-- POPC writes the number of ones in ra to rd. (R237) -/
  | popc (c : Cru) (t : Fin 256) (rd ra rb : Fin 32)
  /-- BSWAP writes the bytes of ra, reversed, to rd. (R237) -/
  | bswap (c : Cru) (t : Fin 256) (rd ra rb : Fin 32)
  /-- CRC continues a CRC-32C from ra over the 8 bytes of rb. (R237) -/
  | crc (c : Cru) (t : Fin 256) (rd ra rb : Fin 32)
  /-- MUL writes the low 64 bits of ra × rb to rd. (R237) -/
  | mul (c : Cru) (t : Fin 256) (rd ra rb : Fin 32)
  /-- MULHU writes the high 64 bits of the unsigned product to rd. (R237) -/
  | mulhu (c : Cru) (t : Fin 256) (rd ra rb : Fin 32)
  /-- DIVU writes the unsigned quotient, or all ones when rb is 0. (R237) -/
  | divu (c : Cru) (t : Fin 256) (rd ra rb : Fin 32)
  /-- REMU writes the unsigned remainder, or ra when rb is 0. (R237) -/
  | remu (c : Cru) (t : Fin 256) (rd ra rb : Fin 32)
  /-- ADDI writes ra plus the sign-extended immediate to rd. (R237) -/
  | addi (c : Cru) (t : Fin 256) (rd ra : Fin 32) (imm : BitVec 16)
  /-- ANDI writes ra AND the zero-extended immediate to rd. (R237) -/
  | andi (c : Cru) (t : Fin 256) (rd ra : Fin 32) (imm : BitVec 16)
  /-- ORI writes ra OR the zero-extended immediate to rd. (R237) -/
  | ori (c : Cru) (t : Fin 256) (rd ra : Fin 32) (imm : BitVec 16)
  /-- XORI writes ra XOR the zero-extended immediate to rd. (R237) -/
  | xori (c : Cru) (t : Fin 256) (rd ra : Fin 32) (imm : BitVec 16)
  /-- SHLI shifts ra left by imm[5:0]. (R237) -/
  | shli (c : Cru) (t : Fin 256) (rd ra : Fin 32) (imm : BitVec 16)
  /-- SHRI shifts ra logically right by imm[5:0]. (R237) -/
  | shri (c : Cru) (t : Fin 256) (rd ra : Fin 32) (imm : BitVec 16)
  /-- SRAI shifts ra arithmetically right by imm[5:0]. (R237) -/
  | srai (c : Cru) (t : Fin 256) (rd ra : Fin 32) (imm : BitVec 16)
  /-- CMPLTI sets rd to 1 when ra < imm signed, else 0. (R237) -/
  | cmplti (c : Cru) (t : Fin 256) (rd ra : Fin 32) (imm : BitVec 16)
  /-- MOVZ writes imm shifted into halfword h, with zeros elsewhere, to rd. (R237) -/
  | movz (c : Cru) (t : Fin 256) (rd ra : Fin 32) (imm : BitVec 16)
  /-- MOVK replaces halfword h of rd with imm and keeps the other halfwords. (R237) -/
  | movk (c : Cru) (t : Fin 256) (rd ra : Fin 32) (imm : BitVec 16)
  /-- EXT extracts a bit field of ra into rd. (R237) -/
  | ext (c : Cru) (t : Fin 256) (rd ra : Fin 32) (imm : BitVec 16)
  /-- INS inserts the low bits of ra into a field of rd, trapping with ILLEGAL beyond bit 63. (R237) -/
  | ins (c : Cru) (t : Fin 256) (rd ra : Fin 32) (imm : BitVec 16)
  /-- LD.B loads one byte from ra + imm, zero-extended. (R237) -/
  | ldB (c : Cru) (t : Fin 256) (rd ra : Fin 32) (imm : BitVec 16)
  /-- LD.H loads two bytes from ra + imm, zero-extended. (R237) -/
  | ldH (c : Cru) (t : Fin 256) (rd ra : Fin 32) (imm : BitVec 16)
  /-- LD.W loads four bytes from ra + imm, zero-extended. (R237) -/
  | ldW (c : Cru) (t : Fin 256) (rd ra : Fin 32) (imm : BitVec 16)
  /-- LD.D loads eight bytes from ra + imm. (R237) -/
  | ldD (c : Cru) (t : Fin 256) (rd ra : Fin 32) (imm : BitVec 16)
  /-- LDS.B loads one byte from ra + imm, sign-extended. (R237) -/
  | ldsB (c : Cru) (t : Fin 256) (rd ra : Fin 32) (imm : BitVec 16)
  /-- LDS.H loads two bytes from ra + imm, sign-extended. (R237) -/
  | ldsH (c : Cru) (t : Fin 256) (rd ra : Fin 32) (imm : BitVec 16)
  /-- LDS.W loads four bytes from ra + imm, sign-extended. (R237) -/
  | ldsW (c : Cru) (t : Fin 256) (rd ra : Fin 32) (imm : BitVec 16)
  /-- Load data returns from its region, and the waiting thread's load completes. (R227) -/
  | loadDataReturn (c : Cru) (t : Fin 256)
  /-- ST.B stores the low byte of the rd-field register to ra + imm. (R237) -/
  | stB (c : Cru) (t : Fin 256) (rd ra : Fin 32) (imm : BitVec 16)
  /-- ST.H stores two bytes to ra + imm. (R237) -/
  | stH (c : Cru) (t : Fin 256) (rd ra : Fin 32) (imm : BitVec 16)
  /-- ST.W stores four bytes to ra + imm. (R237) -/
  | stW (c : Cru) (t : Fin 256) (rd ra : Fin 32) (imm : BitVec 16)
  /-- ST.D stores eight bytes to ra + imm. (R237) -/
  | stD (c : Cru) (t : Fin 256) (rd ra : Fin 32) (imm : BitVec 16)
  /-- AMO.ADD adds rb to a crucible-store word atomically and returns the old word. (R233) -/
  | amoAdd (c : Cru) (t : Fin 256) (rd ra rb : Fin 32)
  /-- AMO.SWAP swaps a crucible-store word with rb atomically and returns the old word. (R233) -/
  | amoSwap (c : Cru) (t : Fin 256) (rd ra rb : Fin 32)
  /-- AMO.CAS writes rb when the word equals rd and returns the old word. (R233) -/
  | amoCas (c : Cru) (t : Fin 256) (rd ra rb : Fin 32)
  /-- BEQ branches when ra equals rb. (R237) -/
  | beq (c : Cru) (t : Fin 256) (ra rb : Fin 32) (disp : BitVec 16)
  /-- BNE branches when ra differs from rb. (R237) -/
  | bne (c : Cru) (t : Fin 256) (ra rb : Fin 32) (disp : BitVec 16)
  /-- BLT branches when ra < rb signed. (R237) -/
  | blt (c : Cru) (t : Fin 256) (ra rb : Fin 32) (disp : BitVec 16)
  /-- BGE branches when ra ≥ rb signed. (R237) -/
  | bge (c : Cru) (t : Fin 256) (ra rb : Fin 32) (disp : BitVec 16)
  /-- BLTU branches when ra < rb unsigned. (R237) -/
  | bltu (c : Cru) (t : Fin 256) (ra rb : Fin 32) (disp : BitVec 16)
  /-- BGEU branches when ra ≥ rb unsigned. (R237) -/
  | bgeu (c : Cru) (t : Fin 256) (ra rb : Fin 32) (disp : BitVec 16)
  /-- JMP jumps to IP + 4 × disp. (R237) -/
  | jmp (c : Cru) (t : Fin 256) (disp : BitVec 26)
  /-- CALL jumps to IP + 4 × disp and writes IP + 4 to g31. (R237) -/
  | call (c : Cru) (t : Fin 256) (disp : BitVec 26)
  /-- JR jumps to ra. (R237) -/
  | jr (c : Cru) (t : Fin 256) (ra : Fin 32)
  /-- CALLR jumps to ra and writes IP + 4 to g31. (R237) -/
  | callr (c : Cru) (t : Fin 256) (ra : Fin 32)
  /-- CTR.RD reads an engine counter, or traps with CTR_DENIED in program mode without PCU. (R272) -/
  | ctrRd (c : Cru) (t : Fin 256) (rd rb : Fin 32)
  /-- SPR.RD reads a special register, as the mode permits. (R224) -/
  | sprRd (c : Cru) (t : Fin 256) (rd rb : Fin 32)
  /-- SPR.WR writes a special register, as the mode permits. (R224) -/
  | sprWr (c : Cru) (t : Fin 256) (ra rb : Fin 32)
  /-- CTR.WR sets a PCn counter of this engine in supervisor mode; writes to CYC are ignored. (R237) -/
  | ctrWr (c : Cru) (t : Fin 256) (ra rb : Fin 32)
  /-- TRAP takes a trap with cause TRAP and the given TRAP_CODE. (R243) -/
  | trap (c : Cru) (t : Fin 256) (rb : Fin 32)
  /-- ERET restores SUPER and IE, clears EXL and continues at EPC. (R241) -/
  | eret (c : Cru) (t : Fin 256)
  /-- HALT releases held messages and puts the thread in IDLE. (R237) -/
  | halt (c : Cru) (t : Fin 256)
  /-- YIELD passes the issue slot to the next READY thread of equal priority. (R237) -/
  | yield (c : Cru) (t : Fin 256)
  /-- FENCE waits until every earlier store, message and transfer of the thread is visible. (R232) -/
  | fence (c : Cru) (t : Fin 256)
  /-- TBL.FIND looks a key up and returns the entry found, or MISS. (R386) -/
  | tblFind (c : Cru) (t : Fin 256) (rd ra : Fin 32) (fetch : CsFetch) (fault : Bool)
  /-- TBL.INS inserts an entry, or rewrites it with REPLACE, relocating occupants as needed. (R388) -/
  | tblIns (c : Cru) (t : Fin 256) (rd ra : Fin 32) (fetch : CsFetch) (fault : Bool)
  /-- TBL.DEL removes an entry. (R386) -/
  | tblDel (c : Cru) (t : Fin 256) (rd ra : Fin 32) (fetch : CsFetch) (fault : Bool)
  /-- TBL.AGE applies one ageing step to an entry and reports the action taken. (R400) -/
  | tblAge (c : Cru) (t : Fin 256) (rd ra : Fin 32) (fetch : CsFetch) (fault : Bool)
  /-- MSG.SEND sends a message to a crucible queue or host ring, or injects a frame, and returns a status. (R257) -/
  | msgSend (c : Cru) (t : Fin 256) (rd ra rb : Fin 32) (fetch : CsFetch)
  /-- A MSG.SEND with WAIT that met a full queue completes when space frees. (R258) -/
  | sendResume (c : Cru) (t : Fin 256)
  /-- MSG.WAIT releases held messages and waits for a message on a queue or group. (R259) -/
  | msgWait (c : Cru) (t : Fin 256) (rd ra : Fin 32) (fetch : CsFetch)
  /-- An arriving message is delivered to the thread that has waited longest on its queue or group. (R260) -/
  | messageDeliver (c : Cru) (q : Fin 1024)
  /-- MSG.DONE releases every message the thread holds and begins a new handler. (R262) -/
  | msgDone (c : Cru) (t : Fin 256) (fetch : CsFetch)
  /-- MSG.POLL takes a message if one is present, or returns 0. (R259) -/
  | msgPoll (c : Cru) (t : Fin 256) (rd ra : Fin 32) (fetch : CsFetch)
  /-- BLK.COPY copies a block unit by unit, restartably, between spaces. (R238) -/
  | blkCopy (c : Cru) (t : Fin 256) (rd ra rb : Fin 32) (fetch : CsFetch) (now : Fin 1048576) (bad : Bool)
  /-- BLK.FILL fills a block with an 8-byte value unit by unit. (R238) -/
  | blkFill (c : Cru) (t : Fin 256) (rd ra rb : Fin 32) (fetch : CsFetch) (now : Fin 1048576)
  /-- GRANT.FILL sends a grant list to ALLOC as a map for one tree, wavelength and frame, and returns a status. (R270) -/
  | grantFill (c : Cru) (t : Fin 256) (rd ra rb : Fin 32) (fetch : CsFetch) (now : Fin 1024)
  /-- TIME.READ returns logical time in whole ns and fraction. (R237) -/
  | timeRead (c : Cru) (t : Fin 256) (rd : Fin 32)
  /-- TIME.READ.FRC returns FRC. (R237) -/
  | timeReadFrc (c : Cru) (t : Fin 256) (rd : Fin 32)
  /-- TIME.ARM arms a trigger slot for a thread start at a logical time, or returns NO_SLOT, PAST or BAD_TARGET. (R266) -/
  | timeArm (c : Cru) (t : Fin 256) (rd ra : Fin 32) (fetch : CsFetch)
  /-- DERIVE loads a slot with a key derived from the root key and LABEL. (R468) -/
  | derive (c : Cru) (t : Fin 256) (rd ra : Fin 32) (fetch : CsFetch)
  /-- CMAC_DERIVE loads a slot with AES-CMAC of DATA under KEY_SLOT. (R471) -/
  | cmacDerive (c : Cru) (t : Fin 256) (rd ra : Fin 32) (fetch : CsFetch)
  /-- MIC writes AES-CMAC of DATA under KEY_SLOT to OUT. (R471) -/
  | mic (c : Cru) (t : Fin 256) (rd ra : Fin 32) (fetch : CsFetch)
  /-- The ERASE operation of CRYPT.KD sets a slot EMPTY. (R471) -/
  | kdErase (c : Cru) (t : Fin 256) (rd ra : Fin 32) (fetch : CsFetch)
  /-- UNWRAP loads a slot with the KW unwrap of DATA, or returns UNWRAP_FAIL. (R471) -/
  | unwrap (c : Cru) (t : Fin 256) (rd ra : Fin 32) (fetch : CsFetch)
  /-- ECB_IMPORT loads a slot with the AES-128 decryption of DATA under KEY_SLOT. (R471) -/
  | ecbImport (c : Cru) (t : Fin 256) (rd ra : Fin 32) (fetch : CsFetch)
  /-- WRAP_OUT writes the KW wrap of a slot's key under KEY_SLOT to OUT. (R471) -/
  | wrapOut (c : Cru) (t : Fin 256) (rd ra : Fin 32) (fetch : CsFetch)
  /-- STATE_SAVE writes a slot's state, wrapped or in the clear where allowed. (R482) -/
  | stateSave (c : Cru) (t : Fin 256) (rd ra : Fin 32) (fetch : CsFetch)
  /-- STATE_RESTORE raises a matching slot's USES from a saved state, or returns STALE_STATE. (R484) -/
  | stateRestore (c : Cru) (t : Fin 256) (rd ra : Fin 32) (fetch : CsFetch)
  /-- An urgent message with no waiter interrupts the lowest-numbered eligible thread. (R245) -/
  | interruptTake (c : Cru) (q : Fin 1024)
  /-- A host STOP request is taken at an interrupt boundary and the thread enters STOPPED. (R246) -/
  | stopTake (c : Cru) (t : Fin 256)
  /-- A thread READY beyond CRU_RUN_LIMIT cycles without waiting takes a RUNAWAY trap. (R244) -/
  | runaway (c : Cru) (t : Fin 256)
  /-- When logical time reaches an armed time, the trigger starts its target thread at ENTRY, or pends the start. (R507) -/
  | triggerFire (k : Fin 256)
  /-- A pending start begins when its target thread next becomes IDLE. (R268) -/
  | pendingStart (c : Cru) (t : Fin 256)
  /-- The START bit of CRU_THREAD_CTRL starts an IDLE thread at ENTRY, or sets START_ERR. (R278) -/
  | threadStart (c : Cru) (t : Fin 256)
  /-- The STOP bit of CRU_THREAD_CTRL requests that the selected thread stop. (R278) -/
  | threadStop (c : Cru) (t : Fin 256)
  /-- The RESUME bit of CRU_THREAD_CTRL continues a STOPPED thread at its IP. (R278) -/
  | threadResume (c : Cru) (t : Fin 256)
  /-- The RESET bit of CRU_THREAD_CTRL puts the thread in IDLE, releases its messages and cancels its pending start. (R278) -/
  | threadReset (c : Cru) (t : Fin 256)
  /-- A read of CRU_MEM_DATA returns the addressed word and advances OFFSET under AUTOINC. (R749) -/
  | cruMemDataRead (c : Cru) (lanes : Lanes)
  /-- A write of CRU_MEM_DATA writes the addressed memory and advances OFFSET under AUTOINC. (R749) -/
  | cruMemDataWrite (c : Cru) (lanes : Lanes) (v : W64)
  /-- A write of GO to CRU_COMMIT checks the staged queue configuration and sets PENDING, or sets STAGE_ERR. (R277) -/
  | cruQueueGo (c : Cru)
  /-- The crucible applies its staged queue configuration within 2 µs, in a cycle that places no message. (R276) -/
  | cruQueueApply (c : Cru)
  /-- A read of CRU_TRIG_LOG takes the oldest trigger log entry. (R269) -/
  | trigLogRead (c : Cru) (e : Ep) (lanes : Lanes)
  /-- A write of GO to CRU_LOAD_CTRL starts a pattern or patch load, or is refused while BUSY. (R308) -/
  | loadGo (e : Ep) (source : Fin 4)
  /-- The fetched image passes or fails every check, and a passing load writes the spare reserve bank. (R302) -/
  | loadChecked (img : Option (List Byte))
  /-- At its application point, a crucible holds microcoded dispatch, writes the load's words and ends the hold. (R305) -/
  | crucibleHold (c : Cru)
  /-- At start-up the loader loads flash slot A, or slot B if A is refused. (R309) -/
  | bootLoad (readA readB : Bool)
  /-- The crucible rewrites an uncorrectable word from the reserve bank it is running, or sets REPAIR_FAIL. (R315) -/
  | csRepair (c : Cru) (word : Fin 16384) (reserveBad : Bool)
  /-- The control-store scrubber finds an uncorrectable word and repairs it without stopping a flask. (R318) -/
  | csScrub (c : Cru) (word : Fin 16384) (reserveBad : Bool)
  /-- A write of GO to PRS_COMMIT checks the staged copy and sets PENDING, or sets STAGE_ERR. (R345) -/
  | prsGo
  /-- The staged copy becomes active under a new EPOCH at a fabric clock with no pass starting. (R344) -/
  | prsApply
  /-- When the old epoch's in-flight count reaches 0, PRS copies active to staged, clears PENDING and sets DRAINED. (R344) -/
  | epochDrained
  /-- A frame enters a pipe half and its first pass parses, classifies and forwards it. (R321) -/
  | pipeEntry (half : Fin 8) (faults : LookupFaults)
  /-- An admitted recirculated pass parses the frame again from the RECIRC result. (R347) -/
  | recircPass (half : Fin 8) (faults : LookupFaults)
  /-- A recirculation that finds no admission for 64 fabric clocks sends the frame to class SHED. (R349) -/
  | recircShed (half : Fin 8)
  /-- The FIND command of PRS_RS_CMD looks a rule up and writes its result. (R338) -/
  | rsFind (bank dst : Fin 8)
  /-- The INSERT command of PRS_RS_CMD adds a rule, with relocation. (R338) -/
  | rsInsert (bank dst : Fin 8)
  /-- The DELETE command of PRS_RS_CMD removes a rule. (R338) -/
  | rsDelete (bank dst : Fin 8)
  /-- The CLEAR command of PRS_RS_CMD empties a bank that is not in use. (R338) -/
  | rsClear (bank dst : Fin 8)
  /-- The COPY command of PRS_RS_CMD replaces bank DST with bank BANK. (R339) -/
  | rsCopy (bank dst : Fin 8)
  /-- A rule-bank command completes, writes STATUS and clears RUNNING. (R339) -/
  | rsCmdDone
  /-- A write of GO to FWD_COMMIT checks the staged values and sets PENDING, or sets STAGE_ERR. (R401) -/
  | fwdGo
  /-- FWD applies its staged values at a fabric clock with no lookup starting, after re-testing table occupancy. (R401) -/
  | fwdApply
  /-- A lookup that missed on-die is repeated in the DDR5 extension. (R383) -/
  | extLookup (half : Fin 8) (faults : LookupFaults)
  /-- A partition's learning agent takes the next queued learn event and installs, moves or ignores the entry. (R392) -/
  | learnEvent (part : Fin 16)
  /-- The sweeper visits an entry and clears HIT, sets AGED or removes it. (R398) -/
  | sweepVisit (table : Fin 2)
  /-- A write of PERIOD stops, restarts or reschedules the sweeper. (R752) -/
  | sweepPeriodWrite (table : Fin 2) (v : W64)
  /-- The FIND command of FWD_TBL_CMD looks an entry up for the host. (R402) -/
  | fwdTblFind (flags : Fin 32) (fault : Bool)
  /-- The INSERT command of FWD_TBL_CMD inserts or replaces an entry for the host. (R402) -/
  | fwdTblInsert (flags : Fin 32) (fault : Bool)
  /-- The DELETE command of FWD_TBL_CMD removes an entry for the host. (R402) -/
  | fwdTblDelete (flags : Fin 32) (fault : Bool)
  /-- The AGE command of FWD_TBL_CMD applies an ageing step for the host. (R402) -/
  | fwdTblAge (flags : Fin 32) (fault : Bool)
  /-- A host table command completes, writes STATUS and FWD_TBL_LOC, and clears RUNNING. (R402) -/
  | fwdCmdDone
  /-- A write of GO to TM_COMMIT checks the staged list and registers and sets PENDING, or sets STAGE_ERR. (R445) -/
  | tmGo
  /-- TM applies the whole staged list at one fabric clock and empties it. (R444) -/
  | tmApply
  /-- A write to TM_REC_PUSH appends the selection and three words to the staged list, or sets STAGE_ERR. (R443) -/
  | recPush
  /-- TM maps a forwarded frame to a queue and admits it or drops it at the first failing step. (R416) -/
  | tmAdmit (half : Fin 8) (ovfBusy : Bool)
  /-- An egress asks its channel for a frame, and TM chooses one through the hierarchy. (R424) -/
  | tmSelect (ch : Fin 104)
  /-- Overflowed frames are brought back to the packet buffer in queue order. (R430) -/
  | ovfReturn (q : Fin 1048576)
  /-- A release message that its queue refused is sent again at least every 1 µs. (R433) -/
  | releaseRetry
  /-- A write of GO to TM_DRAIN_CMD clears the queue's ACCEPT and starts a drain, or starts none. (R437) -/
  | drainGo (v : W64)
  /-- A draining queue becomes empty, RUNNING clears and DRAIN_DONE sets. (R437) -/
  | drainDone
  /-- When TIMEOUT expires, the frames still queued are dropped and DRAIN_TIMEOUT sets. (R438) -/
  | drainTimeout
  /-- TM samples an enabled queue into its sample ring, or discards the sample when the ring is full. (R440) -/
  | queueSample (q : Fin 1048576)
  /-- A write of GO to CIPH_COMMIT checks the staged values and sets PENDING, or sets STAGE_ERR. (R485) -/
  | ciphGo
  /-- CIPH applies CIPH_CFG, the key-store base and the notice destination within 2 µs. (R485) -/
  | ciphApply
  /-- A spare unit passes self-test and joins the idle partner as a pair. (R457) -/
  | spareJoin
  /-- Every 1 ms the mask DRBG is reseeded from the entropy source. (R452) -/
  | drbgReseed
  /-- A failure window closes without retirement and FAILS returns to 0. (R481) -/
  | failWindowClose (k : Fin 40960)
  /-- CIPH rewrites a slot's key-store record with USES_RESERVED raised. (R474) -/
  | keystoreRewrite (k : Fin 40960)
  /-- A slot with an uncorrectable error is reloaded from its record, or becomes RETIRED. (R475) -/
  | slotReload (k : Fin 40960)
  /-- The IMPORT command of CIPH_SLOT_CMD loads a key from CIPH_IMPORT0 to CIPH_IMPORT3. (R486) -/
  | slotImport (slot : Fin 65536)
  /-- The ERASE command of CIPH_SLOT_CMD sets a slot EMPTY. (R486) -/
  | slotErase (slot : Fin 65536)
  /-- The RETIRE command of CIPH_SLOT_CMD sets a slot RETIRED. (R486) -/
  | slotRetire (slot : Fin 65536)
  /-- A host slot command completes with its STATUS, and CIPH_IMPORT0 to CIPH_IMPORT3 are cleared. (R486) -/
  | slotCmdDone
  /-- A read of CIPH_NOTICE_FIFO takes the oldest notice entry. (R478) -/
  | noticeFifoRead (e : Ep) (lanes : Lanes)
  /-- A write of GO to TIME_COMMIT checks the staged values and sets PENDING, or sets STAGE_ERR. (R528) -/
  | timeGo
  /-- TIME applies its staged values between servo updates. (R528) -/
  | timeApply
  /-- FRC increments by one each time-domain tick. (R489) -/
  | timeTick (n : BitVec 32)
  /-- A read of TIME_NOW_NS captures logical time and FRC at one tick and latches them. (R494) -/
  | timeNowRead (lanes : Lanes)
  /-- The SET bit of TIME_SET_CTRL steps logical time to TIME_SET_NS at the next tick. (R492) -/
  | timeSet (v : W64)
  /-- A write to TIME_ADJ adds to OFFSET at the next tick as a step. (R492) -/
  | timeAdjWrite (o : Origin) (v : W64)
  /-- A write to TIME_RATE changes RATE, or is discarded and sets WRITE_DENIED. (R512) -/
  | timeRateWrite (v : W64)
  /-- An enabled input captures an edge into its FIFO and passes it to the phase detector. (R499) -/
  | tinCapture (n : Fin 4) (rising : Bool) (k : Fin 8)
  /-- A read of a TIME_TINn_FIFO takes its oldest capture. (R20) -/
  | tinFifoRead (e : Ep) (lanes : Lanes) (n : Fin 4)
  /-- A write of TIME_SERVO_INPUT supplies a measurement when SRC is 5, or is discarded. (R510) -/
  | servoInputWrite (v : W64)
  /-- No accepted measurement for LOSS_MS takes the servo to HOLDOVER or FREE. (R513) -/
  | servoLoss
  /-- Each second in LOCKED, TIME takes a sample and refits the holdover model. (R518) -/
  | fitSample
  /-- Each second in HOLDOVER, y is set from the model plus D0 or held. (R519) -/
  | holdoverUpdate
  /-- A write of a model coefficient or TIME_HO_REF applies while FIT_EN is 0, or sets WRITE_DENIED. (R520) -/
  | hoCoeffWrite (k : Fin 5) (v : W64)
  /-- An enabled output drives edge k at START + k × PERIOD. (R502) -/
  | toutEdge (n : Fin 8)
  /-- A write of a handle to TIME_TRIG_CANCEL frees the slot when the generation matches. (R509) -/
  | trigCancel (v : W64)
  /-- The steering port sends a steering word for a new y when the bus is free. (R524) -/
  | steerWrite
  /-- Once per second TIME reads the oscillator temperature sensor and accepts or discards the reading. (R525) -/
  | tempRead (raw : BitVec 32)
  /-- A recovered clock output is held low when its lane loses lock, and resumes at relock. (R526) -/
  | rclkSquelch (r : Fin 2) (locked : Bool)
  /-- A write of GO to GATE_COMMIT checks the staged values and sets PENDING, or sets STAGE_ERR. (R582) -/
  | gateGo
  /-- GATE applies GATE_CFG and GATE_TAKEOVER_DEST within 2 µs. (R582) -/
  | gateApply
  /-- A flask output reaches its gate, which passes the higher heat number's copy or handles a split. (R532) -/
  | gateCompare (c : Cru) (f : Fin 33) (differ : Bool)
  /-- A half reports its own error, takes SUSPECT, loses HEALTH and starts resynchronisation. (R537) -/
  | halfError (c : Cru) (f : Fin 33) (drag : Bool)
  /-- A suspect half finishes resynchronisation and takes ROLE STANDBY. (R540) -/
  | resyncDone (c : Cru) (f : Fin 33)
  /-- A held flask is retired and its rolled-back engine resumes on the spare flask. (R546) -/
  | flaskRetire (c : Cru) (f : Fin 33)
  /-- Every 2 µs both paths read each half's step counter. (R551) -/
  | stepCounterPoll (c : Cru) (f : Fin 33) (cope1 cope2 drag1 drag2 : BitVec 32)
  /-- A crucible monitor heartbeat or a supervisor probe arrives. (R553) -/
  | crucibleHeartbeat (c : Cru) (probe : Bool)
  /-- Heartbeats and probes missing for 12 µs declare a crucible lost. (R553) -/
  | crucibleLost (c : Cru)
  /-- The RETIRE_FLASK command retires the selected flask by plan. (R563) -/
  | retireFlask
  /-- The RESTORE_FLASK command makes a retired flask the crucible's spare, or is refused. (R564) -/
  | restoreFlask
  /-- The RETIRE_CRUCIBLE command closes an idle crucible's gates and starts its self-test. (R565) -/
  | retireCrucible
  /-- The RESTORE_CRUCIBLE command returns a tested crucible to service owning nothing. (R565) -/
  | restoreCrucible
  /-- The TEST command of GATE_RETIRE_CMD runs self-test on the selection. (R584) -/
  | gateTest
  /-- A GATE_RETIRE_CMD command completes with its STATUS and clears RUNNING. (R582) -/
  | gateCmdDone
  /-- A retired flask's self-test ends with BIST_OK or BIST_FAIL. (R549) -/
  | bistDone (c : Cru) (f : Fin 33) (pass : Bool)
  /-- Every 2^TURN_LOG2 frames, each working flask exchanges ACTIVE and STANDBY unless skipped. (R566) -/
  | flaskTurnover (c : Cru)
  /-- A read of GATE_FAULT_LOG takes its oldest entry. (R581) -/
  | faultLogRead (e : Ep) (lanes : Lanes)
  /-- The scrubber reads an on-die word, writes back a corrected one and handles an uncorrectable one. (R572) -/
  | sramScrub (w : SramWord) (wrong : BitVec 160) (last : Bool)
  /-- The scrubber reads a DDR5 line in idle bandwidth and handles its errors. (R572) -/
  | ddrScrub (line : BitVec 34) (first second : BitVec 640) (differ last : Bool)
  /-- A read of MEM_MISMATCH_LOG takes its oldest entry. (R576) -/
  | mismatchLogRead (e : Ep) (lanes : Lanes)
  /-- A write of GO to MEM_COMMIT checks the staged MEM_CFG and sets PENDING, or sets STAGE_ERR. (R585) -/
  | memGo
  /-- MEM applies MEM_CFG within 2 µs. (R585) -/
  | memApply
  /-- The OFFLINE command takes a channel out of service, or is refused. (R578) -/
  | chanOffline
  /-- The ONLINE command trains the channel, checks its SPD and starts resilvering. (R579) -/
  | chanOnline
  /-- The MAKE_PRIMARY command exchanges the pair's primary and secondary roles. (R574) -/
  | makePrimary
  /-- The CLEAR_SUSPECT command clears a channel's SUSPECT state. (R587) -/
  | clearSuspect
  /-- Channel training completes or fails within 2 s. (R580) -/
  | trainingDone (c : Fin 8) (trained suits : Bool) (capacity : Fin 256)
  /-- Resilvering completes and the channel becomes ONLINE as secondary. (R579) -/
  | resilverDone (c : Fin 8) (progress : Fin 1001)
  /-- A write of GO to GLK_COMMIT checks the staged values and sets PENDING, or sets STAGE_ERR. (R626) -/
  | glkGo
  /-- GLK applies its staged values within 2 µs, restarting alignment when LANES, N or M change. (R626) -/
  | glkApply
  /-- Every 100 µs a part sends a HEARTBEAT record in its mirror stream. (R591) -/
  | mirrorHeartbeatSend
  /-- A valid HEARTBEAT record from the mate is received on path one. (R592) -/
  | heartbeatRecord
  /-- No valid heartbeat on a path for 300 µs makes that path not seen. (R592) -/
  | pathLoss (p : Fin 2)
  /-- A Gulrov row's segment is checked and accepted, or dropped and a resend requested. (R598) -/
  | rowReceive (x : RowLight)
  /-- A received MAP record is used for shadow reception and its digest is compared. (R604) -/
  | mapRecord
  /-- A received SLOT record writes report and monitor slots on the standby. (R602) -/
  | slotRecord
  /-- A received PROGRAM record is delivered to GLK_PROG_DEST, or discarded and sets GAP. (R600) -/
  | programRecord
  /-- GLK takes a message from GLK_PROG_SRC and sends it as a PROGRAM record. (R599) -/
  | programRecordSend
  /-- A received RESEND record makes the sender send the requested segment again. (R617) -/
  | resendRecord
  /-- A write of GO to GLK_TURN schedules a mate turnover at frame S, or is refused. (R608) -/
  | turnGo (frame : BitVec 32)
  /-- A Gulrov lane gains or loses block lock from its sync headers. (R611) -/
  | blockLock (lane : Fin 8) (headers : List (BitVec 2))
  /-- A lane's marker search gains or loses alignment, and the link deskews. (R613) -/
  | laneAlign (lane : Fin 8) (header : BitVec 2) (block : W64) (place : Fin 1024)
  /-- The slip buffer repeats or drops a whole row and counts it. (R617) -/
  | rowSlip
  /-- 10 s after a second ends, GLK counts it into its performance bins. (R621) -/
  | pmSecond
  /-- A write of GLK_PM_SEL latches the selected bin as one snapshot. (R626) -/
  | pmSelWrite (v : W64)
  /-- GLK takes a message from GLK_HIER_SRC, encrypts it and sends it to its peer. (R623) -/
  | hierSend
  /-- A received hierarchy frame is checked and delivered to GLK_HIER_DEST, or dropped. (R623) -/
  | hierReceive
  /-- A write of a receive ring's TAIL posts descriptors, or is discarded and sets TAIL_ERR. (R635) -/
  | rxTailWrite (ring : Fin 4096) (tail : BitVec 16) (descs : List Desc)
  /-- A write of a transmit ring's TAIL posts descriptors, or is discarded and sets TAIL_ERR. (R635) -/
  | txTailWrite (ring : Fin 4096) (tail : BitVec 16) (descs : List Desc)
  /-- A write of a ring's settings applies, enables or disables the ring, or is discarded and sets CFG_ERR. (R637) -/
  | ringCfgWrite (base : Bool) (v : W64)
  /-- A frame or message reaching a receive ring fills buffers and its descriptors are written back. (R639) -/
  | rxDeliver (ring : Fin 4096)
  /-- HIF fetches a posted transmit frame into the packet buffer and injects it. (R645) -/
  | txFetch (ring : Fin 4096) (data : Option (List Byte))
  /-- A transmit frame is written back with its STATUS in ring order. (R646) -/
  | txWriteback (ring : Fin 4096)
  /-- The oldest unsignalled write-back waiting MOD_USEC makes its ring source active. (R648) -/
  | modTimeout (transmit : Bool) (ring : Fin 4096)
  /-- HIF sends an MSI-X message for an armed, unmasked vector with an active source. (R649) -/
  | vectorSend (v : Fin 2048)
  /-- A write to HIF_VEC_ARMv arms the vector and sends at once if a source is active. (R649) -/
  | vecArm (v : Fin 2048)
  /-- Unmasking a vector with its pending bit set sends its message. (R649) -/
  | msixUnmask (v : Fin 2048)
  /-- A function-level reset disables the endpoint's rings, arms its vectors and discards its mailbox answer. (R632) -/
  | flr (e : Ep)
  /-- Clearing Bus Master Enable pauses the endpoint's DMA and its rings. (R631) -/
  | bmeClear (e : Ep)
  /-- Release of a PERST_N starts link training, or holds the link in Detect until READY. (R739) -/
  | perstRelease (e : Ep) (speed : Fin 6) (width : Fin 17)
  /-- The NOP mailbox command answers OK. (R653) -/
  | mbNop (e : Ep) (seq : Byte)
  /-- The IDENTIFY mailbox command returns firmware, node and slot versions. (R653) -/
  | mbIdentify (e : Ep) (seq : Byte)
  /-- The SENSORS mailbox command returns die temperatures, VCORE and ageing. (R653) -/
  | mbSensors (e : Ep) (seq : Byte)
  /-- The LOG_READ mailbox command writes log entries to host memory. (R653) -/
  | mbLogRead (e : Ep) (seq : Byte) (dmaOk : Bool)
  /-- The FLASH_WRITE mailbox command checks and writes an image to a flash slot, or is denied. (R654) -/
  | mbFlashWrite (e : Ep) (seq : Byte) (data : Option (List Byte))
  /-- The FLASH_CHECK mailbox command checks the images in a flash slot. (R653) -/
  | mbFlashCheck (e : Ep) (seq : Byte)
  /-- The CORE_RESET mailbox command resets the core 10 ms after its answer. (R653) -/
  | mbCoreReset (e : Ep) (seq : Byte)
  /-- The ABORT mailbox command ends the long operation it started with FAILED. (R696) -/
  | mbAbort (e : Ep) (seq : Byte)
  /-- A read of HIF_MB_RSP returns the answer and clears NOTIFY. (R650) -/
  | mbRspRead (e : Ep) (lanes : Lanes)
  /-- A long operation ends, writes LONG_RESULT and sets NOTIFY and LONG_DONE. (R652) -/
  | longOpDone (progress : Fin 1001)
  /-- A write of GO to ETH_COMMIT checks the staged values and sets PENDING, or sets STAGE_ERR. (R678) -/
  | ethGo (p : Fin 8)
  /-- ETH applies the port's staged values on each subport between two frames. (R678) -/
  | ethApply (p : Fin 8)
  /-- A frame received on a subport is counted, checked for length and FCS, and passed to its pipe. (R656) -/
  | ethRxFrame (k : Fin 32) (x : EthLight)
  /-- ETH sends a frame from TM, padding, dropping oversize or stomping as required. (R659) -/
  | ethTxFrame (k : Fin 32)
  /-- A received PFC frame pauses the classes it names for their quanta. (R660) -/
  | pfcReceive (k : Fin 32) (classes : BitVec 8) (quanta : List (BitVec 16))
  /-- A class's pause quanta run out and the class may be offered again. (R660) -/
  | pauseExpire (k : Fin 32) (c : Fin 8)
  /-- FREE falling below XOFF_CELLS makes ETH send a PFC frame with QUANTA. (R661) -/
  | pfcXoff (p : Fin 8)
  /-- Every QUANTA / 2 while FREE stays below XON_CELLS, ETH resends the PFC frame. (R661) -/
  | pfcRefresh (p : Fin 8)
  /-- FREE reaching XON_CELLS makes ETH send a PFC frame with quanta 0. (R661) -/
  | pfcXon (p : Fin 8)
  /-- A gate control list entry's DURATION ends and the next entry's gates take effect. (R662) -/
  | gclStep (k : Fin 32)
  /-- A staged gate list takes effect at its first cycle start at least 10 µs after GO. (R663) -/
  | gclApplied (k : Fin 32)
  /-- MAC merge verification succeeds or times out and sets VERIFY_FAIL. (R665) -/
  | mmVerify (k : Fin 32) (ok : Bool)
  /-- A 64-bit read of ETH_TS_FIFO0 takes the oldest stamp and latches its second word. (R669) -/
  | tsFifoRead (k : Fin 32) (lanes : Lanes)
  /-- A subport's PCS lock, link or fault state changes. (R680) -/
  | linkChange (k : Fin 32) (lock link localFault remoteFault : Bool)
  /-- At its scheduled instant, the island sends a HEARTBEAT to the mate node. (R687) -/
  | sbHeartbeatSend (busy : Bool)
  /-- A heartbeat that collides, or would start more than 88 µs late, is abandoned and counted. (R690) -/
  | sbHeartbeatAbandon (collided : Bool)
  /-- A received side-band heartbeat reaches the mate's GLK as path two. (R691) -/
  | sbHeartbeatReceive (heat : BitVec 16) (word : W64) (late : Byte)
  /-- GLK refreshes HEAT, READY and TURN in the island every 100 µs. (R688) -/
  | heartbeatRefresh
  /-- After back-off, the island retries a non-heartbeat frame, abandoning it at 16 attempts. (R684) -/
  | sbFrameRetry
  /-- A received frame of the wrong type, destination, length or FCS is discarded and counted. (R685) -/
  | sbRxDiscard
  /-- The NOP side-band request answers OK. (R692) -/
  | sbNop (node : Fin 32) (seq : BitVec 16)
  /-- The IDENTIFY side-band request returns the identity data. (R692) -/
  | sbIdentify (node : Fin 32) (seq : BitVec 16)
  /-- The SENSORS side-band request returns sensor data. (R692) -/
  | sbSensors (node : Fin 32) (seq : BitVec 16)
  /-- The LOG_READ side-band request returns one log entry by sequence number. (R692) -/
  | sbLogRead (node : Fin 32) (seq : BitVec 16) (entry : BitVec 32)
  /-- The FLASH_CHECK side-band request checks a flash slot. (R692) -/
  | sbFlashCheck (node : Fin 32) (seq : BitVec 16) (slot : Byte)
  /-- The CORE_RESET side-band request resets the core, or is denied during a flash write. (R697) -/
  | sbCoreReset (node : Fin 32) (seq : BitVec 16) (key : W64)
  /-- The ABORT side-band request ends the long operation its node started. (R696) -/
  | sbAbort (node : Fin 32) (seq : BitVec 16)
  /-- The PROGRESS side-band request returns the long operation's state. (R692) -/
  | sbProgress (node : Fin 32) (seq : BitVec 16)
  /-- The REG_READ side-band request reads a BAR0 register, or answers DENIED or FAILED. (R693) -/
  | sbRegRead (node : Fin 32) (seq : BitVec 16) (a : BitVec 26) (slow : Bool)
  /-- The REG_WRITE side-band request writes a BAR0 register. (R698) -/
  | sbRegWrite (node : Fin 32) (seq : BitVec 16) (a : BitVec 26) (v : W64) (slow : Bool)
  /-- The PATTERN_LOAD side-band request starts the loader from a flash slot. (R695) -/
  | sbPatternLoad (node : Fin 32) (seq : BitVec 16) (slot : Byte)
  /-- The CORE_OFF power action disables the core rails in reverse order. (R702) -/
  | sbCoreOff (node : Fin 32) (seq : BitVec 16)
  /-- The CORE_ON power action sequences the core rails on and releases reset. (R701) -/
  | sbCoreOn (node : Fin 32) (seq : BitVec 16)
  /-- The DIMM_OFF power action removes a DIMM slot's supply, or is denied. (R704) -/
  | sbDimmOff (node : Fin 32) (seq : BitVec 16) (c : Byte)
  /-- The DIMM_ON power action restores a DIMM slot's supply, or is denied. (R704) -/
  | sbDimmOn (node : Fin 32) (seq : BitVec 16) (c : Byte)
  /-- FLASH_BEGIN erases a flash slot for writing, or is denied. (R706) -/
  | flashBegin (node : Fin 32) (seq : BitVec 16) (slot : Byte) (length : BitVec 32)
  /-- FLASH_DATA writes 32 bytes at its offset. (R706) -/
  | flashData (node : Fin 32) (seq : BitVec 16) (offset : BitVec 32) (data : List Byte)
  /-- FLASH_END checks the written slot and erases it on failure. (R706) -/
  | flashEnd (node : Fin 32) (seq : BitVec 16)
  /-- A write of GO to SBY_APP_CTRL sends an APP frame, or is discarded while BUSY. (R710) -/
  | sbAppSend (dest : Fin 32)
  /-- A received APP frame is delivered to SBY_APP_DEST, or is discarded and sets APP_DROP. (R710) -/
  | sbAppReceive (node : Fin 32) (data : List Byte)
  /-- A buffered log entry is written to flash if the bucket allows, or is suppressed and counted. (R709) -/
  | logWrite
  /-- Once per second the island reads logical time from TIME, or free-runs it. (R708) -/
  | islandTimeRead
  /-- A rail's power-good asserts and the island enables the next rail or releases reset. (R701) -/
  | railPowerGood (r : Fin 6)
  /-- A power-good that does not assert within 10 ms shuts the rails down and sets POWER_FAULT. (R702) -/
  | railTimeout
  /-- A power-good falling while its rail is enabled shuts the rails down and sets POWER_FAULT. (R702) -/
  | pgFall (r : Fin 6)
  /-- 10 ms after a CORE_RESET answer, the island holds the core in reset for 1 ms. (R703) -/
  | coreResetHold
  /-- The island deasserts DIMM_PWRENc within 1 ms of channel c reading OFFLINE. (R704) -/
  | dimmSupplyOff (c : Fin 8)
  /-- VSTBY below 2.6 V holds the island in reset, and its return releases it. (R681) -/
  | islandReset (low : Bool) (node : Fin 32) (seq : Bool)
  /-- The core enters reset on PORST_N low, an island hold or a low PG ball. (R717) -/
  | porstAssert
  /-- The end of every reset condition starts the core's start-up. (R717) -/
  | porstRelease (pinHigh split mirror : Bool)
  /-- The root synthesizer locks and every domain runs. (R725) -/
  | rootLock
  /-- Start-up completes with READY and STARTUP_DONE. (R736) -/
  | startupDone (flasks : List (Cru × Fin 33)) (crucibles : List Cru) (units : List (Fin 36))
  /-- Start-up ends with FAIL and its cause. (R738) -/
  | startupFail (code : Fin 4)
  /-- Loss of synthesizer lock sets LOCK_LOSS and resets the core for 1 ms. (R725) -/
  | lockLoss
  /-- REFCLK stopping or drifting beyond 100 ppm puts the synthesizer in HOLD. (R726) -/
  | refclkLoss
  /-- REFCLK returns and the synthesizer relocks, slewing, and sets REFCLK_BACK. (R726) -/
  | refclkBack
  /-- A write of GO to CLK_COMMIT checks the staged values and sets PENDING, or sets STAGE_ERR. (R727) -/
  | clkGo
  /-- CLK applies spreading and edge settings, ramping the spread over 1 ms. (R727) -/
  | clkApply
  /-- A die sensor reading above WARN_C sets THERM_WARN. (R723) -/
  | thermWarn (core lineA lineB : BitVec 16)
  /-- A sensor above 125 °C asserts THERMTRIP_N and removes or requires removal of the core rails. (R723) -/
  | thermtrip (core lineA lineB : BitVec 16)
  /-- The island moves the VCORE VID code by one step toward the lowest code with margin. (R718) -/
  | avsStep (lowest : Fin 32) (age : BitVec 16)
  /-- Issue of an instruction word with an undefined OP or FN, or a non-zero reserved field, traps with ILLEGAL. (R236) -/
  | illegalInstruction (c : Cru) (t : Fin 256) (word : BitVec 32)
  /-- The condition a held microword waits on (table answer, block data, cipher answer, ALLOC acceptance, TIME answer, reserved space or slot) becomes true and the long instruction goes on. (R288) -/
  | waitConditionTrue (c : Cru) (t : Fin 256)
  /-- A waiting short instruction such as a divide, TIME.READ or FENCE completes and its thread becomes READY again. (R222) -/
  | shortWaitDone (c : Cru) (t : Fin 256)
  /-- The self-test of a retired crucible ends, passing or failing, and allows or refuses its restoration. (R565) -/
  | crucibleSelftestDone (c : Cru) (pass : Bool)
  /-- Every 1.2015 µs each Gulrov lane sends its marker and the next row's GCM segment, or all-ones, or keeps counting frames while quiet. (R610) -/
  | laneFrameSend
  /-- Setting an endpoint's Bus Master Enable lets its paused rings and DMA resume. (R631) -/
  | bmeSet (e : Ep)
  /-- A continuous entropy health test fails, setting ENTROPY_FAIL, withholding reseeding and restarting the source. (R453) -/
  | healthTestFail
  /-- The side-band bus falls idle and the interframe gap ends, so a deferred frame or heartbeat starts with its LATE value. (R684) -/
  | deferenceEnd
  /-- A collision during a side-band transmission makes the island send its jam and begin back-off. (R684) -/
  | collision
  /-- A shaper's tokens refill above 0 and its queue or node becomes eligible within 25.72 ns, so an idle channel can choose a frame. (R425) -/
  | shaperEligible (kind : Fin 8) (place : Fin 1048576)
  deriving DecidableEq, Repr

end Sys2Proof
end

