-- ==== Sys2Proof/Decode.lean ====
section
/-! DEFINITION. Words. The part takes commands, and no row of the opcode table gives a command bits. The words of Jarril instructions are data of the part's
instruction RAM: their formats, the words that the instruction list defines, and the command that a word stands for (R234 to R237). -/
namespace Sys2Proof

/-- The command that a word of nbits spells by the table's bits: none, since the table gives no row any. [log 3 DESIGN CHOICE] -/
def decodeTableWord (_nbits _w : Nat) : Option Instr := none

/-! ### Formats (R234) -/

/-- A word in format R or L: OP, rd, ra, rb, FN. -/
def wordR (op rd ra rb fn : Nat) : BitVec 32 := BitVec.ofNat 32 (op <<< 26 + rd <<< 21 + ra <<< 16 + rb <<< 11 + fn)

/-- A word in format I: OP, rd, ra, imm. -/
def wordI (op rd ra : Nat) (imm : BitVec 16) : BitVec 32 := BitVec.ofNat 32 (op <<< 26 + rd <<< 21 + ra <<< 16 + imm.toNat)

/-- A word in format B: OP, ra, rb, disp. -/
def wordB (op ra rb : Nat) (disp : BitVec 16) : BitVec 32 := BitVec.ofNat 32 (op <<< 26 + ra <<< 21 + rb <<< 16 + disp.toNat)

/-- A word in format J: OP, disp. -/
def wordJ (op : Nat) (disp : BitVec 26) : BitVec 32 := BitVec.ofNat 32 (op <<< 26 + disp.toNat)

/-- The number in bits [hi:lo] of a word. -/
def wf (w : BitVec 32) (hi lo : Nat) : Nat := bitsOf w.toNat hi lo

/-- The major opcode, which decides the format. -/
def wordOp (w : BitVec 32) : Nat := wf w 31 26

/-- FN of a word in format R or L. -/
def wordFn (w : BitVec 32) : Nat := wf w 10 0

/-- The register fields in bits [25:21], [20:16] and [15:11]. -/
def field1 (w : BitVec 32) : Fin 32 := Fin.ofNat 32 (wf w 25 21)
def field2 (w : BitVec 32) : Fin 32 := Fin.ofNat 32 (wf w 20 16)
def field3 (w : BitVec 32) : Fin 32 := Fin.ofNat 32 (wf w 15 11)

/-- imm or disp of a word in format I or B. -/
def field16 (w : BitVec 32) : BitVec 16 := w.extractLsb' 0 16

/-- disp of a word in format J. -/
def field26 (w : BitVec 32) : BitVec 26 := w.extractLsb' 0 26

/-! ### The instruction list (R236, R237) -/

/-- An instruction of format R or L: OP, FN, and which of rd, ra and rb it uses. -/
structure ListRow where
  op : Nat
  fn : Nat
  rd : Bool
  ra : Bool
  rb : Bool
  deriving DecidableEq, Repr, Inhabited

/-- The instructions of formats R and L (R237). -/
def listRows : List ListRow :=
  [{ op := 0x00, fn := 0x000, rd := true, ra := true, rb := true },
   { op := 0x00, fn := 0x001, rd := true, ra := true, rb := true },
   { op := 0x00, fn := 0x002, rd := true, ra := true, rb := true },
   { op := 0x00, fn := 0x003, rd := true, ra := true, rb := true },
   { op := 0x00, fn := 0x004, rd := true, ra := true, rb := true },
   { op := 0x00, fn := 0x005, rd := true, ra := true, rb := true },
   { op := 0x00, fn := 0x006, rd := true, ra := true, rb := true },
   { op := 0x00, fn := 0x007, rd := true, ra := true, rb := true },
   { op := 0x00, fn := 0x008, rd := true, ra := true, rb := true },
   { op := 0x00, fn := 0x009, rd := true, ra := true, rb := true },
   { op := 0x00, fn := 0x00A, rd := true, ra := true, rb := true },
   { op := 0x00, fn := 0x00B, rd := true, ra := true, rb := true }] ++
  [{ op := 0x00, fn := 0x00C, rd := true, ra := true, rb := false },
   { op := 0x00, fn := 0x00D, rd := true, ra := true, rb := false },
   { op := 0x00, fn := 0x00E, rd := true, ra := true, rb := false },
   { op := 0x00, fn := 0x00F, rd := true, ra := true, rb := true },
   { op := 0x00, fn := 0x010, rd := true, ra := true, rb := true },
   { op := 0x00, fn := 0x011, rd := true, ra := true, rb := true },
   { op := 0x00, fn := 0x012, rd := true, ra := true, rb := true },
   { op := 0x00, fn := 0x013, rd := true, ra := true, rb := true },
   { op := 0x1C, fn := 0x000, rd := true, ra := true, rb := true },
   { op := 0x1C, fn := 0x001, rd := true, ra := true, rb := true },
   { op := 0x1C, fn := 0x002, rd := true, ra := true, rb := true },
   { op := 0x28, fn := 0x000, rd := false, ra := true, rb := false }] ++
  [{ op := 0x28, fn := 0x001, rd := false, ra := true, rb := false },
   { op := 0x30, fn := 0x000, rd := true, ra := true, rb := false },
   { op := 0x30, fn := 0x001, rd := true, ra := true, rb := false },
   { op := 0x30, fn := 0x002, rd := true, ra := true, rb := false },
   { op := 0x30, fn := 0x003, rd := true, ra := true, rb := false },
   { op := 0x31, fn := 0x000, rd := true, ra := true, rb := true },
   { op := 0x31, fn := 0x001, rd := true, ra := true, rb := false },
   { op := 0x31, fn := 0x002, rd := false, ra := false, rb := false },
   { op := 0x31, fn := 0x003, rd := true, ra := true, rb := false },
   { op := 0x32, fn := 0x000, rd := true, ra := true, rb := true },
   { op := 0x32, fn := 0x001, rd := true, ra := true, rb := true },
   { op := 0x33, fn := 0x000, rd := true, ra := true, rb := true }] ++
  [{ op := 0x34, fn := 0x000, rd := true, ra := false, rb := false },
   { op := 0x34, fn := 0x001, rd := true, ra := false, rb := false },
   { op := 0x34, fn := 0x002, rd := true, ra := true, rb := false },
   { op := 0x35, fn := 0x000, rd := true, ra := true, rb := false },
   { op := 0x35, fn := 0x001, rd := true, ra := true, rb := false },
   { op := 0x3E, fn := 0x000, rd := true, ra := false, rb := true },
   { op := 0x3E, fn := 0x001, rd := true, ra := false, rb := true },
   { op := 0x3E, fn := 0x002, rd := false, ra := true, rb := true },
   { op := 0x3E, fn := 0x003, rd := false, ra := true, rb := true },
   { op := 0x3F, fn := 0x000, rd := false, ra := false, rb := true },
   { op := 0x3F, fn := 0x001, rd := false, ra := false, rb := false },
   { op := 0x3F, fn := 0x002, rd := false, ra := false, rb := false }] ++
  [{ op := 0x3F, fn := 0x003, rd := false, ra := false, rb := false },
   { op := 0x3F, fn := 0x004, rd := false, ra := false, rb := false }]

/-- The OPs of formats I, B and J. -/
def plainOps : List Nat :=
  [0x01, 0x02, 0x03, 0x04, 0x05, 0x06, 0x07, 0x08, 0x09, 0x0A, 0x0B, 0x0C, 0x10, 0x11, 0x12, 0x13, 0x14, 0x15, 0x16, 0x18, 0x19, 0x1A, 0x1B, 0x20, 0x21, 0x22, 0x23, 0x24, 0x25, 0x26, 0x27]

/-- Whether the instruction list defines a word: its OP and FN, with 0 in every field that it does not use and in the bits that must be 0 (R236, R237).
[log 33 DEDUCED, 54 DEDUCED] -/
def definedWord (w : BitVec 32) : Bool :=
  let op := wordOp w
  match listRows.find? fun r => r.op = op && r.fn = wordFn w with
  | some r => (r.rd || field1 w = 0) && (r.ra || field2 w = 0) && (r.rb || field3 w = 0)
  | none =>
    plainOps.contains op && !(5 ≤ op && op ≤ 7 && wf w 15 6 ≠ 0) && !((op = 9 || op = 10) && wf w 20 18 ≠ 0)
      && !((op = 11 || op = 12) && wf w 15 12 ≠ 0)

/-- What a long instruction meets besides its operands: errors of the control store, a table entry that fails its check, the waits that end at once, and a unit
whose source cannot be corrected. -/
structure Facts where
  fetch : CsFetch := []
  fault : Bool := false
  now : Fin 1048576 := 0
  bad : Bool := false
  deriving DecidableEq, Repr, Inhabited

/-- The instruction of format R or L that a word spells in a thread. -/
def decodeList (c : Cru) (t : Fin 256) (w : BitVec 32) (x : Facts) : Option Instr :=
  match wordOp w, wordFn w with
  | 0x00, 0x000 => some (.add c t (field1 w) (field2 w) (field3 w))
  | 0x00, 0x001 => some (.sub c t (field1 w) (field2 w) (field3 w))
  | 0x00, 0x002 => some (.and c t (field1 w) (field2 w) (field3 w))
  | 0x00, 0x003 => some (.or c t (field1 w) (field2 w) (field3 w))
  | 0x00, 0x004 => some (.xor c t (field1 w) (field2 w) (field3 w))
  | 0x00, 0x005 => some (.shl c t (field1 w) (field2 w) (field3 w))
  | 0x00, 0x006 => some (.shr c t (field1 w) (field2 w) (field3 w))
  | 0x00, 0x007 => some (.sra c t (field1 w) (field2 w) (field3 w))
  | 0x00, 0x008 => some (.ror c t (field1 w) (field2 w) (field3 w))
  | 0x00, 0x009 => some (.cmpeq c t (field1 w) (field2 w) (field3 w))
  | 0x00, 0x00A => some (.cmplt c t (field1 w) (field2 w) (field3 w))
  | 0x00, 0x00B => some (.cmpltu c t (field1 w) (field2 w) (field3 w))
  | 0x00, 0x00C => some (.clz c t (field1 w) (field2 w) (field3 w))
  | 0x00, 0x00D => some (.popc c t (field1 w) (field2 w) (field3 w))
  | 0x00, 0x00E => some (.bswap c t (field1 w) (field2 w) (field3 w))
  | 0x00, 0x00F => some (.crc c t (field1 w) (field2 w) (field3 w))
  | 0x00, 0x010 => some (.mul c t (field1 w) (field2 w) (field3 w))
  | 0x00, 0x011 => some (.mulhu c t (field1 w) (field2 w) (field3 w))
  | 0x00, 0x012 => some (.divu c t (field1 w) (field2 w) (field3 w))
  | 0x00, 0x013 => some (.remu c t (field1 w) (field2 w) (field3 w))
  | 0x1C, 0x000 => some (.amoAdd c t (field1 w) (field2 w) (field3 w))
  | 0x1C, 0x001 => some (.amoSwap c t (field1 w) (field2 w) (field3 w))
  | 0x1C, 0x002 => some (.amoCas c t (field1 w) (field2 w) (field3 w))
  | 0x28, 0x000 => some (.jr c t (field2 w))
  | 0x28, 0x001 => some (.callr c t (field2 w))
  | 0x30, 0x000 => some (.tblFind c t (field1 w) (field2 w) x.fetch x.fault)
  | 0x30, 0x001 => some (.tblIns c t (field1 w) (field2 w) x.fetch x.fault)
  | 0x30, 0x002 => some (.tblDel c t (field1 w) (field2 w) x.fetch x.fault)
  | 0x30, 0x003 => some (.tblAge c t (field1 w) (field2 w) x.fetch x.fault)
  | 0x31, 0x000 => some (.msgSend c t (field1 w) (field2 w) (field3 w) x.fetch)
  | 0x31, 0x001 => some (.msgWait c t (field1 w) (field2 w) x.fetch)
  | 0x31, 0x002 => some (.msgDone c t x.fetch)
  | 0x31, 0x003 => some (.msgPoll c t (field1 w) (field2 w) x.fetch)
  | 0x32, 0x000 => some (.blkCopy c t (field1 w) (field2 w) (field3 w) x.fetch x.now x.bad)
  | 0x32, 0x001 => some (.blkFill c t (field1 w) (field2 w) (field3 w) x.fetch x.now)
  | 0x33, 0x000 => some (.grantFill c t (field1 w) (field2 w) (field3 w) x.fetch (Fin.ofNat 1024 x.now))
  | 0x34, 0x000 => some (.timeRead c t (field1 w))
  | 0x34, 0x001 => some (.timeReadFrc c t (field1 w))
  | 0x34, 0x002 => some (.timeArm c t (field1 w) (field2 w) x.fetch)
  | 0x35, 0x000 => some (.derive c t (field1 w) (field2 w) x.fetch)
  | 0x35, 0x001 => some (.unwrap c t (field1 w) (field2 w) x.fetch)
  | 0x3E, 0x000 => some (.ctrRd c t (field1 w) (field3 w))
  | 0x3E, 0x001 => some (.sprRd c t (field1 w) (field3 w))
  | 0x3E, 0x002 => some (.sprWr c t (field2 w) (field3 w))
  | 0x3E, 0x003 => some (.ctrWr c t (field2 w) (field3 w))
  | 0x3F, 0x000 => some (.trap c t (field3 w))
  | 0x3F, 0x001 => some (.eret c t)
  | 0x3F, 0x002 => some (.halt c t)
  | 0x3F, 0x003 => some (.yield c t)
  | 0x3F, 0x004 => some (.fence c t)
  | _, _ => none

/-- The instruction of format I, B or J that a word spells in a thread. -/
def decodePlain (c : Cru) (t : Fin 256) (w : BitVec 32) : Option Instr :=
  match wordOp w with
  | 0x01 => some (.addi c t (field1 w) (field2 w) (field16 w))
  | 0x02 => some (.andi c t (field1 w) (field2 w) (field16 w))
  | 0x03 => some (.ori c t (field1 w) (field2 w) (field16 w))
  | 0x04 => some (.xori c t (field1 w) (field2 w) (field16 w))
  | 0x05 => some (.shli c t (field1 w) (field2 w) (field16 w))
  | 0x06 => some (.shri c t (field1 w) (field2 w) (field16 w))
  | 0x07 => some (.srai c t (field1 w) (field2 w) (field16 w))
  | 0x08 => some (.cmplti c t (field1 w) (field2 w) (field16 w))
  | 0x09 => some (.movz c t (field1 w) (field2 w) (field16 w))
  | 0x0A => some (.movk c t (field1 w) (field2 w) (field16 w))
  | 0x0B => some (.ext c t (field1 w) (field2 w) (field16 w))
  | 0x0C => some (.ins c t (field1 w) (field2 w) (field16 w))
  | 0x10 => some (.ldB c t (field1 w) (field2 w) (field16 w))
  | 0x11 => some (.ldH c t (field1 w) (field2 w) (field16 w))
  | 0x12 => some (.ldW c t (field1 w) (field2 w) (field16 w))
  | 0x13 => some (.ldD c t (field1 w) (field2 w) (field16 w))
  | 0x14 => some (.ldsB c t (field1 w) (field2 w) (field16 w))
  | 0x15 => some (.ldsH c t (field1 w) (field2 w) (field16 w))
  | 0x16 => some (.ldsW c t (field1 w) (field2 w) (field16 w))
  | 0x18 => some (.stB c t (field1 w) (field2 w) (field16 w))
  | 0x19 => some (.stH c t (field1 w) (field2 w) (field16 w))
  | 0x1A => some (.stW c t (field1 w) (field2 w) (field16 w))
  | 0x1B => some (.stD c t (field1 w) (field2 w) (field16 w))
  | 0x20 => some (.beq c t (field1 w) (field2 w) (field16 w))
  | 0x21 => some (.bne c t (field1 w) (field2 w) (field16 w))
  | 0x22 => some (.blt c t (field1 w) (field2 w) (field16 w))
  | 0x23 => some (.bge c t (field1 w) (field2 w) (field16 w))
  | 0x24 => some (.bltu c t (field1 w) (field2 w) (field16 w))
  | 0x25 => some (.bgeu c t (field1 w) (field2 w) (field16 w))
  | 0x26 => some (.jmp c t (field26 w))
  | 0x27 => some (.call c t (field26 w))
  | _ => none

/-- The command that the issue of a word by a thread is: OP and FN pick the instruction, the other fields its operands; none for a word that the list does
not define, whose issue is ILLEGAL_INSTRUCTION (R234 to R237). The OP of a CRYPT request block, not the word, tells its operations apart. -/
def decodeJarril (c : Cru) (t : Fin 256) (w : BitVec 32) (x : Facts) : Option Instr :=
  if !definedWord w then none
  else if plainOps.contains (wordOp w) then decodePlain c t w
  else decodeList c t w x

/-- The word of an instruction's command; none for a command that issues no instruction (R234 to R237). -/
def encodeJarril : Instr → Option (BitVec 32)
  | .add _ _ rd ra rb => some (wordR 0x00 rd ra rb 0x000)
  | .sub _ _ rd ra rb => some (wordR 0x00 rd ra rb 0x001)
  | .and _ _ rd ra rb => some (wordR 0x00 rd ra rb 0x002)
  | .or _ _ rd ra rb => some (wordR 0x00 rd ra rb 0x003)
  | .xor _ _ rd ra rb => some (wordR 0x00 rd ra rb 0x004)
  | .shl _ _ rd ra rb => some (wordR 0x00 rd ra rb 0x005)
  | .shr _ _ rd ra rb => some (wordR 0x00 rd ra rb 0x006)
  | .sra _ _ rd ra rb => some (wordR 0x00 rd ra rb 0x007)
  | .ror _ _ rd ra rb => some (wordR 0x00 rd ra rb 0x008)
  | .cmpeq _ _ rd ra rb => some (wordR 0x00 rd ra rb 0x009)
  | .cmplt _ _ rd ra rb => some (wordR 0x00 rd ra rb 0x00A)
  | .cmpltu _ _ rd ra rb => some (wordR 0x00 rd ra rb 0x00B)
  | .clz _ _ rd ra rb => some (wordR 0x00 rd ra rb 0x00C)
  | .popc _ _ rd ra rb => some (wordR 0x00 rd ra rb 0x00D)
  | .bswap _ _ rd ra rb => some (wordR 0x00 rd ra rb 0x00E)
  | .crc _ _ rd ra rb => some (wordR 0x00 rd ra rb 0x00F)
  | .mul _ _ rd ra rb => some (wordR 0x00 rd ra rb 0x010)
  | .mulhu _ _ rd ra rb => some (wordR 0x00 rd ra rb 0x011)
  | .divu _ _ rd ra rb => some (wordR 0x00 rd ra rb 0x012)
  | .remu _ _ rd ra rb => some (wordR 0x00 rd ra rb 0x013)
  | .amoAdd _ _ rd ra rb => some (wordR 0x1C rd ra rb 0x000)
  | .amoSwap _ _ rd ra rb => some (wordR 0x1C rd ra rb 0x001)
  | .amoCas _ _ rd ra rb => some (wordR 0x1C rd ra rb 0x002)
  | .jr _ _ ra => some (wordR 0x28 0 ra 0 0x000)
  | .callr _ _ ra => some (wordR 0x28 0 ra 0 0x001)
  | .tblFind _ _ rd ra _ _ => some (wordR 0x30 rd ra 0 0x000)
  | .tblIns _ _ rd ra _ _ => some (wordR 0x30 rd ra 0 0x001)
  | .tblDel _ _ rd ra _ _ => some (wordR 0x30 rd ra 0 0x002)
  | .tblAge _ _ rd ra _ _ => some (wordR 0x30 rd ra 0 0x003)
  | .msgSend _ _ rd ra rb _ => some (wordR 0x31 rd ra rb 0x000)
  | .msgWait _ _ rd ra _ => some (wordR 0x31 rd ra 0 0x001)
  | .msgDone _ _ _ => some (wordR 0x31 0 0 0 0x002)
  | .msgPoll _ _ rd ra _ => some (wordR 0x31 rd ra 0 0x003)
  | .blkCopy _ _ rd ra rb _ _ _ => some (wordR 0x32 rd ra rb 0x000)
  | .blkFill _ _ rd ra rb _ _ => some (wordR 0x32 rd ra rb 0x001)
  | .grantFill _ _ rd ra rb _ _ => some (wordR 0x33 rd ra rb 0x000)
  | .timeRead _ _ rd => some (wordR 0x34 rd 0 0 0x000)
  | .timeReadFrc _ _ rd => some (wordR 0x34 rd 0 0 0x001)
  | .timeArm _ _ rd ra _ => some (wordR 0x34 rd ra 0 0x002)
  | .derive _ _ rd ra _ => some (wordR 0x35 rd ra 0 0x000)
  | .unwrap _ _ rd ra _ => some (wordR 0x35 rd ra 0 0x001)
  | .ctrRd _ _ rd rb => some (wordR 0x3E rd 0 rb 0x000)
  | .sprRd _ _ rd rb => some (wordR 0x3E rd 0 rb 0x001)
  | .sprWr _ _ ra rb => some (wordR 0x3E 0 ra rb 0x002)
  | .ctrWr _ _ ra rb => some (wordR 0x3E 0 ra rb 0x003)
  | .trap _ _ rb => some (wordR 0x3F 0 0 rb 0x000)
  | .eret _ _ => some (wordR 0x3F 0 0 0 0x001)
  | .halt _ _ => some (wordR 0x3F 0 0 0 0x002)
  | .yield _ _ => some (wordR 0x3F 0 0 0 0x003)
  | .fence _ _ => some (wordR 0x3F 0 0 0 0x004)
  | .cmacDerive _ _ rd ra _ => some (wordR 0x35 rd ra 0 0x000)
  | .mic _ _ rd ra _ => some (wordR 0x35 rd ra 0 0x000)
  | .kdErase _ _ rd ra _ => some (wordR 0x35 rd ra 0 0x000)
  | .ecbImport _ _ rd ra _ => some (wordR 0x35 rd ra 0 0x001)
  | .wrapOut _ _ rd ra _ => some (wordR 0x35 rd ra 0 0x001)
  | .stateSave _ _ rd ra _ => some (wordR 0x35 rd ra 0 0x001)
  | .stateRestore _ _ rd ra _ => some (wordR 0x35 rd ra 0 0x001)
  | .addi _ _ rd ra imm => some (wordI 0x01 rd ra imm)
  | .andi _ _ rd ra imm => some (wordI 0x02 rd ra imm)
  | .ori _ _ rd ra imm => some (wordI 0x03 rd ra imm)
  | .xori _ _ rd ra imm => some (wordI 0x04 rd ra imm)
  | .shli _ _ rd ra imm => some (wordI 0x05 rd ra imm)
  | .shri _ _ rd ra imm => some (wordI 0x06 rd ra imm)
  | .srai _ _ rd ra imm => some (wordI 0x07 rd ra imm)
  | .cmplti _ _ rd ra imm => some (wordI 0x08 rd ra imm)
  | .movz _ _ rd ra imm => some (wordI 0x09 rd ra imm)
  | .movk _ _ rd ra imm => some (wordI 0x0A rd ra imm)
  | .ext _ _ rd ra imm => some (wordI 0x0B rd ra imm)
  | .ins _ _ rd ra imm => some (wordI 0x0C rd ra imm)
  | .ldB _ _ rd ra imm => some (wordI 0x10 rd ra imm)
  | .ldH _ _ rd ra imm => some (wordI 0x11 rd ra imm)
  | .ldW _ _ rd ra imm => some (wordI 0x12 rd ra imm)
  | .ldD _ _ rd ra imm => some (wordI 0x13 rd ra imm)
  | .ldsB _ _ rd ra imm => some (wordI 0x14 rd ra imm)
  | .ldsH _ _ rd ra imm => some (wordI 0x15 rd ra imm)
  | .ldsW _ _ rd ra imm => some (wordI 0x16 rd ra imm)
  | .stB _ _ rd ra imm => some (wordI 0x18 rd ra imm)
  | .stH _ _ rd ra imm => some (wordI 0x19 rd ra imm)
  | .stW _ _ rd ra imm => some (wordI 0x1A rd ra imm)
  | .stD _ _ rd ra imm => some (wordI 0x1B rd ra imm)
  | .beq _ _ ra rb disp => some (wordB 0x20 ra rb disp)
  | .bne _ _ ra rb disp => some (wordB 0x21 ra rb disp)
  | .blt _ _ ra rb disp => some (wordB 0x22 ra rb disp)
  | .bge _ _ ra rb disp => some (wordB 0x23 ra rb disp)
  | .bltu _ _ ra rb disp => some (wordB 0x24 ra rb disp)
  | .bgeu _ _ ra rb disp => some (wordB 0x25 ra rb disp)
  | .jmp _ _ disp => some (wordJ 0x26 disp)
  | .call _ _ disp => some (wordJ 0x27 disp)
  | .illegalInstruction _ _ w => some w
  | _ => none

end Sys2Proof
end

