-- ==== Sys2Proof/Machine/Bits.lean ====
section
/-! DEFINITION. Fields of registers, signed fields, byte order, and spans of time in ticks. -/
namespace Sys2Proof.Machine

/-- The number in bits [hi:lo] of a register (R13). -/
def fld (v : W64) (hi lo : Nat) : Nat := bitsOf v.toNat hi lo

/-- Bit k of a register. -/
def bit (v : W64) (k : Nat) : Bool := v.getLsbD k

/-- A register with bits [hi:lo] replaced by the low bits of x. -/
def setFld (v : W64) (hi lo x : Nat) : W64 :=
  let m : Nat := (2 ^ (hi + 1 - lo) - 1) <<< lo
  (v &&& ~~~(BitVec.ofNat 64 m)) ||| BitVec.ofNat 64 ((x <<< lo) &&& m)

/-- A register with bit k set to b. -/
def setBit (v : W64) (k : Nat) (b : Bool) : W64 := setFld v k k (ofBool b)

/-- A number as a 64-bit word. -/
def w64 (n : Nat) : W64 := BitVec.ofNat 64 n

/-- The w-bit two's complement value of a number. -/
def signed (w n : Nat) : Int := if n % 2 ^ w < 2 ^ (w - 1) then (n % 2 ^ w : Nat) else (n % 2 ^ w : Nat) - (2 ^ w : Nat)

/-- An integer as the bits of a w-bit two's complement field. -/
def wrapInt (w : Nat) (x : Int) : Nat := (x % (2 ^ w : Nat)).toNat

/-- An integer limited to what a w-bit two's complement field holds. -/
def satInt (w : Nat) (x : Int) : Int := max (-(2 ^ (w - 1) : Nat)) (min ((2 ^ (w - 1) : Nat) - 1) x)

/-- The quotient rounded up. -/
def ceilDiv (a b : Nat) : Nat := (a + b - 1) / b

/-- Cells of a frame of n bytes (R418). -/
def cellsOf (n : Nat) : Nat := ceilDiv n 256

/-- The integer quotient a/b rounded to the nearest, halves up. -/
def roundDiv (a : Int) (b : Nat) : Int := (2 * a + b) / (2 * b)

/-- The bytes of a number, most significant first (R13). -/
def bytesBE : (n : Nat) → Nat → List Byte
  | 0, _ => []
  | n + 1, x => BitVec.ofNat 8 (x >>> (8 * n)) :: bytesBE n x

/-- The number that bytes spell, most significant first (R13). -/
def numBE (l : List Byte) : Nat := l.foldl (fun a b => a * 256 + b.toNat) 0

/-- A 64-bit word as eight bytes, most significant first. -/
def wordBytes (v : W64) : List Byte := bytesBE 8 v.toNat

/-- A list of 64-bit words as bytes. -/
def wordsBytes (l : List W64) : List Byte := l.flatMap wordBytes

/-- The 64-bit words of a byte string, the last one padded with zeros. -/
def bytesWords (l : List Byte) : List W64 :=
  (List.range (ceilDiv l.length 8)).map fun i =>
    let c := (l.drop (8 * i)).take 8
    w64 (numBE (c ++ List.replicate (8 - c.length) 0))

/-- The element at place i of a list, or the default. -/
def nth {α : Type} [Inhabited α] (l : List α) (i : Nat) : α := l.getD i default

/-- Ones among the n low bits of a word. -/
def ones (v : W64) : Nat → Nat
  | 0 => 0
  | n + 1 => ones v n + ofBool (v.getLsbD n)

/-- Whether d ticks of the time domain (622.08 MHz, R58) last at least ns nanoseconds. -/
def lasts (d ns : Nat) : Bool := ns * 622080 ≤ d * 1000000

/-- The ticks of one PON frame: 19,440 REFCLK periods (R176) of four ticks (R58). -/
def frameTicks : Nat := 77760

end Sys2Proof.Machine
end

