-- ==== Sys2Proof/Machine/Crc.lean ====
section
/-! DEFINITION. The checks and hashes the spec names by their standards: CRC-32C, the Toeplitz hash, parity. -/
namespace Sys2Proof.Machine

/-- One bit of CRC-32C, reflected (polynomial 0x1EDC6F41). -/
def crc32cBit (x : BitVec 32) : BitVec 32 := if x.getLsbD 0 then (x >>> 1) ^^^ 0x82F63B78#32 else x >>> 1

/-- CRC-32C's step over one byte. -/
def crc32cByte (c : BitVec 32) (b : Byte) : BitVec 32 :=
  crc32cBit (crc32cBit (crc32cBit (crc32cBit (crc32cBit (crc32cBit (crc32cBit (crc32cBit (c ^^^ b.zeroExtend 32))))))))

/-- CRC-32C of bytes from a start value, with no final inversion (R352). [log 13 PRESUMED] -/
def crc32c (start : BitVec 32) (l : List Byte) : BitVec 32 := l.foldl crc32cByte start

/-- One bit of the Ethernet CRC-32, reflected (polynomial 0x04C11DB7). -/
def crcEthBit (x : BitVec 32) : BitVec 32 := if x.getLsbD 0 then (x >>> 1) ^^^ 0xEDB88320#32 else x >>> 1

/-- Its step over one byte. -/
def crcEthByte (c : BitVec 32) (b : Byte) : BitVec 32 :=
  crcEthBit (crcEthBit (crcEthBit (crcEthBit (crcEthBit (crcEthBit (crcEthBit (crcEthBit (c ^^^ b.zeroExtend 32))))))))

/-- The four FCS bytes of an Ethernet frame, as they leave; a stomped frame's are inverted (R438, R479; the CRC is the standard's,
PRESUMED). [log 13 PRESUMED] -/
def ethFcs (l : List Byte) (stomp : Bool) : List Byte :=
  let c := l.foldl crcEthByte 0xFFFFFFFF#32
  let v := if stomp then c else ~~~c
  [v.extractLsb' 0 8, v.extractLsb' 8 8, v.extractLsb' 16 8, v.extractLsb' 24 8]

/-- The Toeplitz hash of an input under a key of 8 × klen bits given as a number, first byte most significant: for every 1 of
the input, first bit first, the 32 key bits that start at its place (R352). [log 13 PRESUMED] -/
def toeplitz (klen key : Nat) (l : List Byte) : BitVec 32 :=
  let n := numBE l
  let bits := 8 * l.length
  (List.range bits).foldl (fun h i =>
    if bitOf n (bits - 1 - i) then h ^^^ BitVec.ofNat 32 (key >>> (8 * klen - 32 - i)) else h) 0#32

/-- One bit of the BCH(63, 51) code of the header error checks, generator x^12 + x^10 + x^8 + x^5 + x^4 + x^3 + 1. -/
def bchBit (r : Nat) (b : Bool) : Nat :=
  let top := bitOf r 11 != b
  (r * 2 % 4096) ^^^ (if top then 0x539 else 0)

/-- The exclusive or of the low w bits of a number. -/
def parity : (w : Nat) → Nat → Bool
  | 0, _ => false
  | w + 1, n => (bitOf n w) != parity w n

/-- The 13-bit header error check of a structure of w other bits, most significant first: the 12 BCH check bits and an even parity bit
(R142, R180, R181, R189; ITU-T G.9807.1's, taken for both wavelengths, PRESUMED). [log 63 PRESUMED] -/
def hec13 (w n : Nat) : Nat :=
  let r := (List.range w).foldl (fun r i => bchBit r (bitOf n (w - 1 - i))) 0
  r * 2 + ofBool (parity w n != parity 12 r)

/-- A structure of w bits with its header error check after them. [log 63 PRESUMED] -/
def withHec (w n : Nat) : Nat := n <<< 13 + hec13 w n

end Sys2Proof.Machine
end

