-- ==== Sys2Proof/Config.lean ====
section
/-! DEFINITION. What the spec leaves open and what one part has fused into it. A constant without a body stands for a value
the model does not know: nothing can be proved of it, so a statement holds whatever it is. The log names each. -/
namespace Sys2Proof

/-- The fused serial number read in GLB_UNIQUE_ID (R32). [log 12 DESIGN CHOICE] -/
opaque Config.uniqueId : W64
/-- Whether the customer's key is fused (R31). [log 12 DESIGN CHOICE] -/
opaque Config.customerKey : Bool
/-- The SerDes transmit latency of a tree's wavelength, in 2^−16 ns (R206). [log 92 DESIGN CHOICE] -/
opaque Config.txLatency : Nat → BitVec 32
/-- The physical synchronization pattern that begins a wavelength's PSBd (R179). [log 240 DESIGN CHOICE] -/
opaque Config.psync : Nat → W64
/-- How many list units one unit of the wavelength's encoded StartTime holds, less one (R143). [log 62 PRESUMED] -/
opaque Config.startUnit : Nat → Nat
/-- How many list units one unit of the wavelength's encoded GrantSize holds, less one (R143). [log 62 PRESUMED] -/
opaque Config.sizeUnit : Nat → Nat
/-- The packet-buffer cell at which a search for free cells begins, by the number of the choice (R358, R418). [log 96 DESIGN CHOICE] -/
opaque Config.bufferCell : Nat → Nat
/-- The byte of the overflow region at which a search for free bytes begins, by the number of the choice (R430). [log 253 DESIGN CHOICE] -/
opaque Config.ovfByte : Nat → Nat
/-- The occupant that EVICT 2 chooses at random, by the number of the choice (R394). [log 109 DESIGN CHOICE] -/
opaque Config.randomSlot : Nat → Nat
/-- The part's fused root key (R468). [log 12 DESIGN CHOICE, 126 DESIGN CHOICE] -/
opaque Config.rootKey : BitVec 256
/-- The LABEL of the key-store key-encryption key below its PURPOSE (R469). [log 126 DESIGN CHOICE] -/
opaque Config.storeLabel : BitVec 56
/-- A seed of the on-die entropy source, by the number of the choice (R452). [log 128 DESIGN CHOICE] -/
opaque Config.seed : Nat → BitVec 384
/-- A wavelength's counter block for a payload: direction (0 downstream, 1 upstream), frame count, word position and the number of
the block in the payload (R191, R448). [log 133 DESIGN CHOICE] -/
opaque Config.counterBlock : Nat → Nat → Nat → Nat → Nat → BitVec 128
/-- How far into its first counter block such a payload begins, in bytes (R476). [log 133 DESIGN CHOICE] -/
opaque Config.counterOffset : Nat → Nat → Nat → Nat → Nat
/-- A status the spec leaves open, by the number of the choice (R484). [log 123 DESIGN CHOICE] -/
opaque Config.openStatus : Nat → Nat
/-- The pair of cipher units with which new partners are sought first, by the number of the choice (R455). [log 127 DESIGN CHOICE] -/
opaque Config.partner : Nat → Nat
/-- A byte of an address field that lies beyond a frame's end, by its offset (R365). [log 104 DESIGN CHOICE] -/
opaque Config.missingByte : Nat → Byte
/-- HIT of an entry just inserted, by the number of the choice (R380, R392). [log 105 DESIGN CHOICE] -/
opaque Config.freshHit : Nat → Bool
/-- MOVE_CNT and MOVE_T of an L2 entry that TBL.INS has just inserted, by the number of the choice (R388). [log 105 DESIGN CHOICE] -/
opaque Config.freshMove : Nat → BitVec 18
/-- The weight e^(−x) of a sample of the holdover fit, as TIME computes it (R518). [log 142 DESIGN CHOICE] -/
opaque Config.decay : Rat → Rat
/-- The weighted temperature span of samples (weight, temperature in 2^−16 °C), in K (R518). [log 142 DESIGN CHOICE] -/
opaque Config.fitSpan : List (Rat × Int) → Rat
/-- The square root of a mean square residual, as TIME rounds it (R518). [log 142 DESIGN CHOICE] -/
opaque Config.fitRoot : Rat → Nat
/-- How many engine cycles of a span the spread clock leaves out, by the number of the span (R58, R60). [log 25 DESIGN CHOICE] -/
opaque Config.spreadLoss : Nat → Nat
/-- How many cycles of a span an engine meets bank conflicts, by the number of the choice: in instruction RAM, or in the crucible store (R275).
[log 25 DESIGN CHOICE] -/
opaque Config.conflicts : Nat → Nat
/-- Whether the condition that COND selects holds, by the number of the choice: the microassembler alone gives its encoding (R286). [log 244 DESIGN CHOICE] -/
opaque Config.microCond : Nat → Bool

/-- Which of the free trigger slots TIME.ARM takes, by the number of the choice (R505). [log 52 DESIGN CHOICE] -/
opaque Config.triggerSlot : Nat → Nat
/-- Whether a slip of the link's buffer drops a row rather than repeats one, by the number of the choice (R617). [log 257 DESIGN CHOICE] -/
opaque Config.slipDrops : Nat → Bool
/-- The source address of the hierarchy frames that GLK builds (R623). [log 200 DESIGN CHOICE] -/
opaque Config.hierSource : BitVec 48
/-- Word w of a descriptor that lies in host memory where no one has said what it holds, by the number of the choice and its place (R635).
[log 181 DESIGN CHOICE] -/
opaque Config.hostWord : Nat → Nat → Nat → W64
/-- The fused key against which images are checked: a point of P-384 (R297). [log 14 PRESUMED] -/
opaque Config.verifyKey : Nat × Nat
/-- The back-off slots that a frame draws, by the number of the choice (R684). [log 263 DESIGN CHOICE] -/
opaque Config.backOff : Nat → Nat
/-- The island's firmware version (R653, R712). [log 12 DESIGN CHOICE] -/
opaque Config.firmware : BitVec 32
/-- The fused vendor identifier (R629, R677). [log 12 DESIGN CHOICE] -/
opaque Config.vendorId : BitVec 16
/-- Byte i of host memory where no one has said what it holds, by the number of the choice (R653). [log 182 DESIGN CHOICE] -/
opaque Config.hostByte : Nat → Nat → Byte

end Sys2Proof
end

