-- ==== Sys2Proof/Machine/RegAddr.lean ====
section
/-! DEFINITION. The BAR0 byte offset of every register, by the name its register table gives it (R28 and the
register tables of each chapter); the arguments are its instance numbers, outermost first (tree or port or crucible,
then wavelength or subport, then index). -/
namespace Sys2Proof.Machine

/-- Device and silicon revision (R29). -/
def Reg.GLB_DEVICE_ID : Nat := 0
/-- Unique part serial number (R29). -/
def Reg.GLB_UNIQUE_ID : Nat := 8
/-- Which pattern verification key is fused (R29). -/
def Reg.GLB_KEY_OPTION : Nat := 0x10
/-- One bit per block with at least one event pending that its own enables pass (R61). -/
def Reg.GLB_EVENT_PENDING : Nat := 0x100
/-- Selects which blocks reach the top-level interrupt (R61). -/
def Reg.GLB_EVENT_ENABLE : Nat := 0x108
/-- GLB_EVENT_PENDING AND GLB_EVENT_ENABLE (R61). -/
def Reg.GLB_EVENT_ACTIVE : Nat := 0x110
/-- GLB's own events (R740). -/
def Reg.GLB_OWN_EVENT : Nat := 0x200
/-- Enables, same layout (R740). -/
def Reg.GLB_OWN_EVENT_ENABLE : Nat := 0x208
/-- Cause of the last core reset (R740). -/
def Reg.GLB_RESET_CAUSE : Nat := 0x210
/-- Start-up progress (R740). -/
def Reg.GLB_STARTUP : Nat := 0x218
/-- Die temperatures, warning threshold (R740). -/
def Reg.GLB_THERMAL : Nat := 0x220
/-- VID and ageing (R740). -/
def Reg.GLB_AVS : Nat := 0x228
/-- Strap values read (R740). -/
def Reg.GLB_STRAPS : Nat := 0x230
/-- Receiver enables (R123). -/
def Reg.PONU_CTRL (i : Nat) : Nat := 0x400000 + i * 0x10000
/-- Applies staged registers (R123). -/
def Reg.PONU_COMMIT (i : Nat) : Nat := 0x400008 + i * 0x10000
/-- Events (R123). -/
def Reg.PONU_EVENT (i : Nat) : Nat := 0x400010 + i * 0x10000
/-- Event enables, same layout as PONU_EVENT (R123). -/
def Reg.PONU_EVENT_ENABLE (i : Nat) : Nat := 0x400018 + i * 0x10000
/-- Destination of burst summaries (R123). -/
def Reg.PONU_SUMMARY_DEST (i : Nat) : Nat := 0x400020 + i * 0x10000
/-- Receiver state (R123). -/
def Reg.PONU_WL_STATUS (i j : Nat) : Nat := 0x401000 + i * 0x10000 + j * 0x1000
/-- TEQD in units (R123). -/
def Reg.PONU_TEQD (i j : Nat) : Nat := 0x401008 + i * 0x10000 + j * 0x1000
/-- Search window and drift limits (R123). -/
def Reg.PONU_DRIFT (i j : Nat) : Nat := 0x401010 + i * 0x10000 + j * 0x1000
/-- Dark-light threshold (R123). -/
def Reg.PONU_DARK_THRESH (i j : Nat) : Nat := 0x401018 + i * 0x10000 + j * 0x1000
/-- First dark-light position (R123). -/
def Reg.PONU_DARK_POS (i j : Nat) : Nat := 0x401020 + i * 0x10000 + j * 0x1000
/-- Burst profile p (R123). -/
def Reg.PONU_PROFILEp (i j k : Nat) : Nat := 0x401040 + i * 0x10000 + j * 0x1000 + k * 0x10
/-- Delimiter pattern of profile p (R123). -/
def Reg.PONU_DELIMp (i j k : Nat) : Nat := 0x401048 + i * 0x10000 + j * 0x1000 + k * 0x10
/-- Granted bursts, 48-bit (R123). -/
def Reg.PONU_BURSTS_GRANTED (i j : Nat) : Nat := 0x401100 + i * 0x10000 + j * 0x1000
/-- Outcomes 0 to 2 (R123). -/
def Reg.PONU_BURSTS_RECEIVED (i j : Nat) : Nat := 0x401108 + i * 0x10000 + j * 0x1000
/-- Outcome 3 (R123). -/
def Reg.PONU_BURSTS_LOST (i j : Nat) : Nat := 0x401110 + i * 0x10000 + j * 0x1000
/-- Outcome 4 (R123). -/
def Reg.PONU_HEADER_DISCARD (i j : Nat) : Nat := 0x401118 + i * 0x10000 + j * 0x1000
/-- Outcome 5 (R123). -/
def Reg.PONU_OVERLAP (i j : Nat) : Nat := 0x401120 + i * 0x10000 + j * 0x1000
/-- Outcome 6 (R123). -/
def Reg.PONU_BURSTS_SKIPPED (i j : Nat) : Nat := 0x401128 + i * 0x10000 + j * 0x1000
/-- Bursts flagged under R77 (R123). -/
def Reg.PONU_TRAIN_LATE (i j : Nat) : Nat := 0x401130 + i * 0x10000 + j * 0x1000
/-- Corrected symbols (R123). -/
def Reg.PONU_FEC_CORR (i j : Nat) : Nat := 0x401138 + i * 0x10000 + j * 0x1000
/-- Uncorrectable codewords (R123). -/
def Reg.PONU_FEC_UNCORR (i j : Nat) : Nat := 0x401140 + i * 0x10000 + j * 0x1000
/-- Corrected burst and XGEM headers (R123). -/
def Reg.PONU_HEC_CORR (i j : Nat) : Nat := 0x401148 + i * 0x10000 + j * 0x1000
/-- Uncorrectable XGEM headers (R123). -/
def Reg.PONU_HEC_UNCORR (i j : Nat) : Nat := 0x401150 + i * 0x10000 + j * 0x1000
/-- BIP-32 mismatches (R123). -/
def Reg.PONU_BIP_ERR (i j : Nat) : Nat := 0x401158 + i * 0x10000 + j * 0x1000
/-- DBRu not written under R82 (R123). -/
def Reg.PONU_DBRU_ERR (i j : Nat) : Nat := 0x401160 + i * 0x10000 + j * 0x1000
/-- Frames discarded under R86 (R123). -/
def Reg.PONU_PORT_MISMATCH (i j : Nat) : Nat := 0x401168 + i * 0x10000 + j * 0x1000
/-- Partial frames discarded under R90 (R123). -/
def Reg.PONU_FRAG_DISCARD (i j : Nat) : Nat := 0x401170 + i * 0x10000 + j * 0x1000
/-- Summaries discarded under R100 (R123). -/
def Reg.PONU_SUMMARY_DROP (i j : Nat) : Nat := 0x401178 + i * 0x10000 + j * 0x1000
/-- XGEM frames discarded under R754 (R123). -/
def Reg.PONU_PLI_OVERRUN (i j : Nat) : Nat := 0x401180 + i * 0x10000 + j * 0x1000
/-- Applies staged registers (R164). -/
def Reg.ALLOC_COMMIT : Nat := 0x800000
/-- Events (R164). -/
def Reg.ALLOC_EVENT : Nat := 0x800008
/-- Event enables, same layout (R164). -/
def Reg.ALLOC_EVENT_ENABLE : Nat := 0x800010
/-- Refusal per tree and wavelength (R164). -/
def Reg.ALLOC_REFUSE_EVENT : Nat := 0x800018
/-- Enables, same layout (R164). -/
def Reg.ALLOC_REFUSE_ENABLE : Nat := 0x800020
/-- Record selector (R164). -/
def Reg.ALLOC_REC_ADDR : Nat := 0x800028
/-- Selected record (R164). -/
def Reg.ALLOC_REC_DATA : Nat := 0x800030
/-- Owning crucible by frame number (R164). -/
def Reg.ALLOC_OWNER (i : Nat) : Nat := 0x810000 + i * 0x1000
/-- Verdict message destination (R164). -/
def Reg.ALLOC_VERDICT_DEST (i : Nat) : Nat := 0x810008 + i * 0x1000
/-- Frame numbers (R164). -/
def Reg.ALLOC_TSTATUS (i : Nat) : Nat := 0x810010 + i * 0x1000
/-- Verdict of the last frame (R164). -/
def Reg.ALLOC_LAST_VERDICT (i j : Nat) : Nat := 0x810100 + i * 0x1000 + j * 0x100
/-- Drift margin (R164). -/
def Reg.ALLOC_MARGIN (i j : Nat) : Nat := 0x810108 + i * 0x1000 + j * 0x100
/-- Consecutive refusals (R164). -/
def Reg.ALLOC_REFUSE_RUN (i j : Nat) : Nat := 0x810110 + i * 0x1000 + j * 0x100
/-- Express window x (R164). -/
def Reg.ALLOC_XWx (i j k : Nat) : Nat := 0x810140 + i * 0x1000 + j * 0x100 + k * 8
/-- Maps passed (R164). -/
def Reg.ALLOC_MAPS_PASSED (i j : Nat) : Nat := 0x810180 + i * 0x1000 + j * 0x100
/-- Maps refused (R164). -/
def Reg.ALLOC_MAPS_REFUSED (i j : Nat) : Nat := 0x810188 + i * 0x1000 + j * 0x100
/-- Refusals under LATE (R164). -/
def Reg.ALLOC_MAPS_LATE (i j : Nat) : Nat := 0x810190 + i * 0x1000 + j * 0x100
/-- Grants removed under R155 (R164). -/
def Reg.ALLOC_GRANTS_REMOVED (i j : Nat) : Nat := 0x810198 + i * 0x1000 + j * 0x100
/-- Verdicts discarded under R139 (R164). -/
def Reg.ALLOC_VERDICT_DROP (i j : Nat) : Nat := 0x8101A0 + i * 0x1000 + j * 0x100
/-- Transmitter enables, PLOAM flush (R216). -/
def Reg.POND_CTRL (i : Nat) : Nat := 0x600000 + i * 0x10000
/-- Applies staged registers (R216). -/
def Reg.POND_COMMIT (i : Nat) : Nat := 0x600008 + i * 0x10000
/-- Events (R216). -/
def Reg.POND_EVENT (i : Nat) : Nat := 0x600010 + i * 0x10000
/-- Event enables, same layout (R216). -/
def Reg.POND_EVENT_ENABLE (i : Nat) : Nat := 0x600018 + i * 0x10000
/-- Starts frame timing (R216). -/
def Reg.POND_TIMING_CTRL (i : Nat) : Nat := 0x600020 + i * 0x10000
/-- First frame count (R216). -/
def Reg.POND_FC_START (i : Nat) : Nat := 0x600028 + i * 0x10000
/-- Logical time of the first frame, ns (R216). -/
def Reg.POND_START_TIME (i : Nat) : Nat := 0x600030 + i * 0x10000
/-- Count of the frame being sent (R216). -/
def Reg.POND_FC (i : Nat) : Nat := 0x600038 + i * 0x10000
/-- t0 of the last frame, ns (R216). -/
def Reg.POND_T0_STAMP (i : Nat) : Nat := 0x600040 + i * 0x10000
/-- Phase error and stamp fraction (R216). -/
def Reg.POND_PHASE (i : Nat) : Nat := 0x600048 + i * 0x10000
/-- PHASE threshold (R216). -/
def Reg.POND_PHASE_LIMIT (i : Nat) : Nat := 0x600050 + i * 0x10000
/-- Time-of-day capture (R216). -/
def Reg.POND_TOD_ARM (i : Nat) : Nat := 0x600058 + i * 0x10000
/-- Capture, ns (R216). -/
def Reg.POND_TOD_STAMP_NS (i : Nat) : Nat := 0x600060 + i * 0x10000
/-- Capture, fraction (R216). -/
def Reg.POND_TOD_STAMP_FRAC (i : Nat) : Nat := 0x600068 + i * 0x10000
/-- Context selector (R216). -/
def Reg.POND_STAT_SEL (i : Nat) : Nat := 0x600070 + i * 0x10000
/-- Selected FRAMES (R216). -/
def Reg.POND_STAT_FRAMES (i : Nat) : Nat := 0x600078 + i * 0x10000
/-- Selected BYTES (R216). -/
def Reg.POND_STAT_BYTES (i : Nat) : Nat := 0x600080 + i * 0x10000
/-- Selected DISCARDS (R216). -/
def Reg.POND_STAT_DISCARDS (i : Nat) : Nat := 0x600088 + i * 0x10000
/-- Half-range entries (R216). -/
def Reg.POND_STAT_HALF_FIFO (i : Nat) : Nat := 0x600090 + i * 0x10000
/-- Entries lost under R211 (R216). -/
def Reg.POND_STAT_HALF_LOST (i : Nat) : Nat := 0x600098 + i * 0x10000
/-- Transmitter state (R216). -/
def Reg.POND_WL_STATUS (i j : Nat) : Nat := 0x601000 + i * 0x10000 + j * 0x1000
/-- PON-ID (R216). -/
def Reg.POND_PON_ID (i j : Nat) : Nat := 0x601008 + i * 0x10000 + j * 0x1000
/-- Class properties (R216). -/
def Reg.POND_CLASS (i j : Nat) : Nat := 0x601010 + i * 0x10000 + j * 0x1000
/-- Largest SDU, bytes (R216). -/
def Reg.POND_MAX_SDU (i j : Nat) : Nat := 0x601018 + i * 0x10000 + j * 0x1000
/-- PLOAMd per frame (R216). -/
def Reg.POND_PLOAM_MAX (i j : Nat) : Nat := 0x601020 + i * 0x10000 + j * 0x1000
/-- SerDes transmit latency (R216). -/
def Reg.POND_TX_LATENCY (i j : Nat) : Nat := 0x601028 + i * 0x10000 + j * 0x1000
/-- Board and optics delay (R216). -/
def Reg.POND_TX_OFFSET (i j : Nat) : Nat := 0x601030 + i * 0x10000 + j * 0x1000
/-- PLOAM queue (R216). -/
def Reg.POND_PLOAM_STATUS (i j : Nat) : Nat := 0x601038 + i * 0x10000 + j * 0x1000
/-- Express window x (R216). -/
def Reg.POND_XWx (i j k : Nat) : Nat := 0x601040 + i * 0x10000 + j * 0x1000 + k * 8
/-- PHY frames sent (R216). -/
def Reg.POND_FRAMES_SENT (i j : Nat) : Nat := 0x601100 + i * 0x10000 + j * 0x1000
/-- SDUs cut under R201 (R216). -/
def Reg.POND_FRAGMENTS (i j : Nat) : Nat := 0x601108 + i * 0x10000 + j * 0x1000
/-- R190 (R216). -/
def Reg.POND_OVERSIZE_DROP (i j : Nat) : Nat := 0x601110 + i * 0x10000 + j * 0x1000
/-- R192 (R216). -/
def Reg.POND_KEY_DROP (i j : Nat) : Nat := 0x601118 + i * 0x10000 + j * 0x1000
/-- R200 (R216). -/
def Reg.POND_XW_DISCARD (i j : Nat) : Nat := 0x601120 + i * 0x10000 + j * 0x1000
/-- R204 (R216). -/
def Reg.POND_FRAG_ABORT (i j : Nat) : Nat := 0x601128 + i * 0x10000 + j * 0x1000
/-- PLOAMd sent (R216). -/
def Reg.POND_PLOAM_SENT (i j : Nat) : Nat := 0x601130 + i * 0x10000 + j * 0x1000
/-- R186 (R216). -/
def Reg.POND_PLOAM_FULL (i j : Nat) : Nat := 0x601138 + i * 0x10000 + j * 0x1000
/-- Size class k under R212 (R216). -/
def Reg.POND_SIZEk (i j k : Nat) : Nat := 0x601140 + i * 0x10000 + j * 0x1000 + k * 8
/-- Unicast, multicast, broadcast, OMCC (R216). -/
def Reg.POND_TYPEy (i j k : Nat) : Nat := 0x601190 + i * 0x10000 + j * 0x1000 + k * 8
/-- Bytes 8i to 8i + 7 of a host entry, first byte in bits [63:56] (R216). -/
def Reg.POND_PLOAM_HOSTi (i j k : Nat) : Nat := 0x601200 + i * 0x10000 + j * 0x1000 + k * 8
/-- Program-mode permissions (R280). -/
def Reg.CRU_CTRL (i : Nat) : Nat := 0x1C00000 + i * 0x40000
/-- Applies staged registers (R280). -/
def Reg.CRU_COMMIT (i : Nat) : Nat := 0x1C00008 + i * 0x40000
/-- Events (R280). -/
def Reg.CRU_EVENT (i : Nat) : Nat := 0x1C00010 + i * 0x40000
/-- Event enables, same layout (R280). -/
def Reg.CRU_EVENT_ENABLE (i : Nat) : Nat := 0x1C00018 + i * 0x40000
/-- Host access address (R280). -/
def Reg.CRU_MEM_ADDR (i : Nat) : Nat := 0x1C00020 + i * 0x40000
/-- Host access data (R280). -/
def Reg.CRU_MEM_DATA (i : Nat) : Nat := 0x1C00028 + i * 0x40000
/-- Thread selector (R280). -/
def Reg.CRU_THREAD_SEL (i : Nat) : Nat := 0x1C00030 + i * 0x40000
/-- Selected thread control (R280). -/
def Reg.CRU_THREAD_CTRL (i : Nat) : Nat := 0x1C00038 + i * 0x40000
/-- Selected thread state (R280). -/
def Reg.CRU_THREAD_STATUS (i : Nat) : Nat := 0x1C00040 + i * 0x40000
/-- Queue selector (R280). -/
def Reg.CRU_QUEUE_SEL (i : Nat) : Nat := 0x1C00050 + i * 0x40000
/-- Selected queue configuration (R280). -/
def Reg.CRU_QUEUE_CFG (i : Nat) : Nat := 0x1C00058 + i * 0x40000
/-- Selected queue state (R280). -/
def Reg.CRU_QUEUE_STATUS (i : Nat) : Nat := 0x1C00060 + i * 0x40000
/-- Refusals under R254, 48-bit (R280). -/
def Reg.CRU_QUEUE_DROPS (i : Nat) : Nat := 0x1C00068 + i * 0x40000
/-- Counter selector (R280). -/
def Reg.CRU_CTR_SEL (i : Nat) : Nat := 0x1C00070 + i * 0x40000
/-- Selected counter (R280). -/
def Reg.CRU_CTR_DATA (i : Nat) : Nat := 0x1C00078 + i * 0x40000
/-- Selected PCn configuration (R280). -/
def Reg.CRU_CTR_CFG (i : Nat) : Nat := 0x1C00080 + i * 0x40000
/-- Trigger log, 64 entries (R280). -/
def Reg.CRU_TRIG_LOG (i : Nat) : Nat := 0x1C00088 + i * 0x40000
/-- Log entries lost when full, 48-bit (R280). -/
def Reg.CRU_TRIG_LOG_LOST (i : Nat) : Nat := 0x1C00090 + i * 0x40000
/-- Trap vector base (R280). -/
def Reg.CRU_VBASE (i : Nat) : Nat := 0x1C00098 + i * 0x40000
/-- R244 (R280). -/
def Reg.CRU_RUN_LIMIT (i : Nat) : Nat := 0x1C000A0 + i * 0x40000
/-- Loaded pattern (R319). -/
def Reg.CRU_PATTERN_VERSION (i : Nat) : Nat := 0x1C00100 + i * 0x40000
/-- Loaded patches (R319). -/
def Reg.CRU_PATCH_LIST (i : Nat) : Nat := 0x1C00108 + i * 0x40000
/-- Events (R319). -/
def Reg.CRU_UC_EVENT (i : Nat) : Nat := 0x1C00110 + i * 0x40000
/-- Event enables, same layout (R319). -/
def Reg.CRU_UC_EVENT_ENABLE (i : Nat) : Nat := 0x1C00118 + i * 0x40000
/-- Last uncorrectable word (R319). -/
def Reg.CRU_UC_ERR_ADDR (i : Nat) : Nat := 0x1C00120 + i * 0x40000
/-- R313, 48-bit (R319). -/
def Reg.CRU_UC_CORR (i : Nat) : Nat := 0x1C00128 + i * 0x40000
/-- R314 and R318, 48-bit (R319). -/
def Reg.CRU_UC_UNCORR (i : Nat) : Nat := 0x1C00130 + i * 0x40000
/-- Starts a load; crucible 0 only (R319). -/
def Reg.CRU_LOAD_CTRL : Nat := 0x1C00400
/-- Host bus address of the image; crucible 0 only (R319). -/
def Reg.CRU_LOAD_ADDR : Nat := 0x1C00408
/-- Image length; crucible 0 only (R319). -/
def Reg.CRU_LOAD_LEN : Nat := 0x1C00410
/-- Loader state; crucible 0 only (R319). -/
def Reg.CRU_LOAD_STATUS : Nat := 0x1C00418
/-- Applies staged registers (R359). -/
def Reg.PRS_COMMIT : Nat := 0xA00000
/-- Events (R359). -/
def Reg.PRS_EVENT : Nat := 0xA00008
/-- Event enables, same layout (R359). -/
def Reg.PRS_EVENT_ENABLE : Nat := 0xA00010
/-- Epochs and in-flight count (R359). -/
def Reg.PRS_EPOCH : Nat := 0xA00018
/-- Node and word selector (R359). -/
def Reg.PRS_NODE_SEL : Nat := 0xA00020
/-- Selected node word (R359). -/
def Reg.PRS_NODE_DATA : Nat := 0xA00028
/-- Source selector (R359). -/
def Reg.PRS_SRC_SEL : Nat := 0xA00030
/-- Selected source entry (R359). -/
def Reg.PRS_SRC_START : Nat := 0xA00038
/-- Profile selector (R359). -/
def Reg.PRS_PROFILE_SEL : Nat := 0xA00040
/-- Selected profile controls (R359). -/
def Reg.PRS_PROFILE_CTRL : Nat := 0xA00048
/-- Rule key bytes (R359). -/
def Reg.PRS_PROFILE_RULE_MASK : Nat := 0xA00050
/-- Hash input bytes (R359). -/
def Reg.PRS_PROFILE_HASH_MASK : Nat := 0xA00058
/-- MISS result (R359). -/
def Reg.PRS_PROFILE_MISS : Nat := 0xA00060
/-- CRC-32C start value in [31:0] (R359). -/
def Reg.PRS_HASH_SEED : Nat := 0xA00068
/-- Toeplitz key bytes 8k to 8k + 7 (R359). -/
def Reg.PRS_TOEPLITZk (i : Nat) : Nat := 0xA00070 + i * 8
/-- Rule bank command (R359). -/
def Reg.PRS_RS_CMD : Nat := 0xA000C0
/-- Key bytes 8k to 8k + 7, first byte in [63:56] (R359). -/
def Reg.PRS_RS_KEYk (i : Nat) : Nat := 0xA000C8 + i * 8
/-- Result in the format of R337; FIND writes it (R359). -/
def Reg.PRS_RS_RESULT : Nat := 0xA000E8
/-- Bank named in PRS_RS_CMD (R359). -/
def Reg.PRS_RS_STATUS : Nat := 0xA000F0
/-- Table and entry selector (R359). -/
def Reg.PRS_IND_SEL : Nat := 0xA00100
/-- Selected entry, format of R354 (R359). -/
def Reg.PRS_IND_DATA : Nat := 0xA00108
/-- Class selector (R359). -/
def Reg.PRS_SP_SEL : Nat := 0xA00110
/-- Selected class setting (R359). -/
def Reg.PRS_SP_CFG : Nat := 0xA00118
/-- Selected class, R357 (R359). -/
def Reg.PRS_SP_DELIVERED : Nat := 0xA00120
/-- Selected class, R357 (R359). -/
def Reg.PRS_SP_DROP : Nat := 0xA00128
/-- R331 (R359). -/
def Reg.PRS_MALFORMED : Nat := 0xA00130
/-- R332 (R359). -/
def Reg.PRS_DEPTH : Nat := 0xA00138
/-- R333 (R359). -/
def Reg.PRS_FRAG : Nat := 0xA00140
/-- R349 (R359). -/
def Reg.PRS_RECIRC : Nat := 0xA00148
/-- R349 (R359). -/
def Reg.PRS_RECIRC_SHED : Nat := 0xA00150
/-- R347 (R359). -/
def Reg.PRS_LOOP : Nat := 0xA00158
/-- Lookups under RS_EN 1 that took the MISS result, R336 (R359). -/
def Reg.PRS_RS_MISS : Nat := 0xA00160
/-- R336 (R359). -/
def Reg.PRS_ENTRY_ERR : Nat := 0xA00168
/-- Applies staged registers (R403). -/
def Reg.FWD_COMMIT : Nat := 0xC00000
/-- Events (R403). -/
def Reg.FWD_EVENT : Nat := 0xC00008
/-- Event enables, same layout (R403). -/
def Reg.FWD_EVENT_ENABLE : Nat := 0xC00010
/-- Partitions with a failed insert (R403). -/
def Reg.FWD_REHASH : Nat := 0xC00018
/-- Table n: 0 L2, 1 flow (R403). -/
def Reg.FWD_TABLE_CFGn (i : Nat) : Nat := 0xC00020 + i * 8
/-- Extension of table n (R403). -/
def Reg.FWD_EXT_BASEn (i : Nat) : Nat := 0xC00030 + i * 8
/-- Sweeper of table n (R403). -/
def Reg.FWD_SWEEPn (i : Nat) : Nat := 0xC00040 + i * 8
/-- Learning (R403). -/
def Reg.FWD_LEARN_CFG : Nat := 0xC00050
/-- Report destination (R403). -/
def Reg.FWD_REPORT_DEST : Nat := 0xC00058
/-- Profile selector (R403). -/
def Reg.FWD_PROFILE_SEL : Nat := 0xC00060
/-- Selected profile (R403). -/
def Reg.FWD_PROFILE_CTRL : Nat := 0xC00068
/-- Flow key bytes (R403). -/
def Reg.FWD_PROFILE_FLOW_MASK : Nat := 0xC00070
/-- Window selector (R403). -/
def Reg.FWD_PORTMAP_SEL : Nat := 0xC00078
/-- Selected window (R403). -/
def Reg.FWD_PORTMAP : Nat := 0xC00080
/-- Bridge-domain selector (R403). -/
def Reg.FWD_BD_SEL : Nat := 0xC00088
/-- Selected bridge domain (R403). -/
def Reg.FWD_BD_CFG : Nat := 0xC00090
/-- Context selector (R403). -/
def Reg.FWD_CTX_SEL : Nat := 0xC00098
/-- Selected context record (R403). -/
def Reg.FWD_CTX_DATA : Nat := 0xC000A0
/-- Uplink source selector (R403). -/
def Reg.FWD_UPLINK_SEL : Nat := 0xC000A8
/-- Learned DEST of the selected uplink source (R403). -/
def Reg.FWD_UPLINK_DEST : Nat := 0xC000B0
/-- Host table command (R403). -/
def Reg.FWD_TBL_CMD : Nat := 0xC000B8
/-- Entry bits [127:64] (R403). -/
def Reg.FWD_TBL_ENTRY_HI : Nat := 0xC000C0
/-- Entry bits [63:0] (R403). -/
def Reg.FWD_TBL_ENTRY_LO : Nat := 0xC000C8
/-- Word 3 of R386 for the last command (R403). -/
def Reg.FWD_TBL_LOC : Nat := 0xC000D0
/-- Valid entries of table n (R403). -/
def Reg.FWD_OCCUPANCYn (i : Nat) : Nat := 0xC000D8 + i * 8
/-- Installs by the agents (R403). -/
def Reg.FWD_LEARNED : Nat := 0xC00100
/-- Station moves applied (R403). -/
def Reg.FWD_MOVES : Nat := 0xC00108
/-- R393 (R403). -/
def Reg.FWD_MOVE_IGNORED : Nat := 0xC00110
/-- Entries frozen (R403). -/
def Reg.FWD_FLAPPING : Nat := 0xC00118
/-- R398 removals (R403). -/
def Reg.FWD_AGED_OUT : Nat := 0xC00120
/-- R394 (R403). -/
def Reg.FWD_EVICTED : Nat := 0xC00128
/-- R394 (R403). -/
def Reg.FWD_LEARN_FULL : Nat := 0xC00130
/-- R392 (R403). -/
def Reg.FWD_LEARN_DROP : Nat := 0xC00138
/-- R396 (R403). -/
def Reg.FWD_REPORT_DROP : Nat := 0xC00140
/-- R382 (R403). -/
def Reg.FWD_ENTRY_ERR : Nat := 0xC00148
/-- R371 (R403). -/
def Reg.FWD_SEP_DROP : Nat := 0xC00150
/-- R372 (R403). -/
def Reg.FWD_SPOOF_DROP : Nat := 0xC00158
/-- R369 (R403). -/
def Reg.FWD_AGG_DROP : Nat := 0xC00160
/-- R385 (R403). -/
def Reg.FWD_EXT_SHED : Nat := 0xC00168
/-- Applies staged registers (R446). -/
def Reg.TM_COMMIT : Nat := 0xE00000
/-- Events (R446). -/
def Reg.TM_EVENT : Nat := 0xE00008
/-- Event enables, same layout (R446). -/
def Reg.TM_EVENT_ENABLE : Nat := 0xE00010
/-- Record selector (R446). -/
def Reg.TM_REC_SEL : Nat := 0xE00018
/-- Active word k of the selected record (R446). -/
def Reg.TM_REC_CURk (i : Nat) : Nat := 0xE00020 + i * 8
/-- Word k to push (R446). -/
def Reg.TM_REC_STGk (i : Nat) : Nat := 0xE00038 + i * 8
/-- Appends to the list (R446). -/
def Reg.TM_REC_PUSH : Nat := 0xE00050
/-- List length (R446). -/
def Reg.TM_STG_LIST : Nat := 0xE00058
/-- Selected queue depth (R446). -/
def Reg.TM_QSTATE : Nat := 0xE00060
/-- Selected queue drops, 48-bit (R446). -/
def Reg.TM_QDROPS : Nat := 0xE00068
/-- Selected queue head (R446). -/
def Reg.TM_QHEAD : Nat := 0xE00070
/-- Tokens of the selected shaper or policer (R446). -/
def Reg.TM_TOKENS : Nat := 0xE00078
/-- Reserve and slow-path limit (R446). -/
def Reg.TM_BUF_CFG : Nat := 0xE00080
/-- Cell use (R446). -/
def Reg.TM_BUF_STATUS : Nat := 0xE00088
/-- Crucible selector (R446). -/
def Reg.TM_INJ_SEL : Nat := 0xE00090
/-- Selected injection region (R446). -/
def Reg.TM_INJ_REGION : Nat := 0xE00098
/-- Selected region's outstanding cells (R446). -/
def Reg.TM_INJ_STATUS : Nat := 0xE000A0
/-- Overflow region base (R446). -/
def Reg.TM_OVF_BASE : Nat := 0xE000A8
/-- Overflow region size (R446). -/
def Reg.TM_OVF_SIZE : Nat := 0xE000B0
/-- Queue drain (R446). -/
def Reg.TM_DRAIN_CMD : Nat := 0xE000B8
/-- Sampling (R446). -/
def Reg.TM_SAMPLE_CFG : Nat := 0xE000C0
/-- Ring base (R446). -/
def Reg.TM_SRING_BASEr (i : Nat) : Nat := 0xE00100 + i * 0x20
/-- Ring size (R446). -/
def Reg.TM_SRING_CTRLr (i : Nat) : Nat := 0xE00108 + i * 0x20
/-- Producer index (R446). -/
def Reg.TM_SRING_PRODr (i : Nat) : Nat := 0xE00110 + i * 0x20
/-- Consumer index (R446). -/
def Reg.TM_SRING_CONSr (i : Nat) : Nat := 0xE00118 + i * 0x20
/-- R416 step 1 (R446). -/
def Reg.TM_DROP_MAP : Nat := 0xE00200
/-- Step 2 (R446). -/
def Reg.TM_DROP_ACCEPT : Nat := 0xE00208
/-- Step 3 (R446). -/
def Reg.TM_DROP_POLICER : Nat := 0xE00210
/-- Step 4 (R446). -/
def Reg.TM_DROP_DEPTH : Nat := 0xE00218
/-- Step 5 (R446). -/
def Reg.TM_DROP_OVF : Nat := 0xE00220
/-- Step 6 (R446). -/
def Reg.TM_DROP_BUFFER : Nat := 0xE00228
/-- R438 (R446). -/
def Reg.TM_DRAIN_DROPS : Nat := 0xE00230
/-- R442 (R446). -/
def Reg.TM_SAMPLE_LOST : Nat := 0xE00238
/-- R436 (R446). -/
def Reg.TM_BAD_RELEASE : Nat := 0xE00240
/-- R421 (R446). -/
def Reg.TM_CUT_THROUGH : Nat := 0xE00248
/-- Applies staged registers (R487). -/
def Reg.CIPH_COMMIT : Nat := 0x1000000
/-- Events (R487). -/
def Reg.CIPH_EVENT : Nat := 0x1000008
/-- Event enables, same layout (R487). -/
def Reg.CIPH_EVENT_ENABLE : Nat := 0x1000010
/-- Key failure limits (R487). -/
def Reg.CIPH_CFG : Nat := 0x1000018
/-- Key store (R487). -/
def Reg.CIPH_KEYSTORE_BASE : Nat := 0x1000020
/-- Notice destination (R487). -/
def Reg.CIPH_NOTICE_DEST : Nat := 0x1000028
/-- Notices (R487). -/
def Reg.CIPH_NOTICE_FIFO : Nat := 0x1000030
/-- Units: PAIRS 16, SPARES 4 (R487). -/
def Reg.CIPH_UNIT_STATUS : Nat := 0x1000038
/-- Entropy source (R487). -/
def Reg.CIPH_ENTROPY_STATUS : Nat := 0x1000040
/-- Directory selector (R487). -/
def Reg.CIPH_DIR_SEL : Nat := 0x1000048
/-- Selected directory entry (R487). -/
def Reg.CIPH_DIR_DATA : Nat := 0x1000050
/-- Context selector (R487). -/
def Reg.CIPH_ENC_SEL : Nat := 0x1000058
/-- Selected ENC (R487). -/
def Reg.CIPH_ENC_DATA : Nat := 0x1000060
/-- Host slot command (R487). -/
def Reg.CIPH_SLOT_CMD : Nat := 0x1000068
/-- Attributes for IMPORT (R487). -/
def Reg.CIPH_SLOT_ATTR : Nat := 0x1000070
/-- LABEL for IMPORT (R487). -/
def Reg.CIPH_IMPORT_LABEL : Nat := 0x1000078
/-- Key bytes 8i to 8i + 7, first byte in [63:56] (R487). -/
def Reg.CIPH_IMPORTi (i : Nat) : Nat := 0x1000080 + i * 8
/-- State of the slot named in CIPH_SLOT_CMD (R487). -/
def Reg.CIPH_SLOT_STATUS : Nat := 0x10000A0
/-- Its USES (R487). -/
def Reg.CIPH_SLOT_USES : Nat := 0x10000A8
/-- Its LABEL (R487). -/
def Reg.CIPH_SLOT_LABEL : Nat := 0x10000B0
/-- R454 (R487). -/
def Reg.CIPH_MISMATCH : Nat := 0x1000100
/-- R479 (R487). -/
def Reg.CIPH_CHECK_FAIL : Nat := 0x1000108
/-- R459, R477 (R487). -/
def Reg.CIPH_REFUSED : Nat := 0x1000110
/-- R478 (R487). -/
def Reg.CIPH_NOTICE_LOST : Nat := 0x1000118
/-- R475 (R487). -/
def Reg.CIPH_SLOT_RELOAD : Nat := 0x1000120
/-- Applies staged registers (R529). -/
def Reg.TIME_COMMIT : Nat := 0x200000
/-- Events (R529). -/
def Reg.TIME_EVENT : Nat := 0x200008
/-- Event enables, same layout (R529). -/
def Reg.TIME_EVENT_ENABLE : Nat := 0x200010
/-- Logical time, whole ns; R494 (R529). -/
def Reg.TIME_NOW_NS : Nat := 0x200018
/-- Latched fraction (R529). -/
def Reg.TIME_NOW_FRAC : Nat := 0x200020
/-- Latched FRC (R529). -/
def Reg.TIME_NOW_FRC : Nat := 0x200028
/-- RATE; R512 (R529). -/
def Reg.TIME_RATE : Nat := 0x200030
/-- OFFSET, whole ns (R529). -/
def Reg.TIME_OFFSET_NS : Nat := 0x200038
/-- OFFSET, fraction (R529). -/
def Reg.TIME_OFFSET_FRAC : Nat := 0x200040
/-- Time to set, whole ns (R529). -/
def Reg.TIME_SET_NS : Nat := 0x200048
/-- Fraction and SET (R529). -/
def Reg.TIME_SET_CTRL : Nat := 0x200050
/-- Adds to OFFSET (R529). -/
def Reg.TIME_ADJ : Nat := 0x200058
/-- TAI − UTC (R529). -/
def Reg.TIME_UTC_OFFSET : Nat := 0x200060
/-- Source and output (R529). -/
def Reg.TIME_SERVO_CTRL : Nat := 0x200080
/-- Gains (R529). -/
def Reg.TIME_SERVO_GAIN : Nat := 0x200088
/-- Step, lock, loss (R529). -/
def Reg.TIME_SERVO_LIMIT : Nat := 0x200090
/-- Outlier and rate limits (R529). -/
def Reg.TIME_SERVO_BOUND : Nat := 0x200098
/-- State, last error (R529). -/
def Reg.TIME_SERVO_STATUS : Nat := 0x2000A0
/-- y (R529). -/
def Reg.TIME_SERVO_FREQ : Nat := 0x2000A8
/-- Program-supplied e (R529). -/
def Reg.TIME_SERVO_INPUT : Nat := 0x2000B0
/-- Time in LOCKED (R529). -/
def Reg.TIME_LOCKED_TIME : Nat := 0x2000B8
/-- Model controls (R529). -/
def Reg.TIME_HO_CTRL : Nat := 0x200100
/-- Coefficients; R520 (R529). -/
def Reg.TIME_HO_Ck (i : Nat) : Nat := 0x200108 + i * 8
/-- TREF and ORIGIN (R529). -/
def Reg.TIME_HO_REF : Nat := 0x200128
/-- Model state (R529). -/
def Reg.TIME_HO_STATUS : Nat := 0x200130
/-- Port controls (R529). -/
def Reg.TIME_STEER_CFG : Nat := 0x200180
/-- Steering write format (R529). -/
def Reg.TIME_STEER_WORD : Nat := 0x200188
/-- UNIT (R529). -/
def Reg.TIME_STEER_UNIT : Nat := 0x200190
/-- Sensor read format (R529). -/
def Reg.TIME_TEMP_CFG : Nat := 0x200198
/-- Temperature (R529). -/
def Reg.TIME_TEMP : Nat := 0x2001A0
/-- Last word sent (R529). -/
def Reg.TIME_STEER_LAST : Nat := 0x2001A8
/-- Input controls (R529). -/
def Reg.TIME_TINn_CFG (i : Nat) : Nat := 0x200200 + i * 0x20
/-- Input delay (R529). -/
def Reg.TIME_TINn_DELAY (i : Nat) : Nat := 0x200208 + i * 0x20
/-- Captures (R529). -/
def Reg.TIME_TINn_FIFO (i : Nat) : Nat := 0x200210 + i * 0x20
/-- R500 (R529). -/
def Reg.TIME_TINn_LOST (i : Nat) : Nat := 0x200218 + i * 0x20
/-- START, ns (R529). -/
def Reg.TIME_TOUTn_START (i : Nat) : Nat := 0x200300 + i * 0x20
/-- PERIOD, ns (R529). -/
def Reg.TIME_TOUTn_PERIOD (i : Nat) : Nat := 0x200308 + i * 0x20
/-- Width, polarity, enable (R529). -/
def Reg.TIME_TOUTn_CTRL (i : Nat) : Nat := 0x200310 + i * 0x20
/-- Slot selector (R529). -/
def Reg.TIME_TRIG_SEL : Nat := 0x200400
/-- Selected slot (R529). -/
def Reg.TIME_TRIG_STATUS : Nat := 0x200408
/-- Its next armed time, ns (R529). -/
def Reg.TIME_TRIG_NEXT : Nat := 0x200410
/-- R509 (R529). -/
def Reg.TIME_TRIG_CANCEL : Nat := 0x200418
/-- Free slots (R529). -/
def Reg.TIME_TRIG_FREE : Nat := 0x200420
/-- R497 (R529). -/
def Reg.TIME_ASYM_TXq (i : Nat) : Nat := 0x200500 + i * 0x10
/-- R497 (R529). -/
def Reg.TIME_ASYM_RXq (i : Nat) : Nat := 0x200508 + i * 0x10
/-- R526 (R529). -/
def Reg.TIME_RCLKr (i : Nat) : Nat := 0x200700 + i * 8
/-- R515 (R529). -/
def Reg.TIME_OUTLIERS : Nat := 0x200800
/-- R510 (R529). -/
def Reg.TIME_INPUT_DROP : Nat := 0x200808
/-- R525 (R529). -/
def Reg.TIME_TEMP_BAD : Nat := 0x200810
/-- R524 (R529). -/
def Reg.TIME_STEER_SENT : Nat := 0x200818
/-- R508 (R529). -/
def Reg.TIME_TRIG_SKIPPED : Nat := 0x200820
/-- R504 (R529). -/
def Reg.TIME_TOUT_SKIPPED : Nat := 0x200828
/-- Applies staged registers (R583). -/
def Reg.GATE_COMMIT : Nat := 0x1800000
/-- Events (R583). -/
def Reg.GATE_EVENT : Nat := 0x1800008
/-- Event enables, same layout (R583). -/
def Reg.GATE_EVENT_ENABLE : Nat := 0x1800010
/-- Turnover and retirement (R583). -/
def Reg.GATE_CFG : Nat := 0x1800018
/-- Crucible, flask and engine selector (R583). -/
def Reg.GATE_SEL : Nat := 0x1800020
/-- Selected physical flask (R583). -/
def Reg.GATE_FLASK_STATUS : Nat := 0x1800028
/-- Selected crucible (R583). -/
def Reg.GATE_CRU_STATUS : Nat := 0x1800030
/-- R562 (R583). -/
def Reg.GATE_CTX_COUNT : Nat := 0x1800038
/-- Retire, restore, test (R583). -/
def Reg.GATE_RETIRE_CMD : Nat := 0x1800040
/-- R554 (R583). -/
def Reg.GATE_TAKEOVER_DEST : Nat := 0x1800048
/-- R581 (R583). -/
def Reg.GATE_FAULT_LOG : Nat := 0x1800050
/-- R581 (R583). -/
def Reg.GATE_FAULT_LOST : Nat := 0x1800058
/-- R538 (R583). -/
def Reg.GATE_SPLITS_REPORTED : Nat := 0x1800060
/-- R539 (R583). -/
def Reg.GATE_SPLITS_UNREPORTED : Nat := 0x1800068
/-- Flasks retired (R583). -/
def Reg.GATE_RETIREMENTS : Nat := 0x1800070
/-- Flask turnovers (R583). -/
def Reg.GATE_TURNOVERS : Nat := 0x1800078
/-- R547 (R583). -/
def Reg.GATE_REPLAY_DIVERGED : Nat := 0x1800080
/-- Applies staged registers (R586). -/
def Reg.MEM_COMMIT : Nat := 0x1A00000
/-- Events (R586). -/
def Reg.MEM_EVENT : Nat := 0x1A00008
/-- Event enables, same layout (R586). -/
def Reg.MEM_EVENT_ENABLE : Nat := 0x1A00010
/-- Mode, resilvering, scrub, suspect limit (R586). -/
def Reg.MEM_CFG : Nat := 0x1A00018
/-- Channel selector (R586). -/
def Reg.MEM_CHAN_SEL : Nat := 0x1A00020
/-- Selected channel (R586). -/
def Reg.MEM_CHAN_STATUS : Nat := 0x1A00028
/-- Channel command (R586). -/
def Reg.MEM_CHAN_CMD : Nat := 0x1A00030
/-- R576 addresses, 64 entries (R586). -/
def Reg.MEM_MISMATCH_LOG : Nat := 0x1A00038
/-- Last uncorrectable line (R586). -/
def Reg.MEM_ERR_ADDR : Nat := 0x1A00040
/-- Poison list entries, 0 to 1,024 (R586). -/
def Reg.MEM_POISON : Nat := 0x1A00048
/-- Completed scrub passes (R586). -/
def Reg.MEM_SCRUB_STATUS : Nat := 0x1A00050
/-- Corrected codewords of channel c (R586). -/
def Reg.MEM_CORRc (i : Nat) : Nat := 0x1A00100 + i * 8
/-- Uncorrectable codewords of channel c (R586). -/
def Reg.MEM_UNCORRc (i : Nat) : Nat := 0x1A00140 + i * 8
/-- R576 events (R586). -/
def Reg.MEM_MISMATCH : Nat := 0x1A00180
/-- Corrected on-die words (R586). -/
def Reg.MEM_SRAM_CORR : Nat := 0x1A00188
/-- Uncorrectable on-die words (R586). -/
def Reg.MEM_SRAM_UNCORR : Nat := 0x1A00190
/-- Applies staged registers (R627). -/
def Reg.GLK_COMMIT : Nat := 0x1600000
/-- Events (R627). -/
def Reg.GLK_EVENT : Nat := 0x1600008
/-- Event enables, same layout (R627). -/
def Reg.GLK_EVENT_ENABLE : Nat := 0x1600010
/-- Pair settings (R627). -/
def Reg.GLK_MATE_CFG : Nat := 0x1600018
/-- Heat numbers and permit (R627). -/
def Reg.GLK_MATE_STATUS : Nat := 0x1600020
/-- Turnover request (R627). -/
def Reg.GLK_TURN : Nat := 0x1600028
/-- Lanes, alignment, labels (R627). -/
def Reg.GLK_LINK_CFG : Nat := 0x1600030
/-- Lock and alignment (R627). -/
def Reg.GLK_LINK_STATUS : Nat := 0x1600038
/-- Mirror stream slots (R627). -/
def Reg.GLK_KEY : Nat := 0x1600040
/-- Queue drained into PROGRAM records (R627). -/
def Reg.GLK_PROG_SRC : Nat := 0x1600048
/-- Queue for received PROGRAM records (R627). -/
def Reg.GLK_PROG_DEST : Nat := 0x1600050
/-- R604 (R627). -/
def Reg.GLK_DIGEST : Nat := 0x1600058
/-- Hierarchy (R627). -/
def Reg.GLK_HIER_CFG : Nat := 0x1600060
/-- Outgoing hierarchy queue (R627). -/
def Reg.GLK_HIER_SRC : Nat := 0x1600068
/-- Incoming hierarchy queue (R627). -/
def Reg.GLK_HIER_DEST : Nat := 0x1600070
/-- Peer selector (R627). -/
def Reg.GLK_PEER_SEL : Nat := 0x1600078
/-- Selected peer address (R627). -/
def Reg.GLK_PEER_ADDR : Nat := 0x1600080
/-- Selected peer path and slots (R627). -/
def Reg.GLK_PEER_PATH : Nat := 0x1600088
/-- Bin selector (R627). -/
def Reg.GLK_PM_SEL : Nat := 0x1600090
/-- ES, SES (R627). -/
def Reg.GLK_PM_CNT0 : Nat := 0x1600098
/-- UAS (R627). -/
def Reg.GLK_PM_CNT1 : Nat := 0x16000A0
/-- BBE (R627). -/
def Reg.GLK_PM_BBE : Nat := 0x16000A8
/-- Bin state (R627). -/
def Reg.GLK_PM_STATUS : Nat := 0x16000B0
/-- SES threshold (R627). -/
def Reg.GLK_PM_CFG : Nat := 0x16000B8
/-- R612 mismatches (R627). -/
def Reg.GLK_BIP_ERR : Nat := 0x1600100
/-- R610 (R627). -/
def Reg.GLK_BAD_BLOCK : Nat := 0x1600108
/-- R598 (R627). -/
def Reg.GLK_TAG_FAIL : Nat := 0x1600110
/-- Segments sent again under R617 (R627). -/
def Reg.GLK_RESENT : Nat := 0x1600118
/-- R617 (R627). -/
def Reg.GLK_SLIPS : Nat := 0x1600120
/-- R617 (R627). -/
def Reg.GLK_GAPS : Nat := 0x1600128
/-- R604 (R627). -/
def Reg.GLK_DIGEST_MATCH : Nat := 0x1600130
/-- R604 (R627). -/
def Reg.GLK_DIGEST_MISMATCH : Nat := 0x1600138
/-- R603 (R627). -/
def Reg.GLK_MIRROR_LATE : Nat := 0x1600140
/-- R615 (R627). -/
def Reg.GLK_PRBS_ERR : Nat := 0x1600148
/-- R623 (R627). -/
def Reg.GLK_HIER_FAIL : Nat := 0x1600150
/-- R606 (R627). -/
def Reg.GLK_TAKEOVERS : Nat := 0x1600158
/-- R609 (R627). -/
def Reg.GLK_TURNOVERS : Nat := 0x1600160
/-- Events (R676). -/
def Reg.HIF_EVENT : Nat := 0x1400000
/-- Event enables, same layout (R676). -/
def Reg.HIF_EVENT_ENABLE : Nat := 0x1400008
/-- Identity and mode (R676). -/
def Reg.HIF_PCI_ID : Nat := 0x1400010
/-- Links of both endpoints (R676). -/
def Reg.HIF_LINK_STATUS : Nat := 0x1400018
/-- Ring selector (R676). -/
def Reg.HIF_RING_SEL : Nat := 0x1400020
/-- Selected ring's BASE (R676). -/
def Reg.HIF_RING_BASE : Nat := 0x1400028
/-- Selected ring's settings (R676). -/
def Reg.HIF_RING_CFG : Nat := 0x1400030
/-- Selected transmit ring's start word (R676). -/
def Reg.HIF_RING_BIND : Nat := 0x1400038
/-- Selected ring's state (R676). -/
def Reg.HIF_RING_STATUS : Nat := 0x1400040
/-- Frames completed (R676). -/
def Reg.HIF_RING_FRAMES : Nat := 0x1400048
/-- Bytes completed (R676). -/
def Reg.HIF_RING_BYTES : Nat := 0x1400050
/-- R641, R646 (R676). -/
def Reg.HIF_RING_DROPS : Nat := 0x1400058
/-- R640, R641 (R676). -/
def Reg.HIF_RING_STARVED : Nat := 0x1400060
/-- Vector of source k, R647 (R676). -/
def Reg.HIF_SRC_VECk (i : Nat) : Nat := 0x1400100 + i * 8
/-- Command of endpoint e (R676). -/
def Reg.HIF_MB_CMD (i : Nat) : Nat := 0x1400200 + i * 0x80
/-- Arguments (R676). -/
def Reg.HIF_MB_ARGi (i j : Nat) : Nat := 0x1400208 + i * 0x80 + j * 8
/-- Answer (R676). -/
def Reg.HIF_MB_RSP (i : Nat) : Nat := 0x1400228 + i * 0x80
/-- Answer data (R676). -/
def Reg.HIF_MB_DATA0 (i : Nat) : Nat := 0x1400230 + i * 0x80
/-- Answer data (R676). -/
def Reg.HIF_MB_DATA1 (i : Nat) : Nat := 0x1400238 + i * 0x80
/-- Long operation (R676). -/
def Reg.HIF_MB_STATUS (i : Nat) : Nat := 0x1400240 + i * 0x80
/-- R649 (R676). -/
def Reg.HIF_VEC_ARMv (i : Nat) : Nat := 0x1410000 + i * 8
/-- Receive TAIL (R676). -/
def Reg.HIF_RX_TAILr (i : Nat) : Nat := 0x1500000 + i * 8
/-- Transmit TAIL (R676). -/
def Reg.HIF_TX_TAILr (i : Nat) : Nat := 0x1508000 + i * 8
/-- Applies staged registers (R679). -/
def Reg.ETH_COMMIT (i : Nat) : Nat := 0x1200000 + i * 0x20000
/-- Events (R679). -/
def Reg.ETH_EVENT (i : Nat) : Nat := 0x1200008 + i * 0x20000
/-- Event enables, same layout (R679). -/
def Reg.ETH_EVENT_ENABLE (i : Nat) : Nat := 0x1200010 + i * 0x20000
/-- Mode and subport enables (R679). -/
def Reg.ETH_PORT_CFG (i : Nat) : Nat := 0x1200018 + i * 0x20000
/-- Link state (R679). -/
def Reg.ETH_PORT_STATUS (i : Nat) : Nat := 0x1200020 + i * 0x20000
/-- R661 (R679). -/
def Reg.ETH_PFC_CFG (i : Nat) : Nat := 0x1200028 + i * 0x20000
/-- Subport settings (R679). -/
def Reg.ETH_SUB_CFG (i j : Nat) : Nat := 0x1201000 + i * 0x20000 + j * 0x1000
/-- R665 (R679). -/
def Reg.ETH_MM_STATUS (i j : Nat) : Nat := 0x1201008 + i * 0x20000 + j * 0x1000
/-- Gate list entry selector (R679). -/
def Reg.ETH_GCL_SEL (i j : Nat) : Nat := 0x1201010 + i * 0x20000 + j * 0x1000
/-- Selected entry (R679). -/
def Reg.ETH_GCL_DATA (i j : Nat) : Nat := 0x1201018 + i * 0x20000 + j * 0x1000
/-- BASE, ns (R679). -/
def Reg.ETH_GCL_BASE (i j : Nat) : Nat := 0x1201020 + i * 0x20000 + j * 0x1000
/-- CYCLE and LENGTH (R679). -/
def Reg.ETH_GCL_CYCLE (i j : Nat) : Nat := 0x1201028 + i * 0x20000 + j * 0x1000
/-- Gate list state (R679). -/
def Reg.ETH_GCL_STATUS (i j : Nat) : Nat := 0x1201030 + i * 0x20000 + j * 0x1000
/-- R669 (R679). -/
def Reg.ETH_TS_FIFO0 (i j : Nat) : Nat := 0x1201038 + i * 0x20000 + j * 0x1000
/-- R669 (R679). -/
def Reg.ETH_TS_FIFO1 (i j : Nat) : Nat := 0x1201040 + i * 0x20000 + j * 0x1000
/-- Pause state (R679). -/
def Reg.ETH_PAUSED (i j : Nat) : Nat := 0x1201048 + i * 0x20000 + j * 0x1000
/-- R675 (R679). -/
def Reg.ETH_RX_FRAMES (i j : Nat) : Nat := 0x1201100 + i * 0x20000 + j * 0x1000
/-- R675 (R679). -/
def Reg.ETH_RX_BYTES (i j : Nat) : Nat := 0x1201108 + i * 0x20000 + j * 0x1000
/-- R675 (R679). -/
def Reg.ETH_TX_FRAMES (i j : Nat) : Nat := 0x1201110 + i * 0x20000 + j * 0x1000
/-- R675 (R679). -/
def Reg.ETH_TX_BYTES (i j : Nat) : Nat := 0x1201118 + i * 0x20000 + j * 0x1000
/-- Size class k (R679). -/
def Reg.ETH_RX_SIZEk (i j k : Nat) : Nat := 0x1201120 + i * 0x20000 + j * 0x1000 + k * 8
/-- Size class k (R679). -/
def Reg.ETH_TX_SIZEk (i j k : Nat) : Nat := 0x1201170 + i * 0x20000 + j * 0x1000 + k * 8
/-- Unicast, multicast, broadcast (R679). -/
def Reg.ETH_RX_TYPEy (i j k : Nat) : Nat := 0x12011C0 + i * 0x20000 + j * 0x1000 + k * 8
/-- Unicast, multicast, broadcast (R679). -/
def Reg.ETH_TX_TYPEy (i j k : Nat) : Nat := 0x12011D8 + i * 0x20000 + j * 0x1000 + k * 8
/-- R657 (R679). -/
def Reg.ETH_RX_FCS_ERR (i j : Nat) : Nat := 0x12011F0 + i * 0x20000 + j * 0x1000
/-- R657 (R679). -/
def Reg.ETH_RX_UNDERSIZE (i j : Nat) : Nat := 0x12011F8 + i * 0x20000 + j * 0x1000
/-- R656 (R679). -/
def Reg.ETH_RX_TRUNCATED (i j : Nat) : Nat := 0x1201200 + i * 0x20000 + j * 0x1000
/-- R658 (R679). -/
def Reg.ETH_TX_STOMPED (i j : Nat) : Nat := 0x1201208 + i * 0x20000 + j * 0x1000
/-- R659 (R679). -/
def Reg.ETH_TX_OVERSIZE_DROP (i j : Nat) : Nat := 0x1201210 + i * 0x20000 + j * 0x1000
/-- R660, R661 (R679). -/
def Reg.ETH_RX_PFC (i j : Nat) : Nat := 0x1201218 + i * 0x20000 + j * 0x1000
/-- R660, R661 (R679). -/
def Reg.ETH_TX_PFC (i j : Nat) : Nat := 0x1201220 + i * 0x20000 + j * 0x1000
/-- R660 (R679). -/
def Reg.ETH_RX_PAUSE_IGNORED (i j : Nat) : Nat := 0x1201228 + i * 0x20000 + j * 0x1000
/-- R666 (R679). -/
def Reg.ETH_TX_PREEMPTED (i j : Nat) : Nat := 0x1201230 + i * 0x20000 + j * 0x1000
/-- Preempted frames received reassembled, or discarded in reassembly (R679). -/
def Reg.ETH_RX_REASM_OK (i j : Nat) : Nat := 0x1201238 + i * 0x20000 + j * 0x1000
/-- Preempted frames received reassembled, or discarded in reassembly (R679). -/
def Reg.ETH_RX_REASM_ERR (i j : Nat) : Nat := 0x1201240 + i * 0x20000 + j * 0x1000
/-- mPackets with an unknown SMD (R679). -/
def Reg.ETH_RX_SMD_ERR (i j : Nat) : Nat := 0x1201248 + i * 0x20000 + j * 0x1000
/-- R668 (R679). -/
def Reg.ETH_TS_OVERFLOW (i j : Nat) : Nat := 0x1201250 + i * 0x20000 + j * 0x1000
/-- R664 (R679). -/
def Reg.ETH_WINDOW_HOLD (i j : Nat) : Nat := 0x1201258 + i * 0x20000 + j * 0x1000
/-- Node, core state, firmware (R711). -/
def Reg.SBY_STATUS : Nat := 0x2800000
/-- Events (R711). -/
def Reg.SBY_EVENT : Nat := 0x2800008
/-- Event enables, same layout (R711). -/
def Reg.SBY_EVENT_ENABLE : Nat := 0x2800010
/-- Heartbeat (R711). -/
def Reg.SBY_HB_CFG : Nat := 0x2800018
/-- Heartbeat timing (R711). -/
def Reg.SBY_HB_STATUS : Nat := 0x2800020
/-- APP transmit (R711). -/
def Reg.SBY_APP_CTRL : Nat := 0x2800028
/-- APP DATA bytes 8i to 8i + 7, first in [63:56] (R711). -/
def Reg.SBY_APP_TXi (i : Nat) : Nat := 0x2800030 + i * 8
/-- APP receive queue (R711). -/
def Reg.SBY_APP_DEST : Nat := 0x2800058
/-- Next log SEQ (R711). -/
def Reg.SBY_LOG_SEQ : Nat := 0x2800060
/-- Rails and DIMM supplies (R711). -/
def Reg.SBY_PWR_STATUS : Nat := 0x2800068
/-- Frames sent, accepted (R711). -/
def Reg.SBY_TX_FRAMES : Nat := 0x2800100
/-- Frames sent, accepted (R711). -/
def Reg.SBY_RX_FRAMES : Nat := 0x2800108
/-- Collisions seen (R711). -/
def Reg.SBY_COLLISIONS : Nat := 0x2800110
/-- R684 (R711). -/
def Reg.SBY_TX_ABANDONED : Nat := 0x2800118
/-- R685 (R711). -/
def Reg.SBY_RX_DISCARD : Nat := 0x2800120
/-- Heartbeats (R711). -/
def Reg.SBY_HB_SENT : Nat := 0x2800128
/-- Heartbeats (R711). -/
def Reg.SBY_HB_RECEIVED : Nat := 0x2800130
/-- R690 (R711). -/
def Reg.SBY_HB_ABANDONED : Nat := 0x2800138
/-- R709 (R711). -/
def Reg.SBY_LOG_SUPPRESSED : Nat := 0x2800140
/-- Applies staged registers (R728). -/
def Reg.CLK_COMMIT : Nat := 0x100000
/-- Events (R728). -/
def Reg.CLK_EVENT : Nat := 0x100008
/-- Event enables, same layout (R728). -/
def Reg.CLK_EVENT_ENABLE : Nat := 0x100010
/-- Synthesizer state (R728). -/
def Reg.CLK_STATUS : Nat := 0x100018
/-- Spreading of the engine and fabric domains (R728). -/
def Reg.CLK_SPREAD : Nat := 0x100020
/-- Edge-rate settings (R728). -/
def Reg.CLK_EDGE : Nat := 0x100028

end Sys2Proof.Machine
end

