-- ==== Sys2Proof/Machine/Map.lean ====
section
/-! DEFINITION. Tables as plain data. A table is a list of (key, value) pairs in one canonical form: keys strictly rising and
no entry equal to the value an unlisted key has. Equal tables are therefore equal lists. Registers, memories, record
files and queues indexed by a number are all held so. -/
namespace Sys2Proof.Machine

/-- A table from numbers to values of α; what an unlisted key holds is said by the `d` of each operation. [log 9 DESIGN CHOICE] -/
abbrev Map (α : Type) := List (Nat × α)

/-- The value at key `k`; `d k` where the table lists none. -/
def Map.look {α : Type} (d : Nat → α) : Map α → Nat → α
  | [], k => d k
  | (j, v) :: m, k => if j = k then v else Map.look d m k

/-- The entries of `m` but those of key `k`. -/
def Map.drop {α : Type} (k : Nat) : Map α → Map α
  | [] => []
  | (j, v) :: m => if j = k then Map.drop k m else (j, v) :: Map.drop k m

/-- An entry put in front of the first larger key. -/
def Map.insert {α : Type} (k : Nat) (x : α) : Map α → Map α
  | [] => [(k, x)]
  | (j, v) :: m => if k < j then (k, x) :: (j, v) :: m else (j, v) :: Map.insert k x m

/-- Key `k` set to `x`; writing the value an unlisted key has removes the entry. -/
def Map.put {α : Type} [DecidableEq α] (d : Nat → α) (m : Map α) (k : Nat) (x : α) : Map α :=
  if x = d k then m.drop k else (m.drop k).insert k x

/-- Keys strictly rising from `lo`, and no entry equal to an unlisted one. -/
def Map.wfFrom {α : Type} [DecidableEq α] (d : Nat → α) (lo : Nat) : Map α → Bool
  | [] => true
  | (j, v) :: m => decide (lo ≤ j) && (decide (v ≠ d j) && Map.wfFrom d (j + 1) m)

/-- The canonical form of a table with default `d`. [log 9 DESIGN CHOICE] -/
def Map.wf {α : Type} [DecidableEq α] (d : Nat → α) (m : Map α) : Bool := Map.wfFrom d 0 m

/-- The value at `k` of a table whose unlisted keys hold the type's own default. -/
def Map.get {α : Type} [Inhabited α] (m : Map α) (k : Nat) : α := m.look (fun _ => default) k

/-- Key `k` of a table whose unlisted keys hold the type's own default set to `x`. -/
def Map.set {α : Type} [DecidableEq α] [Inhabited α] (m : Map α) (k : Nat) (x : α) : Map α :=
  m.put (fun _ => default) k x

/-- Key `k` changed by `f`. -/
def Map.upd {α : Type} [DecidableEq α] [Inhabited α] (m : Map α) (k : Nat) (f : α → α) : Map α :=
  m.set k (f (m.get k))

/-- The canonical form of a table whose unlisted keys hold the type's own default. -/
def Map.canon {α : Type} [DecidableEq α] [Inhabited α] (m : Map α) : Bool := m.wf (fun _ => default)

end Sys2Proof.Machine
end

