-- ==== Sys2Proof/Machine/RegMap.lean ====
section
/-! DEFINITION. The register map of BAR0: one row per register family of the spec's register tables
(R29, R61, R123, R164, R216, R280, R319, R359, R403, R446, R487, R529, R583, R586, R627, R676, R679, R711, R728,
R740) with its field tables. A row gives where the instances lie, the value at reset, which bits a write sets (RW),
clears (W1C) or stages (STG), whether it is a counter (R670), and the encodings its fields admit (R25). Bits in none of
the masks are RO, WO or reserved. -/
namespace Sys2Proof.Machine

/-- A field (lowest bit, width) and the intervals of encodings that are not reserved. -/
abbrev FieldLegal := Nat × Nat × List (Nat × Nat)

/-- One register family: `lo` is the BAR0 offset of instance 0 and `dims` the (count, stride) of each index. -/
structure RegRow where
  name : String
  lo : Nat
  dims : List (Nat × Nat)
  reset : Nat
  rw : Nat
  w1c : Nat
  stg : Nat
  counter : Bool
  rc : Bool
  legal : List FieldLegal

/-- Rows of GLB, part 0. -/
def rowsGLB0 : List RegRow := [
  { name := "GLB_DEVICE_ID", lo := 0, dims := [], reset := 0xDE3325000000010, rw := 0, w1c := 0, stg := 0, counter := false, rc := false, legal := [] },
  { name := "GLB_UNIQUE_ID", lo := 8, dims := [], reset := 0, rw := 0, w1c := 0, stg := 0, counter := false, rc := false, legal := [] },
  { name := "GLB_KEY_OPTION", lo := 0x10, dims := [], reset := 0, rw := 0, w1c := 0, stg := 0, counter := false, rc := false, legal := [] },
  { name := "GLB_EVENT_PENDING", lo := 0x100, dims := [], reset := 0, rw := 0, w1c := 0, stg := 0, counter := false, rc := false, legal := [] },
  { name := "GLB_EVENT_ENABLE", lo := 0x108, dims := [], reset := 0, rw := 0x1FFFF, w1c := 0, stg := 0, counter := false, rc := false, legal := [] },
  { name := "GLB_EVENT_ACTIVE", lo := 0x110, dims := [], reset := 0, rw := 0, w1c := 0, stg := 0, counter := false, rc := false, legal := [] },
  { name := "GLB_OWN_EVENT", lo := 0x200, dims := [], reset := 0, rw := 0, w1c := 0xF, stg := 0, counter := false, rc := false, legal := [] },
  { name := "GLB_OWN_EVENT_ENABLE", lo := 0x208, dims := [], reset := 0, rw := 0xF, w1c := 0, stg := 0, counter := false, rc := false, legal := [] },
  { name := "GLB_RESET_CAUSE", lo := 0x210, dims := [], reset := 0, rw := 0, w1c := 0x1F, stg := 0, counter := false, rc := false, legal := [] },
  { name := "GLB_STARTUP", lo := 0x218, dims := [], reset := 0, rw := 0, w1c := 0, stg := 0, counter := false, rc := false, legal := [] },
  { name := "GLB_THERMAL", lo := 0x220, dims := [], reset := 0x6E000000000000, rw := 0xFF000000000000, w1c := 0, stg := 0, counter := false, rc := false, legal := [] },
  { name := "GLB_AVS", lo := 0x228, dims := [], reset := 0x14, rw := 0, w1c := 0, stg := 0, counter := false, rc := false, legal := [] },
  { name := "GLB_STRAPS", lo := 0x230, dims := [], reset := 0, rw := 0, w1c := 0, stg := 0, counter := false, rc := false, legal := [] }]

/-- The register families of block GLB. -/
def rowsGLB : List RegRow := rowsGLB0

/-- Rows of PONU, part 0. -/
def rowsPONU0 : List RegRow := [
  { name := "PONU_CTRL", lo := 0x400000, dims := [(32, 0x10000)], reset := 0, rw := 3, w1c := 0, stg := 0, counter := false, rc := false, legal := [] },
  { name := "PONU_COMMIT", lo := 0x400008, dims := [(32, 0x10000)], reset := 0, rw := 0, w1c := 4, stg := 0, counter := false, rc := false, legal := [] },
  { name := "PONU_EVENT", lo := 0x400010, dims := [(32, 0x10000)], reset := 0, rw := 0, w1c := 0xFF, stg := 0, counter := false, rc := false, legal := [] },
  { name := "PONU_EVENT_ENABLE", lo := 0x400018, dims := [(32, 0x10000)], reset := 0, rw := 0xFF, w1c := 0, stg := 0, counter := false, rc := false, legal := [] },
  { name := "PONU_SUMMARY_DEST", lo := 0x400020, dims := [(32, 0x10000)], reset := 0, rw := 0, w1c := 0, stg := 0x1FFFF, counter := false, rc := false, legal := [(0, 6, [(0, 32)])] },
  { name := "PONU_WL_STATUS", lo := 0x401000, dims := [(32, 0x10000), (2, 0x1000)], reset := 0, rw := 0, w1c := 0, stg := 0, counter := false, rc := false, legal := [] },
  { name := "PONU_TEQD", lo := 0x401008, dims := [(32, 0x10000), (2, 0x1000)], reset := 0, rw := 0, w1c := 0, stg := 0xFFFFFFFF, counter := false, rc := false, legal := [] },
  { name := "PONU_DRIFT", lo := 0x401010, dims := [(32, 0x10000), (2, 0x1000)], reset := 0, rw := 0, w1c := 0, stg := 0xFFFFFF0FFFFFFFFF, counter := false, rc := false, legal := [(32, 4, [(1, 15)])] },
  { name := "PONU_DARK_THRESH", lo := 0x401018, dims := [(32, 0x10000), (2, 0x1000)], reset := 0x80, rw := 0xFF, w1c := 0, stg := 0, counter := false, rc := false, legal := [] },
  { name := "PONU_DARK_POS", lo := 0x401020, dims := [(32, 0x10000), (2, 0x1000)], reset := 0, rw := 0, w1c := 0, stg := 0, counter := false, rc := false, legal := [] },
  { name := "PONU_PROFILEp", lo := 0x401040, dims := [(32, 0x10000), (2, 0x1000), (4, 0x10)], reset := 0, rw := 0, w1c := 0, stg := 0xFF1FFFFF, counter := false, rc := false, legal := [(16, 2, [(0, 1)])] },
  { name := "PONU_DELIMp", lo := 0x401048, dims := [(32, 0x10000), (2, 0x1000), (4, 0x10)], reset := 0, rw := 0, w1c := 0, stg := 0xFFFFFFFFFFFFFFFF, counter := false, rc := false, legal := [] },
  { name := "PONU_BURSTS_GRANTED", lo := 0x401100, dims := [(32, 0x10000), (2, 0x1000)], reset := 0, rw := 0xFFFFFFFFFFFF, w1c := 0, stg := 0, counter := true, rc := false, legal := [] },
  { name := "PONU_BURSTS_RECEIVED", lo := 0x401108, dims := [(32, 0x10000), (2, 0x1000)], reset := 0, rw := 0xFFFFFFFFFFFF, w1c := 0, stg := 0, counter := true, rc := false, legal := [] },
  { name := "PONU_BURSTS_LOST", lo := 0x401110, dims := [(32, 0x10000), (2, 0x1000)], reset := 0, rw := 0xFFFFFFFFFFFF, w1c := 0, stg := 0, counter := true, rc := false, legal := [] },
  { name := "PONU_HEADER_DISCARD", lo := 0x401118, dims := [(32, 0x10000), (2, 0x1000)], reset := 0, rw := 0xFFFFFFFFFFFF, w1c := 0, stg := 0, counter := true, rc := false, legal := [] },
  { name := "PONU_OVERLAP", lo := 0x401120, dims := [(32, 0x10000), (2, 0x1000)], reset := 0, rw := 0xFFFFFFFFFFFF, w1c := 0, stg := 0, counter := true, rc := false, legal := [] },
  { name := "PONU_BURSTS_SKIPPED", lo := 0x401128, dims := [(32, 0x10000), (2, 0x1000)], reset := 0, rw := 0xFFFFFFFFFFFF, w1c := 0, stg := 0, counter := true, rc := false, legal := [] },
  { name := "PONU_TRAIN_LATE", lo := 0x401130, dims := [(32, 0x10000), (2, 0x1000)], reset := 0, rw := 0xFFFFFFFFFFFF, w1c := 0, stg := 0, counter := true, rc := false, legal := [] },
  { name := "PONU_FEC_CORR", lo := 0x401138, dims := [(32, 0x10000), (2, 0x1000)], reset := 0, rw := 0xFFFFFFFFFFFF, w1c := 0, stg := 0, counter := true, rc := false, legal := [] }]

/-- Rows of PONU, part 1. -/
def rowsPONU1 : List RegRow := [
  { name := "PONU_FEC_UNCORR", lo := 0x401140, dims := [(32, 0x10000), (2, 0x1000)], reset := 0, rw := 0xFFFFFFFFFFFF, w1c := 0, stg := 0, counter := true, rc := false, legal := [] },
  { name := "PONU_HEC_CORR", lo := 0x401148, dims := [(32, 0x10000), (2, 0x1000)], reset := 0, rw := 0xFFFFFFFFFFFF, w1c := 0, stg := 0, counter := true, rc := false, legal := [] },
  { name := "PONU_HEC_UNCORR", lo := 0x401150, dims := [(32, 0x10000), (2, 0x1000)], reset := 0, rw := 0xFFFFFFFFFFFF, w1c := 0, stg := 0, counter := true, rc := false, legal := [] },
  { name := "PONU_BIP_ERR", lo := 0x401158, dims := [(32, 0x10000), (2, 0x1000)], reset := 0, rw := 0xFFFFFFFFFFFF, w1c := 0, stg := 0, counter := true, rc := false, legal := [] },
  { name := "PONU_DBRU_ERR", lo := 0x401160, dims := [(32, 0x10000), (2, 0x1000)], reset := 0, rw := 0xFFFFFFFFFFFF, w1c := 0, stg := 0, counter := true, rc := false, legal := [] },
  { name := "PONU_PORT_MISMATCH", lo := 0x401168, dims := [(32, 0x10000), (2, 0x1000)], reset := 0, rw := 0xFFFFFFFFFFFF, w1c := 0, stg := 0, counter := true, rc := false, legal := [] },
  { name := "PONU_FRAG_DISCARD", lo := 0x401170, dims := [(32, 0x10000), (2, 0x1000)], reset := 0, rw := 0xFFFFFFFFFFFF, w1c := 0, stg := 0, counter := true, rc := false, legal := [] },
  { name := "PONU_SUMMARY_DROP", lo := 0x401178, dims := [(32, 0x10000), (2, 0x1000)], reset := 0, rw := 0xFFFFFFFFFFFF, w1c := 0, stg := 0, counter := true, rc := false, legal := [] },
  { name := "PONU_PLI_OVERRUN", lo := 0x401180, dims := [(32, 0x10000), (2, 0x1000)], reset := 0, rw := 0xFFFFFFFFFFFF, w1c := 0, stg := 0, counter := true, rc := false, legal := [] }]

/-- The register families of block PONU. -/
def rowsPONU : List RegRow := rowsPONU0 ++ rowsPONU1

/-- Rows of ALLOC, part 0. -/
def rowsALLOC0 : List RegRow := [
  { name := "ALLOC_COMMIT", lo := 0x800000, dims := [], reset := 0, rw := 0, w1c := 4, stg := 0, counter := false, rc := false, legal := [] },
  { name := "ALLOC_EVENT", lo := 0x800008, dims := [], reset := 0, rw := 0, w1c := 0x7F, stg := 0, counter := false, rc := false, legal := [] },
  { name := "ALLOC_EVENT_ENABLE", lo := 0x800010, dims := [], reset := 0, rw := 0x7F, w1c := 0, stg := 0, counter := false, rc := false, legal := [] },
  { name := "ALLOC_REFUSE_EVENT", lo := 0x800018, dims := [], reset := 0, rw := 0, w1c := 0xFFFFFFFFFFFFFFFF, stg := 0, counter := false, rc := false, legal := [] },
  { name := "ALLOC_REFUSE_ENABLE", lo := 0x800020, dims := [], reset := 0, rw := 0xFFFFFFFFFFFFFFFF, w1c := 0, stg := 0, counter := false, rc := false, legal := [] },
  { name := "ALLOC_REC_ADDR", lo := 0x800028, dims := [], reset := 0, rw := 0xFFFFF, w1c := 0, stg := 0, counter := false, rc := false, legal := [] },
  { name := "ALLOC_REC_DATA", lo := 0x800030, dims := [], reset := 0, rw := 0xFFFFFFFFFFFFFFFF, w1c := 0, stg := 0, counter := false, rc := false, legal := [] },
  { name := "ALLOC_OWNER", lo := 0x810000, dims := [(32, 0x1000)], reset := 0, rw := 0xFFFFFFFF00000FFF, w1c := 0, stg := 0, counter := false, rc := false, legal := [] },
  { name := "ALLOC_VERDICT_DEST", lo := 0x810008, dims := [(32, 0x1000)], reset := 0, rw := 0, w1c := 0, stg := 0x1FFFF, counter := false, rc := false, legal := [(0, 6, [(0, 32)])] },
  { name := "ALLOC_TSTATUS", lo := 0x810010, dims := [(32, 0x1000)], reset := 0, rw := 0, w1c := 0, stg := 0, counter := false, rc := false, legal := [] },
  { name := "ALLOC_LAST_VERDICT", lo := 0x810100, dims := [(32, 0x1000), (2, 0x100)], reset := 0, rw := 0, w1c := 0, stg := 0, counter := false, rc := false, legal := [] },
  { name := "ALLOC_MARGIN", lo := 0x810108, dims := [(32, 0x1000), (2, 0x100)], reset := 2, rw := 0, w1c := 0, stg := 0xFF, counter := false, rc := false, legal := [] },
  { name := "ALLOC_REFUSE_RUN", lo := 0x810110, dims := [(32, 0x1000), (2, 0x100)], reset := 0, rw := 0, w1c := 0, stg := 0, counter := false, rc := false, legal := [] },
  { name := "ALLOC_XWx", lo := 0x810140, dims := [(32, 0x1000), (2, 0x100), (8, 8)], reset := 0, rw := 0, w1c := 0, stg := 0x1FFFFFFFFFFFFFF, counter := false, rc := false, legal := [] },
  { name := "ALLOC_MAPS_PASSED", lo := 0x810180, dims := [(32, 0x1000), (2, 0x100)], reset := 0, rw := 0xFFFFFFFFFFFF, w1c := 0, stg := 0, counter := true, rc := false, legal := [] },
  { name := "ALLOC_MAPS_REFUSED", lo := 0x810188, dims := [(32, 0x1000), (2, 0x100)], reset := 0, rw := 0xFFFFFFFFFFFF, w1c := 0, stg := 0, counter := true, rc := false, legal := [] },
  { name := "ALLOC_MAPS_LATE", lo := 0x810190, dims := [(32, 0x1000), (2, 0x100)], reset := 0, rw := 0xFFFFFFFFFFFF, w1c := 0, stg := 0, counter := true, rc := false, legal := [] },
  { name := "ALLOC_GRANTS_REMOVED", lo := 0x810198, dims := [(32, 0x1000), (2, 0x100)], reset := 0, rw := 0xFFFFFFFFFFFF, w1c := 0, stg := 0, counter := true, rc := false, legal := [] },
  { name := "ALLOC_VERDICT_DROP", lo := 0x8101A0, dims := [(32, 0x1000), (2, 0x100)], reset := 0, rw := 0xFFFFFFFFFFFF, w1c := 0, stg := 0, counter := true, rc := false, legal := [] }]

/-- The register families of block ALLOC. -/
def rowsALLOC : List RegRow := rowsALLOC0

/-- Rows of POND, part 0. -/
def rowsPOND0 : List RegRow := [
  { name := "POND_CTRL", lo := 0x600000, dims := [(32, 0x10000)], reset := 0, rw := 3, w1c := 0, stg := 0, counter := false, rc := false, legal := [] },
  { name := "POND_COMMIT", lo := 0x600008, dims := [(32, 0x10000)], reset := 0, rw := 0, w1c := 4, stg := 0, counter := false, rc := false, legal := [] },
  { name := "POND_EVENT", lo := 0x600010, dims := [(32, 0x10000)], reset := 0, rw := 0, w1c := 0x3FF, stg := 0, counter := false, rc := false, legal := [] },
  { name := "POND_EVENT_ENABLE", lo := 0x600018, dims := [(32, 0x10000)], reset := 0, rw := 0x3FF, w1c := 0, stg := 0, counter := false, rc := false, legal := [] },
  { name := "POND_TIMING_CTRL", lo := 0x600020, dims := [(32, 0x10000)], reset := 0, rw := 0, w1c := 0, stg := 0, counter := false, rc := false, legal := [] },
  { name := "POND_FC_START", lo := 0x600028, dims := [(32, 0x10000)], reset := 0, rw := 0x7FFFFFFFFFFFF, w1c := 0, stg := 0, counter := false, rc := false, legal := [] },
  { name := "POND_START_TIME", lo := 0x600030, dims := [(32, 0x10000)], reset := 0, rw := 0xFFFFFFFFFFFFFFFF, w1c := 0, stg := 0, counter := false, rc := false, legal := [] },
  { name := "POND_FC", lo := 0x600038, dims := [(32, 0x10000)], reset := 0, rw := 0, w1c := 0, stg := 0, counter := false, rc := false, legal := [] },
  { name := "POND_T0_STAMP", lo := 0x600040, dims := [(32, 0x10000)], reset := 0, rw := 0, w1c := 0, stg := 0, counter := false, rc := false, legal := [] },
  { name := "POND_PHASE", lo := 0x600048, dims := [(32, 0x10000)], reset := 0, rw := 0, w1c := 0, stg := 0, counter := false, rc := false, legal := [] },
  { name := "POND_PHASE_LIMIT", lo := 0x600050, dims := [(32, 0x10000)], reset := 0x64, rw := 0xFFFF, w1c := 0, stg := 0, counter := false, rc := false, legal := [] },
  { name := "POND_TOD_ARM", lo := 0x600058, dims := [(32, 0x10000)], reset := 0, rw := 0x800FFFFFFFFFFFFF, w1c := 0, stg := 0, counter := false, rc := false, legal := [] },
  { name := "POND_TOD_STAMP_NS", lo := 0x600060, dims := [(32, 0x10000)], reset := 0, rw := 0, w1c := 0, stg := 0, counter := false, rc := false, legal := [] },
  { name := "POND_TOD_STAMP_FRAC", lo := 0x600068, dims := [(32, 0x10000)], reset := 0, rw := 0, w1c := 0, stg := 0, counter := false, rc := false, legal := [] },
  { name := "POND_STAT_SEL", lo := 0x600070, dims := [(32, 0x10000)], reset := 0, rw := 0xFFFF, w1c := 0, stg := 0, counter := false, rc := false, legal := [] },
  { name := "POND_STAT_FRAMES", lo := 0x600078, dims := [(32, 0x10000)], reset := 0, rw := 0xFFFFFFFFFFFF, w1c := 0, stg := 0, counter := true, rc := false, legal := [] },
  { name := "POND_STAT_BYTES", lo := 0x600080, dims := [(32, 0x10000)], reset := 0, rw := 0xFFFFFFFFFFFF, w1c := 0, stg := 0, counter := true, rc := false, legal := [] },
  { name := "POND_STAT_DISCARDS", lo := 0x600088, dims := [(32, 0x10000)], reset := 0, rw := 0xFFFFFFFFFFFF, w1c := 0, stg := 0, counter := true, rc := false, legal := [] },
  { name := "POND_STAT_HALF_FIFO", lo := 0x600090, dims := [(32, 0x10000)], reset := 0, rw := 0, w1c := 0, stg := 0, counter := false, rc := true, legal := [] },
  { name := "POND_STAT_HALF_LOST", lo := 0x600098, dims := [(32, 0x10000)], reset := 0, rw := 0xFFFFFFFFFFFF, w1c := 0, stg := 0, counter := true, rc := false, legal := [] }]

/-- Rows of POND, part 1. -/
def rowsPOND1 : List RegRow := [
  { name := "POND_WL_STATUS", lo := 0x601000, dims := [(32, 0x10000), (2, 0x1000)], reset := 0, rw := 0, w1c := 0, stg := 0, counter := false, rc := false, legal := [] },
  { name := "POND_PON_ID", lo := 0x601008, dims := [(32, 0x10000), (2, 0x1000)], reset := 0, rw := 0, w1c := 0, stg := 0x7FFFFFFFFFFFF, counter := false, rc := false, legal := [] },
  { name := "POND_CLASS", lo := 0x601010, dims := [(32, 0x10000), (2, 0x1000)], reset := 0x100FF, rw := 0, w1c := 0, stg := 0x1FFFF, counter := false, rc := false, legal := [] },
  { name := "POND_MAX_SDU", lo := 0x601018, dims := [(32, 0x10000), (2, 0x1000)], reset := 0x2580, rw := 0, w1c := 0, stg := 0x3FFF, counter := false, rc := false, legal := [(0, 14, [(64, 16383)])] },
  { name := "POND_PLOAM_MAX", lo := 0x601020, dims := [(32, 0x10000), (2, 0x1000)], reset := 4, rw := 0, w1c := 0, stg := 0x1F, counter := false, rc := false, legal := [(0, 5, [(0, 16)])] },
  { name := "POND_TX_LATENCY", lo := 0x601028, dims := [(32, 0x10000), (2, 0x1000)], reset := 0, rw := 0, w1c := 0, stg := 0, counter := false, rc := false, legal := [] },
  { name := "POND_TX_OFFSET", lo := 0x601030, dims := [(32, 0x10000), (2, 0x1000)], reset := 0, rw := 0xFFFFFFFF, w1c := 0, stg := 0, counter := false, rc := false, legal := [] },
  { name := "POND_PLOAM_STATUS", lo := 0x601038, dims := [(32, 0x10000), (2, 0x1000)], reset := 0, rw := 0, w1c := 0, stg := 0, counter := false, rc := false, legal := [] },
  { name := "POND_XWx", lo := 0x601040, dims := [(32, 0x10000), (2, 0x1000), (8, 8)], reset := 0, rw := 0, w1c := 0, stg := 0x1FFFFFFFFFFFFFFF, counter := false, rc := false, legal := [] },
  { name := "POND_FRAMES_SENT", lo := 0x601100, dims := [(32, 0x10000), (2, 0x1000)], reset := 0, rw := 0xFFFFFFFFFFFF, w1c := 0, stg := 0, counter := true, rc := false, legal := [] },
  { name := "POND_FRAGMENTS", lo := 0x601108, dims := [(32, 0x10000), (2, 0x1000)], reset := 0, rw := 0xFFFFFFFFFFFF, w1c := 0, stg := 0, counter := true, rc := false, legal := [] },
  { name := "POND_OVERSIZE_DROP", lo := 0x601110, dims := [(32, 0x10000), (2, 0x1000)], reset := 0, rw := 0xFFFFFFFFFFFF, w1c := 0, stg := 0, counter := true, rc := false, legal := [] },
  { name := "POND_KEY_DROP", lo := 0x601118, dims := [(32, 0x10000), (2, 0x1000)], reset := 0, rw := 0xFFFFFFFFFFFF, w1c := 0, stg := 0, counter := true, rc := false, legal := [] },
  { name := "POND_XW_DISCARD", lo := 0x601120, dims := [(32, 0x10000), (2, 0x1000)], reset := 0, rw := 0xFFFFFFFFFFFF, w1c := 0, stg := 0, counter := true, rc := false, legal := [] },
  { name := "POND_FRAG_ABORT", lo := 0x601128, dims := [(32, 0x10000), (2, 0x1000)], reset := 0, rw := 0xFFFFFFFFFFFF, w1c := 0, stg := 0, counter := true, rc := false, legal := [] },
  { name := "POND_PLOAM_SENT", lo := 0x601130, dims := [(32, 0x10000), (2, 0x1000)], reset := 0, rw := 0xFFFFFFFFFFFF, w1c := 0, stg := 0, counter := true, rc := false, legal := [] },
  { name := "POND_PLOAM_FULL", lo := 0x601138, dims := [(32, 0x10000), (2, 0x1000)], reset := 0, rw := 0xFFFFFFFFFFFF, w1c := 0, stg := 0, counter := true, rc := false, legal := [] },
  { name := "POND_SIZEk", lo := 0x601140, dims := [(32, 0x10000), (2, 0x1000), (10, 8)], reset := 0, rw := 0xFFFFFFFFFFFF, w1c := 0, stg := 0, counter := true, rc := false, legal := [] },
  { name := "POND_TYPEy", lo := 0x601190, dims := [(32, 0x10000), (2, 0x1000), (4, 8)], reset := 0, rw := 0xFFFFFFFFFFFF, w1c := 0, stg := 0, counter := true, rc := false, legal := [] },
  { name := "POND_PLOAM_HOSTi", lo := 0x601200, dims := [(32, 0x10000), (2, 0x1000), (8, 8)], reset := 0, rw := 0, w1c := 0, stg := 0, counter := false, rc := false, legal := [] }]

/-- The register families of block POND. -/
def rowsPOND : List RegRow := rowsPOND0 ++ rowsPOND1

/-- Rows of CRU, part 0. -/
def rowsCRU0 : List RegRow := [
  { name := "CRU_CTRL", lo := 0x1C00000, dims := [(33, 0x40000)], reset := 0, rw := 3, w1c := 0, stg := 0, counter := false, rc := false, legal := [] },
  { name := "CRU_COMMIT", lo := 0x1C00008, dims := [(33, 0x40000)], reset := 0, rw := 0, w1c := 4, stg := 0, counter := false, rc := false, legal := [] },
  { name := "CRU_EVENT", lo := 0x1C00010, dims := [(33, 0x40000)], reset := 0, rw := 0, w1c := 0x7F, stg := 0, counter := false, rc := false, legal := [] },
  { name := "CRU_EVENT_ENABLE", lo := 0x1C00018, dims := [(33, 0x40000)], reset := 0, rw := 0x7F, w1c := 0, stg := 0, counter := false, rc := false, legal := [] },
  { name := "CRU_MEM_ADDR", lo := 0x1C00020, dims := [(33, 0x40000)], reset := 0, rw := 0x800000001FFFFFFF, w1c := 0, stg := 0, counter := false, rc := false, legal := [(22, 2, [(0, 2)])] },
  { name := "CRU_MEM_DATA", lo := 0x1C00028, dims := [(33, 0x40000)], reset := 0, rw := 0xFFFFFFFFFFFFFFFF, w1c := 0, stg := 0, counter := false, rc := false, legal := [] },
  { name := "CRU_THREAD_SEL", lo := 0x1C00030, dims := [(33, 0x40000)], reset := 0, rw := 0xFF, w1c := 0, stg := 0, counter := false, rc := false, legal := [] },
  { name := "CRU_THREAD_CTRL", lo := 0x1C00038, dims := [(33, 0x40000)], reset := 0, rw := 0xFFFF00000030, w1c := 0, stg := 0, counter := false, rc := false, legal := [] },
  { name := "CRU_THREAD_STATUS", lo := 0x1C00040, dims := [(33, 0x40000)], reset := 0, rw := 0, w1c := 0, stg := 0, counter := false, rc := false, legal := [] },
  { name := "CRU_QUEUE_SEL", lo := 0x1C00050, dims := [(33, 0x40000)], reset := 0, rw := 0x3FF, w1c := 0, stg := 0, counter := false, rc := false, legal := [] },
  { name := "CRU_QUEUE_CFG", lo := 0x1C00058, dims := [(33, 0x40000)], reset := 0, rw := 0, w1c := 0, stg := 0x7FFFFFFF, counter := false, rc := false, legal := [] },
  { name := "CRU_QUEUE_STATUS", lo := 0x1C00060, dims := [(33, 0x40000)], reset := 0, rw := 0, w1c := 0, stg := 0, counter := false, rc := false, legal := [] },
  { name := "CRU_QUEUE_DROPS", lo := 0x1C00068, dims := [(33, 0x40000)], reset := 0, rw := 0xFFFFFFFFFFFF, w1c := 0, stg := 0, counter := true, rc := false, legal := [] },
  { name := "CRU_CTR_SEL", lo := 0x1C00070, dims := [(33, 0x40000)], reset := 0, rw := 0xFF, w1c := 0, stg := 0, counter := false, rc := false, legal := [(5, 3, [(0, 6)])] },
  { name := "CRU_CTR_DATA", lo := 0x1C00078, dims := [(33, 0x40000)], reset := 0, rw := 0xFFFFFFFFFFFF, w1c := 0, stg := 0, counter := false, rc := false, legal := [] },
  { name := "CRU_CTR_CFG", lo := 0x1C00080, dims := [(33, 0x40000)], reset := 0, rw := 0x3FF, w1c := 0x400, stg := 0, counter := false, rc := false, legal := [(0, 8, [(0, 60)])] },
  { name := "CRU_TRIG_LOG", lo := 0x1C00088, dims := [(33, 0x40000)], reset := 0, rw := 0, w1c := 0, stg := 0, counter := false, rc := true, legal := [] },
  { name := "CRU_TRIG_LOG_LOST", lo := 0x1C00090, dims := [(33, 0x40000)], reset := 0, rw := 0xFFFFFFFFFFFF, w1c := 0, stg := 0, counter := true, rc := false, legal := [] },
  { name := "CRU_VBASE", lo := 0x1C00098, dims := [(33, 0x40000)], reset := 0, rw := 0x3F000, w1c := 0, stg := 0, counter := false, rc := false, legal := [] },
  { name := "CRU_RUN_LIMIT", lo := 0x1C000A0, dims := [(33, 0x40000)], reset := 0x100000, rw := 0xFFFFFFFF, w1c := 0, stg := 0, counter := false, rc := false, legal := [] }]

/-- Rows of CRU, part 1. -/
def rowsCRU1 : List RegRow := [
  { name := "CRU_PATTERN_VERSION", lo := 0x1C00100, dims := [(33, 0x40000)], reset := 0, rw := 0, w1c := 0, stg := 0, counter := false, rc := false, legal := [] },
  { name := "CRU_PATCH_LIST", lo := 0x1C00108, dims := [(33, 0x40000)], reset := 0, rw := 0x3F, w1c := 0, stg := 0, counter := false, rc := false, legal := [] },
  { name := "CRU_UC_EVENT", lo := 0x1C00110, dims := [(33, 0x40000)], reset := 0, rw := 0, w1c := 0x7F, stg := 0, counter := false, rc := false, legal := [] },
  { name := "CRU_UC_EVENT_ENABLE", lo := 0x1C00118, dims := [(33, 0x40000)], reset := 0, rw := 0x7F, w1c := 0, stg := 0, counter := false, rc := false, legal := [] },
  { name := "CRU_UC_ERR_ADDR", lo := 0x1C00120, dims := [(33, 0x40000)], reset := 0, rw := 0, w1c := 0, stg := 0, counter := false, rc := false, legal := [] },
  { name := "CRU_UC_CORR", lo := 0x1C00128, dims := [(33, 0x40000)], reset := 0, rw := 0xFFFFFFFFFFFF, w1c := 0, stg := 0, counter := true, rc := false, legal := [] },
  { name := "CRU_UC_UNCORR", lo := 0x1C00130, dims := [(33, 0x40000)], reset := 0, rw := 0xFFFFFFFFFFFF, w1c := 0, stg := 0, counter := true, rc := false, legal := [] },
  { name := "CRU_LOAD_CTRL", lo := 0x1C00400, dims := [], reset := 0, rw := 6, w1c := 0, stg := 0, counter := false, rc := false, legal := [(1, 2, [(0, 2)])] },
  { name := "CRU_LOAD_ADDR", lo := 0x1C00408, dims := [], reset := 0, rw := 0xFFFFFFFFFFFFFFF8, w1c := 0, stg := 0, counter := false, rc := false, legal := [] },
  { name := "CRU_LOAD_LEN", lo := 0x1C00410, dims := [], reset := 0, rw := 0x1FFFFF, w1c := 0, stg := 0, counter := false, rc := false, legal := [] },
  { name := "CRU_LOAD_STATUS", lo := 0x1C00418, dims := [], reset := 0, rw := 0, w1c := 0, stg := 0, counter := false, rc := false, legal := [] }]

/-- The register families of block CRU. -/
def rowsCRU : List RegRow := rowsCRU0 ++ rowsCRU1

/-- Rows of PRS, part 0. -/
def rowsPRS0 : List RegRow := [
  { name := "PRS_COMMIT", lo := 0xA00000, dims := [], reset := 0, rw := 0, w1c := 4, stg := 0, counter := false, rc := false, legal := [] },
  { name := "PRS_EVENT", lo := 0xA00008, dims := [], reset := 0, rw := 0, w1c := 0x1FF, stg := 0, counter := false, rc := false, legal := [] },
  { name := "PRS_EVENT_ENABLE", lo := 0xA00010, dims := [], reset := 0, rw := 0x1FF, w1c := 0, stg := 0, counter := false, rc := false, legal := [] },
  { name := "PRS_EPOCH", lo := 0xA00018, dims := [], reset := 0, rw := 0, w1c := 0, stg := 0, counter := false, rc := false, legal := [] },
  { name := "PRS_NODE_SEL", lo := 0xA00020, dims := [], reset := 0, rw := 0x3FFF, w1c := 0, stg := 0, counter := false, rc := false, legal := [(8, 5, [(0, 19)])] },
  { name := "PRS_NODE_DATA", lo := 0xA00028, dims := [], reset := 0, rw := 0, w1c := 0, stg := 0xFFFFFFFFFFFFFFFF, counter := false, rc := false, legal := [] },
  { name := "PRS_SRC_SEL", lo := 0xA00030, dims := [], reset := 0, rw := 0x7F, w1c := 0, stg := 0, counter := false, rc := false, legal := [(0, 7, [(0, 95)])] },
  { name := "PRS_SRC_START", lo := 0xA00038, dims := [], reset := 0, rw := 0, w1c := 0, stg := 0x1FFFFF, counter := false, rc := false, legal := [] },
  { name := "PRS_PROFILE_SEL", lo := 0xA00040, dims := [], reset := 0, rw := 0xF, w1c := 0, stg := 0, counter := false, rc := false, legal := [] },
  { name := "PRS_PROFILE_CTRL", lo := 0xA00048, dims := [], reset := 0, rw := 0, w1c := 0, stg := 0x3F, counter := false, rc := false, legal := [] },
  { name := "PRS_PROFILE_RULE_MASK", lo := 0xA00050, dims := [], reset := 0, rw := 0, w1c := 0, stg := 0xFFFFFFFFFFFFFFFF, counter := false, rc := false, legal := [] },
  { name := "PRS_PROFILE_HASH_MASK", lo := 0xA00058, dims := [], reset := 0, rw := 0, w1c := 0, stg := 0xFFFFFFFFFFFFFFFF, counter := false, rc := false, legal := [] },
  { name := "PRS_PROFILE_MISS", lo := 0xA00060, dims := [], reset := 0, rw := 0, w1c := 0, stg := 0xFFFFFFFFFFFFFFFF, counter := false, rc := false, legal := [] },
  { name := "PRS_HASH_SEED", lo := 0xA00068, dims := [], reset := 0xFFFFFFFF, rw := 0, w1c := 0, stg := 0xFFFFFFFF, counter := false, rc := false, legal := [] },
  { name := "PRS_TOEPLITZk", lo := 0xA00070, dims := [(9, 8)], reset := 0, rw := 0, w1c := 0, stg := 0xFFFFFFFFFFFFFFFF, counter := false, rc := false, legal := [] },
  { name := "PRS_RS_CMD", lo := 0xA000C0, dims := [], reset := 0, rw := 0x1FF, w1c := 0, stg := 0, counter := false, rc := false, legal := [(0, 3, [(0, 4)])] },
  { name := "PRS_RS_KEYk", lo := 0xA000C8, dims := [(4, 8)], reset := 0, rw := 0xFFFFFFFFFFFFFFFF, w1c := 0, stg := 0, counter := false, rc := false, legal := [] },
  { name := "PRS_RS_RESULT", lo := 0xA000E8, dims := [], reset := 0, rw := 0xFFFFFFFFFFFFFFFF, w1c := 0, stg := 0, counter := false, rc := false, legal := [] },
  { name := "PRS_RS_STATUS", lo := 0xA000F0, dims := [], reset := 0, rw := 0, w1c := 0, stg := 0, counter := false, rc := false, legal := [] },
  { name := "PRS_IND_SEL", lo := 0xA00100, dims := [], reset := 0, rw := 0x7FFF, w1c := 0, stg := 0, counter := false, rc := false, legal := [] }]

/-- Rows of PRS, part 1. -/
def rowsPRS1 : List RegRow := [
  { name := "PRS_IND_DATA", lo := 0xA00108, dims := [], reset := 0, rw := 0xFFFFFFFFFFFFFFFF, w1c := 0, stg := 0, counter := false, rc := false, legal := [] },
  { name := "PRS_SP_SEL", lo := 0xA00110, dims := [], reset := 0, rw := 0x1F, w1c := 0, stg := 0, counter := false, rc := false, legal := [(0, 5, [(0, 10), (16, 31)])] },
  { name := "PRS_SP_CFG", lo := 0xA00118, dims := [], reset := 0, rw := 0x1FF, w1c := 0, stg := 0, counter := false, rc := false, legal := [] },
  { name := "PRS_SP_DELIVERED", lo := 0xA00120, dims := [], reset := 0, rw := 0xFFFFFFFFFFFF, w1c := 0, stg := 0, counter := true, rc := false, legal := [] },
  { name := "PRS_SP_DROP", lo := 0xA00128, dims := [], reset := 0, rw := 0xFFFFFFFFFFFF, w1c := 0, stg := 0, counter := true, rc := false, legal := [] },
  { name := "PRS_MALFORMED", lo := 0xA00130, dims := [], reset := 0, rw := 0xFFFFFFFFFFFF, w1c := 0, stg := 0, counter := true, rc := false, legal := [] },
  { name := "PRS_DEPTH", lo := 0xA00138, dims := [], reset := 0, rw := 0xFFFFFFFFFFFF, w1c := 0, stg := 0, counter := true, rc := false, legal := [] },
  { name := "PRS_FRAG", lo := 0xA00140, dims := [], reset := 0, rw := 0xFFFFFFFFFFFF, w1c := 0, stg := 0, counter := true, rc := false, legal := [] },
  { name := "PRS_RECIRC", lo := 0xA00148, dims := [], reset := 0, rw := 0xFFFFFFFFFFFF, w1c := 0, stg := 0, counter := true, rc := false, legal := [] },
  { name := "PRS_RECIRC_SHED", lo := 0xA00150, dims := [], reset := 0, rw := 0xFFFFFFFFFFFF, w1c := 0, stg := 0, counter := true, rc := false, legal := [] },
  { name := "PRS_LOOP", lo := 0xA00158, dims := [], reset := 0, rw := 0xFFFFFFFFFFFF, w1c := 0, stg := 0, counter := true, rc := false, legal := [] },
  { name := "PRS_RS_MISS", lo := 0xA00160, dims := [], reset := 0, rw := 0xFFFFFFFFFFFF, w1c := 0, stg := 0, counter := true, rc := false, legal := [] },
  { name := "PRS_ENTRY_ERR", lo := 0xA00168, dims := [], reset := 0, rw := 0xFFFFFFFFFFFF, w1c := 0, stg := 0, counter := true, rc := false, legal := [] }]

/-- The register families of block PRS. -/
def rowsPRS : List RegRow := rowsPRS0 ++ rowsPRS1

/-- Rows of FWD, part 0. -/
def rowsFWD0 : List RegRow := [
  { name := "FWD_COMMIT", lo := 0xC00000, dims := [], reset := 0, rw := 0, w1c := 4, stg := 0, counter := false, rc := false, legal := [] },
  { name := "FWD_EVENT", lo := 0xC00008, dims := [], reset := 0, rw := 0, w1c := 0x3FF, stg := 0, counter := false, rc := false, legal := [] },
  { name := "FWD_EVENT_ENABLE", lo := 0xC00010, dims := [], reset := 0, rw := 0x3FF, w1c := 0, stg := 0, counter := false, rc := false, legal := [] },
  { name := "FWD_REHASH", lo := 0xC00018, dims := [], reset := 0, rw := 0, w1c := 0xFFFFFFFF, stg := 0, counter := false, rc := false, legal := [] },
  { name := "FWD_TABLE_CFGn", lo := 0xC00020, dims := [(2, 8)], reset := 0x4FFFFFFFF, rw := 0, w1c := 0, stg := 0x3FFFFFFFFFF, counter := false, rc := false, legal := [(32, 4, [(1, 8)])] },
  { name := "FWD_EXT_BASEn", lo := 0xC00030, dims := [(2, 8)], reset := 0, rw := 0, w1c := 0, stg := 0xFFFFFFFFFFFFFC0, counter := false, rc := false, legal := [] },
  { name := "FWD_SWEEPn", lo := 0xC00040, dims := [(2, 8)], reset := 0, rw := 0xFFFFFFFF, w1c := 0, stg := 0, counter := false, rc := false, legal := [] },
  { name := "FWD_LEARN_CFG", lo := 0xC00050, dims := [], reset := 0x1F420, rw := 0, w1c := 0, stg := 0xFFFFF, counter := false, rc := false, legal := [(1, 2, [(0, 2)]), (3, 4, [(2, 15)]), (7, 13, [(1, 8191)])] },
  { name := "FWD_REPORT_DEST", lo := 0xC00058, dims := [], reset := 0, rw := 0, w1c := 0, stg := 0x1FFFFFF, counter := false, rc := false, legal := [(0, 6, [(0, 32)])] },
  { name := "FWD_PROFILE_SEL", lo := 0xC00060, dims := [], reset := 0, rw := 0xF, w1c := 0, stg := 0, counter := false, rc := false, legal := [] },
  { name := "FWD_PROFILE_CTRL", lo := 0xC00068, dims := [], reset := 0, rw := 0, w1c := 0, stg := 7, counter := false, rc := false, legal := [(0, 2, [(0, 2)])] },
  { name := "FWD_PROFILE_FLOW_MASK", lo := 0xC00070, dims := [], reset := 0, rw := 0, w1c := 0, stg := 0xFFFFFFFFFFFFFFFF, counter := false, rc := false, legal := [] },
  { name := "FWD_PORTMAP_SEL", lo := 0xC00078, dims := [], reset := 0, rw := 0x3F, w1c := 0, stg := 0, counter := false, rc := false, legal := [] },
  { name := "FWD_PORTMAP", lo := 0xC00080, dims := [], reset := 0, rw := 0, w1c := 0, stg := 0xFFFFFFFF, counter := false, rc := false, legal := [] },
  { name := "FWD_BD_SEL", lo := 0xC00088, dims := [], reset := 0, rw := 0x3FFF, w1c := 0, stg := 0, counter := false, rc := false, legal := [] },
  { name := "FWD_BD_CFG", lo := 0xC00090, dims := [], reset := 0, rw := 0xFFFFFFFFF, w1c := 0, stg := 0, counter := false, rc := false, legal := [] },
  { name := "FWD_CTX_SEL", lo := 0xC00098, dims := [], reset := 0, rw := 0xFFFFF, w1c := 0, stg := 0, counter := false, rc := false, legal := [] },
  { name := "FWD_CTX_DATA", lo := 0xC000A0, dims := [], reset := 0, rw := 0xFFFFFFFF, w1c := 0, stg := 0, counter := false, rc := false, legal := [(1, 10, [(0, 1019)])] },
  { name := "FWD_UPLINK_SEL", lo := 0xC000A8, dims := [], reset := 0, rw := 0x1F, w1c := 0, stg := 0, counter := false, rc := false, legal := [] },
  { name := "FWD_UPLINK_DEST", lo := 0xC000B0, dims := [], reset := 0x20000000, rw := 0xFFFFFFFF, w1c := 0, stg := 0, counter := false, rc := false, legal := [] }]

/-- Rows of FWD, part 1. -/
def rowsFWD1 : List RegRow := [
  { name := "FWD_TBL_CMD", lo := 0xC000B8, dims := [], reset := 0, rw := 0x7F, w1c := 0, stg := 0, counter := false, rc := false, legal := [] },
  { name := "FWD_TBL_ENTRY_HI", lo := 0xC000C0, dims := [], reset := 0, rw := 0xFFFFFFFFFFFFFFFF, w1c := 0, stg := 0, counter := false, rc := false, legal := [] },
  { name := "FWD_TBL_ENTRY_LO", lo := 0xC000C8, dims := [], reset := 0, rw := 0xFFFFFFFFFFFFFFFF, w1c := 0, stg := 0, counter := false, rc := false, legal := [] },
  { name := "FWD_TBL_LOC", lo := 0xC000D0, dims := [], reset := 0, rw := 0, w1c := 0, stg := 0, counter := false, rc := false, legal := [] },
  { name := "FWD_OCCUPANCYn", lo := 0xC000D8, dims := [(2, 8)], reset := 0, rw := 0, w1c := 0, stg := 0, counter := false, rc := false, legal := [] },
  { name := "FWD_LEARNED", lo := 0xC00100, dims := [], reset := 0, rw := 0xFFFFFFFFFFFF, w1c := 0, stg := 0, counter := true, rc := false, legal := [] },
  { name := "FWD_MOVES", lo := 0xC00108, dims := [], reset := 0, rw := 0xFFFFFFFFFFFF, w1c := 0, stg := 0, counter := true, rc := false, legal := [] },
  { name := "FWD_MOVE_IGNORED", lo := 0xC00110, dims := [], reset := 0, rw := 0xFFFFFFFFFFFF, w1c := 0, stg := 0, counter := true, rc := false, legal := [] },
  { name := "FWD_FLAPPING", lo := 0xC00118, dims := [], reset := 0, rw := 0xFFFFFFFFFFFF, w1c := 0, stg := 0, counter := true, rc := false, legal := [] },
  { name := "FWD_AGED_OUT", lo := 0xC00120, dims := [], reset := 0, rw := 0xFFFFFFFFFFFF, w1c := 0, stg := 0, counter := true, rc := false, legal := [] },
  { name := "FWD_EVICTED", lo := 0xC00128, dims := [], reset := 0, rw := 0xFFFFFFFFFFFF, w1c := 0, stg := 0, counter := true, rc := false, legal := [] },
  { name := "FWD_LEARN_FULL", lo := 0xC00130, dims := [], reset := 0, rw := 0xFFFFFFFFFFFF, w1c := 0, stg := 0, counter := true, rc := false, legal := [] },
  { name := "FWD_LEARN_DROP", lo := 0xC00138, dims := [], reset := 0, rw := 0xFFFFFFFFFFFF, w1c := 0, stg := 0, counter := true, rc := false, legal := [] },
  { name := "FWD_REPORT_DROP", lo := 0xC00140, dims := [], reset := 0, rw := 0xFFFFFFFFFFFF, w1c := 0, stg := 0, counter := true, rc := false, legal := [] },
  { name := "FWD_ENTRY_ERR", lo := 0xC00148, dims := [], reset := 0, rw := 0xFFFFFFFFFFFF, w1c := 0, stg := 0, counter := true, rc := false, legal := [] },
  { name := "FWD_SEP_DROP", lo := 0xC00150, dims := [], reset := 0, rw := 0xFFFFFFFFFFFF, w1c := 0, stg := 0, counter := true, rc := false, legal := [] },
  { name := "FWD_SPOOF_DROP", lo := 0xC00158, dims := [], reset := 0, rw := 0xFFFFFFFFFFFF, w1c := 0, stg := 0, counter := true, rc := false, legal := [] },
  { name := "FWD_AGG_DROP", lo := 0xC00160, dims := [], reset := 0, rw := 0xFFFFFFFFFFFF, w1c := 0, stg := 0, counter := true, rc := false, legal := [] },
  { name := "FWD_EXT_SHED", lo := 0xC00168, dims := [], reset := 0, rw := 0xFFFFFFFFFFFF, w1c := 0, stg := 0, counter := true, rc := false, legal := [] }]

/-- The register families of block FWD. -/
def rowsFWD : List RegRow := rowsFWD0 ++ rowsFWD1

/-- Rows of TM, part 0. -/
def rowsTM0 : List RegRow := [
  { name := "TM_COMMIT", lo := 0xE00000, dims := [], reset := 0, rw := 0, w1c := 4, stg := 0, counter := false, rc := false, legal := [] },
  { name := "TM_EVENT", lo := 0xE00008, dims := [], reset := 0, rw := 0, w1c := 0xFF, stg := 0, counter := false, rc := false, legal := [] },
  { name := "TM_EVENT_ENABLE", lo := 0xE00010, dims := [], reset := 0, rw := 0xFF, w1c := 0, stg := 0, counter := false, rc := false, legal := [] },
  { name := "TM_REC_SEL", lo := 0xE00018, dims := [], reset := 0, rw := 0xFFFFFF, w1c := 0, stg := 0, counter := false, rc := false, legal := [(0, 3, [(0, 6)])] },
  { name := "TM_REC_CURk", lo := 0xE00020, dims := [(3, 8)], reset := 0, rw := 0, w1c := 0, stg := 0, counter := false, rc := false, legal := [] },
  { name := "TM_REC_STGk", lo := 0xE00038, dims := [(3, 8)], reset := 0, rw := 0, w1c := 0, stg := 0xFFFFFFFFFFFFFFFF, counter := false, rc := false, legal := [] },
  { name := "TM_REC_PUSH", lo := 0xE00050, dims := [], reset := 0, rw := 0, w1c := 0, stg := 0, counter := false, rc := false, legal := [] },
  { name := "TM_STG_LIST", lo := 0xE00058, dims := [], reset := 0, rw := 0, w1c := 0, stg := 0, counter := false, rc := false, legal := [] },
  { name := "TM_QSTATE", lo := 0xE00060, dims := [], reset := 0, rw := 0, w1c := 0, stg := 0, counter := false, rc := false, legal := [] },
  { name := "TM_QDROPS", lo := 0xE00068, dims := [], reset := 0, rw := 0, w1c := 0, stg := 0, counter := false, rc := false, legal := [] },
  { name := "TM_QHEAD", lo := 0xE00070, dims := [], reset := 0, rw := 0, w1c := 0, stg := 0, counter := false, rc := false, legal := [] },
  { name := "TM_TOKENS", lo := 0xE00078, dims := [], reset := 0, rw := 0, w1c := 0, stg := 0, counter := false, rc := false, legal := [] },
  { name := "TM_BUF_CFG", lo := 0xE00080, dims := [], reset := 0, rw := 0, w1c := 0, stg := 0xFFFFFFFFFF, counter := false, rc := false, legal := [] },
  { name := "TM_BUF_STATUS", lo := 0xE00088, dims := [], reset := 0x80000, rw := 0, w1c := 0, stg := 0, counter := false, rc := false, legal := [] },
  { name := "TM_INJ_SEL", lo := 0xE00090, dims := [], reset := 0, rw := 0x3F, w1c := 0, stg := 0, counter := false, rc := false, legal := [(0, 6, [(0, 32)])] },
  { name := "TM_INJ_REGION", lo := 0xE00098, dims := [], reset := 0, rw := 0, w1c := 0, stg := 0x7FFFFFFFFFFFF, counter := false, rc := false, legal := [(35, 6, [(0, 32)])] },
  { name := "TM_INJ_STATUS", lo := 0xE000A0, dims := [], reset := 0, rw := 0, w1c := 0, stg := 0, counter := false, rc := false, legal := [] },
  { name := "TM_OVF_BASE", lo := 0xE000A8, dims := [], reset := 0, rw := 0, w1c := 0, stg := 0xFFFFFFFFFFFFFC0, counter := false, rc := false, legal := [] },
  { name := "TM_OVF_SIZE", lo := 0xE000B0, dims := [], reset := 0, rw := 0, w1c := 0, stg := 0x3FFFF, counter := false, rc := false, legal := [] },
  { name := "TM_DRAIN_CMD", lo := 0xE000B8, dims := [], reset := 0, rw := 0xFFFFFFFFF, w1c := 0, stg := 0, counter := false, rc := false, legal := [(20, 16, [(1, 65535)])] }]

/-- Rows of TM, part 1. -/
def rowsTM1 : List RegRow := [
  { name := "TM_SAMPLE_CFG", lo := 0xE000C0, dims := [], reset := 0xA, rw := 0, w1c := 0, stg := 0x1F, counter := false, rc := false, legal := [(0, 4, [(1, 10)])] },
  { name := "TM_SRING_BASEr", lo := 0xE00100, dims := [(8, 0x20)], reset := 0, rw := 0, w1c := 0, stg := 0xFFFFFFFFFFFFFC0, counter := false, rc := false, legal := [] },
  { name := "TM_SRING_CTRLr", lo := 0xE00108, dims := [(8, 0x20)], reset := 0, rw := 0, w1c := 0, stg := 0x1F, counter := false, rc := false, legal := [] },
  { name := "TM_SRING_PRODr", lo := 0xE00110, dims := [(8, 0x20)], reset := 0, rw := 0, w1c := 0, stg := 0, counter := false, rc := false, legal := [] },
  { name := "TM_SRING_CONSr", lo := 0xE00118, dims := [(8, 0x20)], reset := 0, rw := 0xFFFFFFFF, w1c := 0, stg := 0, counter := false, rc := false, legal := [] },
  { name := "TM_DROP_MAP", lo := 0xE00200, dims := [], reset := 0, rw := 0xFFFFFFFFFFFF, w1c := 0, stg := 0, counter := true, rc := false, legal := [] },
  { name := "TM_DROP_ACCEPT", lo := 0xE00208, dims := [], reset := 0, rw := 0xFFFFFFFFFFFF, w1c := 0, stg := 0, counter := true, rc := false, legal := [] },
  { name := "TM_DROP_POLICER", lo := 0xE00210, dims := [], reset := 0, rw := 0xFFFFFFFFFFFF, w1c := 0, stg := 0, counter := true, rc := false, legal := [] },
  { name := "TM_DROP_DEPTH", lo := 0xE00218, dims := [], reset := 0, rw := 0xFFFFFFFFFFFF, w1c := 0, stg := 0, counter := true, rc := false, legal := [] },
  { name := "TM_DROP_OVF", lo := 0xE00220, dims := [], reset := 0, rw := 0xFFFFFFFFFFFF, w1c := 0, stg := 0, counter := true, rc := false, legal := [] },
  { name := "TM_DROP_BUFFER", lo := 0xE00228, dims := [], reset := 0, rw := 0xFFFFFFFFFFFF, w1c := 0, stg := 0, counter := true, rc := false, legal := [] },
  { name := "TM_DRAIN_DROPS", lo := 0xE00230, dims := [], reset := 0, rw := 0xFFFFFFFFFFFF, w1c := 0, stg := 0, counter := true, rc := false, legal := [] },
  { name := "TM_SAMPLE_LOST", lo := 0xE00238, dims := [], reset := 0, rw := 0xFFFFFFFFFFFF, w1c := 0, stg := 0, counter := true, rc := false, legal := [] },
  { name := "TM_BAD_RELEASE", lo := 0xE00240, dims := [], reset := 0, rw := 0xFFFFFFFFFFFF, w1c := 0, stg := 0, counter := true, rc := false, legal := [] },
  { name := "TM_CUT_THROUGH", lo := 0xE00248, dims := [], reset := 0, rw := 0xFFFFFFFFFFFF, w1c := 0, stg := 0, counter := true, rc := false, legal := [] }]

/-- The register families of block TM. -/
def rowsTM : List RegRow := rowsTM0 ++ rowsTM1

/-- Rows of CIPH, part 0. -/
def rowsCIPH0 : List RegRow := [
  { name := "CIPH_COMMIT", lo := 0x1000000, dims := [], reset := 0, rw := 0, w1c := 4, stg := 0, counter := false, rc := false, legal := [] },
  { name := "CIPH_EVENT", lo := 0x1000008, dims := [], reset := 0, rw := 0, w1c := 0x1FF, stg := 0, counter := false, rc := false, legal := [] },
  { name := "CIPH_EVENT_ENABLE", lo := 0x1000010, dims := [], reset := 0, rw := 0x1FF, w1c := 0, stg := 0, counter := false, rc := false, legal := [] },
  { name := "CIPH_CFG", lo := 0x1000018, dims := [], reset := 0x3E810, rw := 0, w1c := 0, stg := 0xFFFFFF, counter := false, rc := false, legal := [(8, 16, [(1, 65535)])] },
  { name := "CIPH_KEYSTORE_BASE", lo := 0x1000020, dims := [], reset := 0, rw := 0, w1c := 0, stg := 0xFFFFFFFFFFFFFC0, counter := false, rc := false, legal := [] },
  { name := "CIPH_NOTICE_DEST", lo := 0x1000028, dims := [], reset := 0, rw := 0, w1c := 0, stg := 0x1FFFF, counter := false, rc := false, legal := [(0, 6, [(0, 32)])] },
  { name := "CIPH_NOTICE_FIFO", lo := 0x1000030, dims := [], reset := 0, rw := 0, w1c := 0, stg := 0, counter := false, rc := true, legal := [] },
  { name := "CIPH_UNIT_STATUS", lo := 0x1000038, dims := [], reset := 0x90000000000, rw := 0, w1c := 0, stg := 0, counter := false, rc := false, legal := [] },
  { name := "CIPH_ENTROPY_STATUS", lo := 0x1000040, dims := [], reset := 0, rw := 0, w1c := 0, stg := 0, counter := false, rc := false, legal := [] },
  { name := "CIPH_DIR_SEL", lo := 0x1000048, dims := [], reset := 0, rw := 0xFFFF, w1c := 0, stg := 0, counter := false, rc := false, legal := [(6, 10, [(0, 1019), (1023, 1023)])] },
  { name := "CIPH_DIR_DATA", lo := 0x1000050, dims := [], reset := 0, rw := 0x7FFFF, w1c := 0, stg := 0, counter := false, rc := false, legal := [(0, 16, [(0, 40958)]), (16, 2, [(0, 2)])] },
  { name := "CIPH_ENC_SEL", lo := 0x1000058, dims := [], reset := 0, rw := 0xFFFFF, w1c := 0, stg := 0, counter := false, rc := false, legal := [] },
  { name := "CIPH_ENC_DATA", lo := 0x1000060, dims := [], reset := 0, rw := 3, w1c := 0, stg := 0, counter := false, rc := false, legal := [(0, 2, [(0, 2)])] },
  { name := "CIPH_SLOT_CMD", lo := 0x1000068, dims := [], reset := 0, rw := 0x3FFFF, w1c := 0, stg := 0, counter := false, rc := false, legal := [(0, 16, [(0, 40959)]), (16, 2, [(0, 2)])] },
  { name := "CIPH_SLOT_ATTR", lo := 0x1000070, dims := [], reset := 0, rw := 0x1FF, w1c := 0, stg := 0, counter := false, rc := false, legal := [(2, 6, [(20, 48)])] },
  { name := "CIPH_IMPORT_LABEL", lo := 0x1000078, dims := [], reset := 0, rw := 0xFFFFFFFFFFFFFFFF, w1c := 0, stg := 0, counter := false, rc := false, legal := [] },
  { name := "CIPH_IMPORTi", lo := 0x1000080, dims := [(4, 8)], reset := 0, rw := 0, w1c := 0, stg := 0, counter := false, rc := false, legal := [] },
  { name := "CIPH_SLOT_STATUS", lo := 0x10000A0, dims := [], reset := 0, rw := 0, w1c := 0, stg := 0, counter := false, rc := false, legal := [] },
  { name := "CIPH_SLOT_USES", lo := 0x10000A8, dims := [], reset := 0, rw := 0, w1c := 0, stg := 0, counter := false, rc := false, legal := [] },
  { name := "CIPH_SLOT_LABEL", lo := 0x10000B0, dims := [], reset := 0, rw := 0, w1c := 0, stg := 0, counter := false, rc := false, legal := [] }]

/-- Rows of CIPH, part 1. -/
def rowsCIPH1 : List RegRow := [
  { name := "CIPH_MISMATCH", lo := 0x1000100, dims := [], reset := 0, rw := 0xFFFFFFFFFFFF, w1c := 0, stg := 0, counter := true, rc := false, legal := [] },
  { name := "CIPH_CHECK_FAIL", lo := 0x1000108, dims := [], reset := 0, rw := 0xFFFFFFFFFFFF, w1c := 0, stg := 0, counter := true, rc := false, legal := [] },
  { name := "CIPH_REFUSED", lo := 0x1000110, dims := [], reset := 0, rw := 0xFFFFFFFFFFFF, w1c := 0, stg := 0, counter := true, rc := false, legal := [] },
  { name := "CIPH_NOTICE_LOST", lo := 0x1000118, dims := [], reset := 0, rw := 0xFFFFFFFFFFFF, w1c := 0, stg := 0, counter := true, rc := false, legal := [] },
  { name := "CIPH_SLOT_RELOAD", lo := 0x1000120, dims := [], reset := 0, rw := 0xFFFFFFFFFFFF, w1c := 0, stg := 0, counter := true, rc := false, legal := [] }]

/-- The register families of block CIPH. -/
def rowsCIPH : List RegRow := rowsCIPH0 ++ rowsCIPH1

/-- Rows of TIME, part 0. -/
def rowsTIME0 : List RegRow := [
  { name := "TIME_COMMIT", lo := 0x200000, dims := [], reset := 0, rw := 0, w1c := 4, stg := 0, counter := false, rc := false, legal := [] },
  { name := "TIME_EVENT", lo := 0x200008, dims := [], reset := 0, rw := 0, w1c := 0x3FFF, stg := 0, counter := false, rc := false, legal := [] },
  { name := "TIME_EVENT_ENABLE", lo := 0x200010, dims := [], reset := 0, rw := 0x3FFF, w1c := 0, stg := 0, counter := false, rc := false, legal := [] },
  { name := "TIME_NOW_NS", lo := 0x200018, dims := [], reset := 0, rw := 0, w1c := 0, stg := 0, counter := false, rc := false, legal := [] },
  { name := "TIME_NOW_FRAC", lo := 0x200020, dims := [], reset := 0, rw := 0, w1c := 0, stg := 0, counter := false, rc := false, legal := [] },
  { name := "TIME_NOW_FRC", lo := 0x200028, dims := [], reset := 0, rw := 0, w1c := 0, stg := 0, counter := false, rc := false, legal := [] },
  { name := "TIME_RATE", lo := 0x200030, dims := [], reset := 0, rw := 0xFFFFFFFFFF, w1c := 0, stg := 0, counter := false, rc := false, legal := [] },
  { name := "TIME_OFFSET_NS", lo := 0x200038, dims := [], reset := 0, rw := 0, w1c := 0, stg := 0, counter := false, rc := false, legal := [] },
  { name := "TIME_OFFSET_FRAC", lo := 0x200040, dims := [], reset := 0, rw := 0, w1c := 0, stg := 0, counter := false, rc := false, legal := [] },
  { name := "TIME_SET_NS", lo := 0x200048, dims := [], reset := 0, rw := 0xFFFFFFFFFFFFFFFF, w1c := 0, stg := 0, counter := false, rc := false, legal := [] },
  { name := "TIME_SET_CTRL", lo := 0x200050, dims := [], reset := 0, rw := 0xFFFF, w1c := 0, stg := 0, counter := false, rc := false, legal := [] },
  { name := "TIME_ADJ", lo := 0x200058, dims := [], reset := 0, rw := 0, w1c := 0, stg := 0, counter := false, rc := false, legal := [] },
  { name := "TIME_UTC_OFFSET", lo := 0x200060, dims := [], reset := 0x25, rw := 0x3FFFF, w1c := 0, stg := 0, counter := false, rc := false, legal := [] },
  { name := "TIME_SERVO_CTRL", lo := 0x200080, dims := [], reset := 0x10, rw := 0, w1c := 0, stg := 0x3F, counter := false, rc := false, legal := [(0, 3, [(0, 5)])] },
  { name := "TIME_SERVO_GAIN", lo := 0x200088, dims := [], reset := 0x803, rw := 0, w1c := 0, stg := 0x3F3F, counter := false, rc := false, legal := [(0, 6, [(0, 40)]), (8, 6, [(0, 40)])] },
  { name := "TIME_SERVO_LIMIT", lo := 0x200090, dims := [], reset := 0xBB81000640003E8, rw := 0, w1c := 0, stg := 0xFFFFFFFFFFFFFFFF, counter := false, rc := false, legal := [(40, 8, [(1, 255)]), (48, 16, [(1, 65535)])] },
  { name := "TIME_SERVO_BOUND", lo := 0x200098, dims := [], reset := 0x11F80003E8, rw := 0, w1c := 0, stg := 0xFFFFFFFFFF, counter := false, rc := false, legal := [(24, 16, [(1, 65535)])] },
  { name := "TIME_SERVO_STATUS", lo := 0x2000A0, dims := [], reset := 0, rw := 0, w1c := 0, stg := 0, counter := false, rc := false, legal := [] },
  { name := "TIME_SERVO_FREQ", lo := 0x2000A8, dims := [], reset := 0, rw := 0, w1c := 0, stg := 0, counter := false, rc := false, legal := [] },
  { name := "TIME_SERVO_INPUT", lo := 0x2000B0, dims := [], reset := 0, rw := 0, w1c := 0, stg := 0, counter := false, rc := false, legal := [] }]

/-- Rows of TIME, part 1. -/
def rowsTIME1 : List RegRow := [
  { name := "TIME_LOCKED_TIME", lo := 0x2000B8, dims := [], reset := 0, rw := 0, w1c := 0, stg := 0, counter := false, rc := false, legal := [] },
  { name := "TIME_HO_CTRL", lo := 0x200100, dims := [], reset := 0x258120, rw := 0, w1c := 0, stg := 0xFFFFFFF, counter := false, rc := false, legal := [(2, 10, [(8, 720)]), (12, 16, [(60, 65535)])] },
  { name := "TIME_HO_Ck", lo := 0x200108, dims := [(4, 8)], reset := 0, rw := 0xFFFFFFFFFFFF, w1c := 0, stg := 0, counter := false, rc := false, legal := [] },
  { name := "TIME_HO_REF", lo := 0x200128, dims := [], reset := 0, rw := 0xFFFFFFFFFFFFFFFF, w1c := 0, stg := 0, counter := false, rc := false, legal := [] },
  { name := "TIME_HO_STATUS", lo := 0x200130, dims := [], reset := 0, rw := 0, w1c := 0, stg := 0, counter := false, rc := false, legal := [] },
  { name := "TIME_STEER_CFG", lo := 0x200180, dims := [], reset := 0x3C, rw := 0, w1c := 0, stg := 0xFFF, counter := false, rc := false, legal := [(1, 8, [(12, 255)])] },
  { name := "TIME_STEER_WORD", lo := 0x200188, dims := [], reset := 0, rw := 0, w1c := 0, stg := 0x7FFFFFFFFF, counter := false, rc := false, legal := [(32, 3, [(0, 4)])] },
  { name := "TIME_STEER_UNIT", lo := 0x200190, dims := [], reset := 0, rw := 0, w1c := 0, stg := 0xFFFFFFFF, counter := false, rc := false, legal := [] },
  { name := "TIME_TEMP_CFG", lo := 0x200198, dims := [], reset := 0, rw := 0, w1c := 0, stg := 0xFFFFFFFFFFFFFFFF, counter := false, rc := false, legal := [(32, 3, [(0, 4)])] },
  { name := "TIME_TEMP", lo := 0x2001A0, dims := [], reset := 0, rw := 0, w1c := 0, stg := 0, counter := false, rc := false, legal := [] },
  { name := "TIME_STEER_LAST", lo := 0x2001A8, dims := [], reset := 0, rw := 0, w1c := 0, stg := 0, counter := false, rc := false, legal := [] },
  { name := "TIME_TINn_CFG", lo := 0x200200, dims := [(4, 0x20)], reset := 0, rw := 3, w1c := 0, stg := 0, counter := false, rc := false, legal := [] },
  { name := "TIME_TINn_DELAY", lo := 0x200208, dims := [(4, 0x20)], reset := 0, rw := 0xFFFFFFFF, w1c := 0, stg := 0, counter := false, rc := false, legal := [] },
  { name := "TIME_TINn_FIFO", lo := 0x200210, dims := [(4, 0x20)], reset := 0, rw := 0, w1c := 0, stg := 0, counter := false, rc := true, legal := [] },
  { name := "TIME_TINn_LOST", lo := 0x200218, dims := [(4, 0x20)], reset := 0, rw := 0xFFFFFFFFFFFF, w1c := 0, stg := 0, counter := true, rc := false, legal := [] },
  { name := "TIME_TOUTn_START", lo := 0x200300, dims := [(8, 0x20)], reset := 0, rw := 0, w1c := 0, stg := 0xFFFFFFFFFFFFFFFF, counter := false, rc := false, legal := [] },
  { name := "TIME_TOUTn_PERIOD", lo := 0x200308, dims := [(8, 0x20)], reset := 0, rw := 0, w1c := 0, stg := 0xFFFFFFFFFF, counter := false, rc := false, legal := [] },
  { name := "TIME_TOUTn_CTRL", lo := 0x200310, dims := [(8, 0x20)], reset := 0, rw := 0, w1c := 0, stg := 0x3FFFFFFFF, counter := false, rc := false, legal := [] },
  { name := "TIME_TRIG_SEL", lo := 0x200400, dims := [], reset := 0, rw := 0xFF, w1c := 0, stg := 0, counter := false, rc := false, legal := [] },
  { name := "TIME_TRIG_STATUS", lo := 0x200408, dims := [], reset := 0, rw := 0, w1c := 0, stg := 0, counter := false, rc := false, legal := [] }]

/-- Rows of TIME, part 2. -/
def rowsTIME2 : List RegRow := [
  { name := "TIME_TRIG_NEXT", lo := 0x200410, dims := [], reset := 0, rw := 0, w1c := 0, stg := 0, counter := false, rc := false, legal := [] },
  { name := "TIME_TRIG_CANCEL", lo := 0x200418, dims := [], reset := 0, rw := 0, w1c := 0, stg := 0, counter := false, rc := false, legal := [] },
  { name := "TIME_TRIG_FREE", lo := 0x200420, dims := [], reset := 0x100, rw := 0, w1c := 0, stg := 0, counter := false, rc := false, legal := [] },
  { name := "TIME_ASYM_TXq", lo := 0x200500, dims := [(32, 0x10)], reset := 0, rw := 0xFFFFFFFF, w1c := 0, stg := 0, counter := false, rc := false, legal := [] },
  { name := "TIME_ASYM_RXq", lo := 0x200508, dims := [(32, 0x10)], reset := 0, rw := 0xFFFFFFFF, w1c := 0, stg := 0, counter := false, rc := false, legal := [] },
  { name := "TIME_RCLKr", lo := 0x200700, dims := [(2, 8)], reset := 0, rw := 0x7F, w1c := 0, stg := 0, counter := false, rc := false, legal := [] },
  { name := "TIME_OUTLIERS", lo := 0x200800, dims := [], reset := 0, rw := 0xFFFFFFFFFFFF, w1c := 0, stg := 0, counter := true, rc := false, legal := [] },
  { name := "TIME_INPUT_DROP", lo := 0x200808, dims := [], reset := 0, rw := 0xFFFFFFFFFFFF, w1c := 0, stg := 0, counter := true, rc := false, legal := [] },
  { name := "TIME_TEMP_BAD", lo := 0x200810, dims := [], reset := 0, rw := 0xFFFFFFFFFFFF, w1c := 0, stg := 0, counter := true, rc := false, legal := [] },
  { name := "TIME_STEER_SENT", lo := 0x200818, dims := [], reset := 0, rw := 0xFFFFFFFFFFFF, w1c := 0, stg := 0, counter := true, rc := false, legal := [] },
  { name := "TIME_TRIG_SKIPPED", lo := 0x200820, dims := [], reset := 0, rw := 0xFFFFFFFFFFFF, w1c := 0, stg := 0, counter := true, rc := false, legal := [] },
  { name := "TIME_TOUT_SKIPPED", lo := 0x200828, dims := [], reset := 0, rw := 0xFFFFFFFFFFFF, w1c := 0, stg := 0, counter := true, rc := false, legal := [] }]

/-- The register families of block TIME. -/
def rowsTIME : List RegRow := rowsTIME0 ++ rowsTIME1 ++ rowsTIME2

/-- Rows of GATE, part 0. -/
def rowsGATE0 : List RegRow := [
  { name := "GATE_COMMIT", lo := 0x1800000, dims := [], reset := 0, rw := 0, w1c := 4, stg := 0, counter := false, rc := false, legal := [] },
  { name := "GATE_EVENT", lo := 0x1800008, dims := [], reset := 0, rw := 0, w1c := 0xFF, stg := 0, counter := false, rc := false, legal := [] },
  { name := "GATE_EVENT_ENABLE", lo := 0x1800010, dims := [], reset := 0, rw := 0xFF, w1c := 0, stg := 0, counter := false, rc := false, legal := [] },
  { name := "GATE_CFG", lo := 0x1800018, dims := [], reset := 0x28010, rw := 0, w1c := 0, stg := 0x3FF1F, counter := false, rc := false, legal := [(0, 5, [(10, 24)])] },
  { name := "GATE_SEL", lo := 0x1800020, dims := [], reset := 0, rw := 0x1FFFF, w1c := 0, stg := 0, counter := false, rc := false, legal := [(0, 6, [(0, 32)]), (6, 6, [(0, 32)])] },
  { name := "GATE_FLASK_STATUS", lo := 0x1800028, dims := [], reset := 0, rw := 0, w1c := 0, stg := 0, counter := false, rc := false, legal := [] },
  { name := "GATE_CRU_STATUS", lo := 0x1800030, dims := [], reset := 1, rw := 0, w1c := 0, stg := 0, counter := false, rc := false, legal := [] },
  { name := "GATE_CTX_COUNT", lo := 0x1800038, dims := [], reset := 0, rw := 0, w1c := 0, stg := 0, counter := false, rc := false, legal := [] },
  { name := "GATE_RETIRE_CMD", lo := 0x1800040, dims := [], reset := 0, rw := 7, w1c := 0, stg := 0, counter := false, rc := false, legal := [(0, 3, [(0, 4)])] },
  { name := "GATE_TAKEOVER_DEST", lo := 0x1800048, dims := [], reset := 0, rw := 0, w1c := 0, stg := 0x1FFFF, counter := false, rc := false, legal := [] },
  { name := "GATE_FAULT_LOG", lo := 0x1800050, dims := [], reset := 0, rw := 0, w1c := 0, stg := 0, counter := false, rc := true, legal := [] },
  { name := "GATE_FAULT_LOST", lo := 0x1800058, dims := [], reset := 0, rw := 0xFFFFFFFFFFFF, w1c := 0, stg := 0, counter := true, rc := false, legal := [] },
  { name := "GATE_SPLITS_REPORTED", lo := 0x1800060, dims := [], reset := 0, rw := 0xFFFFFFFFFFFF, w1c := 0, stg := 0, counter := true, rc := false, legal := [] },
  { name := "GATE_SPLITS_UNREPORTED", lo := 0x1800068, dims := [], reset := 0, rw := 0xFFFFFFFFFFFF, w1c := 0, stg := 0, counter := true, rc := false, legal := [] },
  { name := "GATE_RETIREMENTS", lo := 0x1800070, dims := [], reset := 0, rw := 0xFFFFFFFFFFFF, w1c := 0, stg := 0, counter := true, rc := false, legal := [] },
  { name := "GATE_TURNOVERS", lo := 0x1800078, dims := [], reset := 0, rw := 0xFFFFFFFFFFFF, w1c := 0, stg := 0, counter := true, rc := false, legal := [] },
  { name := "GATE_REPLAY_DIVERGED", lo := 0x1800080, dims := [], reset := 0, rw := 0xFFFFFFFFFFFF, w1c := 0, stg := 0, counter := true, rc := false, legal := [] }]

/-- The register families of block GATE. -/
def rowsGATE : List RegRow := rowsGATE0

/-- Rows of MEM, part 0. -/
def rowsMEM0 : List RegRow := [
  { name := "MEM_COMMIT", lo := 0x1A00000, dims := [], reset := 0, rw := 0, w1c := 4, stg := 0, counter := false, rc := false, legal := [] },
  { name := "MEM_EVENT", lo := 0x1A00008, dims := [], reset := 0, rw := 0, w1c := 0xFF, stg := 0, counter := false, rc := false, legal := [] },
  { name := "MEM_EVENT_ENABLE", lo := 0x1A00010, dims := [], reset := 0, rw := 0xFF, w1c := 0, stg := 0, counter := false, rc := false, legal := [] },
  { name := "MEM_CFG", lo := 0x1A00018, dims := [], reset := 0x101814, rw := 0, w1c := 0, stg := 0xFFFFFF, counter := false, rc := false, legal := [(1, 7, [(1, 50)]), (8, 8, [(1, 168)]), (16, 8, [(1, 255)])] },
  { name := "MEM_CHAN_SEL", lo := 0x1A00020, dims := [], reset := 0, rw := 7, w1c := 0, stg := 0, counter := false, rc := false, legal := [] },
  { name := "MEM_CHAN_STATUS", lo := 0x1A00028, dims := [], reset := 0, rw := 0, w1c := 0, stg := 0, counter := false, rc := false, legal := [] },
  { name := "MEM_CHAN_CMD", lo := 0x1A00030, dims := [], reset := 0, rw := 7, w1c := 0, stg := 0, counter := false, rc := false, legal := [(0, 3, [(0, 3)])] },
  { name := "MEM_MISMATCH_LOG", lo := 0x1A00038, dims := [], reset := 0, rw := 0, w1c := 0, stg := 0, counter := false, rc := true, legal := [] },
  { name := "MEM_ERR_ADDR", lo := 0x1A00040, dims := [], reset := 0, rw := 0, w1c := 0, stg := 0, counter := false, rc := false, legal := [] },
  { name := "MEM_POISON", lo := 0x1A00048, dims := [], reset := 0, rw := 0, w1c := 0, stg := 0, counter := false, rc := false, legal := [] },
  { name := "MEM_SCRUB_STATUS", lo := 0x1A00050, dims := [], reset := 0, rw := 0, w1c := 0, stg := 0, counter := false, rc := false, legal := [] },
  { name := "MEM_CORRc", lo := 0x1A00100, dims := [(8, 8)], reset := 0, rw := 0xFFFFFFFFFFFF, w1c := 0, stg := 0, counter := true, rc := false, legal := [] },
  { name := "MEM_UNCORRc", lo := 0x1A00140, dims := [(8, 8)], reset := 0, rw := 0xFFFFFFFFFFFF, w1c := 0, stg := 0, counter := true, rc := false, legal := [] },
  { name := "MEM_MISMATCH", lo := 0x1A00180, dims := [], reset := 0, rw := 0xFFFFFFFFFFFF, w1c := 0, stg := 0, counter := true, rc := false, legal := [] },
  { name := "MEM_SRAM_CORR", lo := 0x1A00188, dims := [], reset := 0, rw := 0xFFFFFFFFFFFF, w1c := 0, stg := 0, counter := true, rc := false, legal := [] },
  { name := "MEM_SRAM_UNCORR", lo := 0x1A00190, dims := [], reset := 0, rw := 0xFFFFFFFFFFFF, w1c := 0, stg := 0, counter := true, rc := false, legal := [] }]

/-- The register families of block MEM. -/
def rowsMEM : List RegRow := rowsMEM0

/-- Rows of GLK, part 0. -/
def rowsGLK0 : List RegRow := [
  { name := "GLK_COMMIT", lo := 0x1600000, dims := [], reset := 0, rw := 0, w1c := 4, stg := 0, counter := false, rc := false, legal := [] },
  { name := "GLK_EVENT", lo := 0x1600008, dims := [], reset := 0, rw := 0, w1c := 0x3FFF, stg := 0, counter := false, rc := false, legal := [] },
  { name := "GLK_EVENT_ENABLE", lo := 0x1600010, dims := [], reset := 0, rw := 0x3FFF, w1c := 0, stg := 0, counter := false, rc := false, legal := [] },
  { name := "GLK_MATE_CFG", lo := 0x1600018, dims := [], reset := 0x3C0E6B68021FE0, rw := 0, w1c := 0, stg := 0x3FFFFFFFFFFFFF, counter := false, rc := false, legal := [(1, 4, [(0, 0), (9, 9), (12, 12)]), (18, 32, [(1, 4294967295)])] },
  { name := "GLK_MATE_STATUS", lo := 0x1600020, dims := [], reset := 0, rw := 0, w1c := 0, stg := 0, counter := false, rc := false, legal := [] },
  { name := "GLK_TURN", lo := 0x1600028, dims := [], reset := 0, rw := 0xFFFFFFFF, w1c := 0, stg := 0, counter := false, rc := false, legal := [] },
  { name := "GLK_LINK_CFG", lo := 0x1600030, dims := [], reset := 0x238, rw := 0, w1c := 0, stg := 0x3FFFFFFF, counter := false, rc := false, legal := [(0, 4, [(1, 2), (4, 4), (8, 8)]), (4, 3, [(2, 7)]), (7, 5, [(2, 16)]), (12, 8, [(0, 254)])] },
  { name := "GLK_LINK_STATUS", lo := 0x1600038, dims := [], reset := 0, rw := 0, w1c := 0, stg := 0, counter := false, rc := false, legal := [] },
  { name := "GLK_KEY", lo := 0x1600040, dims := [], reset := 0, rw := 0, w1c := 0, stg := 0xFFFFFFFF, counter := false, rc := false, legal := [] },
  { name := "GLK_PROG_SRC", lo := 0x1600048, dims := [], reset := 0, rw := 0, w1c := 0, stg := 0x1FFFF, counter := false, rc := false, legal := [(0, 6, [(0, 32)])] },
  { name := "GLK_PROG_DEST", lo := 0x1600050, dims := [], reset := 0, rw := 0, w1c := 0, stg := 0x1FFFF, counter := false, rc := false, legal := [(0, 6, [(0, 32)])] },
  { name := "GLK_DIGEST", lo := 0x1600058, dims := [], reset := 0, rw := 0, w1c := 0, stg := 0, counter := false, rc := false, legal := [] },
  { name := "GLK_HIER_CFG", lo := 0x1600060, dims := [], reset := 0x800088B5, rw := 0, w1c := 0, stg := 0xFFFFFFFF, counter := false, rc := false, legal := [(27, 5, [(16, 31)])] },
  { name := "GLK_HIER_SRC", lo := 0x1600068, dims := [], reset := 0, rw := 0, w1c := 0, stg := 0x1FFFF, counter := false, rc := false, legal := [(0, 6, [(0, 32)])] },
  { name := "GLK_HIER_DEST", lo := 0x1600070, dims := [], reset := 0, rw := 0, w1c := 0, stg := 0x1FFFF, counter := false, rc := false, legal := [(0, 6, [(0, 32)])] },
  { name := "GLK_PEER_SEL", lo := 0x1600078, dims := [], reset := 0, rw := 0x1F, w1c := 0, stg := 0, counter := false, rc := false, legal := [] },
  { name := "GLK_PEER_ADDR", lo := 0x1600080, dims := [], reset := 0, rw := 0x1FFFFFFFFFFFFFFF, w1c := 0, stg := 0, counter := false, rc := false, legal := [] },
  { name := "GLK_PEER_PATH", lo := 0x1600088, dims := [], reset := 0, rw := 0x3FFFFFFFFF, w1c := 0, stg := 0, counter := false, rc := false, legal := [] },
  { name := "GLK_PM_SEL", lo := 0x1600090, dims := [], reset := 0, rw := 0x1FF, w1c := 0, stg := 0, counter := false, rc := false, legal := [(0, 7, [(0, 96)])] },
  { name := "GLK_PM_CNT0", lo := 0x1600098, dims := [], reset := 0, rw := 0, w1c := 0, stg := 0, counter := false, rc := false, legal := [] }]

/-- Rows of GLK, part 1. -/
def rowsGLK1 : List RegRow := [
  { name := "GLK_PM_CNT1", lo := 0x16000A0, dims := [], reset := 0, rw := 0, w1c := 0, stg := 0, counter := false, rc := false, legal := [] },
  { name := "GLK_PM_BBE", lo := 0x16000A8, dims := [], reset := 0, rw := 0, w1c := 0, stg := 0, counter := false, rc := false, legal := [] },
  { name := "GLK_PM_STATUS", lo := 0x16000B0, dims := [], reset := 0, rw := 0, w1c := 0, stg := 0, counter := false, rc := false, legal := [] },
  { name := "GLK_PM_CFG", lo := 0x16000B8, dims := [], reset := 0x1E, rw := 0, w1c := 0, stg := 0x7F, counter := false, rc := false, legal := [(0, 7, [(1, 100)])] },
  { name := "GLK_BIP_ERR", lo := 0x1600100, dims := [], reset := 0, rw := 0xFFFFFFFFFFFF, w1c := 0, stg := 0, counter := true, rc := false, legal := [] },
  { name := "GLK_BAD_BLOCK", lo := 0x1600108, dims := [], reset := 0, rw := 0xFFFFFFFFFFFF, w1c := 0, stg := 0, counter := true, rc := false, legal := [] },
  { name := "GLK_TAG_FAIL", lo := 0x1600110, dims := [], reset := 0, rw := 0xFFFFFFFFFFFF, w1c := 0, stg := 0, counter := true, rc := false, legal := [] },
  { name := "GLK_RESENT", lo := 0x1600118, dims := [], reset := 0, rw := 0xFFFFFFFFFFFF, w1c := 0, stg := 0, counter := true, rc := false, legal := [] },
  { name := "GLK_SLIPS", lo := 0x1600120, dims := [], reset := 0, rw := 0xFFFFFFFFFFFF, w1c := 0, stg := 0, counter := true, rc := false, legal := [] },
  { name := "GLK_GAPS", lo := 0x1600128, dims := [], reset := 0, rw := 0xFFFFFFFFFFFF, w1c := 0, stg := 0, counter := true, rc := false, legal := [] },
  { name := "GLK_DIGEST_MATCH", lo := 0x1600130, dims := [], reset := 0, rw := 0xFFFFFFFFFFFF, w1c := 0, stg := 0, counter := true, rc := false, legal := [] },
  { name := "GLK_DIGEST_MISMATCH", lo := 0x1600138, dims := [], reset := 0, rw := 0xFFFFFFFFFFFF, w1c := 0, stg := 0, counter := true, rc := false, legal := [] },
  { name := "GLK_MIRROR_LATE", lo := 0x1600140, dims := [], reset := 0, rw := 0xFFFFFFFFFFFF, w1c := 0, stg := 0, counter := true, rc := false, legal := [] },
  { name := "GLK_PRBS_ERR", lo := 0x1600148, dims := [], reset := 0, rw := 0xFFFFFFFFFFFF, w1c := 0, stg := 0, counter := true, rc := false, legal := [] },
  { name := "GLK_HIER_FAIL", lo := 0x1600150, dims := [], reset := 0, rw := 0xFFFFFFFFFFFF, w1c := 0, stg := 0, counter := true, rc := false, legal := [] },
  { name := "GLK_TAKEOVERS", lo := 0x1600158, dims := [], reset := 0, rw := 0xFFFFFFFFFFFF, w1c := 0, stg := 0, counter := true, rc := false, legal := [] },
  { name := "GLK_TURNOVERS", lo := 0x1600160, dims := [], reset := 0, rw := 0xFFFFFFFFFFFF, w1c := 0, stg := 0, counter := true, rc := false, legal := [] }]

/-- The register families of block GLK. -/
def rowsGLK : List RegRow := rowsGLK0 ++ rowsGLK1

/-- Rows of HIF, part 0. -/
def rowsHIF0 : List RegRow := [
  { name := "HIF_EVENT", lo := 0x1400000, dims := [], reset := 0, rw := 0, w1c := 0x7FF, stg := 0, counter := false, rc := false, legal := [] },
  { name := "HIF_EVENT_ENABLE", lo := 0x1400008, dims := [], reset := 0, rw := 0x7FF, w1c := 0, stg := 0, counter := false, rc := false, legal := [] },
  { name := "HIF_PCI_ID", lo := 0x1400010, dims := [], reset := 0, rw := 0, w1c := 0, stg := 0, counter := false, rc := false, legal := [] },
  { name := "HIF_LINK_STATUS", lo := 0x1400018, dims := [], reset := 0, rw := 0, w1c := 0, stg := 0, counter := false, rc := false, legal := [] },
  { name := "HIF_RING_SEL", lo := 0x1400020, dims := [], reset := 0, rw := 0x1FFF, w1c := 0, stg := 0, counter := false, rc := false, legal := [] },
  { name := "HIF_RING_BASE", lo := 0x1400028, dims := [], reset := 0, rw := 0xFFFFFFFFFFFFF000, w1c := 0, stg := 0, counter := false, rc := false, legal := [] },
  { name := "HIF_RING_CFG", lo := 0x1400030, dims := [], reset := 0, rw := 0xFFFFFFFFFFF, w1c := 0, stg := 0, counter := false, rc := false, legal := [] },
  { name := "HIF_RING_BIND", lo := 0x1400038, dims := [], reset := 0, rw := 0x1FFFFF, w1c := 0, stg := 0, counter := false, rc := false, legal := [] },
  { name := "HIF_RING_STATUS", lo := 0x1400040, dims := [], reset := 0, rw := 0, w1c := 0, stg := 0, counter := false, rc := false, legal := [] },
  { name := "HIF_RING_FRAMES", lo := 0x1400048, dims := [], reset := 0, rw := 0xFFFFFFFFFFFF, w1c := 0, stg := 0, counter := true, rc := false, legal := [] },
  { name := "HIF_RING_BYTES", lo := 0x1400050, dims := [], reset := 0, rw := 0xFFFFFFFFFFFF, w1c := 0, stg := 0, counter := true, rc := false, legal := [] },
  { name := "HIF_RING_DROPS", lo := 0x1400058, dims := [], reset := 0, rw := 0xFFFFFFFFFFFF, w1c := 0, stg := 0, counter := true, rc := false, legal := [] },
  { name := "HIF_RING_STARVED", lo := 0x1400060, dims := [], reset := 0, rw := 0xFFFFFFFFFFFF, w1c := 0, stg := 0, counter := true, rc := false, legal := [] },
  { name := "HIF_SRC_VECk", lo := 0x1400100, dims := [(20, 8)], reset := 0, rw := 0xFFF, w1c := 0, stg := 0, counter := false, rc := false, legal := [] },
  { name := "HIF_MB_CMD", lo := 0x1400200, dims := [(2, 0x80)], reset := 0, rw := 0xFFFF, w1c := 0, stg := 0, counter := false, rc := false, legal := [] },
  { name := "HIF_MB_ARGi", lo := 0x1400208, dims := [(2, 0x80), (4, 8)], reset := 0, rw := 0xFFFFFFFFFFFFFFFF, w1c := 0, stg := 0, counter := false, rc := false, legal := [] },
  { name := "HIF_MB_RSP", lo := 0x1400228, dims := [(2, 0x80)], reset := 0, rw := 0, w1c := 0, stg := 0, counter := false, rc := false, legal := [] },
  { name := "HIF_MB_DATA0", lo := 0x1400230, dims := [(2, 0x80)], reset := 0, rw := 0, w1c := 0, stg := 0, counter := false, rc := false, legal := [] },
  { name := "HIF_MB_DATA1", lo := 0x1400238, dims := [(2, 0x80)], reset := 0, rw := 0, w1c := 0, stg := 0, counter := false, rc := false, legal := [] },
  { name := "HIF_MB_STATUS", lo := 0x1400240, dims := [(2, 0x80)], reset := 0, rw := 0, w1c := 0, stg := 0, counter := false, rc := false, legal := [] }]

/-- Rows of HIF, part 1. -/
def rowsHIF1 : List RegRow := [
  { name := "HIF_VEC_ARMv", lo := 0x1410000, dims := [(2048, 8)], reset := 0, rw := 0, w1c := 0, stg := 0, counter := false, rc := false, legal := [] },
  { name := "HIF_RX_TAILr", lo := 0x1500000, dims := [(4096, 8)], reset := 0, rw := 0xFFFF, w1c := 0, stg := 0, counter := false, rc := false, legal := [] },
  { name := "HIF_TX_TAILr", lo := 0x1508000, dims := [(4096, 8)], reset := 0, rw := 0xFFFF, w1c := 0, stg := 0, counter := false, rc := false, legal := [] }]

/-- The register families of block HIF. -/
def rowsHIF : List RegRow := rowsHIF0 ++ rowsHIF1

/-- Rows of ETH, part 0. -/
def rowsETH0 : List RegRow := [
  { name := "ETH_COMMIT", lo := 0x1200000, dims := [(8, 0x20000)], reset := 0, rw := 0, w1c := 4, stg := 0, counter := false, rc := false, legal := [] },
  { name := "ETH_EVENT", lo := 0x1200008, dims := [(8, 0x20000)], reset := 0, rw := 0, w1c := 0x7F, stg := 0, counter := false, rc := false, legal := [] },
  { name := "ETH_EVENT_ENABLE", lo := 0x1200010, dims := [(8, 0x20000)], reset := 0, rw := 0x7F, w1c := 0, stg := 0, counter := false, rc := false, legal := [] },
  { name := "ETH_PORT_CFG", lo := 0x1200018, dims := [(8, 0x20000)], reset := 0, rw := 0, w1c := 0, stg := 0xF3, counter := false, rc := false, legal := [(0, 2, [(0, 2)])] },
  { name := "ETH_PORT_STATUS", lo := 0x1200020, dims := [(8, 0x20000)], reset := 0, rw := 0, w1c := 0, stg := 0, counter := false, rc := false, legal := [] },
  { name := "ETH_PFC_CFG", lo := 0x1200028, dims := [(8, 0x20000)], reset := 0, rw := 0, w1c := 0, stg := 0xFFFFFFFFFFFFFFFF, counter := false, rc := false, legal := [] },
  { name := "ETH_SUB_CFG", lo := 0x1201000, dims := [(8, 0x20000), (4, 0x1000)], reset := 0x24000005EE, rw := 0, w1c := 0, stg := 0xFFFFFFFFFFF, counter := false, rc := false, legal := [] },
  { name := "ETH_MM_STATUS", lo := 0x1201008, dims := [(8, 0x20000), (4, 0x1000)], reset := 0, rw := 0, w1c := 0, stg := 0, counter := false, rc := false, legal := [] },
  { name := "ETH_GCL_SEL", lo := 0x1201010, dims := [(8, 0x20000), (4, 0x1000)], reset := 0, rw := 0x1FF, w1c := 0, stg := 0, counter := false, rc := false, legal := [] },
  { name := "ETH_GCL_DATA", lo := 0x1201018, dims := [(8, 0x20000), (4, 0x1000)], reset := 0, rw := 0, w1c := 0, stg := 0xFFFFFFFF, counter := false, rc := false, legal := [] },
  { name := "ETH_GCL_BASE", lo := 0x1201020, dims := [(8, 0x20000), (4, 0x1000)], reset := 0, rw := 0, w1c := 0, stg := 0xFFFFFFFFFFFFFFFF, counter := false, rc := false, legal := [] },
  { name := "ETH_GCL_CYCLE", lo := 0x1201028, dims := [(8, 0x20000), (4, 0x1000)], reset := 0, rw := 0, w1c := 0, stg := 0x1FF3FFFFFFF, counter := false, rc := false, legal := [] },
  { name := "ETH_GCL_STATUS", lo := 0x1201030, dims := [(8, 0x20000), (4, 0x1000)], reset := 0, rw := 0, w1c := 0, stg := 0, counter := false, rc := false, legal := [] },
  { name := "ETH_TS_FIFO0", lo := 0x1201038, dims := [(8, 0x20000), (4, 0x1000)], reset := 0, rw := 0, w1c := 0, stg := 0, counter := false, rc := true, legal := [] },
  { name := "ETH_TS_FIFO1", lo := 0x1201040, dims := [(8, 0x20000), (4, 0x1000)], reset := 0, rw := 0, w1c := 0, stg := 0, counter := false, rc := false, legal := [] },
  { name := "ETH_PAUSED", lo := 0x1201048, dims := [(8, 0x20000), (4, 0x1000)], reset := 0, rw := 0, w1c := 0, stg := 0, counter := false, rc := false, legal := [] },
  { name := "ETH_RX_FRAMES", lo := 0x1201100, dims := [(8, 0x20000), (4, 0x1000)], reset := 0, rw := 0xFFFFFFFFFFFF, w1c := 0, stg := 0, counter := true, rc := false, legal := [] },
  { name := "ETH_RX_BYTES", lo := 0x1201108, dims := [(8, 0x20000), (4, 0x1000)], reset := 0, rw := 0xFFFFFFFFFFFF, w1c := 0, stg := 0, counter := true, rc := false, legal := [] },
  { name := "ETH_TX_FRAMES", lo := 0x1201110, dims := [(8, 0x20000), (4, 0x1000)], reset := 0, rw := 0xFFFFFFFFFFFF, w1c := 0, stg := 0, counter := true, rc := false, legal := [] },
  { name := "ETH_TX_BYTES", lo := 0x1201118, dims := [(8, 0x20000), (4, 0x1000)], reset := 0, rw := 0xFFFFFFFFFFFF, w1c := 0, stg := 0, counter := true, rc := false, legal := [] }]

/-- Rows of ETH, part 1. -/
def rowsETH1 : List RegRow := [
  { name := "ETH_RX_SIZEk", lo := 0x1201120, dims := [(8, 0x20000), (4, 0x1000), (10, 8)], reset := 0, rw := 0xFFFFFFFFFFFF, w1c := 0, stg := 0, counter := true, rc := false, legal := [] },
  { name := "ETH_TX_SIZEk", lo := 0x1201170, dims := [(8, 0x20000), (4, 0x1000), (10, 8)], reset := 0, rw := 0xFFFFFFFFFFFF, w1c := 0, stg := 0, counter := true, rc := false, legal := [] },
  { name := "ETH_RX_TYPEy", lo := 0x12011C0, dims := [(8, 0x20000), (4, 0x1000), (3, 8)], reset := 0, rw := 0xFFFFFFFFFFFF, w1c := 0, stg := 0, counter := true, rc := false, legal := [] },
  { name := "ETH_TX_TYPEy", lo := 0x12011D8, dims := [(8, 0x20000), (4, 0x1000), (3, 8)], reset := 0, rw := 0xFFFFFFFFFFFF, w1c := 0, stg := 0, counter := true, rc := false, legal := [] },
  { name := "ETH_RX_FCS_ERR", lo := 0x12011F0, dims := [(8, 0x20000), (4, 0x1000)], reset := 0, rw := 0xFFFFFFFFFFFF, w1c := 0, stg := 0, counter := true, rc := false, legal := [] },
  { name := "ETH_RX_UNDERSIZE", lo := 0x12011F8, dims := [(8, 0x20000), (4, 0x1000)], reset := 0, rw := 0xFFFFFFFFFFFF, w1c := 0, stg := 0, counter := true, rc := false, legal := [] },
  { name := "ETH_RX_TRUNCATED", lo := 0x1201200, dims := [(8, 0x20000), (4, 0x1000)], reset := 0, rw := 0xFFFFFFFFFFFF, w1c := 0, stg := 0, counter := true, rc := false, legal := [] },
  { name := "ETH_TX_STOMPED", lo := 0x1201208, dims := [(8, 0x20000), (4, 0x1000)], reset := 0, rw := 0xFFFFFFFFFFFF, w1c := 0, stg := 0, counter := true, rc := false, legal := [] },
  { name := "ETH_TX_OVERSIZE_DROP", lo := 0x1201210, dims := [(8, 0x20000), (4, 0x1000)], reset := 0, rw := 0xFFFFFFFFFFFF, w1c := 0, stg := 0, counter := true, rc := false, legal := [] },
  { name := "ETH_RX_PFC", lo := 0x1201218, dims := [(8, 0x20000), (4, 0x1000)], reset := 0, rw := 0xFFFFFFFFFFFF, w1c := 0, stg := 0, counter := true, rc := false, legal := [] },
  { name := "ETH_TX_PFC", lo := 0x1201220, dims := [(8, 0x20000), (4, 0x1000)], reset := 0, rw := 0xFFFFFFFFFFFF, w1c := 0, stg := 0, counter := true, rc := false, legal := [] },
  { name := "ETH_RX_PAUSE_IGNORED", lo := 0x1201228, dims := [(8, 0x20000), (4, 0x1000)], reset := 0, rw := 0xFFFFFFFFFFFF, w1c := 0, stg := 0, counter := true, rc := false, legal := [] },
  { name := "ETH_TX_PREEMPTED", lo := 0x1201230, dims := [(8, 0x20000), (4, 0x1000)], reset := 0, rw := 0xFFFFFFFFFFFF, w1c := 0, stg := 0, counter := true, rc := false, legal := [] },
  { name := "ETH_RX_REASM_OK", lo := 0x1201238, dims := [(8, 0x20000), (4, 0x1000)], reset := 0, rw := 0xFFFFFFFFFFFF, w1c := 0, stg := 0, counter := true, rc := false, legal := [] },
  { name := "ETH_RX_REASM_ERR", lo := 0x1201240, dims := [(8, 0x20000), (4, 0x1000)], reset := 0, rw := 0xFFFFFFFFFFFF, w1c := 0, stg := 0, counter := true, rc := false, legal := [] },
  { name := "ETH_RX_SMD_ERR", lo := 0x1201248, dims := [(8, 0x20000), (4, 0x1000)], reset := 0, rw := 0xFFFFFFFFFFFF, w1c := 0, stg := 0, counter := true, rc := false, legal := [] },
  { name := "ETH_TS_OVERFLOW", lo := 0x1201250, dims := [(8, 0x20000), (4, 0x1000)], reset := 0, rw := 0xFFFFFFFFFFFF, w1c := 0, stg := 0, counter := true, rc := false, legal := [] },
  { name := "ETH_WINDOW_HOLD", lo := 0x1201258, dims := [(8, 0x20000), (4, 0x1000)], reset := 0, rw := 0xFFFFFFFFFFFF, w1c := 0, stg := 0, counter := true, rc := false, legal := [] }]

/-- The register families of block ETH. -/
def rowsETH : List RegRow := rowsETH0 ++ rowsETH1

/-- Rows of SBY, part 0. -/
def rowsSBY0 : List RegRow := [
  { name := "SBY_STATUS", lo := 0x2800000, dims := [], reset := 0xC0, rw := 0, w1c := 0, stg := 0, counter := false, rc := false, legal := [] },
  { name := "SBY_EVENT", lo := 0x2800008, dims := [], reset := 0, rw := 0, w1c := 0x1FF, stg := 0, counter := false, rc := false, legal := [] },
  { name := "SBY_EVENT_ENABLE", lo := 0x2800010, dims := [], reset := 0, rw := 0x1FF, w1c := 0, stg := 0, counter := false, rc := false, legal := [] },
  { name := "SBY_HB_CFG", lo := 0x2800018, dims := [], reset := 0, rw := 0x3F, w1c := 0, stg := 0, counter := false, rc := false, legal := [] },
  { name := "SBY_HB_STATUS", lo := 0x2800020, dims := [], reset := 0, rw := 0, w1c := 0, stg := 0, counter := false, rc := false, legal := [] },
  { name := "SBY_APP_CTRL", lo := 0x2800028, dims := [], reset := 0, rw := 0x1F, w1c := 0, stg := 0, counter := false, rc := false, legal := [] },
  { name := "SBY_APP_TXi", lo := 0x2800030, dims := [(5, 8)], reset := 0, rw := 0, w1c := 0, stg := 0, counter := false, rc := false, legal := [] },
  { name := "SBY_APP_DEST", lo := 0x2800058, dims := [], reset := 0, rw := 0x1FFFF, w1c := 0, stg := 0, counter := false, rc := false, legal := [(0, 6, [(0, 32)])] },
  { name := "SBY_LOG_SEQ", lo := 0x2800060, dims := [], reset := 0, rw := 0, w1c := 0, stg := 0, counter := false, rc := false, legal := [] },
  { name := "SBY_PWR_STATUS", lo := 0x2800068, dims := [], reset := 0, rw := 0, w1c := 0, stg := 0, counter := false, rc := false, legal := [] },
  { name := "SBY_TX_FRAMES", lo := 0x2800100, dims := [], reset := 0, rw := 0xFFFFFFFFFFFF, w1c := 0, stg := 0, counter := true, rc := false, legal := [] },
  { name := "SBY_RX_FRAMES", lo := 0x2800108, dims := [], reset := 0, rw := 0xFFFFFFFFFFFF, w1c := 0, stg := 0, counter := true, rc := false, legal := [] },
  { name := "SBY_COLLISIONS", lo := 0x2800110, dims := [], reset := 0, rw := 0xFFFFFFFFFFFF, w1c := 0, stg := 0, counter := true, rc := false, legal := [] },
  { name := "SBY_TX_ABANDONED", lo := 0x2800118, dims := [], reset := 0, rw := 0xFFFFFFFFFFFF, w1c := 0, stg := 0, counter := true, rc := false, legal := [] },
  { name := "SBY_RX_DISCARD", lo := 0x2800120, dims := [], reset := 0, rw := 0xFFFFFFFFFFFF, w1c := 0, stg := 0, counter := true, rc := false, legal := [] },
  { name := "SBY_HB_SENT", lo := 0x2800128, dims := [], reset := 0, rw := 0xFFFFFFFFFFFF, w1c := 0, stg := 0, counter := true, rc := false, legal := [] },
  { name := "SBY_HB_RECEIVED", lo := 0x2800130, dims := [], reset := 0, rw := 0xFFFFFFFFFFFF, w1c := 0, stg := 0, counter := true, rc := false, legal := [] },
  { name := "SBY_HB_ABANDONED", lo := 0x2800138, dims := [], reset := 0, rw := 0xFFFFFFFFFFFF, w1c := 0, stg := 0, counter := true, rc := false, legal := [] },
  { name := "SBY_LOG_SUPPRESSED", lo := 0x2800140, dims := [], reset := 0, rw := 0xFFFFFFFFFFFF, w1c := 0, stg := 0, counter := true, rc := false, legal := [] }]

/-- The register families of block SBY. -/
def rowsSBY : List RegRow := rowsSBY0

/-- Rows of CLK, part 0. -/
def rowsCLK0 : List RegRow := [
  { name := "CLK_COMMIT", lo := 0x100000, dims := [], reset := 0, rw := 0, w1c := 4, stg := 0, counter := false, rc := false, legal := [] },
  { name := "CLK_EVENT", lo := 0x100008, dims := [], reset := 0, rw := 0, w1c := 7, stg := 0, counter := false, rc := false, legal := [] },
  { name := "CLK_EVENT_ENABLE", lo := 0x100010, dims := [], reset := 0, rw := 7, w1c := 0, stg := 0, counter := false, rc := false, legal := [] },
  { name := "CLK_STATUS", lo := 0x100018, dims := [], reset := 0, rw := 0, w1c := 0, stg := 0, counter := false, rc := false, legal := [] },
  { name := "CLK_SPREAD", lo := 0x100020, dims := [], reset := 1, rw := 0, w1c := 0, stg := 1, counter := false, rc := false, legal := [] },
  { name := "CLK_EDGE", lo := 0x100028, dims := [], reset := 6, rw := 0, w1c := 0, stg := 0xFF, counter := false, rc := false, legal := [(0, 2, [(2, 3)]), (2, 2, [(1, 3)])] }]

/-- The register families of block CLK. -/
def rowsCLK : List RegRow := rowsCLK0

end Sys2Proof.Machine
end

