-- ==== Sys2Proof/Machine/Cells.lean ====
section
/-! DEFINITION. Where a register's value lives and what it is at reset. A register of BAR0 lives under its byte offset. A word
that software reaches only through a selector register lives under a key of its own above the address space: table number
times 2^32 plus the index in the table. -/
namespace Sys2Proof.Machine

/-- The key of entry i of table t. -/
def cell (t i : Nat) : Nat := t * 4294967296 + i

def Cell.threadCtrl (c th : Nat) : Nat := cell 1 (c * 256 + th)
def Cell.queueCfg (c q : Nat) : Nat := cell 2 (c * 1024 + q)
def Cell.queueDrops (c q : Nat) : Nat := cell 3 (c * 1024 + q)
def Cell.ctrData (c e k : Nat) : Nat := cell 4 ((c * 32 + e) * 8 + k)
def Cell.ctrCfg (c e k : Nat) : Nat := cell 5 ((c * 32 + e) * 8 + k)
def Cell.prsNode (n w : Nat) : Nat := cell 6 (n * 32 + w)
def Cell.prsSrc (i : Nat) : Nat := cell 7 i
def Cell.prsProfileCtrl (p : Nat) : Nat := cell 8 p
def Cell.prsRuleMask (p : Nat) : Nat := cell 9 p
def Cell.prsHashMask (p : Nat) : Nat := cell 10 p
def Cell.prsMiss (p : Nat) : Nat := cell 11 p
def Cell.prsInd (t i : Nat) : Nat := cell 12 (t * 512 + i)
def Cell.prsSpCfg (c : Nat) : Nat := cell 13 c
def Cell.prsSpDelivered (c : Nat) : Nat := cell 14 c
def Cell.prsSpDrop (c : Nat) : Nat := cell 15 c
def Cell.fwdProfileCtrl (p : Nat) : Nat := cell 16 p
def Cell.fwdFlowMask (p : Nat) : Nat := cell 17 p
def Cell.fwdPortmap (wk : Nat) : Nat := cell 18 wk
def Cell.fwdBd (b : Nat) : Nat := cell 19 b
def Cell.fwdCtx (t c : Nat) : Nat := cell 20 (t * 32768 + c)
def Cell.fwdUplink (u : Nat) : Nat := cell 21 u
def Cell.tmInj (i : Nat) : Nat := cell 22 i
def Cell.ciphDir (t w o : Nat) : Nat := cell 23 ((t * 2 + w) * 1024 + o)
def Cell.ciphEnc (t c : Nat) : Nat := cell 24 (t * 32768 + c)
def Cell.gcl (p i : Nat) : Nat := cell 25 (p * 4096 + i)
def Cell.hifRing (r k : Nat) : Nat := cell 26 (r * 16 + k)
def Cell.glkPeer (p k : Nat) : Nat := cell 27 (p * 8 + k)
def Cell.eth (i : Nat) : Nat := cell 28 i

/-- What a table entry holds at reset. A node's word 0 and an uplink's destination have reset values of their own (R319, R403). -/
def resetCell (t i : Nat) : Nat :=
  if t = 6 then (if i % 32 = 0 then 256 else 0)
  else if t = 21 then 0x20000000 + i
  else 0

/-- The register families whose block window holds an address (R28). -/
def blockRows (a : Nat) : List RegRow :=
  if a < 0x100000 then rowsGLB
  else if a < 0x200000 then rowsCLK
  else if a < 0x400000 then rowsTIME
  else if a < 0x600000 then rowsPONU
  else if a < 0x800000 then rowsPOND
  else if a < 0xA00000 then rowsALLOC
  else if a < 0xC00000 then rowsPRS
  else if a < 0xE00000 then rowsFWD
  else if a < 0x1000000 then rowsTM
  else if a < 0x1200000 then rowsCIPH
  else if a < 0x1400000 then rowsETH
  else if a < 0x1600000 then rowsHIF
  else if a < 0x1800000 then rowsGLK
  else if a < 0x1A00000 then rowsGATE
  else if a < 0x1C00000 then rowsMEM
  else if a < 0x2800000 then rowsCRU
  else if a < 0x2900000 then rowsSBY
  else []

/-- The instance numbers under which a family has a register at distance d from its first one. -/
def instanceOf : List (Nat × Nat) → Nat → Option (List Nat)
  | [], d => if d = 0 then some [] else none
  | (count, stride) :: dims, d =>
    let i := min (d / stride) (count - 1)
    (instanceOf dims (d - i * stride)).map (i :: ·)

/-- The family and instance numbers of the register at an 8-byte aligned offset of BAR0. -/
def findRow (a : Nat) : Option (RegRow × List Nat) :=
  (blockRows a).findSome? fun r => if a < r.lo then none else (instanceOf r.dims (a - r.lo)).map (r, ·)

/-- A register's value at reset: its table's, with ALLOC_OWNER's by tree (R164, R34). [log 2 DESIGN CHOICE] -/
def resetOf (a : Nat) : Nat :=
  if 4294967296 ≤ a then resetCell (a / 4294967296) (a % 4294967296)
  else match findRow a with
    | none => 0
    | some (r, is_) => if r.lo = 0x810000 then is_.headD 0 * 0x41 else r.reset

/-- A register's reset value as a word. [log 2 DESIGN CHOICE] -/
def resetW (a : Nat) : W64 := BitVec.ofNat 64 (resetOf a)

/-- The bits of a register that a write stages (STG of R17); a table's word is staged whole where its table is. -/
def stagedBits (a : Nat) : Nat :=
  if 4294967296 ≤ a then
    (if [2, 6, 7, 8, 9, 10, 11, 13, 16, 17, 18, 22, 25].contains (a / 4294967296) then 2 ^ 64 - 1 else 0)
  else match findRow a with
    | none => 0
    | some (r, _) => r.stg

/-- Whether every field of a register holds an encoding its table does not reserve (R25). -/
def legalFields (legal : List FieldLegal) (v : W64) : Bool :=
  legal.all fun (lo, w, ivs) => ivs.any fun (p, q) => p ≤ fld v (lo + w - 1) lo && fld v (lo + w - 1) lo ≤ q

/-- Whether the value at an address holds no reserved encoding. -/
def legalAt (a : Nat) (v : W64) : Bool :=
  match findRow a with
  | none => true
  | some (r, _) => legalFields r.legal v

end Sys2Proof.Machine
end

