-- ==== Sys2Proof/Machine/Out.lean ====
section
/-! DEFINITION. What the part sends out of itself, as the state records it: frames on a fibre tree or an uplink, writes to host
memory, interrupt messages, records on the Gulrov link, frames on the side-band bus, words on a serial port. -/
namespace Sys2Proof.Machine

/-- One thing that left the part. [log 216 DESIGN CHOICE] -/
inductive Out where
  /-- The start of a downstream frame on a wavelength (2 × tree + wavelength): its count, the 24 bytes of its PSBd, HLend, BWmap and PLOAMd
  (R179 to R181). -/
  | phyFrame (wk fc : Nat) (psbd : List Byte) (hlend : BitVec 32) (map : List W64) (ploams : List (List Byte))
  /-- The end of a downstream frame: the FEC codewords, each with its parity, and the data bits by which the last is shortened, that carried its
  FS frame, and the bits of the whole frame (R179). -/
  | phyEnd (wk codewords shortened bits : Nat)
  /-- An XGEM frame at an FS frame word: its header and the payload as sent (R189, R191). -/
  | xgem (wk pos : Nat) (header : W64) (payload : List Byte)
  /-- Idle XGEM frames from one FS frame word up to another (R197, R202). -/
  | xgemIdle (wk pos until_ : Nat)
  /-- Edge k of a TOUT output, driven to its active level for the width in ns, and the return to idle: the level is that of the ball (R502). -/
  | pulse (n k width : Nat) (high : Bool)
  | pulseEnd (n : Nat) (high : Bool)
  /-- A write of the steering port: the SPI mode, the divider of SCLK and the bytes sent, most significant bit first (R523, R524). -/
  | steer (mode div : Nat) (bytes : List Byte)
  /-- A read of the oscillator's temperature sensor: the SPI mode, the divider of SCLK, the command sent and how many bytes are read (R523, R525). -/
  | sense (mode div : Nat) (bytes : List Byte) (reads : Nat)
  /-- A recovered-clock output: the uplink lane it carries and whether divided to 39.0625 MHz, or none where it is held low (R526). -/
  | rclk (r : Nat) (clock : Option (Nat × Bool))
  /-- A frame sequence of the Gulrov link: of each lane in use, lowest first, the marker and the scrambled payload of its data blocks (R598, R610,
  R612). -/
  | row (lanes : List (W64 × List Byte))
  /-- An mPacket of an uplink subport (4 × port + subport): the octet that begins it, of a continuation the fragment count, and its octets with
their FCS or mCRC (R658, R659, R665, R666). -/
  | ethPacket (sub : Nat) (smd : Byte) (count : Option Byte) (bytes : List Byte)
  /-- A MAC control frame: the pause times of the classes it names (R660, R661). -/
  | pause (sub : Nat) (times : List (Nat × Nat))
  /-- A write to host memory through an endpoint (R639, R646, R649). -/
  | dma (ep addr : Nat) (bytes : List Byte)
  /-- An MSI-X message (R635). -/
  | msix (ep vector : Nat)
  /-- A frame on the side-band bus: the destination node and its 64 bytes with the FCS (R684, R685). -/
  | sideBand (dest : Nat) (bytes : List Byte)
  deriving DecidableEq, Repr

end Sys2Proof.Machine
end

