-- ==== Sys2Proof/Machine/StateMsg.lean ====
section
/-! DEFINITION. Message queues and the crucible stores they lie in (R253 to R262). -/
namespace Sys2Proof.Machine

/-- A message in a queue: its slot, length, SOURCE (R261), place in the order of arrival, and whether it has interrupted a thread (R245). -/
structure QMsg where
  slot : Nat := 0
  len : Nat := 0
  source : Nat := 0
  seq : Nat := 0
  interrupted : Bool := false
  deriving DecidableEq, Repr, Inhabited

/-- A queue: the slot after the last one filled, the messages waiting, oldest first, the slots that threads hold, and the slots that
senders have reserved (R291). -/
structure MsgQueue where
  next : Nat := 0
  items : List QMsg := []
  held : List Nat := []
  reserved : List Nat := []
  deriving DecidableEq, Repr, Inhabited

/-- All queues, keyed by crucible × 1024 + queue, and all crucible stores, keyed by crucible × 2^22 + offset. -/
structure Msgs where
  queues : Map MsgQueue := []
  store : Map Byte := []
  seq : Nat := 0
  deriving DecidableEq, Repr, Inhabited

end Sys2Proof.Machine
end

