-- ==== Sys2Proof/Machine/StateCru.lean ====
section
/-! DEFINITION. Threads of the Jarril engines, their handlers' records, trigger logs, control stores and the pattern loader (R218 to R320,
R543 to R547). -/
namespace Sys2Proof.Machine

/-- The space that a routine reserves in its prepare phase for its commit phase (R291): a slot of a crucible's queue, or a free entry of a table, by its
place. -/
inductive Reserved where
  | none
  | slot (crucible queue slot : Nat)
  | entry (place : Nat)
  deriving DecidableEq, Repr, Inhabited

/-- A long instruction in its microcoded routine: its OP, FN and register fields; the control-store word at which it is held, and whether only by its WAIT; the
tick from which the words since its last wait have run and the engine cycles they take (R287); whether it is in a commit phase (R293); what it has reserved;
whether the table entry it meets fails its check; and how many units come before one whose source data cannot be corrected. -/
structure Routine where
  op : Nat := 0
  fn : Nat := 0
  rd : Nat := 0
  ra : Nat := 0
  rb : Nat := 0
  word : Nat := 0
  since : Nat := 0
  cycles : Nat := 0
  waiting : Bool := false
  commit : Bool := false
  reserved : Reserved := .none
  fault : Bool := false
  badUnit : Option Nat := none
  deriving DecidableEq, Repr, Inhabited

/-- What a WAITING thread waits for (R220): nothing; a load's data (rd, address, width in bytes, sign); a short instruction; a long instruction held at a
word of its routine; a long instruction that is complete, for the cycles of its last words up to a tick. -/
inductive Wait where
  | none
  | load (rd addr width : Nat) (sign : Bool)
  | short
  | routine (r : Routine)
  | last (due : Nat)
  deriving DecidableEq, Repr, Inhabited

/-- A message a thread holds: its queue and slot, with what the queue knew of it (R262, R546). -/
structure HeldMsg where
  queue : Nat := 0
  msg : QMsg := {}
  deriving DecidableEq, Repr, Inhabited

/-- A pending start (R268): ENTRY in 4-byte units, TAG and armed time. -/
structure PendingStart where
  entry : Nat := 0
  tag : Nat := 0
  time : Nat := 0
  deriving DecidableEq, Repr, Inhabited

/-- The entry snapshot of a handler (R543), with the address at which it begins. [log 61 DESIGN CHOICE] -/
structure Snapshot where
  regs : Map W64 := []
  prog : W64 := 0
  super : Bool := false
  ie : Bool := false
  exl : Bool := false
  held : List HeldMsg := []
  ip : Nat := 0
  deriving DecidableEq, Repr, Inhabited

/-- A line of local data as it was before a thread first wrote it in its handler (R544). `seq` orders the copies of all threads. -/
structure UndoLine where
  line : Nat := 0
  bytes : List Byte := []
  seq : Nat := 0
  deriving DecidableEq, Repr, Inhabited

/-- An entry of the replay record: the CRC-32C of a passed output and the value it returned (R545). -/
structure Passed where
  crc : BitVec 32 := 0
  value : W64 := 0
  deriving DecidableEq, Repr, Inhabited

/-- A thread (R220 to R224). STATE is its code; general registers are keyed by number; IP, EPC and the vector are byte offsets in
instruction RAM. -/
structure Thread where
  state : Nat := 0
  regs : Map W64 := []
  ip : Nat := 0
  super : Bool := false
  ie : Bool := false
  exl : Bool := false
  epc : W64 := 0
  cause : Nat := 0
  prevSuper : Bool := false
  prevIe : Bool := false
  trapCode : Nat := 0
  einfo : W64 := 0
  prog : W64 := 0
  imask : W64 := 0
  scratch0 : W64 := 0
  scratch1 : W64 := 0
  wait : Wait := .none
  waitSeq : Nat := 0
  readyFrom : Nat := 0
  held : List HeldMsg := []
  pending : Option PendingStart := none
  stopReq : Bool := false
  handler : Option Snapshot := none
  undo : List UndoLine := []
  record : List Passed := []
  replay : Option (List Passed) := none
  unreplayable : Bool := false
  diverged : Bool := false
  deriving DecidableEq, Repr, Inhabited

/-- A CTR.RD that an engine has issued last among its thread's instructions (R274): the thread, the address of its next instruction, the instructions
of other threads issued since, and what the engine's seven counters held at the capture. -/
structure CtrRun where
  thread : Nat := 0
  next : Nat := 0
  others : Nat := 0
  held : List Nat := []
  deriving DecidableEq, Repr, Inhabited

/-- The threads, keyed by crucible × 256 + thread; local data, keyed by (crucible × 32 + engine) × 32,768 + offset; instruction RAM, keyed
by crucible × 262,144 + offset; by crucible × 32 + engine, the slot of the thread that issued last plus 1, or 0; by crucible, the trigger log; a number that orders waits
and undo lines; the engine cycles since reset, modulo 2^48 (R60, R272); by crucible × 32 + engine, a CTR.RD just issued (R274). -/
structure CruState where
  threads : Map Thread := []
  localData : Map Byte := []
  iram : Map Byte := []
  lastIssued : Map Nat := []
  trigLog : Map (List W64) := []
  seq : Nat := 0
  cycles : Nat := 0
  ctrRuns : Map (Option CtrRun) := []
  deriving DecidableEq, Repr, Inhabited

/-- Control-store contents: words by address, the pattern's VERSION, the patches loaded (PATCH_ID, VERSION), oldest first. -/
structure Contents where
  words : Map (BitVec 128) := []
  version : Option Nat := none
  patches : List (Nat × Nat) := []
  deriving DecidableEq, Repr, Inhabited

/-- A crucible's control store: what it runs, the bits that are wrong in its stored words (each a word with its check bits, R282), and the words that wait for
their repair (R314). -/
structure ControlStore where
  contents : Contents := {}
  wrong : Map (BitVec 160) := []
  broken : List Nat := []
  deriving DecidableEq, Repr, Inhabited

/-- The pattern loader (R302 to R309): the load under way, its source, phase, origin and host endpoint, the contents it applies and the words
it writes (none: all), the result it will end with, the crucibles done and the tick at which the last one was, the last result, and the flags of the
start-up load. [log 157 DESIGN CHOICE, 159 DESIGN CHOICE] -/
structure Loader where
  busy : Bool := false
  phase : Nat := 0
  source : Nat := 0
  sideBand : Bool := false
  ep : Nat := 0
  new : Contents := {}
  written : Option (List Nat) := none
  status : Nat := 0
  done : Nat := 0
  since : Nat := 0
  result : Nat := 0
  boot : Bool := false
  slotB : Bool := false
  deriving DecidableEq, Repr, Inhabited

/-- Control stores by crucible, the bank of the reserve in DDR5 that is in use (R303), and the loader. -/
structure Patterns where
  stores : Map ControlStore := []
  bank : Nat := 0
  loader : Loader := {}
  deriving DecidableEq, Repr, Inhabited

end Sys2Proof.Machine
end

