-- ==== Sys2Proof/Machine/StateDev.lean ====
section
/-! DEFINITION. The state of CIPH and MEM beyond their registers. -/
namespace Sys2Proof.Machine

/-- A key slot (R460): STATE, MODE, LIMIT_LOG2, SAVE_CLEAR_OK, LABEL, USES, FAILS with the tick at which its failure window opened
(R481), the key as a number, held masked, and its mask (R452), USES_RESERVED of its record (R473), a count of loads and erasures,
which tells one key of a slot from the next, and whether it waits for its record after an uncorrectable error (R475). -/
structure Slot where
  state : Nat := 0
  mode : Nat := 0
  limit : Nat := 0
  saveOk : Bool := false
  label : W64 := 0
  uses : Nat := 0
  fails : Nat := 0
  windowAt : Nat := 0
  key : Nat := 0
  mask : Nat := 0
  reserved : Nat := 0
  loads : Nat := 0
  reloading : Bool := false
  deriving DecidableEq, Repr, Inhabited

/-- The cipher units (R451 to R458): working pairs, idle units, spares, spares joining an idle partner, retired units, recent
mismatch charges (unit, tick) and recent pairings (unit, unit, tick). [log 127 DESIGN CHOICE] -/
structure Units where
  pairs : List (Nat × Nat) := (List.range 16).map fun i => (2 * i, 2 * i + 1)
  idle : List Nat := []
  spares : List Nat := [32, 33, 34, 35]
  joining : List (Nat × Nat) := []
  retired : List Nat := []
  charges : List (Nat × Nat) := []
  recent : List (Nat × Nat × Nat) := []
  deriving DecidableEq, Repr, Inhabited

/-- The mask generator, a CTR_DRBG of NIST SP 800-90A with AES-256 and no derivation function (R452): Key, V and the reseed counter, which is 0
until the first seed. [log 128 DESIGN CHOICE] -/
structure Drbg where
  key : BitVec 256 := 0
  v : BitVec 128 := 0
  count : Nat := 0
  deriving DecidableEq, Repr, Inhabited

/-- CIPH beyond its registers: slots, units, the mask generator, the entropy source with the tick of the last reseed (R453), the notice FIFO (R478), and
the status of the host slot command under way (R486). -/
structure CiphState where
  slots : Map Slot := []
  units : Units := {}
  drbg : Drbg := {}
  healthy : Bool := false
  restarting : Bool := false
  lastSeed : Nat := 0
  notices : List W64 := []
  command : Option Nat := none
  deriving DecidableEq, Repr, Inhabited

/-- A DDR5 channel: STATE, its DIMM's capacity in GB, whether it is SUSPECT, and the resilvering done in per mille (R587). -/
structure Channel where
  state : Nat := 0
  capacity : Nat := 0
  suspect : Bool := false
  progress : Nat := 0
  deriving DecidableEq, Repr, Inhabited

/-- MEM beyond its registers: channels; by pair, whether MAKE_PRIMARY has exchanged its roles (R574) and the ticks of its recent
mismatches (R576); by channel, the ticks of recent uncorrectable codewords (R577); the mismatch log; the poisoned lines (R572); the
channel being trained with the command's status. -/
structure MemState where
  chans : Map Channel := []
  swapped : Map Bool := []
  mismatches : Map (List Nat) := []
  uncorrs : Map (List Nat) := []
  log : List W64 := []
  poison : List Nat := []
  badStore : List Nat := []
  badIram : List Nat := []
  command : Option Nat := none
  deriving DecidableEq, Repr, Inhabited

end Sys2Proof.Machine
end

