-- ==== Sys2Proof/Machine/StateGate.lean ====
section
/-! DEFINITION. The state of GATE beyond its registers (R531 to R584). -/
namespace Sys2Proof.Machine

/-- A half of a flask: ROLE, HEALTH, the tick of its last error (R533), whether it has erred since the last turnover (R536), and for each path
the step counter it read last and the tick at which it last found it moved, and how many paths have shown it standing still (R551, R552). -/
structure Half where
  role : Nat := 0
  health : Nat := 0
  errAt : Option Nat := none
  erred : Bool := false
  last1 : Nat := 0
  last2 : Nat := 0
  moved1 : Nat := 0
  moved2 : Nat := 0
  quiet : Nat := 0
  deriving DecidableEq, Repr, Inhabited

/-- A physical flask: its halves, STATE, the logical engine it runs, the outcome of its last self-test, the times it has been retired, whether it
has been tested since reset, and whether its threads are held (R539). -/
structure Flask where
  cope : Half := {}
  drag : Half := {}
  state : Nat := 0
  engine : Nat := 0
  bist : Nat := 0
  retires : Nat := 0
  tested : Bool := false
  held : Bool := false
  deriving DecidableEq, Repr, Inhabited

/-- A crucible as GATE sees it: STATE, whether its traffic is redirected, the ticks of its last heartbeat and probe answer, whether each was missing
when last looked at, the outcome of its self-test, the next engine of spare rotation, the frame and logical second of its last turnover, and the
ticks of its last hold (R306). -/
structure GateCru where
  state : Nat := 0
  redirected : Bool := false
  beatAt : Nat := 0
  probeAt : Nat := 0
  pathFault : Bool := false
  bist : Nat := 0
  rotate : Nat := 0
  turned : Option Nat := none
  turnedAt : Int := 0
  hold : Option (Nat × Nat) := none
  deriving DecidableEq, Repr, Inhabited

/-- GATE beyond its registers: flasks keyed by crucible × 33 + flask, crucibles, the fault log, the status of the command under way with the flask
or crucible under test. -/
structure GateState where
  flasks : Map (Option Flask) := []
  crus : Map GateCru := []
  log : List W64 := []
  command : Option Nat := none
  deriving DecidableEq, Repr, Inhabited

end Sys2Proof.Machine
end

