-- ==== Sys2Proof/Machine/StatePkt.lean ====
section
/-! DEFINITION. Frames as the pipes carry them, and the state of PRS. -/
namespace Sys2Proof.Machine

/-- What a frame in a pipe half waits for: its first pass, another pass (R347), the extension table (R383), TM (R416), or its turn for the slow path in a class
(R384). -/
inductive PipeStage where
  | first
  | recirc
  | ext
  | ready
  | slow (cls : Nat)
  deriving DecidableEq, Repr, Inhabited

/-- Where a frame's bytes lie: in cells TM allots, in an injection region of a crucible, in the cells of a slow-path frame
injected again (R432 to R434), or in shared cells that HIF took when it fetched the frame (R645). -/
inductive BufKind where
  | shared
  | region (c : Nat)
  | held
  | fetched
  deriving DecidableEq, Repr, Inhabited

/-- A frame in a pipe half. -/
structure PipeFrame where
  /-- The bytes without FCS and XGEM header (R323). -/
  bytes : List Byte := []
  /-- The length in bytes as received. -/
  length : Nat := 0
  /-- The start word of the first pass (R321). -/
  start : W64 := 0
  /-- SRC_KIND: 0 a fibre tree, 1 an uplink, 2 an engine, 3 the host (R321). -/
  kind : Nat := 0
  /-- START_NODE, START_OFFSET and PROFILE of the present pass (R347). -/
  node : Nat := 0
  offset : Nat := 0
  profile : Nat := 0
  /-- Recirculated passes made (R347). -/
  passes : Nat := 0
  epoch : Nat := 0
  stage : PipeStage := .first
  /-- Its packet-buffer address where an engine gave one (R264), and the kind of its cells. -/
  addr : Nat := 0
  buf : BufKind := .shared
  stamp : Nat := 0
  /-- Its check failed (R479), it left unchecked data behind (R480). -/
  bad : Bool := false
  /-- It was cut at MAX_LEN, and its length as received (R656). -/
  oversize : Bool := false
  received : Nat := 0
  /-- The upstream service context it was bound to, tree × 32768 + context (R86). -/
  ctx : Option Nat := none
  /-- DEST and FLOW_TAG given by a DIRECT descriptor (R645). -/
  direct : Option (W64 × Nat) := none
  /-- The transmit ring it came from, and its timestamp tag when it is a timed frame (R646, R667). -/
  ring : Option Nat := none
  tsTag : Option Nat := none
  /-- The last pass: key buffer, hash index, rule result, HIT, last node, flags, layer offsets (R325, R332, R333, R337). -/
  key : List Byte := []
  hash : Nat := 0
  result : W64 := 0
  hit : Bool := false
  lastNode : Nat := 0
  malformed : Bool := false
  depth : Bool := false
  fragment : Bool := false
  layers : List (Nat × Nat) := []
  /-- The forwarding destination (R367). -/
  dest : W64 := 0
  /-- A lookup that waits for the extension is the L2 lookup, and the source's entry failed its check on-die (R382, R383). -/
  extL2 : Bool := false
  srcFaulty : Bool := false
  deriving DecidableEq, Repr, Inhabited

/-- A rule of a bank: its 32-byte key and 64-bit result (R334). -/
structure Rule where
  key : Nat := 0
  result : W64 := 0
  valid : Bool := false
  deriving DecidableEq, Repr, Inhabited

/-- PRS beyond its registers: the frames of each half (pipe × 2 + half), the epoch and, while one drains, the copy it keeps
(R340, R344); the rule banks, keyed by (bank × 4096 + bucket) × 4 + place; the status of the rule-bank command under way. -/
structure PrsState where
  pipes : Map (List PipeFrame) := []
  epoch : Nat := 0
  draining : Option Nat := none
  old : Map W64 := []
  rules : Map Rule := []
  command : Option Nat := none
  deriving DecidableEq, Repr, Inhabited

/-- A learn event of a partition: the L2 key (BD and MAC), the source DEST and the frame's timestamp (R390, R392). -/
structure LearnEvent where
  key : Nat := 0
  dest : Nat := 0
  stamp : Nat := 0
  deriving DecidableEq, Repr, Inhabited

/-- A sweeper: whether it runs, the next entry it visits, its PERIOD and the tick at which its sweep began (R398, R752). -/
structure Sweeper where
  running : Bool := false
  pos : Nat := 0
  period : Nat := 0
  since : Nat := 0
  deriving DecidableEq, Repr, Inhabited

/-- FWD beyond its registers: on-die table entries keyed by table × 2^33 + index, learn queues and recent learn
requests by partition, sweepers by table, the host command under way with its status and location, and the places of free entries that routines have
reserved (R291). -/
structure FwdState where
  entries : Map (BitVec 128) := []
  learn : Map (List LearnEvent) := []
  requests : Map (List (LearnEvent × Nat)) := []
  sweepers : Map Sweeper := []
  command : Option (Nat × W64) := none
  reserved : List Nat := []
  deriving DecidableEq, Repr, Inhabited

/-- A record of TM: its three words (R411, R412, R414). -/
structure TmRec where
  w0 : W64 := 0
  w1 : W64 := 0
  w2 : W64 := 0
  deriving DecidableEq, Repr, Inhabited

/-- A token bucket: its level in units of 2^−32 byte at a tick (R425). -/
structure Bucket where
  level : Int := 0
  at_ : Nat := 0
  deriving DecidableEq, Repr, Inhabited

/-- A frame in a queue or handed to an egress: the pipe frame, its queue and CLASS, the tick of its deposit, whether it lies in
DDR5 (R430) and in which stretches (address, bytes), whether it leaves stomped (R479), and the number of its hand-over (R406). -/
structure TmFrame where
  f : PipeFrame := {}
  queue : Nat := 0
  cls : Nat := 0
  express : Bool := false
  tick : Nat := 0
  inDdr : Bool := false
  at_ : List (Nat × Nat) := []
  stomp : Bool := false
  turn : Nat := 0
  deriving DecidableEq, Repr, Inhabited

/-- A queue's frames, oldest first, and its drops (R416). -/
structure TmQueue where
  frames : List TmFrame := []
  drops : Nat := 0
  deriving DecidableEq, Repr, Inhabited

/-- A slow-path frame that holds its cells (R434): its address, length and cells, and whether it has been injected again. -/
structure HeldFrame where
  addr : Nat := 0
  length : Nat := 0
  frame : PipeFrame := {}
  disposed : Bool := false
  deriving DecidableEq, Repr, Inhabited

/-- A release message not yet taken by its queue (R433): crucible, queue and word. -/
structure Release where
  crucible : Nat := 0
  queue : Nat := 0
  word : W64 := 0
  deriving DecidableEq, Repr, Inhabited

/-- TM beyond its registers. Records, buckets, deficits and round pointers are keyed by kind × 2^24 + index; frames handed to an
egress by channel; a drain by its queue and the tick it began; `used` counts shared cells taken, `turns` the hand-overs to an egress; `outstanding` holds the
frames (address, length) of each injection region not released. -/
structure TmState where
  recs : Map TmRec := []
  staged : List (Nat × TmRec) := []
  buckets : Map Bucket := []
  deficits : Map Nat := []
  pointers : Map Nat := []
  queues : Map TmQueue := []
  egress : Map (List TmFrame) := []
  used : Nat := 0
  held : List HeldFrame := []
  outstanding : Map (List (Nat × Nat)) := []
  turns : Nat := 0
  releases : List Release := []
  buffer : Map Byte := []
  draining : Option (Nat × Nat) := none
  deriving DecidableEq, Repr, Inhabited

end Sys2Proof.Machine
end

