-- ==== Sys2Proof/Machine/StateGlk.lean ====
section
/-! DEFINITION. The state of GLK beyond its registers (R588 to R628). -/
namespace Sys2Proof.Machine

/-- A path to the mate (R592): the last valid heartbeat's tick, HEAT, TURN_FRAME, READY, since when READY has been 1, and whether the
path is seen. -/
structure MatePath where
  seen : Bool := false
  at_ : Nat := 0
  heat : Nat := 0
  turn : Option Nat := none
  ready : Bool := false
  readyFrom : Nat := 0
  deriving DecidableEq, Repr, Inhabited

/-- A candidate of a lane's marker search: its position, the markers it has seen in a row, and the last SEQ (R613). -/
structure LaneCandidate where
  place : Nat := 0
  count : Nat := 0
  seq : Nat := 0
  deriving DecidableEq, Repr, Inhabited

/-- A receive lane: block lock, the run of valid sync headers towards it and the validity of the last 128 once locked (R611); the candidates of the marker
search, the position of the markers once aligned, the LANE number and SEQ they carry, and how many in a row were missing or errored (R613); the
BIP-8 of the last frame's payloads (R612), and the descrambler's last 58 bits (R610). -/
structure GlkLane where
  lock : Bool := false
  run : Nat := 0
  recent : List Bool := []
  candidates : List LaneCandidate := []
  place : Option Nat := none
  number : Nat := 0
  seq : Nat := 0
  missed : Nat := 0
  bip : Option Byte := none
  bits : BitVec 58 := 0
  deriving DecidableEq, Repr, Inhabited

/-- A transmit lane: the scrambler's last 58 bits, and the BIP-8 of the last frame's payloads (R610, R612). -/
structure GlkTxLane where
  bits : BitVec 58 := 0
  bip : Byte := 0
  deriving DecidableEq, Repr, Inhabited

/-- A segment sent, kept for a resend: SEQ of its row and its bytes (R617). -/
structure Segment where
  seq : Nat := 0
  bytes : List Byte := []
  deriving DecidableEq, Repr, Inhabited

/-- The link (R610 to R618): receive lanes, transmit lanes, the PRBS31 generator, whether the slip buffer drops the next row; the received label, whether QUIET_NEXT has been seen and the quiet that followed;
frames sent and the count of markers with QUIET_NEXT; the segments kept; the highest invocation count accepted and those accepted within 64 of it; the
next SEQ and the next invocation count expected, the plaintexts held behind a gap by their counts, and the records received and not yet used. -/
structure GlkLink where
  lanes : Map GlkLane := []
  tx : Map GlkTxLane := []
  prbs : BitVec 31 := BitVec.allOnes 31
  dropRow : Bool := false
  label : Nat := 0
  quietNext : Bool := false
  rxQuiet : Bool := false
  txSeq : Nat := 0
  quietSent : Nat := 0
  kept : List Segment := []
  resend : List Segment := []
  highest : Option Nat := none
  accepted : List Nat := []
  expect : Option Nat := none
  next : Option Nat := none
  rows : List Segment := []
  inbox : List (List W64) := []
  deriving DecidableEq, Repr, Inhabited

/-- A performance bin (R619 to R622). -/
structure PmBin where
  es : Nat := 0
  ses : Nat := 0
  uas : Nat := 0
  bbe : Nat := 0
  idf : Bool := false
  complete : Bool := false
  start : Nat := 0
  deriving DecidableEq, Repr, Inhabited

/-- What a second held for a source: blocks, errored blocks, and a defect. -/
structure PmCount where
  blocks : Nat := 0
  errored : Nat := 0
  defect : Bool := false
  deriving DecidableEq, Repr, Inhabited

/-- A source: its bins, whether it is unavailable, and the second since which its defect has been present. -/
structure PmSource where
  cur15 : PmBin := {}
  prev15 : PmBin := {}
  curDay : PmBin := {}
  prevDay : PmBin := {}
  unavailable : Bool := false
  defectFrom : Option Int := none
  deriving DecidableEq, Repr, Inhabited

/-- Performance monitoring: sources, counts by second × 128 + source, the next second to count, and the seconds in which IDF was caused. -/
structure Pm where
  sources : Map PmSource := []
  counts : Map PmCount := []
  next : Option Nat := none
  marked : List Nat := []
  deriving DecidableEq, Repr, Inhabited

/-- GLK beyond its registers. `turn` is the frame of a turnover to come, `turned` that of the last change of roles if a turnover made it, `retry` says
that TURN_AUTO's last attempt was refused. `digests` are the mate's of frames not yet compared (wavelength key, frame, digest), `matched` the wavelengths
that have matched since RUN last counted. Rows of hierarchy frames wait in `hierOut`; received hierarchy frames wait in `hierIn` with their class. -/
structure GlkState where
  paths : Map MatePath := []
  turn : Option Nat := none
  turned : Option Nat := none
  retry : Bool := false
  digests : List (Nat × Nat × Nat) := []
  matched : List Nat := []
  run : Nat := 0
  hierOut : List (List Byte) := []
  hierIn : List (Nat × PipeFrame) := []
  link : GlkLink := {}
  pm : Pm := {}
  deriving DecidableEq, Repr, Inhabited

end Sys2Proof.Machine
end

