-- ==== Sys2Proof/Machine/StateHif.lean ====
section
/-! DEFINITION. The state of HIF and ETH beyond their registers (R629 to R680). -/
namespace Sys2Proof.Machine

/-- What reaches a receive ring (R638): a forwarded frame, a slow-path delivery or an engine message, its class, flow tag, word 1
and timestamp, its bytes and the length received, whether its check failed (R480) and whether it was cut at MAX_LEN (R656), the address of the held frame it shows (R434), and the
frame whose cells go back when it is written. -/
structure RxItem where
  kind : Nat := 0
  cls : Nat := 0
  flowTag : Nat := 0
  word1 : W64 := 0
  stamp : Nat := 0
  data : List Byte := []
  length : Nat := 0
  untrusted : Bool := false
  oversize : Bool := false
  held : Option Nat := none
  frame : Option PipeFrame := none
  deriving DecidableEq, Repr, Inhabited

/-- A transmit frame fetched and not yet written back (R646): its descriptors, tag, and status once known. -/
structure TxOpen where
  descs : List Desc := []
  timed : Bool := false
  status : Option Nat := none
  deriving DecidableEq, Repr, Inhabited

/-- A ring: HEAD and TAIL, the descriptors posted and not yet used, items accepted and not yet delivered, frames awaiting their
write-back, unsignalled write-backs, the tick of the oldest, and whether it has waited MOD_USEC. -/
structure Ring where
  head : Nat := 0
  tail : Nat := 0
  posted : List Desc := []
  inbox : List RxItem := []
  open_ : List TxOpen := []
  unsignalled : Nat := 0
  oldest : Nat := 0
  due : Bool := false
  deriving DecidableEq, Repr, Inhabited

/-- An endpoint: its Bus Master Enable and link with its speed code and width (R631, R677), and whether its link is held in Detect (R739). -/
structure Endpoint where
  bme : Bool := false
  up : Bool := false
  speed : Nat := 0
  width : Nat := 0
  detect : Bool := false
  deriving DecidableEq, Repr, Inhabited

/-- Who started a long operation: a mailbox or a node of the side-band bus (R696). -/
inductive Starter where
  | mailbox (e : Nat)
  | node (n : Nat)
  deriving DecidableEq, Repr, Inhabited

/-- The long operation under way (R652, R696): who started it, OP, TOKEN, its progress in per mille, its arguments, whether host memory could be
reached, and for a flash write the image's bytes. -/
structure LongOp where
  by_ : Starter := .mailbox 0
  op : Nat := 0
  token : Nat := 0
  progress : Nat := 0
  arg : Nat := 0
  arg1 : Nat := 0
  arg2 : Nat := 0
  dmaOk : Bool := true
  bytes : List Byte := []
  deriving DecidableEq, Repr, Inhabited

/-- HIF beyond its registers and rings: endpoints; vectors that are not ARMED; unmasked vectors and pending bits of the MSI-X tables; the long
operation, the TOKEN of the last one and the result reported last to each node. -/
structure HifState where
  eps : Map Endpoint := []
  disarmed : Map Bool := []
  unmasked : Map Bool := []
  pending : Map Bool := []
  long : Option LongOp := none
  token : Nat := 0
  results : Map Nat := []
  deriving DecidableEq, Repr, Inhabited

/-- A gate control list in force: BASE and CYCLE in ns, and its entries (R662). -/
structure GateList where
  on : Bool := false
  base : Nat := 0
  cycle : Nat := 0
  entries : List W64 := []
  deriving DecidableEq, Repr, Inhabited

/-- A preempted frame whose remainder waits (R666): the frame, its class and the bytes already sent, its number and
how many fragments have gone. -/
structure Preempted where
  frame : TmFrame := {}
  sent : Nat := 0
  number : Nat := 0
  parts : Nat := 0
  deriving DecidableEq, Repr, Inhabited

/-- A preemptable frame that the MAC merge sublayer puts together: its number, the fragment it expects next, its octets so far, and the tick of its
timestamp point (R665, R679). -/
structure Assembly where
  number : Nat := 0
  next : Nat := 0
  bytes : List Byte := []
  tick : Nat := 0
  deriving DecidableEq, Repr, Inhabited

/-- A subport of an uplink: link state (R680), MAC merge verification with its attempts and the tick of the last, the number of the next preemptable
frame sent and the frame being put together (R665), the MAX_LEN before the last application and the tick of that (R678), pauses by class with the tick each ends (R660), whether XOFF was sent
and when (R661), the gate list in force, its present entry and the change time that waits (R662, R663), the preempted frame, frames already counted as
held (R664), and the timestamp FIFO (R667). -/
structure Subport where
  lock : Bool := false
  link : Bool := false
  localFault : Bool := false
  remoteFault : Bool := false
  verify : Nat := 0
  tries : Nat := 0
  triedAt : Nat := 0
  number : Nat := 0
  assembly : Option Assembly := none
  maxBefore : Nat := 0
  appliedAt : Nat := 0
  paused : Map (Option Nat) := []
  xoff : Option Nat := none
  gates : GateList := {}
  entry : Nat := 0
  change : Option Nat := none
  lastChange : Nat := 0
  preempted : Option Preempted := none
  heldFor : List Nat := []
  stamps : List (W64 × W64) := []
  deriving DecidableEq, Repr, Inhabited

end Sys2Proof.Machine
end

