-- ==== Sys2Proof/Machine/StateIsl.lean ====
section
/-! DEFINITION. The state of the standby island and of the part's supplies and clocks (R681 to R741). -/
namespace Sys2Proof.Machine

/-- A frame that waits for the side-band bus: its 60 bytes before the FCS, the attempts made, and when its back-off ends (R684). -/
structure SbFrame where
  dest : Nat := 0
  bytes : List Byte := []
  app : Bool := false
  attempts : Nat := 0
  from_ : Nat := 0
  deriving DecidableEq, Repr, Inhabited

/-- An answer kept for a second for a requesting node: SEQ, the frame, and when it was given (R694). -/
structure SbAnswer where
  seq : Nat := 0
  frame : List Byte := []
  at_ : Nat := 0
  deriving DecidableEq, Repr, Inhabited

/-- A log entry of 32 bytes (R707) without its SEQ. -/
structure LogEntry where
  source : Nat := 0
  kind : Nat := 0
  flags : Nat := 0
  time : Nat := 0
  data : List Byte := []
  deriving DecidableEq, Repr, Inhabited

/-- The island. `node` and `seq` are its straps (R682). `clock` counts its time in units of the time domain's nominal tick. `core` is SBY_STATUS.CORE: 0 OFF, 1 SEQUENCING, 2 RESET, 3
RUNNING. Rails enabled, when they began to be disabled, and those good, the step of sequencing and when it began, DIMM supplies; the holds on the core reset: the PORST_N pin, the island, a reset
due at a time, the end of the island's hold, and whether that hold follows a start of the rails; when reset was last released; THERMTRIP_N asserted; when VID last
moved. Heartbeats: the core's refresh, the next scheduled instant, a heartbeat that waits, and the leader's
last instant with the schedule's distance from its target. The frames that wait for the bus, the answers kept, the flash, the log's buffer, the entries taken from its bucket and
not refilled since a time, and suppressed counts, the flash write of the side-band (slot, length), logical time as it knows it, when it
read it, and whether it has. -/
structure Island where
  node : Nat := 0
  seq : Bool := false
  clock : Nat := 0
  inReset : Bool := false
  core : Nat := 3
  rails : Nat := 0
  offAt : Option Nat := none
  good : Nat := 0
  step : Nat := 0
  stepAt : Nat := 0
  dimms : Nat := 0
  pin : Bool := false
  hold : Bool := false
  holdEnd : Option Nat := none
  bringUp : Bool := false
  resetDue : Option Nat := none
  releasedAt : Nat := 0
  therm : Bool := false
  avsAt : Nat := 0
  refresh : Option (W64 × W64 × Nat) := none
  nextBeat : Nat := 0
  waiting : Option Nat := none
  leaderAt : Option Nat := none
  offTarget : Int := 0
  queue : List SbFrame := []
  answers : Map (Option SbAnswer) := []
  flash : Map Byte := []
  logSeq : Nat := 0
  buffer : List LogEntry := []
  bucket : Nat := 0
  bucketAt : Nat := 0
  suppressed : Map Nat := []
  writeSlot : Option (Nat × Nat) := none
  timeNs : Int := 0
  timeAt : Nat := 0
  timeRead : Bool := false
  deriving DecidableEq, Repr, Inhabited

end Sys2Proof.Machine
end

