-- ==== Sys2Proof/Machine/StatePon.lean ====
section
/-! DEFINITION. The state of PONU, ALLOC and POND beyond their registers: the bursts under way, the maps of the checker, frame
timing, PLOAM queues, remainders and per-context counters. -/
namespace Sys2Proof.Machine

/-! ### PONU -/

/-- What a burst ended with, as its summary entry reports it (R92, R99). -/
structure BurstResult where
  outcome : Nat := 0
  ploamu : Bool := false
  dbruOk : Bool := false
  trainLate : Bool := false
  seeded : Bool := false
  drift : Int := 0
  corr : Nat := 0
  level : Byte := 0
  deriving DecidableEq, Repr, Inhabited

/-- A grant of a burst as the receiver takes it from the checked map: the Alloc-ID and its record, what was asked for, and
whether the rest of its payload is being discarded (R83, R754). -/
structure RxGrant where
  allocId : Nat := 0
  record : Option Nat := none
  dbru : Bool := false
  size : Nat := 0
  skip : Bool := false
  deriving DecidableEq, Repr, Inhabited

/-- A granted burst as the receiver expects it (R71): its place, profile, ONU-ID, for a ranging grant its quiet window, the head of its
light once that is known, and what it ended with. -/
structure RxBurst where
  start : Nat := 0
  profile : Nat := 0
  onu : Nat := 0
  ploamu : Bool := false
  ranging : Bool := false
  window : Option (Nat × Nat) := none
  grants : List RxGrant := []
  head : Option BurstHead := none
  result : Option BurstResult := none
  deriving DecidableEq, Repr, Inhabited

/-- The bursts granted in one downstream frame's map on one wavelength: whether a mirrored map came in time (R603), whether the
frame has ended at the receiver, with its dark-light time in ns (R96, R99), whether it has been judged for LOS (R95), and whether its
summary has left. -/
structure RxMap where
  frame : Nat := 0
  bursts : List RxBurst := []
  late : Bool := false
  ended : Bool := false
  dark : Nat := 0
  judged : Bool := false
  summarised : Bool := false
  deriving DecidableEq, Repr, Inhabited

/-- The key a frame took at its first byte (R462, R467): its index, its slot with the load it came from, and its bytes, masked, with their mask
(R452). -/
structure TakenKey where
  index : Nat := 0
  slot : Nat := 0
  loads : Nat := 0
  bytes : List Nat := []
  mask : List Nat := []
  deriving DecidableEq, Repr, Inhabited

/-- A frame being reassembled in the context of an Alloc-ID (R88): its port, the key its first fragment took (none where it is in the
clear), the SDU bytes so far, the upstream frames without a burst of its Alloc-ID (R90), the service context it is bound to, and whether
it has been discarded and the rest of its fragments pass nothing on. -/
structure Partial where
  port : Nat := 0
  key : Option TakenKey := none
  data : List Byte := []
  idle : Nat := 0
  seen : Bool := false
  ctx : Option Nat := none
  broken : Bool := false
  deriving DecidableEq, Repr, Inhabited

/-- A burst receiver of one wavelength (R66): the expected bursts, the LOS run (R95), the end of the last burst for OVERLAP. -/
structure Receiver where
  maps : List RxMap := []
  losRun : Nat := 0
  los : Bool := false
  light : Bool := false
  lastEnd : Option Nat := none
  deriving DecidableEq, Repr, Inhabited

/-- What one tree's PONU holds beside its receivers: whether a GO has applied values (R92), whether a GO waits while the tree's timing
does not run (R119), the frame from which the present
values govern, and the values before them while bursts granted under them are outstanding (R120, R121). -/
structure PonuTree where
  applied : Bool := false
  idleGo : Bool := false
  from_ : Option Nat := none
  prevApplied : Bool := false
  prev : Map W64 := []
  deriving DecidableEq, Repr, Inhabited

/-! ### ALLOC -/

/-- A map that GRANT.FILL has completed (R144): the frame, the encoded list, whether it is a shadow map, whether only
because the part stood by (R602), and its verdict header with the offending Alloc-IDs once the checker has given it. -/
structure FilledMap where
  frame : Nat := 0
  shadow : Bool := false
  entries : List W64 := []
  forced : Bool := false
  verdict : Option (Nat × List (Nat × Nat)) := none
  deriving DecidableEq, Repr, Inhabited

/-- An open quiet window in GTU counted from frame 0: start and end (R148). -/
structure QuietWindow where
  lo : Nat := 0
  hi : Nat := 0
  deriving DecidableEq, Repr, Inhabited

/-- A map of which ALLOC has accepted only some entries yet (R271, R547): its frame, whether it is a shadow map, and the entries. -/
structure PartMap where
  frame : Nat := 0
  shadow : Bool := false
  entries : List W64 := []
  deriving DecidableEq, Repr, Inhabited

/-- The checker's state for one wavelength: the maps awaiting their frames, those still incomplete, the last map sent and its frame (R155), the
Alloc-IDs kept absent from repeats (R157), the quiet windows open (R149), and the maps a standby part would have sent (R604). -/
structure CheckerWl where
  maps : List FilledMap := []
  parts : List PartMap := []
  sent : List W64 := []
  sentFrame : Option Nat := none
  absent : List Nat := []
  windows : List QuietWindow := []
  shadowSent : List (Nat × List W64) := []
  deriving DecidableEq, Repr, Inhabited

/-- ALLOC's staging for one tree: whether it still has to apply a GO, the first frame the present values govern (R162), and the
values before them. -/
structure AllocTree where
  waiting : Bool := false
  from_ : Option Nat := none
  prev : Map W64 := []
  deriving DecidableEq, Repr, Inhabited

/-! ### POND -/

/-- Frame timing of a tree (R173 to R176): stopped, armed at a tick, or running with the tick of the next frame. -/
inductive Timing where
  | stopped
  | armed (since : Nat)
  | running (next : Nat)
  deriving DecidableEq, Repr, Inhabited

/-- A PLOAM entry: the 48 message bytes and TAG (R183). -/
structure PloamEntry where
  bytes : List Byte := []
  tag : Nat := 0
  deriving DecidableEq, Repr, Inhabited

/-- The cut SDU pending on a wavelength (R203): what is left of it, the key it took (R462), the values in force when it was cut
(R214), and the frame whose buffer it holds. -/
structure Remainder where
  ctx : Nat := 0
  port : Nat := 0
  key : Option TakenKey := none
  data : List Byte := []
  length : Nat := 0
  values : List W64 := []
  omcc : Bool := false
  frame : PipeFrame := {}
  deriving DecidableEq, Repr, Inhabited

/-- The framer of one wavelength: whether it sends, the tick of an enabling write that has not taken effect (R178), the
map and PLOAMd entries taken for the next frame (R181), the PLOAM queue, the next FS frame word, the header's words, the
PLOAMd entries queued when the map was taken, and the pending remainder. -/
structure Framer where
  sending : Bool := false
  want : Option Nat := none
  map : List W64 := []
  mapFrame : Option Nat := none
  ploams : List PloamEntry := []
  queue : List PloamEntry := []
  lastTag : Nat := 0
  lastFrame : Nat := 0
  pos : Nat := 0
  header : Nat := 0
  eligible : Nat := 0
  remainder : Option Remainder := none
  deriving DecidableEq, Repr, Inhabited

/-- The timing and staging of one tree's POND: whether its timing has ever run (R175), the frame count being sent, its t0 tick and stamp, whether an armed
capture takes the next frame (R205), and the statistics FIFO. -/
structure PondTree where
  timing : Timing := .stopped
  ran : Bool := false
  fc : Nat := 0
  t0 : Nat := 0
  stamp : Int := 0
  halfFifo : List W64 := []
  todNext : Bool := false
  deriving DecidableEq, Repr, Inhabited

/-- PONU, ALLOC and POND. Receivers, checkers and framers are keyed by 2 × tree + wavelength; equaliser seeds, drift runs, the
tick and the run with which a terminal last left RANGED, and the tick at which the device last suspended it by
(2 × tree + wavelength) × 1024 + ONU-ID; partial frames by tree × 16384 + Alloc-ID; Alloc's records by their selector;
the accumulators of per-context counters by
((tree × 32768 + context) × 2 + direction) × 4 + counter; their totals lie in DDR5 (R208). -/
structure Pon where
  ponu : Map PonuTree := []
  rx : Map Receiver := []
  seeds : Map Nat := []
  driftRuns : Map Nat := []
  leftRanged : Map (Option (Nat × Nat)) := []
  suspended : Map (Option Nat) := []
  partials : Map (Option Partial) := []
  recs : Map W64 := []
  checker : Map CheckerWl := []
  alloc : Map AllocTree := []
  pond : Map PondTree := []
  framers : Map Framer := []
  statAccs : Map Nat := []
  deriving DecidableEq, Repr, Inhabited

end Sys2Proof.Machine
end

