-- ==== Sys2Proof/Machine/StateTime.lean ====
section
/-! DEFINITION. The state of TIME beyond its registers (R489 to R530). -/
namespace Sys2Proof.Machine

/-- A trigger slot (R505 to R509): whether it is armed, its generation, target, TAG, next armed time in ns, PERIOD, starts still to
come (0 unlimited), and after a forward step the armed time it goes on from once it has fired (R508). -/
structure Trigger where
  armed : Bool := false
  gen : Nat := 0
  crucible : Nat := 0
  thread : Nat := 0
  entry : Nat := 0
  tag : Nat := 0
  next : Nat := 0
  period : Nat := 0
  remaining : Nat := 0
  resume : Option Nat := none
  deriving DecidableEq, Repr, Inhabited

/-- A programmed output (R502, R504): the last edge driven, the edge scheduled, and the end of the pulse being driven in ns. -/
structure Pulse where
  last : Option Nat := none
  next : Option Nat := none
  active : Option Nat := none
  deriving DecidableEq, Repr, Inhabited

/-- One second of LOCKED: the mean of y in units of 2^−48, the temperature in 2^−16 °C and the logical time in whole seconds (R518,
R519). -/
structure Second where
  y : Rat := 0
  temp : Int := 0
  at_ : Int := 0
  deriving DecidableEq, Repr, Inhabited

/-- The servo (R510 to R516). STATE, i, y in units of 2^−48, the last e in 2^−16 ns, the logical time of the last accepted measurement,
the tick from which LOSS_MS counts, the ticks of each input's last accepted edge and of the last accepted write, the runs of small
errors and of outliers, whether REF_FAULT holds it in HOLDOVER, and the tick at which LOCKED began. [log 134 DESIGN CHOICE] -/
structure Servo where
  state : Nat := 0
  i : Rat := 0
  y : Int := 0
  lastErr : Int := 0
  lastAt : Option Int := none
  lossFrom : Nat := 0
  edges : Map (Option Nat) := []
  lastInput : Option Nat := none
  small : Nat := 0
  outliers : Nat := 0
  refFault : Bool := false
  lockedAt : Nat := 0
  deriving DecidableEq, Repr, Inhabited

/-- Holdover (R517 to R521): the sum of y over ticks in the present second with the ticks it covers from (in HOLDOVER, the tick of the last update), the seconds of LOCKED, newest
first, the samples of the fit, newest first, with the values held when it began, the lowest and highest temperature sampled, the mean
and D0 formed at the entry to HOLDOVER, whether HO_READY has been met, and how long LOCKED has lasted, in ticks. -/
structure Holdover where
  acc : Int := 0
  accFrom : Nat := 0
  secondFrom : Nat := 0
  seconds : List Second := []
  samples : List Second := []
  held : List Int := []
  heldAt : Int := 0
  tmin : Int := 0
  tmax : Int := 0
  resid : Nat := 0
  mean : Rat := 0
  d0 : Rat := 0
  ready : Bool := false
  lockedFor : Nat := 0
  tempOut : Bool := false
  tempFast : Bool := false
  deriving DecidableEq, Repr, Inhabited

/-- The oscillator's temperature (R525): the last good reading in 2^−16 °C, VALID, the run of discarded readings, and the readings
of the last minute with their ticks, newest first (R521), and the tick of the last reading. -/
structure Oven where
  temp : Int := 0
  seen : Bool := false
  valid : Bool := false
  bad : Nat := 0
  recent : List (Nat × Int) := []
  readAt : Option Nat := none
  deriving DecidableEq, Repr, Inhabited

/-- TIME beyond its registers. Steps that wait for the next tick: a TIME_SET target, additions of the host and of the engines, and
servo steps, in 2^−16 ns (R493). A steering word that waits for the bus (R524). -/
structure TimeState where
  setTo : Option Int := none
  adjHost : List Int := []
  adjEngine : List Int := []
  servoStep : List Int := []
  trig : Map Trigger := []
  pulses : Map Pulse := []
  tin : Map (List W64) := []
  servo : Servo := {}
  hold : Holdover := {}
  oven : Oven := {}
  steer : Option Int := none
  deriving DecidableEq, Repr, Inhabited

end Sys2Proof.Machine
end

