-- ==== Sys2Proof/Machine/Chip.lean ====
section
/-! DEFINITION. Everything the part holds but the queue of waiting commands. -/
namespace Sys2Proof.Machine

/-- All that the part holds, with the model's own fresh and readData. [log 10 DESIGN CHOICE, 11 DESIGN CHOICE] -/
structure Chip where
  regs : Map W64 := []
  active : Map W64 := []
  goAt : Map (Option Nat) := []
  rcLatch : Map (Option (Nat × Nat)) := []
  ctrLatch : Map (Option (Nat × Nat)) := []
  frc : Nat := 0
  rampFrom : Option Nat := none
  offset : Int := 0
  fresh : Nat := 0
  readData : W64 := 0
  out : List Out := []
  role : Nat := 0
  tookActive : Option Nat := none
  permit : Bool := false
  glkOut : List (List W64) := []
  msgs : Msgs := {}
  pon : Pon := {}
  prs : PrsState := {}
  fwd : FwdState := {}
  tm : TmState := {}
  ddr : Map Byte := []
  mem : MemState := {}
  ciph : CiphState := {}
  rings : Map Ring := []
  time : TimeState := {}
  cru : CruState := {}
  patterns : Patterns := {}
  gate : GateState := {}
  glk : GlkState := {}
  hif : HifState := {}
  subs : Map Subport := []
  isl : Island := {}
  deriving DecidableEq, Repr, Inhabited

end Sys2Proof.Machine
end

