-- ==== Sys2Proof/Machine/Ops.lean ====
section
/-! DEFINITION. The operations every block shares: reading and writing registers and their applied copies, events, counters,
staging, time, and what leaves the part. -/
namespace Sys2Proof.Machine

/-- The value of a register or table word. -/
def Chip.reg (s : Chip) (a : Nat) : W64 := s.regs.look resetW a

/-- A register or table word set. -/
def Chip.setReg (s : Chip) (a : Nat) (v : W64) : Chip := { s with regs := s.regs.put resetW a v }

/-- The applied value of a staged register (R17, R22). -/
def Chip.act (s : Chip) (a : Nat) : W64 := s.active.look resetW a

/-- Bits [hi:lo] of a register. -/
def Chip.get (s : Chip) (a hi lo : Nat) : Nat := fld (s.reg a) hi lo

/-- Bit k of a register. -/
def Chip.flag (s : Chip) (a k : Nat) : Bool := bit (s.reg a) k

/-- Bits [hi:lo] of a register set. -/
def Chip.setField (s : Chip) (a hi lo x : Nat) : Chip := s.setReg a (setFld (s.reg a) hi lo x)

/-- Bit k of a register set to b. -/
def Chip.setFlag (s : Chip) (a k : Nat) (b : Bool) : Chip := s.setReg a (setBit (s.reg a) k b)

/-- An event bit raised (R18, R27). -/
def Chip.raise (s : Chip) (a k : Nat) : Chip := s.setFlag a k true

/-- Something sent out of the part. [log 216 DESIGN CHOICE] -/
def Chip.emit (s : Chip) (o : Out) : Chip := { s with out := o :: s.out }

/-- What a read returned on the bus. [log 10 DESIGN CHOICE] -/
def Chip.answer (s : Chip) (v : W64) : Chip := { s with readData := v }

/-- The number of a fresh open value, and the state with it used. -/
def Chip.tick (s : Chip) : Nat × Chip := (s.fresh, { s with fresh := s.fresh + 1 })

/-- Whether start-up is under way: neither READY nor FAIL (R736, R738). -/
def Chip.starting (s : Chip) : Bool := !s.flag Reg.GLB_STARTUP 3 && !s.flag Reg.GLB_STARTUP 4

/-- Whether the spread has been ramped in or out for the millisecond that takes (R727). -/
def Chip.rampOver (s : Chip) : Bool := s.rampFrom.all fun t => lasts (s.frc - t) 1000000

/-- SPREADING of CLK_STATUS: the spread is fully applied, the clock locked (R727, R729). [log 209 DESIGN CHOICE] -/
def Chip.spreading (s : Chip) : Bool := s.flag Reg.CLK_STATUS 0 && bit (s.act Reg.CLK_SPREAD) 0 && s.rampOver

/-- STAGE of GLB_STARTUP moves on to a stage (R736). -/
def Chip.startStage (s : Chip) (n : Nat) : Chip :=
  if s.starting && s.get Reg.GLB_STARTUP 2 0 < n then s.setField Reg.GLB_STARTUP 2 0 n else s

/-! ### Reads with an effect (R20, R673) -/

/-- The entry an RC register gave up, returned to the reader: whole, or its low half with the high half latched for that
endpoint (R20). -/
def Chip.rcAnswer (s : Chip) (e : Ep) (a : Nat) (lanes : Lanes) (v : W64) : Chip :=
  match lanes with
  | .full => s.answer v
  | .low => { s.answer (w64 (fld v 31 0)) with rcLatch := s.rcLatch.set e (some (a, fld v 63 32)) }
  | .high => s

/-- The high half of an RC register: the latched one, if the endpoint's last 32-bit read of an RC register was the low half of this one;
else 0 with no effect (R20). -/
def rcHighRead (e : Ep) (a : Nat) (s : Chip) : Chip :=
  let v := match s.rcLatch.get e with
    | some (b, h) => if b = a then w64 h else 0
    | none => 0
  { s.answer v with rcLatch := s.rcLatch.set e none }

/-- A read of a FIFO's RC register: the oldest entry is given up and returned, or 0 when there is none; a read of the high half
alone is RC_HIGH_READ (R20). `pop` takes the oldest entry out. -/
def Chip.rcRead (s : Chip) (e : Ep) (a : Nat) (lanes : Lanes) (fifo : List W64) (pop : Chip → Chip) : Chip :=
  if lanes = .high then rcHighRead e a s
  else match fifo with
    | [] => s.rcAnswer e a lanes 0
    | v :: _ => (pop s).rcAnswer e a lanes v

/-! ### Counters (R670 to R672) -/

/-- The event register and bit that report half range for the counters of a block's window (R671). -/
def halfEvent (a : Nat) : Option (Nat × Nat) :=
  if a < 0x200000 then none
  else if a < 0x400000 then some (Reg.TIME_EVENT, 13)
  else if a < 0x600000 then some (Reg.PONU_EVENT ((a - 0x400000) / 0x10000), 7)
  else if a < 0x800000 then some (Reg.POND_EVENT ((a - 0x600000) / 0x10000), 9)
  else if a < 0xA00000 then some (Reg.ALLOC_EVENT, 6)
  else if a < 0xC00000 then some (Reg.PRS_EVENT, 8)
  else if a < 0xE00000 then some (Reg.FWD_EVENT, 9)
  else if a < 0x1000000 then some (Reg.TM_EVENT, 6)
  else if a < 0x1200000 then some (Reg.CIPH_EVENT, 8)
  else if a < 0x1400000 then some (Reg.ETH_EVENT ((a - 0x1200000) / 0x20000), 6)
  else if a < 0x1600000 then some (Reg.HIF_EVENT, 10)
  else if a < 0x1800000 then some (Reg.GLK_EVENT, 13)
  else if a < 0x1A00000 then some (Reg.GATE_EVENT, 7)
  else if a < 0x1C00000 then some (Reg.MEM_EVENT, 7)
  else if a < 0x2800000 then
    let c := (a - 0x1C00000) / 0x40000
    if 0x100 ≤ (a - 0x1C00000) % 0x40000 then some (Reg.CRU_UC_EVENT c, 6) else some (Reg.CRU_EVENT c, 6)
  else if a < 0x2900000 then some (Reg.SBY_EVENT, 8)
  else if a / 4294967296 = 3 then some (Reg.CRU_EVENT (a % 4294967296 / 1024), 6)
  else if a / 4294967296 = 14 ∨ a / 4294967296 = 15 then some (Reg.PRS_EVENT, 8)
  else if a / 4294967296 = 26 then some (Reg.HIF_EVENT, 10)
  else none

/-- A count after adding n: modulo 2^48 (R670). -/
def countAdd (old n : Nat) : Nat := (old + n) % 281474976710656

/-- Whether adding n takes a count from below 2^47 to 2^47 or above (R671). -/
def crossesHalf (old n : Nat) : Bool := old < 140737488355328 && 140737488355328 ≤ countAdd old n

/-- A counter incremented by n, with its block's COUNTER_HALF (R670, R671). -/
def Chip.bump (s : Chip) (a : Nat) (n : Nat := 1) : Chip :=
  let old := s.get a 47 0
  let s1 := s.setReg a (w64 (countAdd old n))
  match crossesHalf old n, halfEvent a with
  | true, some (e, k) => s1.raise e k
  | _, _ => s1

/-! ### Staging (R21 to R23) -/

/-- Whether a block's GO is pending. -/
def Chip.goPending (s : Chip) (commit : Nat) : Bool := s.flag commit 1

/-- A GO or a staged write turned away: STAGE_ERR (R23). -/
def Chip.stageErr (s : Chip) (commit : Nat) : Chip := s.raise commit 2

/-- A GO accepted: PENDING sets and the time is kept (R22). -/
def Chip.goSet (s : Chip) (commit : Nat) : Chip :=
  { s.setFlag commit 1 true with goAt := s.goAt.set commit (some s.frc) }

/-- PENDING cleared. -/
def Chip.goDone (s : Chip) (commit : Nat) : Chip :=
  { s.setFlag commit 1 false with goAt := s.goAt.set commit none }

/-- A write of GO: discarded with STAGE_ERR while PENDING (R23) or while the staged values are refused, else PENDING sets. -/
def Chip.go (s : Chip) (commit : Nat) (ok : Bool) : Chip :=
  if s.goPending commit || !ok then s.stageErr commit else s.goSet commit

/-- Whether a GO was written at least ns nanoseconds ago. -/
def Chip.goAged (s : Chip) (commit ns : Nat) (now : Nat) : Bool :=
  match s.goAt.get commit with
  | none => false
  | some t => decide (t ≤ now) && lasts (now - t) ns

/-- The staged value of a register, held to its staged bits. -/
def Chip.stagedValue (s : Chip) (a : Nat) : W64 := s.reg a

/-- Every staged register with a key in [lo, hi) takes its staged value (R22). -/
def Chip.applyRange (s : Chip) (lo hi : Nat) : Chip :=
  let inside := fun (e : Nat × W64) => decide (lo ≤ e.1) && decide (e.1 < hi)
  let keys := ((s.regs.filter inside).map (·.1) ++ (s.active.filter inside).map (·.1)).filter fun a => stagedBits a ≠ 0
  { s with active := keys.foldl (fun m a => m.put resetW a (s.reg a)) s.active }

/-- The applied values with keys in [lo, hi), kept as the previous ones (R120). -/
def Chip.keepRange (s : Chip) (lo hi : Nat) : Map W64 :=
  s.active.filter fun e => decide (lo ≤ e.1) && decide (e.1 < hi)

/-- Whether every staged register listed with a key in [lo, hi) holds legal encodings. [log 226 DEDUCED] -/
def Chip.legalRange (s : Chip) (lo hi : Nat) : Bool :=
  s.regs.all fun e => !(decide (lo ≤ e.1) && decide (e.1 < hi)) || stagedBits e.1 = 0 || legalAt e.1 e.2

/-! ### Time (R490 to R495) -/

/-- The nominal tick in units of 2^−64 ns: 1,000,000 / 622,080 ns, to the nearest (R490). -/
def tickP : Nat := (2 * 1000000 * 18446744073709551616 + 622080) / (2 * 622080)

/-- RATE as a signed number (R490). -/
def Chip.rate (s : Chip) : Int := signed 40 (s.get Reg.TIME_RATE 39 0)

/-- FRC × P × (1 + RATE × 2^−48) in units of 2^−16 ns (R490). -/
def scaledTicks (f : Nat) (rate : Int) : Int := ((f * tickP : Nat) * (281474976710656 + rate)) / 79228162514264337593543950336

/-- Logical time at a tick in units of 2^−16 ns (R490). -/
def Chip.logicalAt (s : Chip) (f : Nat) : Int := scaledTicks f s.rate + s.offset

/-- Logical time now. -/
def Chip.logical (s : Chip) : Int := s.logicalAt s.frc

/-- Whole nanoseconds of a logical time, as 64 bits. -/
def nsOf (t : Int) : Nat := wrapInt 64 (t / 65536)

/-- The fraction of a logical time in 2^−16 ns. -/
def fracOf (t : Int) : Nat := (t % 65536).toNat

/-- The 48-bit descriptor timestamp of a logical time (R495). -/
def stampOf (t : Int) : Nat := wrapInt 48 t

/-- The first tick at which logical time reaches t (in 2^−16 ns), at the present RATE and OFFSET. -/
def Chip.tickAt (s : Chip) (t : Int) : Nat :=
  let d : Int := tickP * (281474976710656 + s.rate)
  ((((t - s.offset) * 79228162514264337593543950336) + d - 1) / d).toNat

end Sys2Proof.Machine
end

