-- ==== Sys2Proof/Machine/Msg.lean ====
section
/-! DEFINITION. Sending a message to a crucible queue (R253 to R258, R261), and the crucible store's bytes. -/
namespace Sys2Proof.Machine

/-- A byte of a crucible's store (R53, R253). [log 8 DESIGN CHOICE] -/
def Chip.storeByte (s : Chip) (c off : Nat) : Byte := s.msgs.store.get (c * 4194304 + off % 4194304)

/-- A byte of a crucible's store written. -/
def Chip.setStoreByte (s : Chip) (c off : Nat) (b : Byte) : Chip :=
  { s with msgs := { s.msgs with store := s.msgs.store.set (c * 4194304 + off % 4194304) b } }

/-- Consecutive bytes put into a crucible's store. -/
def Chip.putStore (s : Chip) (c off : Nat) : List Byte → Chip
  | [] => s
  | b :: bs => (s.setStoreByte c off b).putStore c (off + 1) bs

/-- The 16-byte words of a list that a write of n bytes at address a leaves as they were: it does not cover them whole. -/
def uncovered (a n : Nat) (bad : List Nat) : List Nat := bad.filter fun w => !(a ≤ w * 16 && w * 16 + 16 ≤ a + n)

/-- Consecutive bytes written to a crucible's store; a word that could not be corrected is sound again once it is written whole. -/
def Chip.storeBytes (s : Chip) (c off : Nat) (l : List Byte) : Chip :=
  let s1 := s.putStore c off l
  { s1 with mem := { s1.mem with badStore := uncovered (c * 4194304 + off % 4194304) l.length s1.mem.badStore } }

/-- n consecutive bytes of a crucible's store. -/
def Chip.readStore (s : Chip) (c off n : Nat) : List Byte := (List.range n).map fun i => s.storeByte c (off + i)

/-- The applied configuration of a queue (R253). -/
def Chip.queueCfg (s : Chip) (c q : Nat) : W64 := s.act (Cell.queueCfg c q)

/-- Bytes of a queue's slots: 64 × 2^SLOT. -/
def slotBytes (cfg : W64) : Nat := 64 <<< fld cfg 18 16

/-- Slots of a queue: 2^SLOTS. -/
def slotCount (cfg : W64) : Nat := 1 <<< fld cfg 22 19

/-- The store offset of a slot: BASE counts 64-byte units. -/
def slotOffset (cfg : W64) (slot : Nat) : Nat := fld cfg 15 0 * 64 + slot * slotBytes cfg

/-- The first slot not occupied, looking round the ring from the next one. -/
def freeSlot (n : Nat) (busy : List Nat) (next : Nat) : Option Nat :=
  ((List.range (min n (busy.length + 1))).map fun i => (next + i) % n).find? fun k => !busy.contains k

/-- The statuses of a send to a queue (R258). -/
inductive SendStatus where
  | sent
  | full
  | length
  | badDest
  | closed
  deriving DecidableEq, Repr, Inhabited

/-- The status code that MSG.SEND writes (R258). -/
def SendStatus.code : SendStatus → Nat
  | .sent => 0
  | .full => 1
  | .length => 2
  | .badDest => 3
  | .closed => 4

/-- The slots of a queue that hold messages, waiting or held by a thread, or that a sender has reserved (R262, R291). -/
def MsgQueue.busy (q : MsgQueue) : List Nat := q.items.map (·.slot) ++ q.held ++ q.reserved

/-- What a message of len bytes to a queue would meet (R254, R258). -/
def Chip.queueTry (s : Chip) (c q len : Nat) : SendStatus :=
  let cfg := s.queueCfg c q
  if 32 < c then .badDest
  else if !bit cfg 30 then .closed
  else if slotBytes cfg < len then .length
  else match freeSlot (slotCount cfg) (s.msgs.queues.get (c * 1024 + q)).busy (s.msgs.queues.get (c * 1024 + q)).next with
    | none => .full
    | some _ => .sent

/-- A message written to a free slot of a queue (R253, R255). -/
def Chip.queuePut (s : Chip) (c q source : Nat) (body : List Byte) : Chip :=
  let cfg := s.queueCfg c q
  let k := c * 1024 + q
  let mq := s.msgs.queues.get k
  match freeSlot (slotCount cfg) mq.busy mq.next with
  | none => s
  | some slot =>
    let m : QMsg := { slot := slot, len := body.length, source := source, seq := s.msgs.seq }
    let s1 := s.storeBytes c (slotOffset cfg slot) body
    let mq1 := { mq with next := (slot + 1) % slotCount cfg, items := mq.items ++ [m] }
    { s1 with msgs := { s1.msgs with queues := s1.msgs.queues.set k mq1, seq := s1.msgs.seq + 1 } }

/-- A refusal counted at the queue: CRU_QUEUE_DROPS and QUEUE_DROP (R254). -/
def Chip.queueDrop (s : Chip) (c q : Nat) : Chip :=
  if c ≤ 32 then (s.bump (Cell.queueDrops c q)).raise (Reg.CRU_EVENT c) 3 else s

/-- The crucible that receives what is addressed to crucible c: crucible 32 while GATE redirects it (R554). -/
def Chip.redirect (s : Chip) (c : Nat) : Nat := if (s.gate.crus.get c).redirected then 32 else c

/-- A hardware sender's message: whether the queue took it, and the state after (R254). -/
def Chip.sendQueue (s : Chip) (c0 q source : Nat) (body : List Byte) : Bool × Chip :=
  let c := s.redirect c0
  match s.queueTry c q body.length with
  | .sent => (true, s.queuePut c q source body)
  | _ => (false, s.queueDrop c q)

/-- The oldest message of a queue taken out of it by a block that drains it, with its body (R599, R623). -/
def Chip.queueTake (s : Chip) (c q : Nat) : Option (List Byte × Chip) :=
  let k := c * 1024 + q
  let mq := s.msgs.queues.get k
  match mq.items with
  | [] => none
  | m :: rest =>
    some (s.readStore c (slotOffset (s.queueCfg c q) m.slot) m.len,
      { s with msgs := { s.msgs with queues := s.msgs.queues.set k { mq with items := rest } } })

/-- SOURCE of a device block: its bit number of R62 and an instance (R261). [log 87 DESIGN CHOICE] -/
def deviceSource (block inst : Nat) : Nat := 0x4000 + block * 256 + inst

/-- A message to the CRUCIBLE [5:0] and QUEUE [15:6] that a destination register names, if its ENABLE bit 16 is 1. -/
def Chip.sendDest (s : Chip) (dest : W64) (source : Nat) (body : List Byte) : Option (Bool × Chip) :=
  if bit dest 16 then some (s.sendQueue (fld dest 5 0) (fld dest 15 6) source body) else none

/-- A record queued for the Gulrov link: its header and body words (R599). -/
def Chip.glkRecord (s : Chip) (type low : Nat) (body : List W64) : Chip :=
  { s with glkOut := s.glkOut ++ [w64 (type <<< 56 + (8 + 8 * body.length) <<< 40 + low % 2 ^ 40) :: body] }

/-- Whether the part works in a mate pair (R589). -/
def Chip.mateOn (s : Chip) : Bool := bit (s.act Reg.GLK_MATE_CFG) 0

/-- Whether the lasers send what POND frames: always outside a mate pair, else while the gate permits light and ROLE is ACTIVE (R589,
R594). -/
def Chip.lasers (s : Chip) : Bool := !s.mateOn || (s.permit && s.role = 12)

/-- Whether frame a comes before frame b, as 51-bit counts. -/
def earlier (a b : Nat) : Bool := 1125899906842624 ≤ (a + 2251799813685248 - b % 2251799813685248) % 2251799813685248

/-- Whether the part stands by for frame n in a mate pair: ROLE 0x9, but for the frames on the other side of a turnover, which exchanges the
roles at its frame (R535, R602, R607, R609). -/
def Chip.standbyAt (s : Chip) (n : Nat) : Bool :=
  s.mateOn && (match s.glk.turn, s.glk.turned with
    | some f, _ => if earlier n f then s.role = 9 else s.role = 12
    | none, some f => if earlier n f then s.role = 12 else s.role = 9
    | none, none => s.role = 9)

/-- Whether a part that took ROLE ACTIVE in a takeover did so less than 4 µs before frame n of a tree, or after it (R606). -/
def Chip.beforeTakeover (s : Chip) (t n : Nat) : Bool :=
  let p := s.pon.pond.get t
  match s.tookActive with
  | none => false
  | some a =>
    let t0 : Int := p.t0 + signed 51 ((n + 2251799813685248 - p.fc % 2251799813685248) % 2251799813685248) * frameTicks
    decide ((t0 - a) * 1000000 < 4000 * 622080)

/-- Whether PLOAMu, XGEM frames and the parts own maps of frame n pass as in service (R602, R606, R607). -/
def Chip.servesAt (s : Chip) (t n : Nat) : Bool := !s.standbyAt n && !s.beforeTakeover t n

end Sys2Proof.Machine
end

