-- ==== Sys2Proof/Machine/Checker.lean ====
section
/-! DEFINITION. The grant list, burst profiles and the grant checker (R126 to R158). -/
namespace Sys2Proof.Machine

/-! ### Frame numbers -/

/-- Frame counts are 51 bits wide (R170). -/
def fcMod : Nat := 2251799813685248

/-- Whether frame n is frame m or later, by the distance round the 51-bit count. -/
def frameGe (n m : Nat) : Bool := (n % fcMod + fcMod - m % fcMod) % fcMod < fcMod / 2

/-- Whether new values that apply from a frame govern frame n; none means every frame. -/
def governs (from_ : Option Nat) (n : Nat) : Bool :=
  match from_ with
  | none => true
  | some m => frameGe n m

/-- The key of a wavelength: 2 × tree + wavelength. -/
def wkey (t : Tree) (w : Wl) : Nat := t.val * 2 + w.val

/-! ### Frame timing (R175, R176) -/

/-- Whether a tree's frame timing runs. -/
def Chip.timingRuns (s : Chip) (t : Nat) : Bool :=
  match (s.pon.pond.get t).timing with
  | .running _ => true
  | _ => false

/-- The next frame's count and the tick at which it begins, where timing runs or is armed (R174, R176). -/
def Chip.nextFrame (s : Chip) (t : Tree) : Option (Nat × Nat) :=
  match (s.pon.pond.get t).timing with
  | .stopped => none
  | .armed since =>
    let f := s.tickAt ((s.reg (Reg.POND_START_TIME t)).toNat * 65536)
    some (s.get (Reg.POND_FC_START t) 50 0, ceilDiv (max f since) 4 * 4)
  | .running next => some (((s.pon.pond.get t).fc + 1) % fcMod, next)

/-! ### Burst profiles (R67, R68, R120) -/

/-- The frame at which a PONU GO still to be applied will apply: the first that begins at least 252 µs after it (R119, R128). -/
def Chip.ponuNext (s : Chip) (t : Nat) : Option Nat :=
  let k := Reg.PONU_COMMIT t
  if !s.goPending k || (s.pon.ponu.get t).idleGo then none
  else match s.nextFrame (Fin.ofNat 32 t) with
    | none => none
    | some (n, t0) => ((List.range 4).find? fun i => s.goAged k 252000 (t0 + i * frameTicks)).map fun i => (n + i) % fcMod

/-- Whether frame n is one for which a GO still pending has its values (R119, R128); one given while the tree's timing did not run has them
for every frame. -/
def Chip.ponuAhead (s : Chip) (t n : Nat) : Bool :=
  if s.goPending (Reg.PONU_COMMIT t) && (s.pon.ponu.get t).idleGo then true
  else match s.ponuNext t with
  | none => false
  | some m => frameGe n m

/-- A staged PONU value as it governs bursts granted in frame n, of a GO still pending where n is such a frame (R120, R128). -/
def Chip.ponuAt (s : Chip) (t n a : Nat) : W64 :=
  let p := s.pon.ponu.get t
  if s.ponuAhead t n then s.reg a else if governs p.from_ n then s.act a else p.prev.look resetW a

/-- Whether a GO has values for the tree's receivers in frame n (R92, R128). -/
def Chip.ponuOn (s : Chip) (t n : Nat) : Bool :=
  let p := s.pon.ponu.get t
  if s.ponuAhead t n then true else if governs p.from_ n then p.applied else p.prevApplied

/-- A staged ALLOC value as it governs maps of frame n (R162). -/
def Chip.allocAt (s : Chip) (t n a : Nat) : W64 :=
  let p := s.pon.alloc.get t
  if governs p.from_ n then s.act a else p.prev.look resetW a

/-- A burst profile register of a wavelength for frame n (R125). -/
def Chip.profile (s : Chip) (t w n p : Nat) : W64 := s.ponuAt t n (Reg.PONU_PROFILEp t w p)

/-- The profile's upstream rate code, FEC_EN and SEED_EN; the preamble, delimiter and guard in bits (R125). -/
def profRate (p : W64) : Nat := fld p 1 0
def profFec (p : W64) : Bool := bit p 2
def profSeed (p : W64) : Bool := bit p 3
def profPreamble (p : W64) : Nat := 8 * fld p 15 4
def profDelim (p : W64) : Nat := if fld p 17 16 = 1 then 64 else 32
def profTol (p : W64) : Nat := fld p 20 18
def profGuard (p : W64) : Nat := 8 * fld p 31 24

/-- The minimum guard and the minimum unseeded and seeded preambles of R68, in bits at the profile's rate. -/
def minGuard (w rate : Nat) : Nat := if w = 0 then 128 <<< rate else 64
def minPreamble (w rate : Nat) : Nat := if w = 0 then 512 <<< rate else 256
def minSeeded (w rate : Nat) : Nat := if w = 0 then 256 <<< rate else 128

/-- GTU per upstream frame, bits per GTU at a rate, and units of 1/16 reference bit per GTU and per own bit (R126, R101, R104). -/
def gtuFrame (w : Nat) : Nat := if w = 0 then 48600 else 38880
def bitsGtu (w rate : Nat) : Nat := if w = 0 then 32 <<< rate else 32
def unitsGtu (w : Nat) : Nat := if w = 0 then 2048 else 512
def unitsBit (w rate : Nat) : Nat := if w = 0 then 64 >>> rate else 16

/-! ### The grant list (R141) -/

/-- One entry of a grant list. -/
structure GrantEntry where
  raw : W64 := 0
  allocId : Nat := 0
  dbru : Bool := false
  ploamu : Bool := false
  profile : Nat := 0
  qw : Bool := false
  rng : Bool := false
  start : Nat := 0
  size : Nat := 0
  deriving DecidableEq, Repr, Inhabited

/-- The fields of a list entry (R141), with a grant's START rounded down and its SIZE up to the units its wavelength's standard encodes:
what every rule is applied to (R143). [log 62 PRESUMED] -/
def grantEntry (w : Nat) (v : W64) : GrantEntry :=
  let us := Config.startUnit w + 1
  let uz := Config.sizeUnit w + 1
  let exact := bit v 44
  { raw := v, allocId := fld v 63 50, dbru := bit v 49, ploamu := bit v 48, profile := fld v 47 46, qw := bit v 44,
    rng := bit v 43, start := (if exact || fld v 31 16 = 65535 then fld v 31 16 else fld v 31 16 / us * us)
    size := (if exact then fld v 15 0 else ceilDiv (fld v 15 0) uz * uz) }

/-- Whether an entry has a reserved field value (FORMAT of R153). -/
def reservedField (v : W64) : Bool :=
  if bit v 44 then fld v 63 45 != 0 || fld v 43 32 != 0 else fld v 42 32 != 0

/-- A ranging grant: RNG set or Alloc-ID 1023 (R152). -/
def GrantEntry.ranging (g : GrantEntry) : Bool := g.rng || g.allocId = 1023

/-- A continuation of the preceding grant's burst (R141). -/
def GrantEntry.continues (g : GrantEntry) : Bool := !g.qw && g.start = 65535

/-- A burst of a list: its grants with their places in the list, the quiet window that follows a grant of it, and the places of the
grants that a descriptor follows at once. -/
structure ListBurst where
  start : Nat := 0
  profile : Nat := 0
  grants : List (Nat × GrantEntry) := []
  window : Option (Nat × Nat) := none
  described : List Nat := []
  deriving DecidableEq, Repr, Inhabited

/-- The bursts of a list: a grant with a START opens one, a continuation joins the last, a descriptor attaches to it. -/
def groupBursts : List (Nat × GrantEntry) → List ListBurst → List ListBurst
  | [], acc => acc.reverse
  | (i, g) :: rest, acc =>
    if g.qw then
      match acc with
      | b :: bs => groupBursts rest ({ b with window := some (b.window.getD (g.start, g.size * 8)), described := (i - 1) :: b.described } :: bs)
      | [] => groupBursts rest []
    else if g.continues then
      match acc with
      | b :: bs => groupBursts rest ({ b with grants := b.grants ++ [(i, g)] } :: bs)
      | [] => groupBursts rest [{ start := g.start, profile := g.profile, grants := [(i, g)] }]
    else groupBursts rest ({ start := g.start, profile := g.profile, grants := [(i, g)] } :: acc)

/-- A list's entries with their places. -/
def numbered {α : Type} (l : List α) : List (Nat × α) := (List.range l.length).zip l

/-- The bursts of a list as a wavelength encodes it. -/
def burstsOf (w : Nat) (l : List W64) : List ListBurst := groupBursts (numbered (l.map (grantEntry w))) []

/-! ### Records (R129, R167) -/

/-- The key of an ALLOC record: KIND 1 is by wavelength, the others by tree. -/
def recKey (t w kind idx : Nat) : Nat := ((t * 2 + (if kind = 1 then w else 0)) * 4 + kind) * 4096 + idx

/-- The enabled Alloc record of an Alloc-ID on a wavelength: its index and value (R130). -/
def Chip.findAlloc (s : Chip) (t w id : Nat) : Option (Nat × W64) :=
  (s.pon.recs.find? fun e => e.1 / 4096 = t * 8 && bit e.2 26 && fld e.2 13 0 = id && fld e.2 14 14 = w).map
    fun e => (e.1 % 4096, e.2)

/-- The ranging state of an ONU-ID: 0 UNASSIGNED, 1 ASSIGNED, 2 RANGED, 3 SUSPENDED (R109). -/
def Chip.rangingState (s : Chip) (t w onu : Nat) : Nat := fld (s.pon.recs.get (recKey t w 1 onu)) 1 0

/-- Whether PONU holds coefficients of a terminal (R73): SEEDED of its record. -/
def Chip.seeded (s : Chip) (t w onu : Nat) : Bool := s.pon.seeds.get ((t * 2 + w) * 1024 + onu) ≠ 0

/-- The ONU-ID a grant goes to: of its record, or 1023 for Alloc-ID 1023 (R153, FORMAT). -/
def Chip.grantOnu (s : Chip) (t w : Nat) (g : GrantEntry) : Option Nat :=
  if g.allocId = 1023 then some 1023 else (s.findAlloc t w g.allocId).map fun r => fld r.2 24 15

/-- Whether a grant goes to an express Alloc record (R151). -/
def Chip.grantExpress (s : Chip) (t w : Nat) (g : GrantEntry) : Bool :=
  match s.findAlloc t w g.allocId with
  | none => false
  | some r => g.allocId ≠ 1023 && bit r.2 25

/-! ### Extents (R128) -/

/-- Data bits of a burst: header, PLOAMu, DBRus, payloads, trailer. -/
def dataBits (b : ListBurst) : Nat :=
  32 + (if (b.grants.headD (0, {})).2.ploamu then 384 else 0)
    + (b.grants.map fun g => (if g.2.dbru then 32 else 0) + 32 * g.2.size).sum + 32

/-- Coded bits of a burst under its wavelength's FEC. -/
def codedBits (w : Nat) (fec : Bool) (d : Nat) : Nat :=
  if w = 0 then d + 2688 * ceilDiv d 14592 else if fec then d + 256 * ceilDiv d 1728 else d

/-- The place of a burst on the wire, in GTU of its frame: light_start, light_end, guard_gtu. -/
structure Extent where
  lo : Int := 0
  hi : Int := 0
  guard : Int := 0
  deriving DecidableEq, Repr, Inhabited

/-- The extent of a burst under a profile. -/
def extentOf (w : Nat) (p : W64) (b : ListBurst) : Extent :=
  let g := bitsGtu w (profRate p)
  { lo := (b.start : Int) - ceilDiv (profPreamble p + profDelim p) g
    hi := (b.start : Int) + ceilDiv (codedBits w (profFec p) (dataBits b)) g
    guard := ceilDiv (profGuard p) g }

/-- A burst's extent in frame n. -/
def Chip.extent (s : Chip) (t w n : Nat) (b : ListBurst) : Extent := extentOf w (s.profile t w n b.profile) b

/-! ### Express and quiet windows (R148 to R151) -/

/-- Whether an express-window entry with PERIOD, PHASE and RUN at these bits is active in frame n (R150, R194, R171). -/
def windowActive (n period phase run : Nat) : Bool :=
  let p : Nat := if period = 0 then 1024 else period
  ((n : Int) - phase) % (p : Nat) < (run : Int)

/-- The intervals that express windows reserve in frame n of a wavelength, in GTU (R150). -/
def Chip.expressWindows (s : Chip) (t w n : Nat) (govern : Nat) : List (Int × Int) :=
  (List.range 8).filterMap fun x =>
    let v := s.allocAt t govern (Reg.ALLOC_XWx t w x)
    if bit v 56 && windowActive n (fld v 41 32) (fld v 51 42) (fld v 55 52 + 1) then
      some ((fld v 15 0 : Int), (fld v 15 0 + fld v 31 16 : Nat))
    else none

/-- Whether two half-open intervals meet. -/
def meets (a b : Int × Int) : Bool := a.1 < b.2 && b.1 < a.2 && a.1 < a.2 && b.1 < b.2

/-- The interval of a quiet window in GTU counted from frame 0 (R148). -/
def windowSpan (w n : Nat) (q : Nat × Nat) : Int × Int := ((n * gtuFrame w + q.1 : Nat), (n * gtuFrame w + q.1 + q.2 : Nat))

/-- A place in GTU from frame 0, seen from frame n: the 51-bit count may have wrapped between them (R170). -/
def seenFrom (w n x : Nat) : Int :=
  let d : Int := (x : Int) - (n * gtuFrame w : Nat)
  let all : Int := (fcMod * gtuFrame w : Nat)
  (n * gtuFrame w : Nat) + (if d < -(all / 2) then d + all else d)

/-- Whether some position of a window lies in two others as well (R149). -/
def crowded (x : Int × Int) (others : List (Int × Int)) : Bool :=
  let near := others.filter fun o => meets x o
  (x.1 :: near.map (·.1)).any fun p =>
    x.1 ≤ p && p < x.2 && 2 ≤ (near.filter fun o => o.1 ≤ p && p < o.2).length

/-! ### The rules (R153, R154) -/

/-- The places of a burst's continuations that name an ONU-ID other than that of its first grant, compared only where both have one
(FORMAT of R153). -/
def Chip.strangers (s : Chip) (t w : Nat) (b : ListBurst) : List Nat :=
  match b.grants with
  | [] => []
  | f :: rest => match s.grantOnu t w f.2 with
    | none => []
    | some o => rest.filterMap fun g => match s.grantOnu t w g.2 with
      | none => none
      | some o' => if o' = o then none else some g.1

/-- FORMAT: rule 2. -/
def Chip.breaksFormat (s : Chip) (t w : Nat) (l : List W64) : Bool :=
  let es := l.map (grantEntry w)
  let pairs := (none :: es.map some).zip es
  l.any reservedField
  || 1024 < l.length
  || pairs.any (fun (prev, g) =>
      (g.continues && (match prev with | none => true | some p => p.qw))
      || (g.qw && (match prev with | none => true | some p => p.qw || !p.ranging)))
  || (burstsOf w l).any fun b => !(s.strangers t w b).isEmpty

/-- Whether numbers rise strictly. -/
def rising : List Nat → Bool
  | a :: b :: l => a < b && rising (b :: l)
  | _ => true

/-- Rules of scope Grant that concern one grant of a burst (5 to 9, 12 in part, 13), as codes. [log 82 DEDUCED] -/
def Chip.grantRules (s : Chip) (t w n : Nat) (b : ListBurst) (first : Bool) (place : Nat) (g : GrantEntry) : List Nat :=
  let onu := s.grantOnu t w g
  let p := s.profile t w n g.profile
  let e := s.extent t w n b
  let known := onu.isSome
  let st := match onu with | none => 0 | some o => s.rangingState t w o
  let mask := match onu with | none => 15 | some o => if g.allocId = 1023 then 15 else fld (s.pon.recs.get (recKey t w 1 o)) 5 2
  let seeded := match onu with | none => true | some o => g.allocId ≠ 1023 && s.seeded t w o
  (if !known then [5] else [])
  ++ (if known && g.allocId ≠ 1023 && (if g.ranging then st = 0 else st ≠ 2) then [6] else [])
  ++ (if !bitOf mask g.profile || p = 0 || !s.ponuOn t n
        || (!seeded && profPreamble p < minPreamble w (profRate p)) then [7] else [])
  ++ (if g.size = 0 && !g.dbru && !(first && g.ploamu) then [8] else [])
  ++ (if e.lo < 0 || (gtuFrame w : Int) < e.hi then [9] else [])
  ++ (if g.ranging && (!g.ploamu || !first || !b.described.contains place) then [12] else [])
  ++ (if !s.grantExpress t w g && (s.expressWindows t w n n).any (meets (e.lo, e.hi)) then [13] else [])

/-- Whether all grants of a burst are to express Alloc records. -/
def Chip.allExpress (s : Chip) (t w : Nat) (b : ListBurst) : Bool := b.grants.all fun g => s.grantExpress t w g.2

/-- Of two bursts in conflict the later offends, unless it is all express and the earlier is not (R154). -/
def Chip.blame (s : Chip) (t w : Nat) (a b : ListBurst) : ListBurst :=
  if s.allExpress t w b && !s.allExpress t w a then a else b

/-- The offences (place in the list, code) of a conflicting burst: every grant of it. -/
def offenceAll (b : ListBurst) (code : Nat) : List (Nat × Nat) := b.grants.map fun g => (g.1, code)

/-- OVERLAP among the bursts of a map (rule 10): light intervals widened by MARGIN at both ends. -/
def Chip.overlaps (s : Chip) (t w n : Nat) : List ListBurst → List (Nat × Nat)
  | [] => []
  | a :: rest =>
    let m : Int := fld (s.allocAt t n (Reg.ALLOC_MARGIN t w)) 7 0
    let ea := s.extent t w n a
    (rest.flatMap fun b =>
      let eb := s.extent t w n b
      if meets (ea.lo - m, ea.hi + m) (eb.lo - m, eb.hi + m) then offenceAll (s.blame t w a b) 10 else [])
    ++ s.overlaps t w n rest

/-- GUARD between neighbouring bursts of a map (rule 11). -/
def Chip.guards (s : Chip) (t w n : Nat) : List ListBurst → List (Nat × Nat)
  | a :: b :: rest =>
    let m : Int := fld (s.allocAt t n (Reg.ALLOC_MARGIN t w)) 7 0
    let eb := s.extent t w n b
    (if eb.lo - (s.extent t w n a).hi < eb.guard + 2 * m then offenceAll (s.blame t w a b) 11 else [])
    ++ s.guards t w n (b :: rest)
  | _ => []

/-- A map of an earlier frame: how many frames before, and its list. -/
structure EarlierMap where
  back : Nat := 1
  list : List W64 := []
  deriving DecidableEq, Repr, Inhabited

/-- GUARD against the last burst of the previous sent map (rule 11); there the later burst offends (R154). [log 82 DEDUCED] -/
def Chip.guardBefore (s : Chip) (t w n : Nat) (prev : EarlierMap) (bs : List ListBurst) : List (Nat × Nat) :=
  match (burstsOf w prev.list).getLast?, bs with
  | some a, b :: _ =>
    let m : Int := fld (s.allocAt t n (Reg.ALLOC_MARGIN t w)) 7 0
    let eb := s.extent t w n b
    let end_ : Int := (s.extent t w ((n + fcMod - prev.back) % fcMod) a).hi - (prev.back * gtuFrame w : Nat)
    if eb.lo - end_ < eb.guard + 2 * m then offenceAll b 11 else []
  | _, _ => []

/-- QUIET (rule 12) for the windows: each burst's light against the windows open at its place but its own, and each ranging
burst's window against R148, R149 and the express windows of the frames it reaches. [log 220 DEDUCED] -/
def Chip.quiets (s : Chip) (t w n : Nat) (opened : List QuietWindow) (bs : List ListBurst) : List (Nat × Nat) :=
  let before : List (Int × Int) := opened.map fun q => (seenFrom w n q.lo, seenFrom w n q.hi)
  let mine := bs.map fun b => b.window.map (windowSpan w n)
  (numbered bs).flatMap fun (i, b) =>
    let e := s.extent t w n b
    let light : Int × Int := (e.lo + (n * gtuFrame w : Nat), e.hi + (n * gtuFrame w : Nat))
    let others := (numbered mine).filterMap fun (j, x) => if j = i then none else x
    let earlier := (numbered mine).filterMap fun (j, x) => if j < i then x else none
    let intrudes := (before ++ others).any (meets light)
    let bad := match b.window, b.window.map (windowSpan w n) with
      | some q, some x =>
        decide (4 * gtuFrame w < q.1 + q.2)
        || crowded x (before ++ earlier)
        || (List.range 4).any (fun k => (s.expressWindows t w ((n + k) % fcMod) n).any fun iv =>
              meets x (iv.1 + ((n + k) * gtuFrame w : Nat), iv.2 + ((n + k) * gtuFrame w : Nat)))
      | _, _ => false
    (if intrudes then offenceAll b 12 else [])
    ++ (if bad then (b.grants.filter fun g => g.2.ranging).map (fun g => (g.1, 12)) else [])

/-- The last complete map of a frame that passed, where its frame has not come yet. -/
def Chip.passedMap (s : Chip) (wk n : Nat) : Option (List W64) :=
  (((s.pon.checker.get wk).maps.filter fun m => m.frame = n && !m.shadow && (match m.verdict with | some v => !bitOf v.1 57 | none => false)).getLast?).map
    (·.entries)

/-- The quiet windows open to a map for frame n: of the maps sent, and of the passed maps for the three frames before it that are
still to be sent (R148, R149). [log 80 DEDUCED] -/
def Chip.openWindows (s : Chip) (t w n : Nat) : List QuietWindow :=
  let wk := t * 2 + w
  (s.pon.checker.get wk).windows ++ [3, 2, 1].flatMap fun k =>
    let p := (n + fcMod - k) % fcMod
    (burstsOf w ((s.passedMap wk p).getD [])).filterMap fun b => b.window.map fun q =>
      { lo := p * gtuFrame w + q.1, hi := p * gtuFrame w + q.1 + q.2 }

/-- Every offence of the rules of scope Grant in a map for frame n, after the previous sent map. [log 81 DESIGN CHOICE] -/
def Chip.offences (s : Chip) (t w n : Nat) (prev : EarlierMap) (l : List W64) : List (Nat × Nat) :=
  let bs := burstsOf w l
  let opened := s.openWindows t w n
  (bs.flatMap fun b => (numbered b.grants).flatMap fun (k, g) =>
    (s.grantRules t w n b (k = 0) g.1 g.2).map fun c => (g.1, c))
  ++ s.overlaps t w n bs ++ s.guards t w n bs ++ s.guardBefore t w n prev bs ++ s.quiets t w n opened bs

/-- The offending grants in map order, each with the lowest code it broke (R140). [log 81 DESIGN CHOICE] -/
def offenders (len : Nat) (os : List (Nat × Nat)) : List (Nat × Nat) :=
  (List.range len).filterMap fun i =>
    match (os.filter fun o => o.1 = i).map (·.2) with
    | [] => none
    | c :: cs => some (i, cs.foldl min c)

/-- The lowest code of a list of offences, 0 for none. -/
def lowestCode (os : List (Nat × Nat)) : Nat :=
  match os.map (·.2) with
  | [] => 0
  | c :: cs => cs.foldl min c

/-- RULE of a map under R755: the lowest broken rule of scope Map, else the lowest of scope Grant, else 0. -/
def Chip.mapRule (s : Chip) (t w n : Nat) (prev : EarlierMap) (l : List W64) : Nat :=
  let offs := offenders l.length (s.offences t w n prev l)
  if s.breaksFormat t w l then 2
  else if !rising ((burstsOf w l).map (·.start)) then 3
  else if 512 < (burstsOf w l).length then 4
  else if 64 < offs.length then 14
  else lowestCode offs

/-- The header of a verdict message (R140, R755). -/
def verdictHeader (t w n : Nat) (shadow : Bool) (rule count : Nat) : Nat :=
  t <<< 59 + w <<< 58 + ofBool (rule ≠ 0) <<< 57 + ofBool shadow <<< 56 + rule <<< 48 + count <<< 40 + n % 4294967296

/-- COUNT of R755. -/
def verdictCount (rule offs : Nat) : Nat := if rule ≤ 4 then 0 else min offs 64

/-- The verdict of a map: the header and the offending grants. [log 81 DESIGN CHOICE] -/
def Chip.verdict (s : Chip) (t w n : Nat) (shadow : Bool) (prev : EarlierMap) (l : List W64) : Nat × List (Nat × Nat) :=
  let offs := offenders l.length (s.offences t w n prev l)
  let rule := s.mapRule t w n prev l
  (verdictHeader t w n shadow rule (verdictCount rule offs.length), offs)

/-- Whether a verdict header refuses its map. -/
def refused (h : Nat) : Bool := bitOf h 57

/-! ### Repeats (R155 to R157) -/

/-- A list without the grants that `keep` turns away: a burst's next grant takes its START, an emptied burst goes (R156). -/
def thin (keep : Nat × GrantEntry → Bool) (bs : List ListBurst) : List W64 :=
  bs.flatMap fun b =>
    match b.grants.filter keep with
    | [] => []
    | f :: rest => setFld f.2.raw 31 16 b.start :: rest.map fun g => g.2.raw

/-- The pattern with every grant that breaks a rule in frame n removed, over and over until none does: those of scope Grant, and a
continuation whose record now names another ONU-ID, by which the repeat would break FORMAT (R155, R158). [log 83 DESIGN CHOICE] -/
def Chip.settle (s : Chip) (t w n : Nat) (prev : EarlierMap) : Nat → List W64 → List W64
  | 0, _ => []
  | k + 1, l =>
    let bad := (s.offences t w n prev l).map (·.1) ++ (burstsOf w l).flatMap (s.strangers t w)
    if bad = [] then l else s.settle t w n prev k (thin (fun g => !bad.contains g.1) (burstsOf w l))

/-- The repeat for frame n: the pattern of frame n − 1 without the named Alloc-IDs, ranging grants and descriptors, settled. [log 83 DESIGN CHOICE] -/
def Chip.repeatMap (s : Chip) (t w n : Nat) (pattern : List W64) (banned : List Nat) : List W64 :=
  let l := thin (fun g => !g.2.ranging && !banned.contains g.2.allocId) (burstsOf w pattern)
  s.settle t w n { list := pattern } (l.length + 1) l

/-- The Alloc-IDs of the grants of a list. -/
def allocIds (l : List W64) : List Nat := l.filterMap fun v => if bit v 44 then none else some (fld v 63 50)

/-! ### The map on the fibre (R142) -/

/-- An allocation structure of ITU-T G.9807.1 without its check: Alloc-ID, DBRu and PLOAMu flags, StartTime, GrantSize, FWI and burst
profile. PRESUMED: the spec names the standard and not the layout (see the assumption log). [log 62 PRESUMED] -/
def allocBody98071 (alloc flags start size fwi profile : Nat) : Nat :=
  alloc <<< 37 + flags <<< 35 + start <<< 19 + size <<< 3 + fwi <<< 2 + profile

/-- An allocation structure of ITU-T G.9804.2 without its check: the same fields in the same places, as far as the family's standards are
known to agree. [log 62 PRESUMED] -/
def allocBody98042 (alloc flags start size fwi profile : Nat) : Nat :=
  alloc <<< 37 + flags <<< 35 + start <<< 19 + size <<< 3 + fwi <<< 2 + profile

/-- A grant's allocation structure in the encoding of its wavelength's standard: StartTime and GrantSize in the standard's units, the
continuation StartTime for START 0xFFFF, and the HEC (R142, R143). [log 62 PRESUMED, 63 PRESUMED] -/
def allocStructure (w : Nat) (v : W64) : W64 :=
  let st := if fld v 31 16 = 65535 then 65535 else fld v 31 16 / (Config.startUnit w + 1)
  let sz := ceilDiv (fld v 15 0) (Config.sizeUnit w + 1)
  let body := (if w = 0 then allocBody98042 else allocBody98071) (fld v 63 50) (fld v 49 48) st sz (fld v 45 45) (fld v 47 46)
  w64 (withHec 51 body)

/-- The allocation structures of a list: one per grant, none for a descriptor (R142). [log 62 PRESUMED] -/
def structuresOf (w : Nat) (l : List W64) : List W64 := (l.filter fun v => !bit v 44).map (allocStructure w)

end Sys2Proof.Machine
end

