-- ==== Sys2Proof/Machine/Alloc.lean ====
section
/-! DEFINITION. ALLOC: staging, records, owners, verdicts and the taking of maps (R129 to R168). -/
namespace Sys2Proof.Machine

/-! ### Staging (R162, R163) -/

/-- Whether a staged express window of wavelength w is legal (R163, R165), enabled or not: inside the frame, PHASE below PERIOD, RUN not above it. -/
def xwLegal (w : Nat) (v : W64) : Bool :=
  let p := if fld v 41 32 = 0 then 1024 else fld v 41 32
  fld v 15 0 + fld v 31 16 ≤ gtuFrame w && fld v 51 42 < p && fld v 55 52 + 1 ≤ p

/-- Whether every staged ALLOC value is legal. An express window at its reset value 0 has PERIOD 1,024. -/
def Chip.allocStagedOk (s : Chip) : Bool :=
  s.legalRange 0x800000 0xA00000
  && (List.finRange 32).all fun t => (List.finRange 2).all fun w => (List.range 8).all fun x =>
      xwLegal w.val (s.reg (Reg.ALLOC_XWx t w x))

/-- The window of a tree's ALLOC registers. -/
def allocTreeBase (t : Tree) : Nat := 0x810000 + t.val * 0x1000

/-- A tree applies ALLOC's staged values (R162): from its present frame on they govern maps two frames later. -/
def Chip.allocApplyTree (s : Chip) (t : Tree) (applied : Nat) (from_ : Option Nat) : Chip :=
  let prev := s.keepRange (allocTreeBase t) (allocTreeBase t + 0x1000)
  let s1 := s.applyRange (allocTreeBase t) (allocTreeBase t + 0x1000)
  let s2 := s1.setField (Reg.ALLOC_TSTATUS t) 63 32 applied
  { s2 with pon := { s2.pon with alloc := s2.pon.alloc.set t { waiting := false, from_ := from_, prev := prev } } }

/-- PENDING of ALLOC clears when every tree has applied (R162). -/
def Chip.allocSettle (s : Chip) : Chip :=
  if (List.finRange 32).any (fun t => (s.pon.alloc.get t).waiting) then s else s.goDone Reg.ALLOC_COMMIT

/-- ALLOC_APPLY for a tree whose timing does not run: at once, under the low 32 bits of POND_FC_START (R162). [log 65 DEDUCED] -/
def Chip.allocApplyIdle (s : Chip) (t : Tree) : Chip :=
  if s.timingRuns t then { s with pon := { s.pon with alloc := s.pon.alloc.upd t fun a => { a with waiting := true } } }
  else s.allocApplyTree t (s.get (Reg.POND_FC_START t) 31 0) none

/-- A tree whose timing an ARM has stopped no longer has a frame to wait for: it applies what it still waits with (R162). -/
def Chip.allocApplyStopped (s : Chip) (t : Tree) : Chip :=
  if (s.pon.alloc.get t).waiting then (s.allocApplyTree t (s.get (Reg.POND_FC_START t) 31 0) none).allocSettle else s

/-- ALLOC_GO (R163, R23): STAGE_ERR, or PENDING with the trees whose timing does not run applied at once. -/
def allocGo (s : Chip) : Chip :=
  if s.goPending Reg.ALLOC_COMMIT || !s.allocStagedOk then s.stageErr Reg.ALLOC_COMMIT
  else ((List.finRange 32).foldl Chip.allocApplyIdle (s.goSet Reg.ALLOC_COMMIT)).allocSettle

/-- ALLOC_APPLY at a frame start: the first frame at least 2 µs after GO, whose number is n (R162). -/
def Chip.allocApplyAt (s : Chip) (t : Tree) (n t0 : Nat) : Chip :=
  if (s.pon.alloc.get t).waiting && s.goAged Reg.ALLOC_COMMIT 2000 t0 then
    (s.allocApplyTree t (n % 4294967296) (some ((n + 2) % fcMod))).allocSettle
  else s

/-! ### Records (R129 to R133, R168) -/

/-- An ALLOC record's value as it reads: the stored fields, with SEEDED of a terminal record (R167). -/
def Chip.recValue (s : Chip) (t : Tree) (w : Wl) (kind idx : Nat) : W64 :=
  let v := s.pon.recs.get (recKey t w kind idx)
  if kind = 1 then setBit v 6 (s.seeded t w idx) else v

/-- A record stored. -/
def Chip.setRec (s : Chip) (key : Nat) (v : W64) : Chip := { s with pon := { s.pon with recs := s.pon.recs.set key v } }

/-- The terminal records of a tree not in UNASSIGNED, across both wavelengths (R132). -/
def Chip.terminals (s : Chip) (t : Nat) : Nat :=
  (s.pon.recs.filter fun e => (e.1 / 4096 = t * 8 + 1 || e.1 / 4096 = t * 8 + 5) && fld e.2 1 0 ≠ 0).length

/-- A terminal leaves RANGED: its stored coefficients and its drift run go, the run kept for what else takes effect in the same cycle
(R74, R116, R117). -/
def Chip.leaveRanged (s : Chip) (t w onu : Nat) : Chip :=
  let k := (t * 2 + w) * 1024 + onu
  { s with pon := { s.pon with seeds := s.pon.seeds.set k 0, driftRuns := s.pon.driftRuns.set k 0,
                               leftRanged := s.pon.leftRanged.set k (some (s.frc, s.pon.driftRuns.get k)) } }

/-- Whether the device has suspended a terminal in this very cycle (R117). -/
def Chip.suspendedNow (s : Chip) (t w onu : Nat) : Bool := s.pon.suspended.get ((t * 2 + w) * 1024 + onu) = some s.frc

/-- A write of a terminal record (R110, R132): STATE and PROFILE_MASK, refused over the limit of 512. A record that the device has suspended
in the same cycle ends SUSPENDED (R117). -/
def Chip.writeTerminal (s : Chip) (t : Tree) (w : Wl) (idx : Nat) (v : W64) : Chip :=
  let k := recKey t w 1 idx
  let old := fld (s.pon.recs.get k) 1 0
  if 1019 < idx then s
  else if s.suspendedNow t w idx then s.setRec k (setFld (w64 (fld v 5 0)) 1 0 3)
  else if old = 0 && fld v 1 0 ≠ 0 && 512 ≤ s.terminals t then s.raise Reg.ALLOC_EVENT 1
  else
    let s1 := s.setRec k (w64 (fld v 5 0))
    if old = 2 && fld v 1 0 ≠ 2 then s1.leaveRanged t w idx else s1

/-- A write of an Alloc record (R130, R131, R168): reserved encodings keep their fields (R25), a duplicate is refused, and
enabling clears the slots. [log 20 DESIGN CHOICE] -/
def Chip.writeAllocRec (s : Chip) (t : Tree) (idx : Nat) (v : W64) : Chip :=
  let k := recKey t 0 0 idx
  let old := s.pon.recs.get k
  let id := if 1020 ≤ fld v 13 0 && fld v 13 0 ≤ 1023 then fld old 13 0 else fld v 13 0
  let onu := if 1019 < fld v 24 15 then fld old 24 15 else fld v 24 15
  let new := setFld (setFld (w64 (fld v 26 0)) 13 0 id) 24 15 onu
  let dup := bit new 26 && (match s.findAlloc t (fld new 14 14) id with | none => false | some r => r.1 ≠ idx)
  if dup then s.raise Reg.ALLOC_EVENT 2
  else
    let s1 := s.setRec k new
    if bit new 26 && !bit old 26 then (s1.setRec (recKey t 0 2 idx) 0).setRec (recKey t 0 3 idx) 0 else s1

/-- ALLOC_REC_WRITE: a write of the record that a selector names; writes to slots are ignored (R165). -/
def allocRecWrite (t : Tree) (w : Wl) (kind : Fin 4) (idx : Fin 4096) (v : W64) (s : Chip) : Chip :=
  match kind with
  | 0 => s.writeAllocRec t idx v
  | 1 => s.writeTerminal t w idx v
  | _ => s

/-! ### Owners (R34, R35, R145, R166) -/

/-- The crucible that owns frame n of a tree (R166). -/
def Chip.owner (s : Chip) (t : Tree) (n : Nat) : Nat :=
  let v := s.reg (Reg.ALLOC_OWNER t)
  if (n % 4294967296 + 4294967296 - fld v 63 32) % 4294967296 < 2147483648 then fld v 11 6 else fld v 5 0

/-- OWNER_HANDOVER once frame n has begun: OLD takes NEW where n belongs to NEW (R166). -/
def Chip.ownerHandover (s : Chip) (t : Tree) (n : Nat) : Chip :=
  let a := Reg.ALLOC_OWNER t
  if s.owner t n = s.get a 11 6 then s.setField a 5 0 (s.get a 11 6) else s

/-- ALLOC_OWNER_WRITE: a 64-bit write while OLD and NEW agree sets the register; any other sets OWNER_ERR. Where FROM_FRAME has begun already,
OLD reads NEW at once (R166). -/
def allocOwnerWrite (t : Tree) (lanes : Lanes) (v : W64) (s : Chip) : Chip :=
  let r := s.reg (Reg.ALLOC_OWNER t)
  if lanes ≠ .full || fld r 5 0 ≠ fld r 11 6 then s.raise Reg.ALLOC_EVENT 3
  else
    let s1 := s.setReg (Reg.ALLOC_OWNER t) (w64 (fld v 11 0 + fld v 63 32 <<< 32))
    if s1.timingRuns t then s1.ownerHandover t (s1.pon.pond.get t).fc else s1

/-! ### Verdicts (R135 to R140) -/

/-- The checker state of a wavelength changed. -/
def Chip.updChecker (s : Chip) (wk : Nat) (f : CheckerWl → CheckerWl) : Chip :=
  { s with pon := { s.pon with checker := s.pon.checker.upd wk f } }

/-- The body of a verdict message: the header and an entry for each listed grant (R140). -/
def verdictBody (h : Nat) (l : List W64) (offs : List (Nat × Nat)) : List Byte :=
  wordsBytes (w64 h :: (offs.take (bitsOf h 47 40)).map fun o =>
    w64 (fld (nth l o.1) 63 50 <<< 50 + o.2 <<< 46))

/-- VERDICT_MESSAGE: to ALLOC_VERDICT_DEST as it governs frame n, or discarded and counted (R139). SOURCE is block 5, ALLOC, with
the wavelength's key as instance (the spec gives none; see the log). [log 86 DESIGN CHOICE, 87 DESIGN CHOICE] -/
def Chip.verdictMessage (s : Chip) (t : Tree) (w : Wl) (n : Nat) (body : List Byte) : Chip :=
  match s.sendDest (s.allocAt t n (Reg.ALLOC_VERDICT_DEST t)) (deviceSource 5 (wkey t w)) body with
  | some (false, s1) => (s1.bump (Reg.ALLOC_VERDICT_DROP t w)).raise Reg.ALLOC_EVENT 4
  | some (true, s1) => s1
  | none => s

/-- The map before frame n's as GUARD compares with it: the last one passed for the frame before, where that has not been sent yet, or the
last one sent, with the frames since (R153). [log 80 DEDUCED] -/
def Chip.previousMap (s : Chip) (wk n : Nat) : EarlierMap :=
  let c := s.pon.checker.get wk
  let p := (n + fcMod - 1) % fcMod
  match s.passedMap wk p, c.sentFrame with
  | some l, some q => if q = p then { list := c.sent } else { list := l }
  | some l, none => { list := l }
  | none, some q => { back := (n + fcMod - q) % fcMod, list := c.sent }
  | none, none => {}

/-- MAP_VERDICT: the checker applies every rule to the oldest complete map of the frame that has no verdict (R153, R135). A verdict may come
after the checker deadline, up to the moment POND takes the map: a map that was complete by the deadline counts then as passed. [log 227 DESIGN CHOICE] -/
def mapVerdict (t : Tree) (w : Wl) (n : Nat) (s : Chip) : Chip :=
  let wk := wkey t w
  match (s.pon.checker.get wk).maps.findIdx? fun m => m.frame = n && m.verdict.isNone with
  | none => s
  | some i =>
    let m := nth (s.pon.checker.get wk).maps i
    let v := s.verdict t w n m.shadow (s.previousMap wk n) m.entries
    let s1 := s.updChecker wk fun c => { c with maps := c.maps.set i { m with verdict := some v } }
    s1.verdictMessage t w n (verdictBody v.1 m.entries v.2)

/-- Whether a complete map can decide a frame: it is no shadow map, or is one only because the part stood by (R602, R606). [log 84 DESIGN CHOICE] -/
def FilledMap.counts (m : FilledMap) : Bool := !m.shadow || m.forced

/-- Whether a complete map that counts lies ready for a frame. -/
def Chip.hasMap (s : Chip) (wk n : Nat) : Bool := (s.pon.checker.get wk).maps.any fun m => m.frame = n && m.counts

/-- CHECKER_DEADLINE: at t0(n) − 6 µs a frame without a complete map is LATE, rule 1 (R136, R153, R36). [log 85 DESIGN CHOICE] -/
def checkerDeadline (t : Tree) (w : Wl) (s : Chip) : Chip :=
  match s.nextFrame t with
  | none => s
  | some (n, t0) =>
    if lasts (t0 - s.frc) 6001 || s.hasMap (wkey t w) n then s
    else s.verdictMessage t w n (verdictBody (verdictHeader t w n (s.standbyAt n) 1 0) [] [])

/-! ### Taking a map (R138, R155 to R159) -/

/-- The last complete map of a frame that counts (R137). -/
def Chip.lastMap (s : Chip) (wk n : Nat) : Option FilledMap :=
  ((s.pon.checker.get wk).maps.filter fun m => m.frame = n && m.counts).getLast?

/-- The map for frame n: the passed one, or the repeat with what was refused (R155, R158). The flags say whether it was refused
and whether it was late; the count is of the removed grants. -/
structure Taken where
  map : List W64 := []
  refusedMap : Bool := false
  late : Bool := false
  removed : Nat := 0
  absent : List Nat := []
  header : Nat := 0
  deriving DecidableEq, Repr, Inhabited

/-- The grants of a list (descriptors apart). -/
def grantCount (l : List W64) : Nat := (l.filter fun v => !bit v 44).length

/-- What POND takes for frame n. -/
def Chip.takeMap (s : Chip) (t : Tree) (w : Wl) (n : Nat) : Taken :=
  let wk := wkey t w
  let c := s.pon.checker.get wk
  let rep := fun (bad : List Nat) (late : Bool) (h : Nat) =>
    let banned := c.absent ++ bad
    let r := s.repeatMap t w n c.sent banned
    { map := r, refusedMap := true, late := late, removed := grantCount c.sent - grantCount r
      absent := (c.absent ++ (allocIds c.sent).filter fun i => !(allocIds r).contains i).eraseDups, header := h }
  match s.lastMap wk n with
  | none => rep [] true (verdictHeader t w n false 1 0)
  | some m => match m.verdict with
    | none => rep [] true (verdictHeader t w n false 1 0)
    | some (h, offs) =>
      if refused h then rep (offs.map fun o => fld (nth m.entries o.1) 63 50) false h
      else { map := m.entries, header := h }

/-- The bursts a receiver expects from a map (R71): each with its grants' records and ONU-ID as they are now (R113). -/
def Chip.expectBursts (s : Chip) (t w : Nat) (l : List W64) : List RxBurst :=
  (burstsOf w l).map fun b =>
    let f := (b.grants.headD (0, {})).2
    { start := b.start, profile := b.profile, onu := (s.grantOnu t w f).getD 1023, ploamu := f.ploamu,
      ranging := f.ranging, window := b.window,
      grants := b.grants.map fun g =>
        { allocId := g.2.allocId, record := (if g.2.allocId = 1023 then none else (s.findAlloc t w g.2.allocId).map (·.1)),
          dbru := g.2.dbru, size := g.2.size } }

/-- A receiver changed. -/
def Chip.updRx (s : Chip) (wk : Nat) (f : Receiver → Receiver) : Chip :=
  { s with pon := { s.pon with rx := s.pon.rx.upd wk f } }

/-- A framer changed. -/
def Chip.updFramer (s : Chip) (wk : Nat) (f : Framer → Framer) : Chip :=
  { s with pon := { s.pon with framers := s.pon.framers.upd wk f } }

/-- A map's bursts handed to the receiver. -/
def Chip.expectMap (s : Chip) (t w n : Nat) (l : List W64) (late : Bool) : Chip :=
  s.updRx (t * 2 + w) fun r => { r with maps := r.maps ++ [{ frame := n, bursts := s.expectBursts t w l, late := late }] }

/-- The quiet windows that a sent map opens, with those still open at frame n (R148, R149). -/
def windowsAfter (w n : Nat) (old : List QuietWindow) (l : List W64) : List QuietWindow :=
  old.filter (fun q => ((n * gtuFrame w : Nat) : Int) < seenFrom w n q.hi)
  ++ (burstsOf w l).filterMap fun b => b.window.map fun q =>
      { lo := n * gtuFrame w + q.1, hi := n * gtuFrame w + q.1 + q.2 }

/-- The digest of a map: CRC-32C from 0xFFFF_FFFF over its allocation structures in map order (R604). -/
def mapDigest (w : Nat) (l : List W64) : Nat := (crc32c 0xFFFFFFFF#32 (wordsBytes (structuresOf w l))).toNat

/-- MAP_RECORD_SEND: the MAP record of a map that POND takes (R599). -/
def Chip.sendMapRecord (s : Chip) (t w n : Nat) (isRepeat : Bool) (l : List W64) : Chip :=
  let st := structuresOf w l
  s.glkRecord 2 (t <<< 35 + w <<< 34 + ofBool isRepeat <<< 33 + n % 4294967296) (w64 (mapDigest w l + st.length <<< 32) :: st)

/-- A digest of the mate's compared with that of the own map for the frame, once both are known: counters, RUN, and the place of a mismatch
(R604). [log 174 DESIGN CHOICE] -/
def Chip.digestCheck (s : Chip) (t w n : Nat) : Chip :=
  let wk := t * 2 + w
  let c := s.pon.checker.get wk
  match c.shadowSent.find? (fun (e : Nat × List W64) => e.1 = n), s.glk.digests.find? fun e => e.1 = wk && e.2.1 = n with
  | some (_, map), some (_, _, d) =>
    let own := s.glk.digests.filter fun e => e.1 ≠ wk || earlier n e.2.1
    let s1 : Chip := { s with
      pon := { s.pon with checker := s.pon.checker.set wk { c with shadowSent := c.shadowSent.filter fun (e : Nat × List W64) => earlier n e.1 } }
      glk := { s.glk with digests := own } }
    if mapDigest w map = d then
      let hit := (wk :: s.glk.matched).eraseDups
      let all := (List.range 64).all fun k => !(s.pon.framers.get k).sending || hit.contains k
      let s2 := s1.bump Reg.GLK_DIGEST_MATCH
      { s2 with glk := { s2.glk with matched := if all then [] else hit, run := if all then min 65535 (s2.glk.run + 1) else s2.glk.run } }
    else
      let s2 := ((s1.bump Reg.GLK_DIGEST_MISMATCH).raise Reg.GLK_EVENT 7).setReg Reg.GLK_DIGEST
        (w64 (t + w <<< 5 + (n % 4294967296) <<< 32))
      { s2 with glk := { s2.glk with matched := [], run := 0 } }
  | _, _ => s

/-- The counting of a refused map (R158, R159). -/
def Chip.countRefusal (s : Chip) (t : Tree) (w : Wl) (k : Taken) : Chip :=
  let run := min 65535 (s.get (Reg.ALLOC_REFUSE_RUN t w) 15 0 + 1)
  let s1 := (s.bump (Reg.ALLOC_MAPS_REFUSED t w)).bump (Reg.ALLOC_GRANTS_REMOVED t w) k.removed
  let s2 := if k.late then s1.bump (Reg.ALLOC_MAPS_LATE t w) else s1
  let s3 := (s2.setField (Reg.ALLOC_REFUSE_RUN t w) 15 0 run).raise Reg.ALLOC_REFUSE_EVENT (w.val * 32 + t.val)
  if run = 8 then s3.raise Reg.ALLOC_EVENT 0 else s3

/-- The counting of a passed map (R159). [log 174 DESIGN CHOICE] -/
def Chip.countPass (s : Chip) (t : Tree) (w : Wl) : Chip :=
  (s.bump (Reg.ALLOC_MAPS_PASSED t w)).setField (Reg.ALLOC_REFUSE_RUN t w) 15 0 0

/-- A standby part keeps what it would have sent, to compare its digest with the mate's (R602, R604); its maps are shadow maps. -/
def Chip.takeStandby (s : Chip) (t : Tree) (w : Wl) (n : Nat) : Chip :=
  let k := s.takeMap t w n
  (s.updChecker (wkey t w) fun c =>
    { c with shadowSent := c.shadowSent ++ [(n, k.map)], maps := c.maps.filter fun m => m.frame ≠ n }).digestCheck t w n

/-- An active part's map for frame n goes to POND, the receiver and the mate. -/
def Chip.takeActive (s : Chip) (t : Tree) (w : Wl) (n : Nat) : Chip :=
  let wk := wkey t w
  let k := s.takeMap t w n
  let s1 := if k.refusedMap then s.countRefusal t w k else s.countPass t w
  let s2 := s1.setReg (Reg.ALLOC_LAST_VERDICT t w) (w64 (bitsOf k.header 57 57 <<< 57 + bitsOf k.header 51 40 <<< 40
    + w.val <<< 58 + n % 4294967296))
  let s3 := (s2.expectMap t w n k.map false).updChecker wk fun c =>
    { c with maps := c.maps.filter (fun m => m.frame ≠ n), sent := k.map, sentFrame := some n,
             absent := (if k.refusedMap then k.absent else []), windows := windowsAfter w n c.windows k.map }
  let s4 := s3.updFramer wk fun f => { f with map := structuresOf w k.map, mapFrame := some n }
  if s4.mateOn then s4.sendMapRecord t w n k.refusedMap k.map else s4

/-- The PLOAMd entries queued when the map is taken are those frame n may carry (R181, R182). -/
def Chip.takePloams (s : Chip) (wk : Nat) : Chip := s.updFramer wk fun f => { f with eligible := f.queue.length }

/-- MAP_TAKE: at t0(n) − 3 µs POND takes the passed map, or the repeat, and the PLOAMd entries queued by then (R138). [log 80 DEDUCED] -/
def mapTake (t : Tree) (w : Wl) (s : Chip) : Chip :=
  match s.nextFrame t with
  | none => s
  | some (n, t0) =>
    if lasts (t0 - s.frc) 3001 || (s.pon.framers.get (wkey t w)).mapFrame = some n then s
    else if !s.servesAt t n then (s.takeStandby t w n).takePloams (wkey t w)
    else (s.takeActive t w n).takePloams (wkey t w)

end Sys2Proof.Machine
end

