-- ==== Sys2Proof/Machine/Fill.lean ====
section
/-! DEFINITION. GRANT.FILL as ALLOC sees it (R135, R136, R143 to R147, R270, R271). -/
namespace Sys2Proof.Machine

/-- The statuses of GRANT.FILL (R147). -/
def fillOk : Nat := 0
def fillEarly : Nat := 1
def fillLate : Nat := 2
def fillNotOwner : Nat := 3
def fillCount : Nat := 4

/-- The one frame that FRAME can name: of the frames whose count ends in it, the nearest to the next one (R270), with its distance from the
next frame; none before frame 0. [log 51 DEDUCED] -/
def nearFrame (next low : Nat) : Option (Nat × Int) :=
  let d := signed 32 ((low + 4294967296 - next % 4294967296) % 4294967296)
  if (next : Int) + d < 0 then none else some (((next : Int) + d).toNat % fcMod, d)

/-- What GRANT.FILL meets at ALLOC for a list of `count` entries (R135, R136, R145, R147, R175): its status and the frame, or fcMod where it names none. Until the tree's timing
first runs no window opens (R175). The checks are made in the order COUNT, EARLY, NOT_OWNER, LATE (see the log). [log 50 DEDUCED] -/
def Chip.fillStatus (s : Chip) (c : Nat) (t : Tree) (shadow : Bool) (low count : Nat) : Nat × Nat :=
  if count = 0 || 1024 < count then (fillCount, fcMod)
  else if !(s.pon.pond.get t).ran then (fillEarly, fcMod)
  else match s.nextFrame t with
    | none => (fillEarly, fcMod)
    | some (m, t0) => match nearFrame m low with
      | none => (fillLate, fcMod)
      | some (n, d) =>
        let at_ : Int := t0 + d * frameTicks
        let wait : Int := at_ - s.frc
        if 250000 * 622080 < wait * 1000000 then (fillEarly, n)
        else if !shadow && s.owner t n ≠ c then (fillNotOwner, n)
        else if wait * 1000000 < 6000 * 622080 then (fillLate, n)
        else (fillOk, n)

/-- Whether an incomplete map is of a frame, in service or as a shadow map. -/
def PartMap.isOf (p : PartMap) (n : Nat) (shadow : Bool) : Bool := p.frame = n && p.shadow == shadow

/-- Entries of a map for frame n accepted by ALLOC; a GRANT.FILL that begins discards an incomplete map for the same frame and wavelength (R271, R547).
[log 265 DESIGN CHOICE] -/
def Chip.fillEntries (s : Chip) (t : Tree) (w : Wl) (shadow : Bool) (n : Nat) (first : Bool) (list : List W64) : Chip :=
  s.updChecker (wkey t w) fun k =>
    let old := if first then [] else (((k.parts.find? (·.isOf n shadow)).map (·.entries)).getD [])
    { k with parts := k.parts.filter (fun p => !p.isOf n shadow) ++ [{ frame := n, shadow := shadow, entries := old ++ list }] }

/-- GRANT.FILL as it ends at ALLOC, with the status and frame it meets: with OK the accepted entries are a complete map; with any other status no map is left
(R136, R137, R143, R144, R146, R147). On a standby part a map is a shadow map whatever was asked (R602).
[log 49 DESIGN CHOICE, 84 DESIGN CHOICE, 265 DESIGN CHOICE] -/
def grantFill (t : Tree) (w : Wl) (shadow : Bool) (r : Nat × Nat) (s : Chip) : Chip :=
  let s1 := s.updChecker (wkey t w) fun k =>
    let rest := k.parts.filter fun p => !p.isOf r.2 shadow
    match k.parts.find? (·.isOf r.2 shadow) with
    | none => k
    | some p =>
      if r.1 ≠ fillOk then { k with parts := rest }
      else { k with parts := rest, maps := k.maps ++ [{ frame := r.2, shadow := shadow || s.standbyAt r.2, entries := p.entries, forced := s.standbyAt r.2 && !shadow }] }
  if r.1 = fillNotOwner then s1.raise Reg.ALLOC_EVENT 5 else s1

end Sys2Proof.Machine
end

