-- ==== Sys2Proof/Machine/Lane.lean ====
section
/-! DEFINITION. The lanes of the Gulrov link: sync headers, scrambling, markers, the marker search, PRBS31 (R610 to R615). -/
namespace Sys2Proof.Machine

/-! ### Bits on a lane (R610, R615) -/

/-- The bits of bytes as they go on the wire, the highest of each byte first. [log 256 DESIGN CHOICE] -/
def lineBits (l : List Byte) : List Bool := l.flatMap fun b => (List.range 8).map fun i => b.getLsbD (7 - i)

/-- The bytes that bits on the wire spell. -/
def lineBytes : List Bool → List Byte
  | a :: b :: c :: d :: e :: f :: g :: h :: rest =>
    BitVec.ofNat 8 ([a, b, c, d, e, f, g, h].foldl (fun n x => 2 * n + ofBool x) 0) :: lineBytes rest
  | _ => []

/-- The self-synchronous scrambler of IEEE 802.3 clause 49, 1 + x^39 + x^58: the bits sent, and its state after; the newest bit sent is bit 0. -/
def scramble (s : BitVec 58) : List Bool → List Bool × BitVec 58
  | [] => ([], s)
  | b :: l =>
    let o := (b != s.getLsbD 38) != s.getLsbD 57
    let r := scramble (s <<< 1 ||| BitVec.ofNat 58 (ofBool o)) l
    (o :: r.1, r.2)

/-- Its descrambler. -/
def descramble (s : BitVec 58) : List Bool → List Bool × BitVec 58
  | [] => ([], s)
  | b :: l =>
    let o := (b != s.getLsbD 38) != s.getLsbD 57
    let r := descramble (s <<< 1 ||| BitVec.ofNat 58 (ofBool b)) l
    (o :: r.1, r.2)

/-- The next n bits of PRBS31, x^31 + x^28 + 1, and the state after; the newest bit is bit 0. -/
def prbs31 : Nat → BitVec 31 → List Bool × BitVec 31
  | 0, s => ([], s)
  | n + 1, s =>
    let o := s.getLsbD 30 != s.getLsbD 27
    let r := prbs31 n (s <<< 1 ||| BitVec.ofNat 31 (ofBool o))
    (o :: r.1, r.2)

/-- The bits of a row that differ from PRBS31 as its first 31 bits begin it. [log 256 DESIGN CHOICE] -/
def prbsErrors (l : List Byte) : Nat :=
  let bits := lineBits l
  let seed := (bits.take 31).foldl (fun (s : BitVec 31) b => s <<< 1 ||| BitVec.ofNat 31 (ofBool b)) (0 : BitVec 31)
  (((bits.drop 31).zip (prbs31 (bits.length - 31) seed).1).filter fun p => p.1 ≠ p.2).length

/-- BIP-8 over payloads: bit i is the parity of every bit whose number is i modulo 8 (R612). -/
def bip8 (l : List Byte) : Byte := l.foldl (· ^^^ ·) 0

/-! ### Markers (R612, R613) -/

/-- A marker. -/
def laneMarker (lane seq label : Nat) (bip : Byte) (quietNext : Bool) : W64 :=
  w64 (0xD2 <<< 56 + 0x5A <<< 48 + lane <<< 40 + (seq % 65536) <<< 24 + label <<< 16 + bip.toNat <<< 8 + ofBool quietNext)

/-- Whether a block is a marker but for its SEQ: sync header 10, TYPE, MARK and reserved bits right. -/
def isMarker (header : BitVec 2) (b : W64) : Bool :=
  header = 2 && fld b 63 56 = 0xD2 && fld b 55 48 = 0x5A && fld b 47 43 = 0 && fld b 7 1 = 0

/-- The invalid blocks of a lane frame: a sync header 00 or 11, and 10 but in the first (R610). -/
def badBlocks (headers : List (BitVec 2)) : Nat :=
  ((headers.take 1).filter fun h => h = 0 ∨ h = 3).length + ((headers.drop 1).filter fun h => h ≠ 1).length

/-! ### Block lock and the marker search (R611, R613) -/

/-- One sync header on a lane: lock after 128 valid ones in a row, lost with 24 invalid ones of any 128 in a row; a lane that loses it has lost
all (R611). -/
def GlkLane.sync (x : GlkLane) (h : BitVec 2) : GlkLane :=
  let ok : Bool := h = 1 || h = 2
  if x.lock then
    let recent := (ok :: x.recent).take 128
    if 24 ≤ (recent.filter fun b => !b).length then {} else { x with recent := recent }
  else
    let run := if ok then x.run + 1 else 0
    if run = 128 then { lock := true } else { x with run := run }

/-- Whether a lane is aligned. -/
def GlkLane.aligned (x : GlkLane) : Bool := x.place.isSome

/-- A block at a position of 1,024 reaches the search of a locked lane: up to four candidates; one that sees N markers in a row wins, one that sees
none where it expects it is dropped (R613). -/
def GlkLane.search (x : GlkLane) (n : Nat) (header : BitVec 2) (b : W64) (place : Nat) : GlkLane :=
  let seq := fld b 39 24
  let rest := x.candidates.filter fun c => c.place ≠ place
  let seen := x.candidates.find? fun c => c.place = place
  if !isMarker header b then { x with candidates := rest }
  else
    let count := match seen with
      | some c => if seq = (c.seq + 1) % 65536 then c.count + 1 else 1
      | none => 1
    if n ≤ count then { x with candidates := [], place := some place, number := fld b 42 40, seq := seq, missed := 0, bip := none }
    else if seen.isNone && 4 ≤ x.candidates.length then x
    else { x with candidates := rest ++ [{ place := place, count := count, seq := seq }] }

/-- The marker of an aligned lane's frame: after M missing or errored ones in a row the alignment is lost (R613). -/
def GlkLane.judge (x : GlkLane) (m : Nat) (header : BitVec 2) (b : W64) : GlkLane :=
  let next := (x.seq + 1) % 65536
  if isMarker header b && fld b 39 24 = next then { x with seq := next, missed := 0, number := fld b 42 40 }
  else if m ≤ x.missed + 1 then { lock := x.lock, recent := x.recent }
  else { x with seq := next, missed := x.missed + 1 }

/-- A lane frame at its lane: sync headers, marker, BIP-8 and descrambling; the payload, and whether the BIP-8 failed (R610 to R613). -/
def GlkLane.receive (x : GlkLane) (m : Nat) (l : LaneLight) : GlkLane × List Byte × Bool :=
  let header := l.headers.headD 2
  let y := l.headers.foldl GlkLane.sync x
  if !y.aligned then (y, [], false)
  else
    let z := y.judge m header l.marker
    let wrong := isMarker header l.marker && y.bip.any fun b => b.toNat ≠ fld l.marker 15 8
    let (bits, s) := descramble y.bits (lineBits l.payload)
    (if z.aligned then { z with bits := s, bip := some (bip8 l.payload) } else z, lineBytes bits, wrong)

/-! ### Deskew (R614) -/

/-- Whether positions of markers lie within 128 blocks of one another. -/
def withinSkew (places : List Nat) : Bool :=
  places.isEmpty || places.any fun a => places.all fun b => decide ((b + 1024 - a) % 1024 ≤ 128)

end Sys2Proof.Machine
end

