-- ==== Sys2Proof/Machine/Aes.lean ====
section
/-! DEFINITION. The block cipher and the modes that R448 names: AES with 128- and 256-bit keys, counter mode's blocks, CMAC,
key wrap and GCM. The spec names the modes and not their steps; these are the published ones (PRESUMED, see the log). Blocks
are lists of 16 numbers below 256. -/
namespace Sys2Proof.Machine

/-- Product in the field of AES. -/
def gfMul (a b : Nat) : Nat :=
  ((List.range 8).foldl (fun (acc : Nat × Nat) i =>
    let p := if b >>> i % 2 = 1 then acc.1 ^^^ acc.2 else acc.1
    let x := acc.2 <<< 1
    (p, if 256 ≤ x then x ^^^ 0x11B else x)) (0, a)).1

/-- Inverse in the field of AES, 0 for 0: the 254th power. -/
def gfInv (a : Nat) : Nat :=
  let a2 := gfMul a a
  let a4 := gfMul a2 a2
  let a8 := gfMul a4 a4
  let a16 := gfMul a8 a8
  let a32 := gfMul a16 a16
  let a64 := gfMul a32 a32
  let a128 := gfMul a64 a64
  gfMul (gfMul (gfMul a2 a4) (gfMul a8 a16)) (gfMul (gfMul a32 a64) a128)

/-- A byte rotated left by k. -/
def rotByte (x k : Nat) : Nat := (x <<< k ||| x >>> (8 - k)) % 256

/-- The substitution of AES. -/
def subByte (x : Nat) : Nat :=
  let b := gfInv x
  b ^^^ rotByte b 1 ^^^ rotByte b 2 ^^^ rotByte b 3 ^^^ rotByte b 4 ^^^ 0x63

/-- Its inverse. -/
def invSubByte (x : Nat) : Nat := gfInv (rotByte x 1 ^^^ rotByte x 3 ^^^ rotByte x 6 ^^^ 0x05)

/-- Two blocks added. -/
def xorL (a b : List Nat) : List Nat := List.zipWith (· ^^^ ·) a b

/-- The key schedule: the round words, newest first, from a key of nk words. -/
def keyWords (nk : Nat) (key : List Nat) : List (List Nat) :=
  let first := (List.range nk).map fun i => (key.drop (4 * i)).take 4
  ((List.range (4 * (nk + 7) - nk)).foldl (fun (st : List (List Nat) × Nat) i =>
    let n := nk + i
    let prev := nth st.1 0
    let t := if n % nk = 0 then
        xorL ((prev.drop 1 ++ prev.take 1).map subByte) [st.2, 0, 0, 0]
      else if 6 < nk && n % nk = 4 then prev.map subByte else prev
    (xorL (nth st.1 (nk - 1)) t :: st.1, if n % nk = 0 then gfMul st.2 2 else st.2)) (first.reverse, 1)).1

/-- The round keys of a 16- or 32-byte key, in order. -/
def roundKeys (key : List Nat) : List (List Nat) :=
  let nk := key.length / 4
  let w := (keyWords nk key).reverse
  (List.range (nk + 7)).map fun r => ((w.drop (4 * r)).take 4).flatten

/-- Rows of a block moved by k columns times their number. -/
def moveRows (k : Nat) (b : List Nat) : List Nat :=
  (List.range 16).map fun i => nth b (i % 4 + 4 * ((i / 4 + k * (i % 4)) % 4))

/-- The columns of a block multiplied by a circulant matrix. -/
def mixWith (m : List Nat) (b : List Nat) : List Nat :=
  (List.range 16).map fun i =>
    (List.range 4).foldl (fun a j => a ^^^ gfMul (nth m ((j + 4 - i % 4) % 4)) (nth b (4 * (i / 4) + j))) 0

/-- One AES encryption of a block. [log 13 PRESUMED] -/
def aesEnc (key block : List Nat) : List Nat :=
  match roundKeys key with
  | [] => block
  | k0 :: ks =>
    let s := (ks.take (ks.length - 1)).foldl (fun b k => xorL (mixWith [2, 3, 1, 1] (moveRows 1 (b.map subByte))) k) (xorL block k0)
    xorL (moveRows 1 (s.map subByte)) (nth ks (ks.length - 1))

/-- One AES decryption of a block. [log 13 PRESUMED] -/
def aesDec (key block : List Nat) : List Nat :=
  match (roundKeys key).reverse with
  | [] => block
  | k0 :: ks =>
    let s := (ks.take (ks.length - 1)).foldl (fun b k => mixWith [14, 11, 13, 9] (xorL ((moveRows 3 b).map invSubByte) k)) (xorL block k0)
    xorL ((moveRows 3 s).map invSubByte) (nth ks (ks.length - 1))

/-- Bytes as numbers. -/
def natsOf (l : List Byte) : List Nat := l.map (·.toNat)

/-- Numbers as bytes. -/
def bytesOf (l : List Nat) : List Byte := l.map (BitVec.ofNat 8 ·)

/-- A number as n numbers below 256, most significant first. -/
def natsBE (n x : Nat) : List Nat := (List.range n).map fun i => x >>> (8 * (n - 1 - i)) % 256

/-- The number that numbers below 256 spell. -/
def numNats (l : List Nat) : Nat := l.foldl (fun a b => a * 256 + b) 0

/-- The 16-byte pieces of a string, the last one short if need be. -/
def pieces (l : List Nat) : List (List Nat) := (List.range (ceilDiv l.length 16)).map fun i => (l.drop (16 * i)).take 16

/-! ### CMAC -/

/-- Doubling in the field of CMAC. -/
def cmacDouble (l : List Nat) : List Nat :=
  let n := numNats l
  natsBE 16 (if n >>> 127 = 1 then ((n <<< 1) % 2 ^ 128) ^^^ 0x87 else n <<< 1)

/-- AES-CMAC of a message. [log 13 PRESUMED] -/
def cmac (key msg : List Nat) : List Nat :=
  let k1 := cmacDouble (aesEnc key (List.replicate 16 0))
  let ps := if msg.isEmpty then [[]] else pieces msg
  let last := nth ps (ps.length - 1)
  let tail := if last.length = 16 then xorL last k1
    else xorL (last ++ [0x80] ++ List.replicate (15 - last.length) 0) (cmacDouble k1)
  ((ps.take (ps.length - 1)) ++ [tail]).foldl (fun x p => aesEnc key (xorL x p)) (List.replicate 16 0)

/-! ### Key wrap -/

/-- Wrap of a string of 8-byte blocks. [log 13 PRESUMED] -/
def kwWrap (key msg : List Nat) : List Nat :=
  let n := msg.length / 8
  let rs := (List.range n).map fun i => (msg.drop (8 * i)).take 8
  let (a, out) := (List.range (6 * n)).foldl (fun (st : List Nat × List (List Nat)) t =>
    let i := t % n
    let b := aesEnc key (st.1 ++ nth st.2 i)
    (xorL (b.take 8) (natsBE 8 (t + 1)), st.2.set i (b.drop 8))) (List.replicate 8 0xA6, rs)
  a ++ out.flatten

/-- Unwrap; none where the integrity check fails. [log 13 PRESUMED] -/
def kwUnwrap (key ct : List Nat) : Option (List Nat) :=
  let n := ct.length / 8 - 1
  let rs := (List.range n).map fun i => (ct.drop (8 * (i + 1))).take 8
  let (a, out) := (List.range (6 * n)).foldl (fun (st : List Nat × List (List Nat)) k =>
    let t := 6 * n - 1 - k
    let i := t % n
    let b := aesDec key (xorL st.1 (natsBE 8 (t + 1)) ++ nth st.2 i)
    (b.take 8, st.2.set i (b.drop 8))) (ct.take 8, rs)
  if a = List.replicate 8 0xA6 then some out.flatten else none

/-! ### GCM -/

/-- Product in the field of GCM, blocks as numbers. -/
def ghashMul (x y : Nat) : Nat :=
  ((List.range 128).foldl (fun (acc : Nat × Nat) i =>
    let z := if (x >>> (127 - i)) % 2 = 1 then acc.1 ^^^ acc.2 else acc.1
    (z, if acc.2 % 2 = 1 then acc.2 >>> 1 ^^^ 0xE1000000000000000000000000000000 else acc.2 >>> 1)) (0, y)).1

/-- GHASH of a string, each 16-byte piece padded with zeros. -/
def ghash (h acc : Nat) (l : List Nat) : Nat :=
  (pieces l).foldl (fun a p => ghashMul (a ^^^ numNats (p ++ List.replicate (16 - p.length) 0)) h) acc

/-- The keystream of GCM under a 96-bit IV, from counter 2. -/
def gcmStream (key : List Nat) (iv n : Nat) : List Nat :=
  ((List.range (ceilDiv n 16)).map fun i => aesEnc key (natsBE 12 iv ++ natsBE 4 (i + 2))).flatten.take n

/-- The 128-bit tag of additional data and ciphertext. -/
def gcmTag (key : List Nat) (iv : Nat) (aad ct : List Nat) : List Nat :=
  let h := numNats (aesEnc key (List.replicate 16 0))
  let a := ghash h (ghash h 0 aad) ct
  let s := ghashMul (a ^^^ ((8 * aad.length) <<< 64 + 8 * ct.length)) h
  xorL (natsBE 16 s) (aesEnc key (natsBE 12 iv ++ natsBE 4 1))

/-- GCM sealing: ciphertext and tag. [log 13 PRESUMED] -/
def gcmSeal (key : List Nat) (iv : Nat) (aad pt : List Nat) : List Nat × List Nat :=
  let ct := xorL pt (gcmStream key iv pt.length)
  (ct, gcmTag key iv aad ct)

/-- GCM opening; none where the tag does not match. [log 13 PRESUMED] -/
def gcmOpen (key : List Nat) (iv : Nat) (aad ct tag : List Nat) : Option (List Nat) :=
  if gcmTag key iv aad ct = tag then some (xorL ct (gcmStream key iv ct.length)) else none

end Sys2Proof.Machine
end

