-- ==== Sys2Proof/Machine/Ddr.lean ====
section
/-! DEFINITION. DDR5 as MEM maps it: its size, its bytes and its poisoned lines (R238, R572, R573). -/
namespace Sys2Proof.Machine

/-- The state of MEM changed. -/
def Chip.updMem (s : Chip) (f : MemState → MemState) : Chip := { s with mem := f s.mem }

/-- Whether a channel serves accesses: ONLINE or RESILVERING (R577, R579). [log 120 DESIGN CHOICE] -/
def Channel.serves (c : Channel) : Bool := c.state = 3 || c.state = 4

/-- Whether mirrored mode is on (R573). -/
def Chip.mirrored (s : Chip) : Bool := bit (s.act Reg.MEM_CFG) 0

/-- In independent mode, the channel that holds a stretch of 256 bytes and how far into it the stretch lies: the stretches interleave across all 8
channels; those of the pattern reserve keep one copy of each bank on channel 0 and one on channel 1 (R303, R573). [log 246 DESIGN CHOICE] -/
def channelOf (b : Nat) : Nat × Nat := if b < 4096 then (b / 1024 % 2, b) else (b % 8, b / 8)

/-- Whether a stretch of 256 bytes has a channel that serves it: its channel in independent mode, either of its pair in mirrored mode (R573, R577).
[log 120 DESIGN CHOICE] -/
def Chip.stretchServed (s : Chip) (b : Nat) : Bool :=
  let holds := fun (c k : Nat) => let h := s.mem.chans.get c; h.serves && decide (k < h.capacity * 4194304)
  if s.mirrored then holds (2 * (b % 4)) (b / 4) || holds (2 * (b % 4) + 1) (b / 4)
  else holds (channelOf b).1 (channelOf b).2

/-- Whether n bytes from an offset lie in DDR5. -/
def Chip.ddrHas (s : Chip) (off n : Nat) : Bool :=
  n = 0 || (List.range ((off + n - 1) / 256 - off / 256 + 1)).all fun i => s.stretchServed (off / 256 + i)

/-- What no channel holds any more is lost (R577, R578). -/
def Chip.ddrForget (s : Chip) : Chip := { s with ddr := s.ddr.filter fun (e : Nat × Byte) => s.stretchServed (e.1 / 256) }

/-- n bytes of DDR5; a byte that nothing has written reads 0 (see the log). [log 8 DESIGN CHOICE] -/
def Chip.ddrRead (s : Chip) (off n : Nat) : List Byte := (List.range n).map fun i => s.ddr.get (off + i)

/-- Bytes with their addresses. -/
def addressed (a : Nat) : List Byte → List (Nat × Byte)
  | [] => []
  | b :: bs => (a, b) :: addressed (a + 1) bs

/-- Whether a line that n bytes from an offset touch cannot be given: it is poisoned, or no channel serves it (R572, R577). -/
def Chip.poisoned (s : Chip) (off n : Nat) : Bool :=
  !s.ddrHas off n || (n ≠ 0 && s.mem.poison.any fun l => off / 64 ≤ l && l ≤ (off + n - 1) / 64)

/-- Bytes written to DDR5; a line written whole leaves the poison list (R572). -/
def Chip.ddrWrite (s : Chip) (off : Nat) (l : List Byte) : Chip :=
  let s1 := { s with ddr := (addressed off l).foldl (fun m (e : Nat × Byte) => m.set e.1 e.2) s.ddr }
  s1.updMem fun m => { m with poison := m.poison.filter fun x => !(off ≤ x * 64 && x * 64 + 64 ≤ off + l.length) }

end Sys2Proof.Machine
end

