-- ==== Sys2Proof/Machine/Mask.lean ====
section
/-! DEFINITION. The masks of the cipher units and of slot memory, and the CTR_DRBG they come from (R452). -/
namespace Sys2Proof.Machine

/-- The next n blocks of a CTR_DRBG's keystream. -/
def Drbg.blocks (d : Drbg) (n : Nat) : List Nat :=
  (List.range n).flatMap fun i => aesEnc (natsBE 32 d.key.toNat) (natsBE 16 (d.v.toNat + 1 + i))

/-- CTR_DRBG_Update with 48 bytes. -/
def Drbg.update (d : Drbg) (data : List Nat) : Drbg :=
  let x := xorL (d.blocks 3) data
  { d with key := BitVec.ofNat 256 (numNats (x.take 32)), v := BitVec.ofNat 128 (numNats (x.drop 32)) }

/-- Instantiation, and each reseeding, from 48 bytes of the entropy source. -/
def Drbg.reseed (d : Drbg) (seed : BitVec 384) : Drbg := { d.update (natsBE 48 seed.toNat) with count := 1 }

/-- The state after a request for n blocks. -/
def Drbg.after (d : Drbg) (n : Nat) : Drbg :=
  { ({ d with v := d.v + BitVec.ofNat 128 n }).update (List.replicate 48 0) with count := d.count + 1 }

/-- The mask generator changed. -/
def Chip.updDrbg (s : Chip) (f : Drbg → Drbg) : Chip := { s with ciph := { s.ciph with drbg := f s.ciph.drbg } }

/-- Fresh masks for a run of AES blocks: one of 128 bits for each of a pair's two units at each block (R451, R452). [log 128 DESIGN CHOICE] -/
def Chip.drawMasks (s : Chip) (blocks : Nat) : Chip := s.updDrbg (·.after (2 * blocks))

/-- A fresh mask for a key of slot memory. -/
def Chip.keyMask (s : Chip) : Nat × Chip := (numNats (s.ciph.drbg.blocks 2), s.updDrbg (·.after 2))

/-- The key that a slot holds, unmasked. -/
def Slot.plainKey (x : Slot) : Nat := x.key ^^^ x.mask

/-- A slot's key under a new mask: the key is the same (R452). -/
def Slot.remask (x : Slot) (m : Nat) : Slot := { x with key := x.plainKey ^^^ m, mask := m }

/-- A slot's key loaded into a unit: slot memory holds it under a new mask from then on (R452). -/
def Chip.remask (s : Chip) (k : Nat) : Chip :=
  let (m, s1) := s.keyMask
  { s1 with ciph := { s1.ciph with slots := s1.ciph.slots.set k ((s1.ciph.slots.get k).remask m) } }

/-- AES blocks of a CMAC over n bytes, of a key wrap of n bytes, and of a GCM message of n bytes. -/
def cmacBlocks (n : Nat) : Nat := 1 + max 1 (ceilDiv n 16)
def kwBlocks (n : Nat) : Nat := 6 * (n / 8)
def gcmBlocks (n : Nat) : Nat := 2 + ceilDiv n 16

end Sys2Proof.Machine
end

