-- ==== Sys2Proof/Machine/Ciph.lean ====
section
/-! DEFINITION. Key slots, their records and limits, the cipher units and the key operations (R448 to R486). -/
namespace Sys2Proof.Machine

/-- The state of CIPH changed. -/
def Chip.updCiph (s : Chip) (f : CiphState → CiphState) : Chip := { s with ciph := f s.ciph }

/-- A slot. -/
def Chip.slot (s : Chip) (k : Nat) : Slot := s.ciph.slots.get k

/-- A slot set. -/
def Chip.setSlot (s : Chip) (k : Nat) (x : Slot) : Chip := s.updCiph fun c => { c with slots := c.slots.set k x }

/-- STATE codes of R460: permitted ones are ACTIVE and LOW, but while the slot waits for its record (R475). -/
def Slot.permits (x : Slot) : Bool := (x.state = 1 || x.state = 2) && !x.reloading

/-- Bytes of a key of a mode: CTR128 and KEK128 have 16, GCM256 and KEK256 have 32 (R448, R470). -/
def modeBytes (mode : Nat) : Nat := if mode = 0 ∨ mode = 2 then 16 else 32

/-- The key of a slot as bytes. -/
def Slot.keyBytes (x : Slot) : List Nat := natsBE (modeBytes x.mode) x.plainKey

/-- A notice that a slot entered LOW, EXHAUSTED or RETIRED: to the FIFO, or lost when it is full, and to CIPH_NOTICE_DEST; NOTICE sets
for each (R478). [log 223 DEDUCED] -/
def Chip.slotNotice (s : Chip) (k state : Nat) : Chip :=
  let e := w64 (k + state <<< 16 + 1 <<< 63)
  let s1 := if 64 ≤ s.ciph.notices.length then s.bump Reg.CIPH_NOTICE_LOST
    else s.updCiph fun c => { c with notices := c.notices ++ [e] }
  let s1 := s1.raise Reg.CIPH_EVENT 6
  match s1.sendDest (s1.act Reg.CIPH_NOTICE_DEST) (deviceSource 9 0) (wordBytes e) with
  | some (_, s2) => s2
  | none => s1

/-- A slot enters EXHAUSTED (3) or RETIRED (4), with its notice. -/
def Chip.endSlot (s : Chip) (k state : Nat) : Chip :=
  if (s.slot k).state = state then s else (s.setSlot k { s.slot k with state := state }).slotNotice k state

/-- NOTICE_FIFO_READ: the oldest notice, or 0 when there is none (R478, R20). -/
def noticeFifoRead (e : Ep) (lanes : Lanes) (s : Chip) : Chip :=
  s.rcRead e Reg.CIPH_NOTICE_FIFO lanes s.ciph.notices fun u => u.updCiph fun c => { c with notices := c.notices.drop 1 }

/-! ### Derived keys (R468) -/

/-- K(i) of R468. -/
def kdfBlock (label : W64) (bits i : Nat) : List Nat :=
  cmac (natsBE 32 Config.rootKey.toNat)
    (natsBE 4 i ++ natsBE 8 label.toNat ++ [0] ++ natsBE 8 0x4458333235304B44 ++ natsBE 4 bits)

/-- The key derived for a mode (R468). -/
def deriveKey (label : W64) (mode : Nat) : Nat :=
  if modeBytes mode = 16 then numNats (kdfBlock label 128 1) else numNats (kdfBlock label 256 1 ++ kdfBlock label 256 2)

/-! ### The key store (R473 to R475) -/

/-- MODE, LIMIT_LOG2, SAVE_CLEAR_OK and a count in one word (the spec gives no layout; see the log). -/
def packAttr (mode limit : Nat) (saveOk : Bool) (count : Nat) : Nat :=
  mode <<< 62 + (limit % 64) <<< 56 + ofBool saveOk <<< 55 + count % 2 ^ 55

/-- The 48 bytes that a slot's record wraps. [log 122 DESIGN CHOICE] -/
def recordBytes (x : Slot) : List Nat :=
  let key := x.keyBytes
  key ++ List.replicate (32 - key.length) 0 ++ natsBE 8 x.label.toNat ++ natsBE 8 (packAttr x.mode x.limit x.saveOk x.reserved)

/-- The DDR5 offset of a slot's record (R473). -/
def Chip.recordAt (s : Chip) (k : Nat) : Nat := fld (s.act Reg.CIPH_KEYSTORE_BASE) 59 6 * 64 + k * 64

/-- The LABEL of the key-store KEK: PURPOSE 0x01; the rest is not stated (R469). [log 126 DESIGN CHOICE] -/
def storeLabel : W64 := w64 (1 <<< 56 + Config.storeLabel.toNat)

/-- The key-store key-encryption key, derived like any other from its label: 256 bits (R468, R469, R473). [log 126 DESIGN CHOICE] -/
def storeKek : List Nat := natsBE 32 (deriveKey storeLabel 3)

/-- A slot's record written; none where DDR5 does not reach there. -/
def Chip.writeRecord (s : Chip) (k : Nat) (x : Slot) : Option Chip :=
  if s.ddrHas (s.recordAt k) 64 then
    some ((s.drawMasks (kwBlocks 48)).ddrWrite (s.recordAt k) (bytesOf (kwWrap storeKek (recordBytes x) ++ List.replicate 8 0)))
  else none

/-- A key loaded into a slot: ACTIVE with USES 0 and FAILS 0, once its record is written; none where it cannot be (R461, R474). -/
def Chip.loadSlot (s : Chip) (k mode limit : Nat) (saveOk : Bool) (label : W64) (key : Nat) : Option Chip :=
  let (m, s0) := s.keyMask
  let x : Slot := { state := 1, mode := mode, limit := limit, saveOk := saveOk, label := label, key := key ^^^ m, mask := m,
                    reserved := 2 ^ (limit - 6), loads := (s.slot k).loads + 1 }
  (s0.writeRecord k x).map fun s1 => s1.setSlot k x

/-- ERASE: the slot becomes EMPTY (R461). -/
def Chip.eraseSlot (s : Chip) (k : Nat) : Chip := s.setSlot k { loads := (s.slot k).loads + 1 }

/-- The record rewritten with USES_RESERVED raised by n times 2^(LIMIT_LOG2 − 6) (R474); none where it cannot be written. [log 129 DESIGN CHOICE] -/
def Chip.raiseReserve (s : Chip) (k n : Nat) : Option Chip :=
  let y := { s.slot k with reserved := (s.slot k).reserved + n * 2 ^ ((s.slot k).limit - 6) }
  (s.writeRecord k y).map fun s1 => s1.setSlot k y

/-- KEYSTORE_REWRITE: once USES has passed USES_RESERVED − 2^(LIMIT_LOG2 − 7) (R474). [log 129 DESIGN CHOICE] -/
def keystoreRewrite (k : Nat) (s : Chip) : Chip :=
  let x := s.slot k
  if x.state ≠ 0 && x.reserved < x.uses + 2 ^ (x.limit - 7) then (s.raiseReserve k 1).getD s else s

/-- USES from which a slot is LOW (R478). -/
def lowMark (x : Slot) : Nat := 7 * 2 ^ (x.limit - 3)

/-- USES of a slot set: it becomes LOW at the mark, with a notice (R478). -/
def Chip.setUses (s : Chip) (k n : Nat) : Chip :=
  let x := s.slot k
  let s1 := s.setSlot k { x with uses := n }
  if x.state = 1 && lowMark x ≤ n then (s1.setSlot k { x with uses := n, state := 2 }).slotNotice k 2 else s1

/-- USES raised by n: where that passes USES_RESERVED it waits for the rewrite (R474), which is made here; none where the record cannot be
written. [log 129 DESIGN CHOICE] -/
def Chip.addUses (s : Chip) (k n : Nat) : Option Chip :=
  let x := s.slot k
  if x.uses + n ≤ x.reserved then some (s.setUses k (x.uses + n))
  else (s.raiseReserve k (ceilDiv (x.uses + n - x.reserved) (2 ^ (x.limit - 6)))).map fun s1 => s1.setUses k (x.uses + n)

/-- Whether a key can be used for n more blocks or messages, but for the limit (R750, R449). -/
def Chip.slotOk (s : Chip) (k mode : Nat) : Bool := (s.slot k).permits && (s.slot k).mode = mode

/-- A use of a slot that is permitted, in n blocks or messages and some AES blocks: its key goes into a unit and the use is counted; or it is refused
at the limit with EXHAUSTED and CIPH_REFUSED (R452, R477). A use whose wait for the key store cannot end gets no keystream in time
(R459, R474). [log 129 DESIGN CHOICE, 131 DESIGN CHOICE] -/
def Chip.slotUse (s : Chip) (k n blocks : Nat) : Bool × Chip :=
  if 2 ^ (s.slot k).limit < (s.slot k).uses + n then (false, (s.bump Reg.CIPH_REFUSED).endSlot k 3)
  else match s.addUses k n with
    | some s1 => (true, (s1.remask k).drawMasks blocks)
    | none => (false, s.bump Reg.CIPH_REFUSED)

/-- A use under the key that a frame took: counted at the slot while that still holds the key, and refused at its limit (R462, R476, R477). -/
def Chip.takenUse (s : Chip) (x : TakenKey) (n : Nat) : Bool × Chip :=
  if (s.slot x.slot).loads = x.loads then s.slotUse x.slot n n else (true, s.drawMasks n)

/-- The key a frame takes from a slot at its first byte (R462). -/
def Chip.takeKey (s : Chip) (k index : Nat) : TakenKey :=
  { index := index, slot := k, loads := (s.slot k).loads, bytes := natsBE 16 (s.slot k).key, mask := natsBE 16 (s.slot k).mask }

/-- The key that a frame took, unmasked. -/
def TakenKey.keyBytes (x : TakenKey) : List Nat := xorL x.bytes x.mask

/-- Whether a slot's failure window has lasted FAIL_WINDOW ms (R481). -/
def Chip.failWindowOver (s : Chip) (x : Slot) : Bool :=
  decide (x.windowAt ≤ s.frc) && lasts (s.frc - x.windowAt) (fld (s.act Reg.CIPH_CFG) 23 8 * 1000000)

/-- A failed check charged to the key a frame took (R481): `loads` names that key. [log 130 DESIGN CHOICE, 223 DEDUCED] -/
def Chip.chargeFail (s : Chip) (k loads : Nat) : Chip :=
  let x := s.slot k
  if x.loads ≠ loads then s
  else
    let y := if x.fails = 0 ∨ s.failWindowOver x then { x with fails := 1, windowAt := s.frc }
      else { x with fails := min 255 (x.fails + 1) }
    let limit := fld (s.act Reg.CIPH_CFG) 7 0
    let s1 := s.setSlot k y
    if limit ≠ 0 && limit ≤ y.fails && x.state ≠ 0 then s1.endSlot k 4 else s1

/-- FAIL_WINDOW_CLOSE: FAILS returns to 0 when the window has lasted FAIL_WINDOW ms without retirement (R481). -/
def failWindowClose (k : Nat) (s : Chip) : Chip :=
  let x := s.slot k
  if x.fails ≠ 0 && x.state ≠ 4 && s.failWindowOver x then s.setSlot k { x with fails := 0 } else s

/-- An uncorrectable error found in a slot: counted, and the slot waits for its record; a frame that meets it is refused until it has it (R475). -/
def Chip.slotBad (s : Chip) (k : Nat) : Chip :=
  if (s.slot k).state = 0 || (s.slot k).reloading then s
  else ((s.setSlot k { s.slot k with reloading := true }).bump Reg.CIPH_SLOT_RELOAD).raise Reg.CIPH_EVENT 4

/-- What a slot's record holds: LABEL, the attributes and the key; none where it cannot be read or unwrapped (R473, R475). -/
def Chip.readRecord (s : Chip) (k : Nat) : Option (List Nat) :=
  if s.poisoned (s.recordAt k) 64 then none
  else kwUnwrap storeKek (natsOf (s.ddrRead (s.recordAt k) 56))

/-- SLOT_RELOAD: a slot with an uncorrectable error takes its record, with USES at USES_RESERVED; a record that cannot be read or
unwrapped retires it (R475). Where no scrub has found the error, it is found here. [log 254 DESIGN CHOICE] -/
def slotReload (k : Nat) (s : Chip) : Chip :=
  let s1 := s.slotBad k
  if !(s1.slot k).reloading then s1
  else
    let s2 := s1.setSlot k { s1.slot k with reloading := false }
    match s2.readRecord k with
    | none => (s2.endSlot k 4).raise Reg.CIPH_EVENT 5
    | some b =>
      let attr := w64 (numNats (b.drop 40))
      let mode := fld attr 63 62
      let (m, s3) := (s2.drawMasks (kwBlocks 48)).keyMask
      let y := { s3.slot k with mode := mode, limit := fld attr 61 56, saveOk := bit attr 55, reserved := fld attr 54 0,
                                label := w64 (numNats ((b.drop 32).take 8)), key := numNats (b.take (modeBytes mode)) ^^^ m, mask := m }
      (s3.setSlot k y).setUses k y.reserved

/-! ### Cipher units (R451 to R459) -/

/-- The cipher units changed. -/
def Chip.updUnits (s : Chip) (f : Units → Units) : Chip := s.updCiph fun c => { c with units := f c.units }

/-- Whether two units have been paired within the last second (R455). -/
def Chip.pairedLately (s : Chip) (a b : Nat) : Bool :=
  s.ciph.units.recent.any fun x => ((x.1 = a && x.2.1 = b) || (x.1 = b && x.2.1 = a)) && !lasts (s.frc - x.2.2) 1000000000

/-- The unit that a unit of a working pair is paired with. -/
def Units.partner (u : Units) (n : Nat) : Option Nat :=
  (u.pairs.find? fun p => p.1 = n ∨ p.2 = n).map fun p => if p.1 = n then p.2 else p.1

/-- A unit retired: its partner idles and a spare is set to join it, one that suits it if there is one; a spare that was to join the retired
unit is a spare again (R457, R458). -/
def Units.retire (u : Units) (suits : Nat → Nat → Bool) (n : Nat) : Units :=
  let back := (u.joining.filter fun x => x.2 = n).map (·.1)
  let v := { u with pairs := u.pairs.filter (fun p => p.1 ≠ n ∧ p.2 ≠ n), retired := u.retired ++ [n], idle := u.idle.filter (· ≠ n),
                    spares := back ++ u.spares.filter (· ≠ n), joining := u.joining.filter fun x => x.2 ≠ n }
  match u.partner n with
  | none => v
  | some p =>
    match (v.spares.find? (suits p)).or v.spares.head? with
    | some sp => { v with spares := v.spares.filter (· ≠ sp), joining := v.joining ++ [(sp, p)] }
    | none => { v with idle := v.idle ++ [p] }

/-- A mismatch charged to a unit; the third within one second retires it (R457). -/
def Chip.chargeUnit (s : Chip) (n : Nat) : Chip :=
  let u := s.ciph.units
  let kept := u.charges.filter fun c => !lasts (s.frc - c.2) 1000000000
  let s1 := s.updUnits fun x => { x with charges := (n, s.frc) :: kept }
  if 2 ≤ (kept.filter fun c => c.1 = n).length && !u.retired.contains n then
    let s2 := (s1.updUnits (·.retire (fun a b => !s.pairedLately a b) n)).raise Reg.CIPH_EVENT 1
    if s2.ciph.units.spares.isEmpty then s2.raise Reg.CIPH_EVENT 2 else s2
  else s1

/-- The two partners that a pair's units may take: both units of another pair, else units of two pairs, else spares, of those that neither unit
has been paired with lately, sought from the k-th pair; with the pairs to dissolve, and those that their rests form (R455). -/
def newPartners (fits : Nat → Bool) (others : List (Nat × Nat)) (spares : List Nat) :
    Option (Nat × Nat × List (Nat × Nat) × List (Nat × Nat)) :=
  let one := fun (p : Nat × Nat) => if fits p.1 then some p else if fits p.2 then some (p.2, p.1) else none
  let halves := others.filterMap one
  let idle := spares.filter fits
  match others.find? fun p => fits p.1 && fits p.2 with
  | some (c, d) => some (c, d, [(c, d)], [])
  | none =>
    match halves, idle with
    | (c, d) :: (e, f) :: _, _ => some (c, e, [(c, d), (d, c), (e, f), (f, e)], [(d, f)])
    | _, x :: y :: _ => some (x, y, [], [])
    | _, _ => none

/-- New partners for the two units of a pair that differed, sought from a place the spec leaves open, before either serves again. Where only one
partner can be had, one unit takes it and the other is kept as a spare; where none can, both are (R455). [log 127 DESIGN CHOICE, 132 DESIGN CHOICE] -/
def Chip.repair (s : Chip) (a b : Nat) : Chip :=
  let (i, s1) := s.tick
  let u := s1.ciph.units
  if !u.pairs.contains (a, b) then s1
  else
    let others := u.pairs.filter (· ≠ (a, b))
    let k := Config.partner i % (others.length + 1)
    let now := fun (p : Nat × Nat) => (p.1, p.2, s1.frc)
    let fits := fun (x : Nat) => !s1.pairedLately a x && !s1.pairedLately b x
    match newPartners fits (others.drop k ++ others.take k) u.spares with
    | some (c, d, gone, rest) =>
      s1.updUnits fun x => { x with
        pairs := (others.filter fun p => !gone.contains p) ++ rest ++ [(a, c), (b, d)],
        spares := x.spares.filter fun y => y ≠ c ∧ y ≠ d,
        recent := (now (a, b)) :: gone.map now ++ x.recent.filter fun y => !lasts (s1.frc - y.2.2) 1000000000 }
    | none =>
      let one := u.spares.find? fits
      s1.updUnits fun x => { x with
        pairs := others ++ (one.map fun c => (a, c)).toList,
        spares := x.spares.filter (some · ≠ one) ++ (if one.isSome then [b] else [a, b]),
        recent := (now (a, b)) :: x.recent.filter fun y => !lasts (s1.frc - y.2.2) 1000000000 }

/-- KEYSTREAM_MISMATCH on the pair with a given place in the list: CIPH_MISMATCH, a charge to each unit, and new partners (R454,
R455). -/
def Chip.pairMismatch (s : Chip) (place : Nat) : Chip :=
  match s.ciph.units.pairs[place]? with
  | none => s
  | some (a, b) =>
    let s1 := (s.bump Reg.CIPH_MISMATCH).raise Reg.CIPH_EVENT 0
    ((s1.chargeUnit a).chargeUnit b).repair a b

/-- How a pair served a frame's keystream: the effect on the units, and whether the frame must be dropped (R454, R456, R459). [log 78 DEDUCED] -/
def Chip.serveKeystream (s : Chip) (r : UnitReport) : Bool × Chip :=
  match r with
  | .fine => (true, s)
  | .mismatch place => (s.ciph.units.pairs.length ≤ place, s.pairMismatch place)
  | .unitError place second =>
    match s.ciph.units.pairs[place]? with
    | none => (true, s)
    | some (a, b) => (true, s.chargeUnit (if second then b else a))
  | .late => if s.ciph.units.pairs.length < 14 then (false, s.bump Reg.CIPH_REFUSED) else (true, s)

/-- SPARE_JOIN: the first spare set to join has passed its self-test and joins its partner (R457). -/
def spareJoin (s : Chip) : Chip :=
  s.updUnits fun u =>
    match u.joining with
    | [] => u
    | (sp, p) :: rest => { u with joining := rest, pairs := u.pairs ++ [(p, sp)] }

/-- DRBG_RESEED: a seed from the entropy source that passes its health tests reseeds the mask DRBG, 1 ms after the last one, or as the first seed
that passes after reset or after a failed test (R452, R453). [log 128 DESIGN CHOICE] -/
def drbgReseed (s : Chip) : Chip :=
  if s.ciph.healthy && !lasts (s.frc - s.ciph.lastSeed) 1000000 then s
  else
    let (i, s1) := s.tick
    (s1.updDrbg (·.reseed (Config.seed i))).updCiph fun c => { c with healthy := true, restarting := false, lastSeed := s.frc }

/-- HEALTH_TEST_FAIL: ENTROPY_FAIL sets, reseeding is withheld and the source restarts (R453). [log 128 DESIGN CHOICE] -/
def healthTestFail (s : Chip) : Chip :=
  (s.updCiph fun c => { c with healthy := false, restarting := true }).raise Reg.CIPH_EVENT 3

/-! ### Payload keystream (R448, R476) -/

/-- How far into its first counter block an XGEM payload begins. -/
def blockStart (wk dir frame pos : Nat) : Nat := Config.counterOffset wk dir frame pos % 16

/-- Counter blocks of an XGEM payload of n bytes (R476). -/
def blockCount (wk dir frame pos n : Nat) : Nat := ceilDiv (blockStart wk dir frame pos + n) 16

/-- A payload encrypted or decrypted in counter mode under a key. -/
def ctrCrypt (key : List Nat) (wk dir frame pos : Nat) (payload : List Byte) : List Byte :=
  let n := blockCount wk dir frame pos payload.length
  let stream := ((List.range n).map fun i => aesEnc key (natsBE 16 (Config.counterBlock wk dir frame pos i).toNat)).flatten
  bytesOf (xorL (natsOf payload) (stream.drop (blockStart wk dir frame pos)))

/-! ### Key operations (R468 to R472, R482 to R484) -/

/-- The fields of word 0 of a request block (R470). -/
def reqSlot (w0 : W64) : Nat := fld w0 19 4
def reqKeySlot (w0 : W64) : Nat := fld w0 35 20
def reqMode (w0 : W64) : Nat := fld w0 37 36
def reqLimit (w0 : W64) : Nat := fld w0 43 38

/-- A status, what is written to OUT, and the state after. -/
abbrev KeyAnswer := Nat × List Nat × Chip

/-- A load under a request's attributes: OK, or STORE_FAIL. [log 124 DESIGN CHOICE] -/
def Chip.reqLoad (s : Chip) (w0 label : W64) (key : Nat) : KeyAnswer :=
  match s.loadSlot (reqSlot w0) (reqMode w0) (reqLimit w0) (bit w0 44) label key with
  | some s1 => (0, [], s1)
  | none => (7, [], s)

/-- Whether a request's target and attributes are valid encodings (R470, R472). -/
def reqOk (w0 : W64) (load : Bool) : Bool :=
  fld w0 63 46 = 0 && reqSlot w0 ≤ 40959 && (!load || (20 ≤ reqLimit w0 && reqLimit w0 ≤ 48))

/-- The checks of KEY_SLOT: MODE when it holds no key-encryption key, or none of the one mode that an operation takes; UNUSABLE when it is not
ACTIVE or LOW (R448, R449, R472). [log 124 DESIGN CHOICE] -/
def Chip.kekStatus (s : Chip) (w0 : W64) (mode : Option Nat := none) : Nat :=
  let x := s.slot (reqKeySlot w0)
  if x.mode < 2 || (mode.any fun m => x.mode ≠ m) then 2 else if !x.permits then 3 else 0

/-- KEY_SLOT's key loaded into a unit for some AES blocks (R452). -/
def Chip.kekUse (s : Chip) (w0 : W64) (blocks : Nat) : Chip := (s.remask (reqKeySlot w0)).drawMasks blocks

/-- KEY_SLOT's key. -/
def Chip.kekBytes (s : Chip) (w0 : W64) : List Nat := (s.slot (reqKeySlot w0)).keyBytes

/-- DERIVE (R468, R469). -/
def opDerive (w0 w1 : W64) (s : Chip) : KeyAnswer :=
  if !reqOk w0 true || fld w1 63 56 < 16 then (1, [], s)
  else (s.drawMasks (cmacBlocks 25 * (modeBytes (reqMode w0) / 16))).reqLoad w0 w1 (deriveKey w1 (reqMode w0))

/-- CMAC_DERIVE (R471). -/
def opCmacDerive (w0 w1 : W64) (data : List Nat) (s : Chip) : KeyAnswer :=
  if !reqOk w0 true || 40959 < reqKeySlot w0 || data.length = 0 || 1024 < data.length then (1, [], s)
  else if modeBytes (reqMode w0) ≠ 16 then (2, [], s)
  else if s.kekStatus w0 (some 2) ≠ 0 then (s.kekStatus w0 (some 2), [], s)
  else (s.kekUse w0 (cmacBlocks data.length)).reqLoad w0 w1 (numNats (cmac (s.kekBytes w0) data))

/-- MIC (R471). -/
def opMic (w0 : W64) (data : List Nat) (s : Chip) : KeyAnswer :=
  if fld w0 63 46 ≠ 0 || 40959 < reqKeySlot w0 || data.length = 0 || 1024 < data.length then (1, [], s)
  else if s.kekStatus w0 (some 2) ≠ 0 then (s.kekStatus w0 (some 2), [], s)
  else (0, cmac (s.kekBytes w0) data, s.kekUse w0 (cmacBlocks data.length))

/-- ERASE of CRYPT.KD (R471). -/
def opErase (w0 : W64) (s : Chip) : KeyAnswer :=
  if !reqOk w0 false then (1, [], s) else (0, [], s.eraseSlot (reqSlot w0))

/-- UNWRAP (R471). -/
def opUnwrap (w0 w1 : W64) (data : List Nat) (s : Chip) : KeyAnswer :=
  if !reqOk w0 true || 40959 < reqKeySlot w0 || !(data.length = 24 || data.length = 40) then (1, [], s)
  else if data.length ≠ modeBytes (reqMode w0) + 8 then (2, [], s)
  else if s.kekStatus w0 ≠ 0 then (s.kekStatus w0, [], s)
  else match kwUnwrap (s.kekBytes w0) data with
    | none => (4, [], s.kekUse w0 (kwBlocks data.length))
    | some k => (s.kekUse w0 (kwBlocks data.length)).reqLoad w0 w1 (numNats k)

/-- ECB_IMPORT (R471). [log 125 DEDUCED] -/
def opEcbImport (w0 w1 : W64) (data : List Nat) (s : Chip) : KeyAnswer :=
  if !reqOk w0 true || 40959 < reqKeySlot w0 || data.length ≠ 16 then (1, [], s)
  else if modeBytes (reqMode w0) ≠ 16 then (2, [], s)
  else if s.kekStatus w0 (some 2) ≠ 0 then (s.kekStatus w0 (some 2), [], s)
  else (s.kekUse w0 1).reqLoad w0 w1 (numNats (aesDec (s.kekBytes w0) data))

/-- WRAP_OUT (R471). -/
def opWrapOut (w0 : W64) (s : Chip) : KeyAnswer :=
  if !reqOk w0 false || 40959 < reqKeySlot w0 then (1, [], s)
  else if s.kekStatus w0 ≠ 0 then (s.kekStatus w0, [], s)
  else if !(s.slot (reqSlot w0)).permits then (3, [], s)
  else (0, kwWrap (s.kekBytes w0) (s.slot (reqSlot w0)).keyBytes, (s.kekUse w0 (kwBlocks 32)).remask (reqSlot w0))

/-- A slot's state as bytes: LABEL, the attributes and USES, padded with zeros (R482; the spec gives no layout). [log 122 DESIGN CHOICE] -/
def stateBytes (x : Slot) (n : Nat) : List Nat :=
  natsBE 8 x.label.toNat ++ natsBE 8 (packAttr x.mode x.limit x.saveOk x.uses) ++ List.replicate (n - 16) 0

/-- STATE_SAVE (R482, R483). -/
def opStateSave (w0 : W64) (s : Chip) : KeyAnswer :=
  let x := s.slot (reqSlot w0)
  if !reqOk w0 false || (!bit w0 45 && 40959 < reqKeySlot w0) then (1, [], s)
  else if !bit w0 45 && s.kekStatus w0 ≠ 0 then (s.kekStatus w0, [], s)
  else if !x.permits then (3, [], s)
  else if bit w0 45 then (if x.mode = 0 && x.saveOk then (0, stateBytes x 32, s) else (6, [], s))
  else (0, kwWrap (s.kekBytes w0) (stateBytes x 56), s.kekUse w0 (kwBlocks 56))

/-- A saved state applied to a slot (R484). Where the slot, LABEL or MODE does not suit, the spec names no status: it is some status
other than OK. -/
def Chip.restoreState (s : Chip) (k : Nat) (b : List Nat) : KeyAnswer :=
  let x := s.slot k
  let attr := w64 (numNats ((b.drop 8).take 8))
  if !(x.permits && numNats (b.take 8) = x.label.toNat && fld attr 63 62 = x.mode) then
    let (i, s1) := s.tick
    (1 + Config.openStatus i % 7, [], s1)
  else if fld attr 54 0 < x.uses then (5, [], s)
  else match s.addUses k (fld attr 54 0 - x.uses) with
    | some s1 => (0, [], s1)
    | none => (7, [], s)

/-- STATE_RESTORE (R482 to R484). [log 123 DESIGN CHOICE] -/
def opStateRestore (w0 : W64) (data : List Nat) (s : Chip) : KeyAnswer :=
  let x := s.slot (reqSlot w0)
  if !reqOk w0 false || data.length ≠ (if bit w0 45 then 32 else 64) || (!bit w0 45 && 40959 < reqKeySlot w0) then (1, [], s)
  else if bit w0 45 then
    if x.mode = 0 && x.saveOk then s.restoreState (reqSlot w0) data else (6, [], s)
  else if s.kekStatus w0 ≠ 0 then (s.kekStatus w0, [], s)
  else match kwUnwrap (s.kekBytes w0) data with
    | none => (4, [], s.kekUse w0 (kwBlocks 64))
    | some b => (s.kekUse w0 (kwBlocks 64)).restoreState (reqSlot w0) b

/-! ### The host's slot commands (R486) and the commit (R485) -/

/-- A slot command begins with SLOT and OP in CIPH_SLOT_CMD; one written while another runs is discarded with CMD_ERR. A reserved
SLOT runs no operation and answers BAD_REQ. -/
def Chip.slotCmd (s : Chip) (slot op : Nat) (run : Chip → Nat × Chip) : Chip :=
  if s.ciph.command.isSome then s.raise Reg.CIPH_EVENT 7
  else
    let s1 := ((if 40959 < slot then s else s.setField Reg.CIPH_SLOT_CMD 15 0 slot).setField Reg.CIPH_SLOT_CMD 17 16 op).setFlag Reg.CIPH_SLOT_CMD 19 true
    let (st, s2) := if 40959 < slot then (1, s1) else run s1
    s2.updCiph fun c => { c with command := some st }

/-- SLOT_IMPORT: a key from CIPH_IMPORT0 to CIPH_IMPORT3 with the attributes of CIPH_SLOT_ATTR. [log 97 DESIGN CHOICE] -/
def slotImport (slot : Nat) (s : Chip) : Chip :=
  s.slotCmd slot 0 fun u =>
    let a := u.reg Reg.CIPH_SLOT_ATTR
    let key := numBE ((List.range 4).flatMap fun i => wordBytes (u.reg (Reg.CIPH_IMPORTi i)))
    let mode := fld a 1 0
    if fld a 7 2 < 20 ∨ 48 < fld a 7 2 then (1, u)
    else match u.loadSlot slot mode (fld a 7 2) (bit a 8) (u.reg Reg.CIPH_IMPORT_LABEL) (key >>> (256 - 8 * modeBytes mode)) with
      | some v => (0, v)
      | none => (7, u)

/-- SLOT_ERASE. -/
def slotErase (slot : Nat) (s : Chip) : Chip := s.slotCmd slot 1 fun u => (0, u.eraseSlot slot)

/-- SLOT_RETIRE: no command but a load or ERASE leaves EXHAUSTED (R461), so a slot in that state keeps it. [log 222 DEDUCED] -/
def slotRetire (slot : Nat) (s : Chip) : Chip := s.slotCmd slot 2 fun u => (0, if (u.slot slot).state = 3 then u else u.endSlot slot 4)

/-- SLOT_CMD_DONE: STATUS is written, RUNNING clears and the import registers are cleared (R486). [log 97 DESIGN CHOICE] -/
def slotCmdDone (s : Chip) : Chip :=
  match s.ciph.command with
  | none => s
  | some st =>
    let s1 := (s.setField Reg.CIPH_SLOT_CMD 22 20 st).setFlag Reg.CIPH_SLOT_CMD 19 false
    ((List.range 4).foldl (fun u i => u.setReg (Reg.CIPH_IMPORTi i) 0) s1).updCiph fun c => { c with command := none }

/-- Whether CIPH's staged values may be applied: the key store does not move under a slot that is not EMPTY (R485). -/
def Chip.ciphStagedOk (s : Chip) : Bool :=
  s.legalRange 0x1000000 0x1200000 &&
    (s.reg Reg.CIPH_KEYSTORE_BASE = s.act Reg.CIPH_KEYSTORE_BASE || s.ciph.slots.all fun x => x.2.state = 0)

/-- CIPH_GO: refused for a reserved encoding, and for a change of the base while a slot is not EMPTY (R485). -/
def ciphGo (s : Chip) : Chip := s.go Reg.CIPH_COMMIT s.ciphStagedOk

/-- CIPH_APPLY (R485). -/
def ciphApply (s : Chip) : Chip :=
  if s.goPending Reg.CIPH_COMMIT then (s.applyRange 0x1000000 0x1200000).goDone Reg.CIPH_COMMIT else s

end Sys2Proof.Machine
end

