-- ==== Sys2Proof/Machine/Ecdsa.lean ====
section
/-! DEFINITION. The signature check of pattern images: SHA-384 (FIPS 180-4) and ECDSA over P-384 (FIPS 186-5, R297). The spec names both by their
standards, whose steps these are (PRESUMED, see the log). -/
namespace Sys2Proof.Machine

/-! ### SHA-384 -/

/-- The integer cube root of n, by its bits from the k-th down. -/
def cubeRoot (n : Nat) : (k acc : Nat) → Nat
  | 0, acc => acc
  | k + 1, acc => let x := acc + 2 ^ k; cubeRoot n k (if x ^ 3 ≤ n then x else acc)

/-- The first n primes found among the numbers from k on. -/
def primesFrom : (fuel n k : Nat) → List Nat → List Nat
  | 0, _, _, l => l
  | fuel + 1, n, k, l =>
    if n ≤ l.length then l else primesFrom fuel n (k + 1) (if l.all (fun p => k % p ≠ 0) then l ++ [k] else l)

/-- The constants of SHA-512's rounds: the first 64 bits of the fractions of the cube roots of the first 80 primes. -/
def shaK : List W64 := (primesFrom 420 80 2 []).map fun p => w64 (cubeRoot (p * 2 ^ 192) 68 0)

/-- The words from which SHA-384 begins. -/
def shaStart : List W64 :=
  [0xcbbb9d5dc1059ed8, 0x629a292a367cd507, 0x9159015a3070dd17, 0x152fecd8f70e5939, 0x67332667ffc00b31, 0x8eb44a8768581511, 0xdb0c2e0d64f98fa7,
   0x47b5481dbefa4fa4]

def shaBig0 (x : W64) : W64 := x.rotateRight 28 ^^^ x.rotateRight 34 ^^^ x.rotateRight 39
def shaBig1 (x : W64) : W64 := x.rotateRight 14 ^^^ x.rotateRight 18 ^^^ x.rotateRight 41
def shaSmall0 (x : W64) : W64 := x.rotateRight 1 ^^^ x.rotateRight 8 ^^^ x >>> 7
def shaSmall1 (x : W64) : W64 := x.rotateRight 19 ^^^ x.rotateRight 61 ^^^ x >>> 6

/-- The message schedule, newest word first, extended by n words. -/
def shaSchedule : Nat → List W64 → List W64
  | 0, l => l
  | n + 1, l => shaSchedule n ((shaSmall1 (nth l 1) + nth l 6 + shaSmall0 (nth l 14) + nth l 15) :: l)

/-- One round on the eight working words. -/
def shaRound (v : List W64) (k w : W64) : List W64 :=
  match v with
  | [a, b, c, d, e, f, g, h] =>
    let t1 := h + shaBig1 e + ((e &&& f) ^^^ (~~~e &&& g)) + k + w
    let t2 := shaBig0 a + ((a &&& b) ^^^ (a &&& c) ^^^ (b &&& c))
    [t1 + t2, a, b, c, d + t1, e, f, g]
  | _ => v

/-- The hash value after a block of 16 words. -/
def shaBlock (h block : List W64) : List W64 :=
  let ws := (shaSchedule 64 block.reverse).reverse
  let v := (shaK.zip ws).foldl (fun v p => shaRound v p.1 p.2) h
  (h.zip v).map fun p => p.1 + p.2

/-- The hash value after n blocks of words. -/
def shaBlocks : Nat → List W64 → List W64 → List W64
  | 0, h, _ => h
  | n + 1, h, l => shaBlocks n (shaBlock h (l.take 16)) (l.drop 16)

/-- A message with its padding: a one bit, zeros, and its length in bits in 16 bytes. -/
def shaPadded (l : List Byte) : List Byte := l ++ 0x80#8 :: (List.replicate ((239 - l.length % 128) % 128) 0 ++ bytesBE 16 (8 * l.length))

/-- SHA-384 as a number of 384 bits. -/
def sha384 (l : List Byte) : Nat :=
  let ws := bytesWords (shaPadded l)
  ((shaBlocks (ws.length / 16) shaStart ws).take 6).foldl (fun a x => a * 2 ^ 64 + x.toNat) 0

/-! ### P-384 -/

/-- The field's prime, the curve's b, the base point and its order. -/
def p384 : Nat := 2 ^ 384 - 2 ^ 128 - 2 ^ 96 + 2 ^ 32 - 1
def p384B : Nat := 0xb3312fa7e23ee7e4988e056be3f82d19181d9c6efe8141120314088f5013875ac656398d8a2ed19d2a85c8edd3ec2aef
def p384G : Nat × Nat :=
  (0xaa87ca22be8b05378eb1c71ef320ad746e1d3b628ba79b9859f741e082542a385502f25dbf55296c3a545e3872760ab7,
   0x3617de4a96262c6f5d9e98bf9292dc29f8f41dbd289a147ce9da3113b5f0b8c00a60b1ce1d7e819d7a431d7c90ea0e5f)
def p384N : Nat := 0xffffffffffffffffffffffffffffffffffffffffffffffffc7634d81f4372ddf581a0db248b0a77aecec196accc52973

/-- a^e modulo m, by the k low bits of e. -/
def powMod (m : Nat) : (k a e : Nat) → Nat
  | 0, _, _ => 1
  | k + 1, a, e => (if e % 2 = 1 then a else 1) * powMod m k (a * a % m) (e / 2) % m

/-- The inverse modulo a prime of at most 384 bits. -/
def invMod (m a : Nat) : Nat := powMod m 384 (a % m) (m - 2)

/-- A point of the curve y² = x³ − 3x + b; none is the point at infinity. -/
abbrev Point := Option (Nat × Nat)

/-- The sum of two points. -/
def pointAdd (p q : Point) : Point :=
  match p, q with
  | none, q => q
  | p, none => p
  | some (x1, y1), some (x2, y2) =>
    if x1 = x2 && (y1 + y2) % p384 = 0 then none
    else
      let l := if x1 = x2 then (3 * x1 * x1 + p384 - 3) * invMod p384 (2 * y1) % p384 else (y2 + p384 - y1) * invMod p384 (x2 + p384 - x1) % p384
      let x3 := (l * l + 2 * p384 - x1 - x2) % p384
      some (x3, (l * (x1 + p384 - x3) + p384 - y1) % p384)

/-- A point times the k low bits of a number. -/
def pointMul : (k n : Nat) → Point → Point
  | 0, _, _ => none
  | k + 1, n, p => pointAdd (if n % 2 = 1 then p else none) (pointMul k (n / 2) (pointAdd p p))

/-- Whether a point lies on the curve. -/
def onCurve (q : Nat × Nat) : Bool := q.1 < p384 && q.2 < p384 && (q.2 * q.2 % p384 = (q.1 * q.1 * q.1 + (p384 - 3) * q.1 + p384B) % p384)

/-- Whether r and s are the ECDSA signature of a message under a public key (FIPS 186-5). [log 14 PRESUMED] -/
def ecdsaVerify (key : Nat × Nat) (msg : List Byte) (r s : Nat) : Bool :=
  let w := invMod p384N s
  let u1 := sha384 msg * w % p384N
  let u2 := r * w % p384N
  onCurve key && 1 ≤ r && r < p384N && 1 ≤ s && s < p384N
    && (match pointAdd (pointMul 384 u1 (some p384G)) (pointMul 384 u2 (some key)) with
      | none => false
      | some (x, _) => x % p384N = r)

end Sys2Proof.Machine
end

