-- ==== Sys2Proof/Machine/Pm.lean ====
section
/-! DEFINITION. What the performance bins count in a second: blocks, errored blocks and defects of the 97 sources (R619, R620). -/
namespace Sys2Proof.Machine

def Chip.updPm (s : Chip) (f : Pm → Pm) : Chip := { s with glk := { s.glk with pm := f s.glk.pm } }

/-- The second of logical time. -/
def Chip.second (s : Chip) : Int := s.logical / 65536000000000

/-- The key of a source's counts in a second. -/
def pmKey (sec : Int) (src : Nat) : Nat := sec.toNat * 128 + src

/-- Blocks of a source, and errored ones among them. [log 198 DESIGN CHOICE] -/
def Chip.pmBlocks (s : Chip) (src blocks errored : Nat) : Chip :=
  s.updPm fun p => { p with counts := p.counts.upd (pmKey s.second src) fun c =>
    { c with blocks := c.blocks + blocks, errored := c.errored + errored } }

/-- The seconds from one to another marked as having had a source's defect. -/
def markDefect (src : Nat) (from_ : Int) : Nat → Map PmCount → Map PmCount
  | 0, m => m
  | n + 1, m => markDefect src (from_ + 1) n (m.upd (pmKey from_ src) fun c => { c with defect := true })

/-- A source's defect comes or goes. -/
def Chip.pmDefect (s : Chip) (src : Nat) (on : Bool) : Chip :=
  s.updPm fun p =>
    let x := p.sources.get src
    match on, x.defectFrom with
    | true, none => { p with sources := p.sources.set src { x with defectFrom := some s.second } }
    | false, some d =>
      { p with sources := p.sources.set src { x with defectFrom := none }, counts := markDefect src d (s.second - d + 1).toNat p.counts }
    | _, _ => p

/-- The present second causes IDF: a step of logical time or a write of TAI_UTC (R622). A step lets counting begin again. [log 179 DESIGN CHOICE] -/
def Chip.pmMark (s : Chip) (step : Bool) : Chip :=
  s.updPm fun p => { p with marked := (s.second.toNat :: p.marked).eraseDups, next := if step then none else p.next }

end Sys2Proof.Machine
end

