-- ==== Sys2Proof/Machine/Time.lean ====
section
/-! DEFINITION. TIME: staging, steps, pulses, capture inputs, the servo, holdover, the steering port (R489 to R530). The triggers' starts are
with the threads they start. -/
namespace Sys2Proof.Machine

def Chip.updTime (s : Chip) (f : TimeState → TimeState) : Chip := { s with time := f s.time }

def Chip.updServo (s : Chip) (f : Servo → Servo) : Chip := s.updTime fun t => { t with servo := f t.servo }

def Chip.updHold (s : Chip) (f : Holdover → Holdover) : Chip := s.updTime fun t => { t with hold := f t.hold }

/-- One nanosecond in units of 2^−16 ns. -/
def ns1 : Int := 65536

/-- A rational number rounded to the nearest integer. -/
def nearest (x : Rat) : Int := (x + 1 / 2).floor

/-! ### RATE (R491, R512) -/

/-- RATE_CHANGE: RATE takes a new value, and OFFSET keeps logical time continuous in the same tick (R491). -/
def Chip.setRate (s : Chip) (r1 : Int) : Chip :=
  let d := roundDiv ((s.frc * tickP : Nat) * (s.rate - r1)) 79228162514264337593543950336
  { s.setReg Reg.TIME_RATE (w64 (wrapInt 40 r1)) with offset := s.offset + d }

/-- Whether the servo writes RATE: EN 1 with OUT 0 (R512). -/
def Chip.servoOwnsRate (s : Chip) : Bool := bit (s.act Reg.TIME_SERVO_CTRL) 3 && !bit (s.act Reg.TIME_SERVO_CTRL) 5

/-- TIME_RATE_WRITE (R512). -/
def timeRateWrite (v : W64) (s : Chip) : Chip :=
  if s.servoOwnsRate then s.raise Reg.TIME_EVENT 12 else s.setRate (signed 40 (fld v 39 0))

/-! ### Pulses (R502 to R504) -/

/-- START in 2^−16 ns, PERIOD in ns and EN of an output. -/
def Chip.pulseStart (s : Chip) (n : Nat) : Int := (s.act (Reg.TIME_TOUTn_START n)).toNat * ns1
def Chip.pulsePeriod (s : Chip) (n : Nat) : Nat := fld (s.act (Reg.TIME_TOUTn_PERIOD n)) 39 0
def Chip.pulseOn (s : Chip) (n : Nat) : Bool := bit (s.act (Reg.TIME_TOUTn_CTRL n)) 33

/-- POL of an output: its idle level; the active level is the other (R502). -/
def Chip.pulseIdle (s : Chip) (n : Nat) : Bool := bit (s.act (Reg.TIME_TOUTn_CTRL n)) 32

/-- An output returns to idle, if a pulse is being driven. -/
def Chip.pulseStop (s : Chip) (n : Nat) : Chip :=
  if (s.time.pulses.get n).active.isNone then s
  else (s.updTime fun t => { t with pulses := t.pulses.set n { (t.pulses.get n) with active := none } }).emit (.pulseEnd n (s.pulseIdle n))

/-- The first edge that lies after logical time now and is at least `lo`; none when there is none (R502, R504). -/
def Chip.firstEdge (s : Chip) (n lo : Nat) : Option Nat :=
  let p := s.pulsePeriod n
  let past := (s.logical - s.pulseStart n) / ns1
  let k := if s.logical < s.pulseStart n then 0 else if p = 0 then 1 else (past / p + 1).toNat
  if p = 0 && 0 < max k lo then none else some (max k lo)

/-- The first edge not yet driven nor passed over. [log 140 DEDUCED] -/
def Pulse.after (p : Pulse) : Nat := match p.last with | none => 0 | some k => k + 1

/-- An output schedules its next edge; the edges passed over since its last schedule are skipped and counted (R504). [log 140 DEDUCED] -/
def Chip.pulseSchedule (s : Chip) (n : Nat) : Chip :=
  let p := s.time.pulses.get n
  if !s.pulseOn n then (s.pulseStop n).updTime fun t => { t with pulses := t.pulses.set n { p with next := none, active := none } }
  else
    let k := s.firstEdge n p.after
    let from_ := max p.after (p.next.getD 0)
    let skipped := match k with
      | some j => j - from_
      | none => if s.pulsePeriod n = 0 && from_ = 0 then 1 else 0
    let s1 := s.updTime fun t => { t with pulses := t.pulses.set n { p with next := k } }
    if skipped = 0 then s1 else (s1.bump Reg.TIME_TOUT_SKIPPED skipped).raise Reg.TIME_EVENT 10

/-- Every output schedules anew. -/
def Chip.pulsesSchedule (s : Chip) : Chip := (List.range 8).foldl (fun u n => u.pulseSchedule n) s

/-- TOUT_EDGE: an output returns to idle WIDTH after its edge, and drives the edge that is due (R502). -/
def toutEdge (n : Fin 8) (s : Chip) : Chip :=
  let p := s.time.pulses.get n
  let ended := match p.active with | some e => decide (e ≤ s.logical / ns1) | none => false
  let s1 := if ended then s.pulseStop n else s
  match p.next with
  | none => s1
  | some k =>
    let at_ := s.pulseStart n + k * s.pulsePeriod n * ns1
    let width := fld (s.act (Reg.TIME_TOUTn_CTRL n)) 31 0
    if !s.pulseOn n || s.logical < at_ then s1
    else
      let next := if s.pulsePeriod n = 0 then none else some (k + 1)
      let q : Pulse := { last := some k, next := next, active := some ((at_ / ns1).toNat + width) }
      (s1.updTime fun t => { t with pulses := t.pulses.set n q }).emit (.pulse n k width (!s.pulseIdle n))

/-! ### Steps (R492, R493) -/

/-- TIME_SET: logical time is to be set at the next tick. -/
def timeSet (v : W64) (s : Chip) : Chip :=
  let s1 := s.setReg Reg.TIME_SET_CTRL (w64 (fld v 15 0))
  if bit v 16 then s1.updTime fun t => { t with setTo := some ((s.reg Reg.TIME_SET_NS).toNat * ns1 + fld v 15 0) } else s1

/-- TIME_ADJ_WRITE: a signed addition to OFFSET at the next tick. -/
def timeAdjWrite (o : Origin) (v : W64) (s : Chip) : Chip :=
  let d := signed 48 (fld v 47 0)
  match o with
  | .engine _ => s.updTime fun t => { t with adjEngine := t.adjEngine ++ [d] }
  | _ => s.updTime fun t => { t with adjHost := t.adjHost ++ [d] }

/-- Whether a step waits for the next tick. -/
def TimeState.stepping (t : TimeState) : Bool := t.setTo.isSome || !(t.adjHost ++ t.adjEngine ++ t.servoStep).isEmpty

/-- TRIG_SKIP for one trigger that logical time L (2^−16 ns) has passed: the armed times passed over but the one it fires for are
counted, and it goes on from the first one after L (R508). Answers the trigger and the number skipped. [log 141 DEDUCED] -/
def Trigger.skip (g : Trigger) (l : Int) : Trigger × Nat :=
  let now := (l / ns1).toNat
  if !g.armed || now < g.resume.getD g.next || g.period = 0 then (g, 0)
  else
    let base := g.resume.getD g.next
    let m := (now - base) / g.period + 1
    let fires := if g.resume.isSome then 0 else 1
    let skipped := if g.remaining = 0 then m - fires else min (m - fires) (g.remaining - 1)
    ({ g with resume := some (base + m * g.period), remaining := g.remaining - skipped }, skipped)

/-- The triggers after a step. [log 141 DEDUCED] -/
def Chip.trigSkip (s : Chip) : Chip :=
  let rs := s.time.trig.map fun (e : Nat × Trigger) => (e.1, e.2.skip s.logical)
  let n := (rs.map fun (e : Nat × (Trigger × Nat)) => e.2.2).sum
  let s1 := s.updTime fun t => { t with trig := rs.foldl (fun m (e : Nat × (Trigger × Nat)) => m.set e.1 e.2.1) t.trig }
  if n = 0 then s1 else (s1.bump Reg.TIME_TRIG_SKIPPED n).raise Reg.TIME_EVENT 11

/-- The steps of a tick: TIME_SET, the host's additions, the engines', the servo's; then outputs and triggers follow (R493, R504,
R508). [log 136 DESIGN CHOICE] -/
def Chip.applySteps (s : Chip) : Chip :=
  let t := s.time
  let base := match t.setTo with
    | some x => x - scaledTicks s.frc s.rate
    | none => s.offset
  let back := base + (t.adjHost ++ t.adjEngine ++ t.servoStep).sum
  let s1 := { s with offset := back, time := { t with setTo := none, adjHost := [], adjEngine := [], servoStep := [] } }
  let s2 := ((s1.raise Reg.TIME_EVENT 3).pulsesSchedule).pmMark true
  if s.logical < s2.logical then s2.trigSkip else s2

/-- TIME_TICK: n ticks pass, and steps that wait act at the first (R489, R493). [log 4 DESIGN CHOICE, 136 DESIGN CHOICE, 210 DEDUCED] -/
def timeTick (n : Nat) (s : Chip) : Chip :=
  if n = 0 then s
  else
    let s1 := { s with frc := s.frc + 1 }
    let s2 := if s.time.stepping then s1.applySteps else s1
    { s2 with frc := (s.frc + n) % 18446744073709551616 }

/-- TIME_NOW_READ: the capture of one tick, or the latched half (R494). -/
def timeNowRead (lanes : Lanes) (s : Chip) : Chip :=
  match lanes with
  | .high => s.answer (w64 (s.get Reg.TIME_NOW_NS 63 32))
  | _ =>
    let l := s.logical
    let s1 := ((s.setReg Reg.TIME_NOW_NS (w64 (nsOf l))).setReg Reg.TIME_NOW_FRAC (w64 (fracOf l))).setReg Reg.TIME_NOW_FRC (w64 s.frc)
    s1.answer (if lanes = .full then w64 (nsOf l) else w64 (nsOf l % 4294967296))

/-! ### The model (R517 to R521) -/

/-- A coefficient, TREF in 2^−16 °C and ORIGIN in s. -/
def Chip.coeff (s : Chip) (k : Nat) : Int := signed 48 (s.get (Reg.TIME_HO_Ck k) 47 0)
def Chip.tref (s : Chip) : Int := signed 16 (s.get Reg.TIME_HO_REF 15 0) * 256
def Chip.origin (s : Chip) : Int := s.get Reg.TIME_HO_REF 63 16

/-- 1, ΔT, ΔT² and Δd of a second (R517). -/
def Chip.features (s : Chip) (x : Second) : List Rat :=
  let dt : Rat := mkRat (x.temp - s.tref) 65536
  [1, dt, dt * dt, mkRat (x.at_ - s.origin) 86400]

/-- The product of two lists, place by place, added up. -/
def dot (a b : List Rat) : Rat := ((a.zip b).map fun (p : Rat × Rat) => p.1 * p.2).sum

/-- y_m at a second (R517). -/
def Chip.model (s : Chip) (x : Second) : Rat :=
  dot (s.features x) ((List.range 4).map fun k => ((s.coeff k : Int) : Rat))

/-- The present second: y, the last good temperature and whole seconds of logical time. -/
def Chip.presentSecond (s : Chip) : Second :=
  { y := s.time.servo.y, temp := s.time.oven.temp, at_ := s.logical / (1000000000 * ns1) }

/-- The mean of a list of numbers, or what stands for it when the list is empty. -/
def meanOf (l : List Rat) (d : Rat) : Rat := if l.isEmpty then d else l.sum / (l.length : Nat)

/-- A row less f times another. -/
def rowSub (a b : List Rat) (f : Rat) : List Rat := (a.zip b).map fun (p : Rat × Rat) => p.1 - f * p.2

/-- Gauss–Jordan elimination by columns: rows already pivoted with their columns, and the rest. -/
def eliminate : List Nat → List (Nat × List Rat) → List (List Rat) → List (Nat × List Rat)
  | [], done, _ => done
  | j :: js, done, rows =>
    match rows.findIdx? fun r => nth r j ≠ 0 with
    | none => eliminate js done rows
    | some i =>
      let r := nth rows i
      let p := r.map fun x => x / nth r j
      eliminate js ((j, p) :: done.map fun (e : Nat × List Rat) => (e.1, rowSub e.2 p (nth e.2 j)))
        ((rows.eraseIdx i).map fun q => rowSub q p (nth q j))

/-- The coefficients that solve the normal equations over the columns `free`, the others keeping their values. [log 142 DESIGN CHOICE] -/
def solveFit (free : List Nat) (rows : List (List Rat)) (kept : List Rat) : List Rat :=
  let done := eliminate free [] rows
  (List.range 4).map fun k =>
    match done.find? fun e => e.1 = k with
    | none => nth kept k
    | some e => nth e.2 4 - (((List.range 4).filter fun j => !(done.any fun d => d.1 = j)).map fun j => nth e.2 j * nth kept j).sum

/-- The weight of a sample taken at a whole second, as FIT_TAU has it (R518). -/
def Chip.fitWeight (s : Chip) (at_ : Int) : Rat :=
  let now := s.logical / (1000000000 * ns1)
  Config.decay (mkRat (now - at_) (3600 * fld (s.act Reg.TIME_HO_CTRL) 11 2))

/-- The weighted least-squares fit of the samples, with the values held when it began as samples of age 0 then (R518, R520). C2 keeps
its value below a span of 2 K, C1 too below 0.5 K. -/
def Chip.fitted (s : Chip) : List Int :=
  let h := s.time.hold
  let ws := h.samples.map fun x => (s.fitWeight x.at_, x)
  let span := Config.fitSpan (ws.map fun (p : Rat × Second) => (p.1, p.2.temp))
  let free := [0] ++ (if span < 1 / 2 then [] else [1]) ++ (if span < 2 then [] else [2]) ++ [3]
  let w0 := s.fitWeight h.heldAt
  let rows := (List.range 4).map fun j =>
    (List.range 5).map fun k =>
      let prior := if k = 4 then w0 * ((nth h.held j : Int) : Rat) else if k = j then w0 else 0
      prior + (ws.map fun (p : Rat × Second) =>
        p.1 * nth (s.features p.2) j * (if k = 4 then p.2.y else nth (s.features p.2) k)).sum
  let kept := (List.range 4).map fun k => ((s.coeff k : Int) : Rat)
  (solveFit free rows kept).map fun x => satInt 48 (nearest x)

/-- The coefficients written, and the residual of the fit (R518). -/
def Chip.refit (s : Chip) : Chip :=
  let cs := s.fitted
  let s1 := (List.range 4).foldl (fun u k => u.setReg (Reg.TIME_HO_Ck k) (w64 (wrapInt 48 (nth cs k)))) s
  let sq := s1.time.hold.samples.map fun x => (s1.fitWeight x.at_, (x.y - s1.model x) * (x.y - s1.model x))
  let total := (sq.map fun (p : Rat × Rat) => p.1).sum
  let ms := if total = 0 then 0 else (sq.map fun (p : Rat × Rat) => p.1 * p.2).sum / total
  s1.updHold fun h => { h with resid := min 65535 (Config.fitRoot ms) }

/-- FIT_EN, HO_EN and HO_AVG as applied. -/
def Chip.fitEn (s : Chip) : Bool := bit (s.act Reg.TIME_HO_CTRL) 0
def Chip.hoEn (s : Chip) : Bool := bit (s.act Reg.TIME_HO_CTRL) 1
def Chip.hoAvg (s : Chip) : Nat := fld (s.act Reg.TIME_HO_CTRL) 27 12

/-- Whether the model fits now: FIT_EN, LOCKED and a valid temperature (R518). -/
def Chip.fitting (s : Chip) : Bool := s.fitEn && s.time.servo.state = 2 && s.time.oven.valid

/-- A fit begins from the values held (R520). -/
def Chip.startFit (s : Chip) : Chip :=
  s.updHold fun h => { h with samples := [], held := (List.range 4).map s.coeff, heldAt := s.logical / (1000000000 * ns1), tmin := 0, tmax := 0, resid := 0 }

/-- HO_READY: sets when its conditions first hold together (R521). [log 143 DEDUCED] -/
def Chip.hoReady (s : Chip) : Chip :=
  let ticks := if s.time.servo.state = 2 then s.frc - s.time.servo.lockedAt else s.time.hold.lockedFor
  if !s.time.hold.ready && (s.time.servo.state = 2 || s.time.servo.state = 3) && lasts ticks 259200000000000 && s.fitEn && s.hoEn
      && s.time.oven.valid then (s.updHold fun h => { h with ready := true }).raise Reg.TIME_EVENT 8
  else s

/-- The reading at least 60 s old that is nearest to being so. -/
def Oven.minuteAgo (o : Oven) (now : Nat) : Option Int := (o.recent.find? fun r => lasts (now - r.1) 60000000000).map (·.2)

/-- TEMP_OUT and TEMP_FAST (R521). -/
def Chip.ovenFlags (s : Chip) : Chip :=
  let o := s.time.oven
  let h := s.time.hold
  let ho := s.time.servo.state = 3
  let out := ho && !h.samples.isEmpty && (o.temp < h.tmin - 5 * 65536 || h.tmax + 5 * 65536 < o.temp)
  let fast := ho && (match o.minuteAgo s.frc with | none => false | some x => decide (32768 < (o.temp - x).natAbs))
  let s1 := s.updHold fun g => { g with tempOut := out, tempFast := fast }
  let s2 := if out then s1.raise Reg.TIME_EVENT 6 else s1
  if fast then s2.raise Reg.TIME_EVENT 7 else s2

/-! ### The servo (R510 to R516) -/

/-- The sum of y over the ticks of LOCKED brought up to the present tick. -/
def Chip.accrue (s : Chip) : Chip :=
  if s.time.servo.state ≠ 2 then s
  else s.updHold fun h => { h with acc := h.acc + s.time.servo.y * (s.frc - h.accFrom : Nat), accFrom := s.frc }

/-- y limited to ±RATE_LIMIT, in units of 2^−48: the value, and whether it was limited (R511). -/
def Chip.clampY (s : Chip) (y : Rat) : Int × Bool :=
  let l : Rat := mkRat (fld (s.act Reg.TIME_SERVO_BOUND) 39 24 * 281474976710656 : Nat) 1000000000
  if l < y then (nearest l, true) else if y < -l then (nearest (-l), true) else (nearest y, false)

/-- y takes a new value and goes where OUT selects (R512, R524). [log 134 DESIGN CHOICE] -/
def Chip.driveY (s : Chip) (y : Rat) : Chip :=
  let (v, limited) := s.clampY y
  let s1 := s.accrue.updServo fun x => { x with y := v }
  let s2 := if limited then s1.raise Reg.TIME_EVENT 4 else s1
  if !bit (s.act Reg.TIME_SERVO_CTRL) 5 then s2.setRate v
  else if bit (s.act Reg.TIME_STEER_CFG) 0 then s2.updTime fun t => { t with steer := some v } else s2

/-- The update of R511 for an accepted measurement e taken at logical time `at_` (both in 2^−16 ns). [log 135 DEDUCED] -/
def Chip.servoUpdate (s : Chip) (e at_ : Int) : Chip :=
  let v := s.time.servo
  let tau : Int := match v.lastAt with
    | none => 16000000000 * ns1
    | some p => max (1000000 * ns1) (min (16000000000 * ns1) (at_ - p))
  let q : Rat := mkRat (e * 281474976710656) tau.toNat
  let i := v.i + q / (2 ^ fld (s.act Reg.TIME_SERVO_GAIN) 13 8 : Nat)
  (s.updServo fun x => { x with i := i }).driveY (-(q / (2 ^ fld (s.act Reg.TIME_SERVO_GAIN) 5 0 : Nat)) - i)

/-- A measurement is accepted: its time is kept, and LOSS_MS counts from now. [log 137 DEDUCED] -/
def Chip.accept (s : Chip) (at_ : Int) : Chip := s.updServo fun x => { x with lastAt := some at_, lossFrom := s.frc, outliers := 0 }

/-- SERVO_LOCK: the entry to LOCKED (R513). -/
def Chip.enterLocked (s : Chip) : Chip :=
  ((s.updServo fun x => { x with state := 2, lockedAt := s.frc, outliers := 0 }).updHold fun h =>
    { h with acc := 0, accFrom := s.frc, secondFrom := s.frc, seconds := [], lockedFor := 0 }).raise Reg.TIME_EVENT 0

/-- The entry to HOLDOVER: the mean of y over the last HO_AVG seconds of LOCKED, and D0 (R513, R519). -/
def Chip.enterHoldover (s0 : Chip) : Chip :=
  let s := s0.accrue
  let recent := s.time.hold.seconds.take s.hoAvg
  let short : Rat := if s.time.hold.secondFrom = s.frc then s.time.servo.y else mkRat s.time.hold.acc (s.frc - s.time.hold.secondFrom)
  let mean := meanOf (recent.map (·.y)) short
  let d0 := mean - meanOf (recent.map s.model) (s.model s.presentSecond)
  ((s.updServo fun x => { x with state := 3 }).updHold fun h =>
    { h with mean := mean, d0 := d0, lockedFor := s.frc - s.time.servo.lockedAt, secondFrom := s.frc }).raise Reg.TIME_EVENT 1

/-- A measurement in ACQUIRE: a step or an update, and the count toward LOCKED (R513, R514). [log 137 DEDUCED] -/
def Chip.acquire (s : Chip) (e at_ : Int) : Chip :=
  let big := (fld (s.act Reg.TIME_SERVO_LIMIT) 23 0 : Int) * ns1 < e.natAbs
  let s1 := if big && bit (s.act Reg.TIME_SERVO_CTRL) 4 then s.updTime fun t => { t with servoStep := t.servoStep ++ [-e] }
    else s.servoUpdate e at_
  let near : Bool := (e.natAbs : Int) ≤ (fld (s.act Reg.TIME_SERVO_LIMIT) 39 24 : Int) * ns1
  let s2 := (s1.accept at_).updServo fun x => { x with small := if near then x.small + 1 else 0 }
  if fld (s.act Reg.TIME_SERVO_LIMIT) 47 40 ≤ s2.time.servo.small then s2.enterLocked else s2

/-- A measurement in LOCKED: an update, or an outlier, the third of which in a row is REF_FAULT (R515). [log 135 DEDUCED] -/
def Chip.track (s : Chip) (e at_ : Int) : Chip :=
  if (fld (s.act Reg.TIME_SERVO_BOUND) 23 0 : Int) * ns1 < e.natAbs then
    let s1 := (s.bump Reg.TIME_OUTLIERS).updServo fun x => { x with outliers := x.outliers + 1 }
    if s1.time.servo.outliers < 3 then s1
    else ((s1.updServo fun x => { x with refFault := true }).raise Reg.TIME_EVENT 2).enterHoldover
  else (s.servoUpdate e at_).accept at_

/-- A measurement e taken at logical time `at_` reaches the servo. [log 134 DESIGN CHOICE] -/
def Chip.measure (s : Chip) (e at_ : Int) : Chip :=
  let s1 := s.updServo fun x => { x with lastErr := e }
  match s.time.servo.state with
  | 1 => s1.acquire e at_
  | 2 => s1.track e at_
  | 3 =>
    if s.time.servo.refFault then s1
    else (s1.updServo fun x => { x with state := 1, i := -x.y, small := 0 }).acquire e at_
  | _ => s

/-- SERVO_INPUT_WRITE (R510). [log 139 DESIGN CHOICE] -/
def servoInputWrite (v : W64) (s : Chip) : Chip :=
  let early := match s.time.servo.lastInput with
    | none => false
    | some t => !lasts (s.frc - t) 1000000
  if fld (s.act Reg.TIME_SERVO_CTRL) 2 0 ≠ 5 then s.raise Reg.TIME_EVENT 12
  else if early then s.bump Reg.TIME_INPUT_DROP
  else (s.updServo fun x => { x with lastInput := some s.frc }).measure (signed 48 (fld v 47 0)) s.logical

/-- Logical time at eighth k of the present tick (R499). -/
def Chip.logicalEighth (s : Chip) (k : Nat) : Int :=
  ((((s.frc * 8 + k) * tickP : Nat) * (281474976710656 + s.rate)) / (8 * 79228162514264337593543950336)) + s.offset

/-- The phase detector takes a captured edge of input n at captured time c (R510). [log 139 DESIGN CHOICE] -/
def Chip.detect (s : Chip) (n : Nat) (c : Int) : Chip :=
  let recent := match s.time.servo.edges.get n with
    | none => false
    | some t => !lasts (s.frc - t) 500000000
  if fld (s.act Reg.TIME_SERVO_CTRL) 2 0 ≠ n + 1 || s.time.servo.state = 0 || recent then s
  else
    let second : Nat := 65536000000000
    (s.updServo fun x => { x with edges := x.edges.set n (some s.frc) }).measure (c - roundDiv c second * second) c

/-- TIN_CAPTURE: an edge at eighth k of the present tick (R499, R500); every edge that comes is captured (R501). [log 267 DESIGN CHOICE] -/
def tinCapture (n : Fin 4) (rising : Bool) (k : Fin 8) (s : Chip) : Chip :=
  if !s.flag (Reg.TIME_TINn_CFG n) 0 || s.flag (Reg.TIME_TINn_CFG n) 1 = rising then s
  else
    let c := s.logicalEighth k - signed 32 (s.get (Reg.TIME_TINn_DELAY n) 31 0)
    let q := s.time.tin.get n
    let s1 := if 16 ≤ q.length then (s.bump (Reg.TIME_TINn_LOST n)).raise Reg.TIME_EVENT 9
      else s.updTime fun t => { t with tin := t.tin.set n (q ++ [w64 (9223372036854775808 + stampOf c)]) }
    s1.detect n c

/-- TIN_FIFO_READ (R20). -/
def tinFifoRead (e : Ep) (lanes : Lanes) (n : Fin 4) (s : Chip) : Chip :=
  s.rcRead e (Reg.TIME_TINn_FIFO n) lanes (s.time.tin.get n) fun u =>
    u.updTime fun t => { t with tin := t.tin.set n ((t.tin.get n).drop 1) }

/-- SERVO_LOSS: no accepted measurement for LOSS_MS (R513). [log 139 DESIGN CHOICE] -/
def servoLoss (s : Chip) : Chip :=
  let v := s.time.servo
  if !lasts (s.frc - v.lossFrom) (fld (s.act Reg.TIME_SERVO_LIMIT) 63 48 * 1000000) then s
  else if v.state = 2 then s.enterHoldover
  else if v.state = 1 then s.updServo fun x => { x with state := 0 }
  else s

/-- One second, to the tick, since a tick. -/
def Chip.secondSince (s : Chip) (tick : Nat) : Bool := lasts (s.frc + 1 - tick) 1000000000

/-- FIT_SAMPLE: a second of LOCKED ends; its mean joins the record, and the fit where it runs (R518, R521). [log 143 DEDUCED] -/
def fitSample (s0 : Chip) : Chip :=
  let s := s0.accrue
  let h := s.time.hold
  if s.time.servo.state ≠ 2 || !s.secondSince h.secondFrom then s0
  else
    let x : Second := { s.presentSecond with y := mkRat h.acc (s.frc - h.secondFrom) }
    let s1 := s.updHold fun g =>
      { g with acc := 0, secondFrom := s.frc, seconds := (x :: g.seconds).take 65535 }
    let s2 := if !s.fitting then s1
      else (s1.updHold fun g =>
        { g with samples := x :: g.samples
                 tmin := (if g.samples.isEmpty then x.temp else min g.tmin x.temp)
                 tmax := (if g.samples.isEmpty then x.temp else max g.tmax x.temp) }).refit
    s2.hoReady

/-- HOLDOVER_UPDATE, once per second: y from the model and D0, or held at the mean (R519). -/
def holdoverUpdate (s : Chip) : Chip :=
  if s.time.servo.state ≠ 3 || !s.secondSince s.time.hold.secondFrom then s
  else
    let y := if s.hoEn then s.model s.presentSecond + s.time.hold.d0 else s.time.hold.mean
    (((s.driveY y).ovenFlags).hoReady).updHold fun h => { h with secondFrom := s.frc }

/-- HO_COEFF_WRITE: a coefficient (0 to 3) or TIME_HO_REF (4) (R520). -/
def hoCoeffWrite (k : Fin 5) (v : W64) (s : Chip) : Chip :=
  if s.fitEn then s.raise Reg.TIME_EVENT 12
  else if k.val = 4 then s.setReg Reg.TIME_HO_REF v
  else s.setReg (Reg.TIME_HO_Ck k) (w64 (fld v 47 0))

/-! ### The steering port (R523 to R525) -/

/-- MODE and DIV of the steering port (R523). -/
def Chip.spiMode (s : Chip) : Nat := fld (s.act Reg.TIME_STEER_CFG) 10 9
def Chip.spiDiv (s : Chip) : Nat := fld (s.act Reg.TIME_STEER_CFG) 8 1

/-- STEER_WRITE: the waiting word is sent (R524). -/
def steerWrite (s : Chip) : Chip :=
  match s.time.steer with
  | none => s
  | some y =>
    let s1 := s.updTime fun t => { t with steer := none }
    let f := s.act Reg.TIME_STEER_WORD
    let n := fld f 37 35
    let x := roundDiv (y * 256) (fld (s.act Reg.TIME_STEER_UNIT) 31 0)
    let word := wrapInt (8 * n) (satInt (8 * n) (if bit f 38 then -x else x))
    if !bit (s.act Reg.TIME_STEER_CFG) 0 then s1
    else
      let bytes := ((bytesBE 4 (fld f 31 0)).take (fld f 34 32)) ++ bytesBE n word
      ((s1.emit (.steer s.spiMode s.spiDiv bytes)).bump Reg.TIME_STEER_SENT).setReg Reg.TIME_STEER_LAST (w64 word)

/-- The temperature in 2^−16 °C that the sensor's bytes hold (R525). -/
def Chip.sensorTemp (s : Chip) (raw : Nat) : Int :=
  let f := s.act Reg.TIME_TEMP_CFG
  let w := fld f 47 43 + 1
  signed w (raw >>> fld f 42 38) * fld f 63 48

/-- What a reading of the sensor does: it is accepted or discarded (R525, R521). [log 144 DESIGN CHOICE] -/
def Chip.tempTake (s : Chip) (raw : BitVec 32) : Chip :=
  let o := s.time.oven
  let x := s.sensorTemp (raw.toNat % 2 ^ (8 * fld (s.act Reg.TIME_TEMP_CFG) 37 35))
  if x < -60 * 65536 || 150 * 65536 < x || (o.seen && 131072 < (x - o.temp).natAbs) then
    let s1 := (s.bump Reg.TIME_TEMP_BAD).updTime fun t => { t with oven := { o with bad := o.bad + 1, valid := o.valid && o.bad < 2 } }
    let s2 := if o.bad = 2 then s1.raise Reg.TIME_EVENT 5 else s1
    s2.ovenFlags
  else
    let keep := (o.recent.filter fun r => !lasts (s.frc - r.1) 60000000000) ++ (o.recent.filter fun r => lasts (s.frc - r.1) 60000000000).take 1
    let s1 := s.updTime fun t => { t with oven := { o with temp := x, seen := true, valid := true, bad := 0, recent := (s.frc, x) :: keep } }
    s1.ovenFlags.hoReady

/-- TEMP_READ, once per second with TEMP_EN 1: a steering write that waits for the bus goes first; then CMD is sent and the bytes are read (R523, R525). -/
def tempRead (raw : BitVec 32) (s : Chip) : Chip :=
  let cfg := s.act Reg.TIME_TEMP_CFG
  if !bit (s.act Reg.TIME_STEER_CFG) 11 || !(s.time.oven.readAt.all s.secondSince) then s
  else
    let s1 := (steerWrite s).emit (.sense s.spiMode s.spiDiv ((bytesBE 4 (fld cfg 31 0)).take (fld cfg 34 32)) (fld cfg 37 35))
    (s1.updTime fun t => { t with oven := { t.oven with readAt := some s.frc } }).tempTake raw

/-! ### Staging (R516, R528) -/

/-- Whether an enabled staged output is legal (R528). -/
def Chip.pulseOk (s : Chip) (n : Nat) : Bool :=
  let v := s.reg (Reg.TIME_TOUTn_CTRL n)
  let p := fld (s.reg (Reg.TIME_TOUTn_PERIOD n)) 39 0
  !bit v 33 || (8 ≤ fld v 31 0 && (p = 0 || (100 ≤ p && fld v 31 0 < p)))

/-- Whether the staged steering port and sensor formats are legal (R530). -/
def Chip.steerOk (s : Chip) : Bool :=
  let n := fld (s.reg Reg.TIME_STEER_WORD) 37 35
  let r := fld (s.reg Reg.TIME_TEMP_CFG) 37 35
  (!bit (s.reg Reg.TIME_STEER_CFG) 0 || (1 ≤ n && n ≤ 6 && fld (s.reg Reg.TIME_STEER_UNIT) 31 0 ≠ 0))
  && (!bit (s.reg Reg.TIME_STEER_CFG) 11 || (1 ≤ r && r ≤ 4))
  && fld (s.reg Reg.TIME_TEMP_CFG) 42 38 + fld (s.reg Reg.TIME_TEMP_CFG) 47 43 ≤ 31

/-- Whether TIME's staged values may be applied (R528). -/
def Chip.timeStagedOk (s : Chip) : Bool :=
  let g := s.reg Reg.TIME_SERVO_GAIN
  s.legalRange 0x200000 0x400000 && fld g 5 0 < fld g 13 8 && (List.range 8).all s.pulseOk && s.steerOk

/-- TIME_GO (R528). -/
def timeGo (s : Chip) : Chip := s.go Reg.TIME_COMMIT s.timeStagedOk

/-- SERVO_RECONFIGURE: what applying TIME_SERVO_CTRL does to the servo (R513, R515, R516). [log 138 DEDUCED] -/
def Chip.servoReconfigure (s : Chip) (old : W64) : Chip :=
  let new := s.act Reg.TIME_SERVO_CTRL
  let on := bit new 3 && fld new 2 0 ≠ 0
  let changed := fld new 3 0 ≠ fld old 3 0 || bit new 5 ≠ bit old 5
  let v := s.time.servo
  if !on then s.accrue.updServo fun x => { x with state := 0, refFault := false, small := 0 }
  else if changed || v.state = 0 || v.refFault then
    s.accrue.updServo fun x =>
      { x with state := 1, i := if v.state = 3 && !changed then -v.y else v.i, refFault := false, small := 0, outliers := 0, lossFrom := s.frc, lastAt := if v.state = 0 then none else x.lastAt }
  else s

/-- An output whose START, PERIOD or EN changed forgets the last edge driven; every output schedules anew (R504). -/
def Chip.pulsesApply (s old : Chip) : Chip :=
  let s1 := (List.range 8).foldl (fun u n =>
    if u.pulseStart n = old.pulseStart n && u.pulsePeriod n = old.pulsePeriod n && u.pulseOn n = old.pulseOn n then u
    else u.updTime fun t => { t with pulses := t.pulses.set n { (t.pulses.get n) with last := none, next := none } }) s
  s1.pulsesSchedule

/-- TIME_APPLY (R528). -/
def timeApply (s : Chip) : Chip :=
  if !s.goPending Reg.TIME_COMMIT then s
  else
    let s1 := (s.applyRange 0x200000 0x400000).goDone Reg.TIME_COMMIT
    let s2 := if s1.fitEn && !s.fitEn then s1.startFit else s1
    (s2.servoReconfigure (s.act Reg.TIME_SERVO_CTRL)).pulsesApply s

/-! ### Triggers and recovered clocks (R505, R509, R526) -/

/-- A trigger slot freed: its generation steps (R505). -/
def Trigger.freed (g : Trigger) : Trigger := { gen := (g.gen + 1) % 256 }

/-- A trigger slot changed. -/
def Chip.setTrigger (s : Chip) (k : Nat) (g : Trigger) : Chip := s.updTime fun t => { t with trig := t.trig.set k g }

/-- The free trigger slots, lowest first. -/
def Chip.freeTriggers (s : Chip) : List Nat := (List.range 256).filter fun k => !(s.time.trig.get k).armed

/-- TRIG_CANCEL: the slot is freed when the generation matches; a firing due in the same tick still starts its thread (R509). -/
def trigCancel (v : W64) (s : Chip) : Chip :=
  let k := fld v 7 0
  let g := s.time.trig.get k
  if !g.armed || g.gen ≠ fld v 15 8 then s
  else if g.next * ns1 ≤ s.logical then s.setTrigger k { g with remaining := 1, resume := none }
  else s.setTrigger k g.freed

/-- RCLK_SQUELCH: the lane of a recovered clock loses or regains lock: the output is held low, or carries the lane's clock, divided (R526). -/
def rclkSquelch (r : Fin 2) (locked : Bool) (s : Chip) : Chip :=
  if s.flag (Reg.TIME_RCLKr r) 6 then
    (s.setFlag (Reg.TIME_RCLKr r) 7 (!locked)).emit
      (.rclk r (if locked then some (s.get (Reg.TIME_RCLKr r) 4 0, s.flag (Reg.TIME_RCLKr r) 5) else none))
  else s

/-- The stamp of a frame at uplink subport q: the time at the balls less, or with, the asymmetry (R497). -/
def Chip.uplinkStamp (s : Chip) (q : Nat) (sent : Bool) : Int :=
  if sent then s.logical + signed 32 (s.get (Reg.TIME_ASYM_TXq q) 31 0) else s.logical - signed 32 (s.get (Reg.TIME_ASYM_RXq q) 31 0)

end Sys2Proof.Machine
end

