-- ==== Sys2Proof/Machine/Mate.lean ====
section
/-! DEFINITION. Heat numbers of parts, the laser gate and the roles that follow it (R588 to R597), and the island's log, which other blocks write
(R581, R707 to R709). -/
namespace Sys2Proof.Machine

/-! ### The log -/

/-- Logical time as the island knows it: read from TIME, or carried on by its own crystal (R708). -/
def Island.now (i : Island) : Int := i.timeNs + ((i.clock - i.timeAt) * 1000000 / 622080 : Nat)

/-- An entry put in the log's buffer of 256; FREE_TIME while the core is not running (R707 to R709). [log 201 DESIGN CHOICE, 202 DESIGN CHOICE] -/
def Chip.islLog (s : Chip) (source kind : Nat) (data : List Byte) : Chip :=
  let i := s.isl
  let x : LogEntry := { source := source, kind := kind, flags := ofBool (i.core ≠ 3), time := wrapInt 64 i.now
                        data := (data ++ List.replicate 16 0).take 16 }
  if 256 ≤ i.buffer.length then s else { s with isl := { i with buffer := i.buffer ++ [x] } }

/-! ### Heat numbers (R534, R588, R592, R593) -/

/-- A heat number. -/
def heat (role health unit : Nat) : Nat := role <<< 12 + health <<< 4 + unit

/-- The part's own heat number. -/
def Chip.ownHeat (s : Chip) : Nat :=
  heat s.role (fld (s.act Reg.GLK_MATE_CFG) 12 5) (fld (s.act Reg.GLK_MATE_CFG) 16 13)

/-- A heat number with ACTIVE and STANDBY exchanged. -/
def swapHeat (h : Nat) : Nat :=
  let r := bitsOf h 15 12
  heat (if r = 12 then 9 else if r = 9 then 12 else r) (bitsOf h 11 4) (bitsOf h 3 0)

/-- The tree whose frames a turnover counts: the lowest whose timing runs, with the frame it is sending (see the log). [log 156 DEDUCED] -/
def Chip.mateFrame (s : Chip) : Option Nat :=
  (List.range 32).findSome? fun t => match (s.pon.pond.get t).timing with
    | .running _ => some (s.pon.pond.get t).fc
    | _ => none

/-- The mate's heat number on a path, with the roles exchanged once the frame that its heartbeat named has begun (R593). -/
def Chip.mateHeat (s : Chip) (p : Nat) : Nat :=
  let x := s.glk.paths.get p
  match x.turn, s.mateFrame with
  | some n, some f => if (f + 2251799813685248 - n) % 2251799813685248 < 1125899906842624 then swapHeat x.heat else x.heat
  | _, _ => x.heat

/-- Whether the own heat number is higher than the mate's on a path; a mate with the same UNIT counts as higher (R590). -/
def Chip.hotter (s : Chip) (p : Nat) : Bool :=
  let x := s.glk.paths.get p
  x.seen && bitsOf x.heat 3 0 ≠ fld (s.act Reg.GLK_MATE_CFG) 16 13 && s.mateHeat p < s.ownHeat

/-- Whether the gate permits light (R593). -/
def Chip.permits (s : Chip) : Bool :=
  s.hotter 1 || s.hotter 2 || (!(s.glk.paths.get 1).seen && !(s.glk.paths.get 2).seen)

/-- A role taken otherwise than by a turnover: one that was to come is cancelled. [log 155 DESIGN CHOICE] -/
def Chip.withRole (s : Chip) (role : Nat) (took : Option Nat) : Chip :=
  { s with role := role, tookActive := took, glk := { s.glk with turn := none, turned := none } }

/-- LASER_PERMIT, PART_DEMOTE, PART_TAKEOVER: the permit is evaluated, and the role follows a change of it (R593, R595). -/
def Chip.evalPermit (s : Chip) : Chip :=
  if !s.mateOn then s
  else
    let p := s.permits
    let s1 := { s with permit := p }
    if s.role = 12 && s.permit && !p then (s1.withRole 9 none).raise Reg.GLK_EVENT 1
    else if s.role = 9 && !s.permit && p then
      ((s1.withRole 12 (some s.frc)).raise Reg.GLK_EVENT 0).bump Reg.GLK_TAKEOVERS
    else s1

/-- SELF_DEMOTE: an ACTIVE part takes SUSPECT on cause k when DEMOTE enables it (R596). -/
def Chip.selfDemote (s : Chip) (k : Nat) : Chip :=
  if s.mateOn && s.role = 12 && bit (s.act Reg.GLK_MATE_CFG) (50 + k) then
    ((s.withRole 3 none).raise Reg.GLK_EVENT 1).evalPermit
  else s

end Sys2Proof.Machine
end

