-- ==== Sys2Proof/Machine/Thread.lean ====
section
/-! DEFINITION. Threads: registers, messages held, starts, traps, handlers, counters; the trigger slots that start them (R218 to R281, R505 to
R508, R543 to R545). -/
namespace Sys2Proof.Machine

/-- A thread's key. -/
def tkey (c t : Nat) : Nat := c * 256 + t

def Chip.thread (s : Chip) (c t : Nat) : Thread := s.cru.threads.get (tkey c t)

def Chip.setThread (s : Chip) (c t : Nat) (x : Thread) : Chip :=
  { s with cru := { s.cru with threads := s.cru.threads.set (tkey c t) x } }

def Chip.updThread (s : Chip) (c t : Nat) (f : Thread → Thread) : Chip := s.setThread c t (f (s.thread c t))

/-- A number that orders waits and undo lines, and the state with it used. -/
def Chip.nextSeq (s : Chip) : Nat × Chip := (s.cru.seq, { s with cru := { s.cru with seq := s.cru.seq + 1 } })

/-- General register n: g0 reads 0 (R223). -/
def Thread.g (x : Thread) (n : Nat) : W64 := if n = 0 then 0 else x.regs.get n

/-- General register n written; a write to g0 is discarded (R223). -/
def Thread.setG (x : Thread) (n : Nat) (v : W64) : Thread := if n = 0 then x else { x with regs := x.regs.set n v }

/-- The state codes of R220. -/
def stIdle : Nat := 0
def stReady : Nat := 1
def stWaiting : Nat := 2
def stStopped : Nat := 3
def stFaulted : Nat := 4

/-- Bytes of instruction RAM that IP reaches (R225). -/
def iramSize : Nat := 262144

/-! ### Flasks (R218, R219) -/

/-- A flask as it is at reset: not yet tested, flask 32 the spare, the others each with the engine of its number (R219). -/
def resetFlask (f : Nat) : Flask := if f = 32 then { state := 2 } else { engine := f }

/-- A physical flask of a crucible. -/
def Chip.flask (s : Chip) (c f : Nat) : Flask := (s.gate.flasks.get (c * 33 + f)).getD (resetFlask f)

def Chip.setFlask (s : Chip) (c f : Nat) (x : Flask) : Chip :=
  { s with gate := { s.gate with flasks := s.gate.flasks.set (c * 33 + f) (some x) } }

/-- Whether a flask works: PAIRED or SIMPLEX. -/
def Flask.works (x : Flask) : Bool := x.state = 0 || x.state = 1

/-- The physical flask that runs logical engine e of a crucible. -/
def Chip.flaskOf (s : Chip) (c e : Nat) : Option Nat :=
  (List.range 33).find? fun f => (s.flask c f).works && (s.flask c f).engine = e

/-- Whether logical engine e runs: its crucible serves and its flask is not held (R539, R554). -/
def Chip.engineRuns (s : Chip) (c e : Nat) : Bool :=
  (s.gate.crus.get c).state = 0 && (match s.flaskOf c e with | none => false | some f => !(s.flask c f).held)

/-! ### Performance counters (R272 to R275) -/

/-- A counter of an engine incremented by n; a wrap sets its OVF and CTR_OVF (R273). -/
def Chip.ctrAdd (s : Chip) (c e k n : Nat) : Chip :=
  let old := (s.reg (Cell.ctrData c e k)).toNat
  let s1 := s.setReg (Cell.ctrData c e k) (w64 (countAdd old n))
  if old + n < 281474976710656 then s1 else (s1.setFlag (Cell.ctrCfg c e k) 10 true).raise (Reg.CRU_EVENT c) 4

/-- An event of an engine, in program or supervisor mode, counted by every PCn that selects it (R272, R275). -/
def Chip.countEvent (s : Chip) (c e : Nat) (super : Bool) (code : Nat) (n : Nat := 1) : Chip :=
  [1, 2, 3, 4, 5, 6].foldl (fun u k =>
    let cfg := u.reg (Cell.ctrCfg c e k)
    if fld cfg 7 0 = code && bit cfg (if super then 9 else 8) && n ≠ 0 then u.ctrAdd c e k n else u) s

/-! ### Held messages (R262) -/

/-- A queue's slot freed. -/
def Chip.freeSlotOf (s : Chip) (c : Nat) (h : HeldMsg) : Chip :=
  let k := c * 1024 + h.queue
  let mq := s.msgs.queues.get k
  { s with msgs := { s.msgs with queues := s.msgs.queues.set k { mq with held := mq.held.erase h.msg.slot } } }

/-- Every message that a thread holds is released. -/
def Chip.releaseHeld (s : Chip) (c t : Nat) : Chip :=
  ((s.thread c t).held.foldl (fun u h => u.freeSlotOf c h) s).updThread c t fun x => { x with held := [] }

/-- A message that a thread holds put back unread at the head of its queue (R546). -/
def Chip.unread (s : Chip) (c : Nat) (h : HeldMsg) : Chip :=
  let k := c * 1024 + h.queue
  let mq := s.msgs.queues.get k
  { s with msgs := { s.msgs with queues := s.msgs.queues.set k { mq with held := mq.held.erase h.msg.slot, items := h.msg :: mq.items } } }

/-! ### Space that a routine reserves (R291) -/

/-- What a thread's routine has reserved. -/
def Thread.reserved (x : Thread) : Reserved := match x.wait with | .routine r => if x.state = stWaiting then r.reserved else .none | _ => .none

/-- A reservation released. -/
def Chip.unreserve (s : Chip) : Reserved → Chip
  | .none => s
  | .slot d q k => { s with msgs := { s.msgs with queues := s.msgs.queues.upd (d * 1024 + q) fun x => { x with reserved := x.reserved.erase k } } }
  | .entry p => { s with fwd := { s.fwd with reserved := s.fwd.reserved.erase p } }

/-- A long instruction in its prepare phase abandoned: what its routine has reserved is released, and the thread is READY at the instruction, which runs
again from its start (R248, R291, R294). -/
def Chip.abandon (s : Chip) (c t : Nat) : Chip :=
  (s.unreserve (s.thread c t).reserved).updThread c t fun x => { x with state := stReady, wait := .none, readyFrom := s.frc }

/-! ### Handlers (R543) -/

/-- A handler begins: its entry snapshot is saved, and its records are empty. -/
def Thread.beginHandler (x : Thread) : Thread :=
  { x with handler := some { regs := x.regs, prog := x.prog, super := x.super, ie := x.ie, exl := x.exl, held := x.held, ip := x.ip }
           undo := [], record := [], replay := none, unreplayable := false, diverged := false }

/-- A handler ends with nothing to follow it. -/
def Thread.endHandler (x : Thread) : Thread :=
  { x with handler := none, undo := [], record := [], replay := none, unreplayable := false, diverged := false }

/-! ### Starts (R240, R267, R268, R269, R278) -/

/-- An entry of a crucible's trigger log; with 64 waiting it is lost (R269, R280, R281). -/
def Chip.logTrigger (s : Chip) (c t : Nat) (overrun pended : Bool) (ns : Nat) : Chip :=
  let l := s.cru.trigLog.get c
  let w := w64 (9223372036854775808 + (ns % 4294967296) <<< 16 + ofBool pended <<< 9 + ofBool overrun <<< 8 + t)
  if 64 ≤ l.length then s.bump (Reg.CRU_TRIG_LOG_LOST c)
  else { s with cru := { s.cru with trigLog := s.cru.trigLog.set c (l ++ [w]) } }

/-- A thread starts at ENTRY in the mode of CRU_THREAD_CTRL with g1 and g2 given; its other registers keep their values (R240, R267). [log 59 DESIGN CHOICE] -/
def Chip.startThread (s : Chip) (c t entry : Nat) (g1 g2 : W64) : Chip :=
  s.updThread c t fun x =>
    let y := { x with state := stReady, ip := entry * 4 % iramSize, super := s.flag (Cell.threadCtrl c t) 4, wait := .none
                      readyFrom := s.frc, stopReq := false }
    ((y.setG 1 g1).setG 2 g2).beginHandler

/-- PENDING_START: the pending start of an IDLE thread begins and is logged (R268, R269). -/
def pendingStart (c : Cru) (t : Fin 256) (s : Chip) : Chip :=
  let x := s.thread c t
  match x.pending with
  | none => s
  | some p =>
    if x.state ≠ stIdle || (s.gate.crus.get c).state ≠ 0 then s
    else (((s.updThread c t fun y => { y with pending := none }).startThread c t p.entry (w64 p.tag) (w64 p.time)).logTrigger c t
      false true p.time).countEvent c (t / 8) (s.flag (Cell.threadCtrl c t) 4) 0x29

/-- A trigger's start reaches its thread: at once when it is IDLE, else as its pending start, which a later one replaces (R267, R268). -/
def Chip.triggerStart (s : Chip) (c t entry tag time : Nat) : Chip :=
  let x := s.thread c t
  if (s.gate.crus.get c).state ≠ 0 then s
  else if x.state = stIdle && x.pending.isNone then
    ((s.startThread c t entry (w64 tag) (w64 time)).logTrigger c t false false time).countEvent c (t / 8) (s.flag (Cell.threadCtrl c t) 4) 0x29
  else
    let s1 := match x.pending with
      | none => s
      | some p => ((s.logTrigger c t true false p.time).raise (Reg.CRU_EVENT c) 2).countEvent c (t / 8) x.super 0x2A
    s1.updThread c t fun y => { y with pending := some { entry := entry, tag := tag, time := time } }

/-- TRIGGER_FIRE: a trigger whose armed time logical time has reached starts its thread, and its slot goes on or is freed (R505 to R508). -/
def triggerFire (k : Fin 256) (s : Chip) : Chip :=
  let g := s.time.trig.get k
  if !g.armed || s.logical < g.next * ns1 then s
  else
    let s1 := s.triggerStart (s.redirect g.crucible) g.thread g.entry g.tag g.next
    if g.period = 0 || g.remaining = 1 then s1.setTrigger k g.freed
    else s1.setTrigger k { g with next := g.resume.getD (g.next + g.period), resume := none, remaining := g.remaining - 1 }

/-! ### Traps (R241 to R243) -/

/-- A trap or STOP of a thread ends its run of adjacent CTR.RD instructions (R274). -/
def Chip.dropCtrRun (s : Chip) (c t : Nat) : Chip :=
  match s.cru.ctrRuns.get (c * 32 + t / 8) with
  | some p => if p.thread = t then { s with cru := { s.cru with ctrRuns := s.cru.ctrRuns.set (c * 32 + t / 8) none } } else s
  | none => s

/-- A trap: EPC, ECAUSE and EINFO are written, SUPER and IE saved, supervisor mode entered with EXL set and IE clear, and the thread goes
on at VBASE + CAUSE × 0x40; while EXL is 1 it is a double trap, and the thread is FAULTED (R241, R242). -/
def Chip.trap (s : Chip) (c t cause : Nat) (epc : Nat) (einfo : W64) (code : Nat := 0) : Chip :=
  let x := s.thread c t
  let s1 := ((s.unreserve x.reserved).dropCtrRun c t).countEvent c (t / 8) x.super 0x0A
  if x.exl then (s1.updThread c t fun y => { y with state := stFaulted, wait := .none }).raise (Reg.CRU_EVENT c) 0
  else
    s1.updThread c t fun y =>
      { y with state := stReady, wait := .none, epc := w64 epc, cause := cause, einfo := einfo, trapCode := code
               prevSuper := y.super, prevIe := y.ie, super := true, exl := true, ie := false
               ip := ((s.reg (Reg.CRU_VBASE c)).toNat + cause * 64) % iramSize, readyFrom := s.frc }

/-- The return from a trap: SUPER and IE come back, EXL clears, and the thread goes on at EPC (R241). -/
def Chip.trapReturn (s : Chip) (c t : Nat) : Chip :=
  s.updThread c t fun y =>
    { y with super := y.prevSuper, ie := y.prevIe, exl := false, ip := y.epc.toNat % iramSize / 4 * 4 }

/-- ECAUSE (R224). -/
def Thread.ecause (x : Thread) : W64 := w64 (x.cause + ofBool x.prevSuper <<< 8 + ofBool x.prevIe <<< 9 + x.trapCode <<< 16)

/-- MODE (R224). -/
def Thread.mode (x : Thread) : W64 := w64 (ofBool x.super + ofBool x.ie <<< 1 + ofBool x.exl <<< 2)

/-! ### Resets and stops (R246, R278) -/

/-- RESET: a thread enters IDLE from any state, its messages and reservations are released, its pending start is cancelled and MODE is clear (R278). -/
def Chip.resetThread (s : Chip) (c t : Nat) : Chip :=
  (((s.unreserve (s.thread c t).reserved).dropCtrRun c t).releaseHeld c t).updThread c t fun x =>
    { x.endHandler with state := stIdle, wait := .none, pending := none, super := false, ie := false, exl := false, stopReq := false }

/-! ### Local data (R225, R544) -/

/-- A byte of an engine's local data. -/
def Chip.localByte (s : Chip) (c e off : Nat) : Byte := s.cru.localData.get ((c * 32 + e) * 32768 + off % 32768)

/-- Consecutive bytes of local data written, with no handler's record. -/
def Chip.putLocal (s : Chip) (c e off : Nat) : List Byte → Chip
  | [] => s
  | b :: bs =>
    ({ s with cru := { s.cru with localData := s.cru.localData.set ((c * 32 + e) * 32768 + off % 32768) b } } : Chip).putLocal c e (off + 1) bs

/-- The undo copy that a thread keeps of a line of local data, the first time its handler writes it; a 17th line makes the handler
UNREPLAYABLE (R544). -/
def Chip.keepLine (s : Chip) (c t line : Nat) : Chip :=
  let x := s.thread c t
  if x.handler.isNone || x.undo.any (fun u => u.line = line) then s
  else if 16 ≤ x.undo.length then s.updThread c t fun y => { y with unreplayable := true }
  else
    let (n, s1) := s.nextSeq
    let old := (List.range 64).map fun i => s.localByte c (t / 8) (line * 64 + i)
    s1.updThread c t fun y => { y with undo := { line := line, bytes := old, seq := n } :: y.undo }

/-- A thread's store to local data. -/
def Chip.writeLocal (s : Chip) (c t off : Nat) (l : List Byte) : Chip :=
  let lines := (List.range l.length).map (fun i => (off + i) % 32768 / 64)
  (lines.eraseDups.foldl (fun u n => u.keepLine c t n) s).putLocal c (t / 8) off l

/-! ### The gate's replay record (R545, R547) -/

/-- The entry that a thread's replay expects next. -/
def Thread.expected (x : Thread) : Option Passed := match x.replay with | some (p :: _) => some p | _ => none

/-- An output that the gate has passed joins the thread's record; a 65th makes its handler UNREPLAYABLE (R545). [log 42 DESIGN CHOICE, 61 DESIGN CHOICE] -/
def Thread.recordOutput (x : Thread) (crc : BitVec 32) (v : W64) : Thread :=
  if x.handler.isNone then x
  else if 64 ≤ x.record.length then { x with unreplayable := true }
  else { x with record := x.record ++ [{ crc := crc, value := v }] }

end Sys2Proof.Machine
end

