-- ==== Sys2Proof/Machine/Gate.lean ====
section
/-! DEFINITION. GATE: heat numbers, splits, retirement and replay, lost crucibles, turnover, the fault log (R531 to R584). -/
namespace Sys2Proof.Machine

def Chip.updFlask (s : Chip) (c f : Nat) (g : Flask → Flask) : Chip := s.setFlask c f (g (s.flask c f))

def Chip.updGateCru (s : Chip) (c : Nat) (g : GateCru → GateCru) : Chip :=
  { s with gate := { s.gate with crus := s.gate.crus.upd c g } }

/-- GATE_CFG as applied. -/
def Chip.healthMin (s : Chip) : Nat := fld (s.act Reg.GATE_CFG) 15 8

/-- An entry of the fault log, which the island records too; with 256 waiting it is lost (R581). -/
def Chip.faultLog (s : Chip) (kind c f e half t : Nat) : Chip :=
  let w := w64 (kind + c <<< 5 + f <<< 11 + e <<< 17 + half <<< 22 + t <<< 23 + 2147483648 + (nsOf s.logical % 4294967296) <<< 32)
  let s1 := (s.islLog 1 kind (wordBytes w)).raise Reg.GATE_EVENT 5
  if 256 ≤ s.gate.log.length then s1.bump Reg.GATE_FAULT_LOST
  else { s1 with gate := { s1.gate with log := s1.gate.log ++ [w] } }

/-- A fault-log entry about a flask. -/
def Chip.faultFlask (s : Chip) (kind c f : Nat) (half : Nat := 0) : Chip := s.faultLog kind c f (s.flask c f).engine half 0

/-- FAULT_LOG_READ (R20, R581). -/
def faultLogRead (e : Ep) (lanes : Lanes) (s : Chip) : Chip :=
  s.rcRead e Reg.GATE_FAULT_LOG lanes s.gate.log fun u => { u with gate := { u.gate with log := u.gate.log.drop 1 } }

/-! ### Staging (R582) -/

/-- Whether GATE's staged values may be applied: takeover notices go to the spare crucible. -/
def Chip.gateStagedOk (s : Chip) : Bool :=
  let d := s.reg Reg.GATE_TAKEOVER_DEST
  s.legalRange 0x1800000 0x1A00000 && (!bit d 16 || fld d 5 0 = 32)

/-- GATE_GO. -/
def gateGo (s : Chip) : Chip := s.go Reg.GATE_COMMIT s.gateStagedOk

/-- GATE_APPLY. -/
def gateApply (s : Chip) : Chip :=
  if s.goPending Reg.GATE_COMMIT then (s.applyRange 0x1800000 0x1A00000).goDone Reg.GATE_COMMIT else s

/-! ### Losing a crucible (R554 to R558) -/

/-- What lies in a lost crucible is lost: its threads are as after a reset, its queues empty (R554, R558). [log 149 DEDUCED] -/
def Chip.silenceCrucible (s : Chip) (c : Nat) : Chip :=
  let s1 := (List.range 256).foldl (fun u t => if u.thread c t = default then u else u.resetThread c t) s
  let qs := (s1.msgs.queues.filter fun (e : Nat × MsgQueue) => e.1 / 1024 = c).map (·.1)
  { s1 with msgs := { s1.msgs with queues := qs.foldl (fun m k => m.upd k fun q => { q with items := [], held := [], reserved := [] }) s1.msgs.queues } }

/-- Whether crucible 32 holds a role: it does not serve, it stands in for another, or it owns a tree (R554). -/
def Chip.spareTaken (s : Chip) : Bool :=
  (s.gate.crus.get 32).state ≠ 0 || s.gate.crus.any (fun (e : Nat × GateCru) => e.2.redirected)
  || (List.range 32).any fun t => s.get (Reg.ALLOC_OWNER t) 5 0 = 32 || s.get (Reg.ALLOC_OWNER t) 11 6 = 32

/-- The first frame of a tree whose checker deadline falls at least 30 µs from now (R554). [log 150 DEDUCED] -/
def Chip.takeoverFrame (s : Chip) (t : Tree) : Nat :=
  match s.nextFrame t with
  | none => s.get (Reg.POND_FC_START t) 50 0
  | some (n, t0) =>
    match (List.range 4).find? fun k => lasts (t0 + k * frameTicks - s.frc) 36000 with
    | some k => (n + k) % fcMod
    | none => (n + 4) % fcMod

/-- The trees that a crucible owns, as the present owner or the next. [log 150 DEDUCED] -/
def Chip.treesOf (s : Chip) (c : Nat) : List Tree :=
  (List.finRange 32).filter fun (t : Tree) => s.get (Reg.ALLOC_OWNER t) 5 0 = c || s.get (Reg.ALLOC_OWNER t) 11 6 = c

/-- CRUCIBLE_TAKEOVER: redirection, ALLOC_OWNER, then the takeover message (R554, R555). [log 150 DEDUCED] -/
def Chip.takeover (s : Chip) (c : Nat) : Chip :=
  let trees := s.treesOf c
  let s1 := s.updGateCru c fun g => { g with redirected := true }
  let s2 := trees.foldl (fun u t =>
    let now := u.owner t (u.pon.pond.get t).fc
    u.setReg (Reg.ALLOC_OWNER t) (w64 (now + 32 <<< 6 + (u.takeoverFrame t % 4294967296) <<< 32))) s1
  let word := match trees with
    | [] => c <<< 6
    | t :: _ => t.val + 32 + c <<< 6 + (s.takeoverFrame t % 4294967296) <<< 32
  match s2.sendDest (s.act Reg.GATE_TAKEOVER_DEST) (deviceSource 13 0) (wordBytes (w64 word)) with
  | some (_, s3) => s3
  | none => s2

/-- A crucible lost, or retired for want of a spare flask: its gates close, and crucible 32 takes over where it holds no role (R550, R554,
R565). [log 151 DEDUCED, 152 DESIGN CHOICE] -/
def Chip.crucibleGone (s : Chip) (c : Nat) (retired : Bool) : Chip :=
  if (s.gate.crus.get c).state ≠ 0 then s
  else
    let s1 := (s.updGateCru c fun g => { g with state := if retired then 2 else 1, bist := 0 }).silenceCrucible c
    let s2 := (s1.faultLog (if retired then 12 else 11) c 0 0 0 0).raise Reg.GATE_EVENT 2
    if c = 32 || !bit (s.act Reg.GATE_TAKEOVER_DEST) 16 then s2
    else if s.spareTaken then (s2.faultLog 13 c 0 0 0 0).selfDemote 0
    else s2.takeover c

/-- CRUCIBLE_HEARTBEAT: a heartbeat of a crucible's monitor, or the answer to a probe; one that had been missing ends its path's fault (R553). -/
def crucibleHeartbeat (c : Cru) (probe : Bool) (s : Chip) : Chip :=
  let still := fun (g : GateCru) (t : Nat) => g.pathFault && !lasts (s.frc - t) 12000
  s.updGateCru c fun g =>
    if probe then { g with probeAt := s.frc, pathFault := still g g.probeAt } else { g with beatAt := s.frc, pathFault := still g g.beatAt }

/-- CRUCIBLE_LOST: with heartbeats and probes both missing for 12 µs the crucible is lost; with one of them, PATH_FAULT is logged (R553). -/
def crucibleLost (c : Cru) (s : Chip) : Chip :=
  let g := s.gate.crus.get c
  let late := fun (t : Nat) => lasts (s.frc - t) 12000
  if g.state ≠ 0 then s
  else if late g.beatAt && late g.probeAt then s.crucibleGone c false
  else if (late g.beatAt || late g.probeAt) && !g.pathFault then
    ((s.updGateCru c fun x => { x with pathFault := true }).faultLog 10 c 0 0 0 0).raise Reg.GATE_EVENT 3
  else s

/-! ### Retirement (R539, R541, R546, R563) -/

/-- The spare flask of a crucible. -/
def Chip.spareOf (s : Chip) (c : Nat) : Option Nat := (List.range 33).find? fun f => (s.flask c f).state = 2

/-- Whether a thread's handler is rolled back when its flask is retired: it runs or waits (R546). -/
def Thread.inHandler (x : Thread) : Bool := (x.state = stReady || x.state = stWaiting) && x.handler.isSome

/-- The undo lines of an engine's threads, newest first, put back; of two copies of a line the older is put back last (R546). [log 61 DESIGN CHOICE] -/
def Chip.undoLines (s : Chip) (c e : Nat) : Chip :=
  let ls := (List.range 8).flatMap fun k => let x := s.thread c (e * 8 + k); if x.inHandler then x.undo else []
  let sorted := ls.mergeSort fun a b => decide (b.seq ≤ a.seq)
  sorted.foldl (fun u (l : UndoLine) => u.putLocal c e (l.line * 64) l.bytes) s

/-- A thread set back to its handler's entry to run it again: messages taken since go back unread, and its record is replayed (R546,
R547); a thread in an UNREPLAYABLE handler is reset, which is logged. [log 61 DESIGN CHOICE] -/
def Chip.rollBack (s : Chip) (c f t : Nat) : Chip :=
  let x := s.thread c t
  match x.handler with
  | none => s
  | some h =>
    if !x.inHandler then s
    else if x.unreplayable then (s.resetThread c t).faultLog 7 c f (t / 8) 0 t
    else
      let taken := x.held.filter fun m => !h.held.contains m
      let s1 := taken.reverse.foldl (fun u m => u.unread c m) ((s.unreserve x.reserved).dropCtrRun c t)
      s1.updThread c t fun y =>
        { y with regs := h.regs, prog := h.prog, super := h.super, ie := h.ie, exl := h.exl, held := h.held, ip := h.ip, state := stReady
                 wait := .none, readyFrom := s.frc, undo := [], replay := some y.record, diverged := false }

/-- A half begins to run an engine in a role: its step counter counts from now. -/
def Half.starts (h : Half) (role now : Nat) : Half := { h with role := role, moved1 := now, moved2 := now, quiet := 0 }

/-- A flask leaves service and the spare takes its engine with one half ACTIVE and the other STANDBY (R546, R549). The retired flask goes into
self-test. [log 148 DESIGN CHOICE] -/
def Chip.swapFlask (s : Chip) (c f n : Nat) : Chip :=
  let x := s.flask c f
  let s1 := s.updFlask c n fun y =>
    { y with state := 0, engine := x.engine, cope := y.cope.starts 12 s.frc, drag := y.drag.starts 9 s.frc }
  let s2 := s1.updFlask c f fun y =>
    { y with state := 4, held := false, bist := 0, retires := min 3 (y.retires + 1), cope := { y.cope with role := 0 }, drag := { y.drag with role := 0 } }
  let s3 := (((s2.bump Reg.GATE_RETIREMENTS).raise Reg.GATE_EVENT 1)).faultLog 4 c f x.engine 0 0
  if (s3.spareOf c).isNone then s3.raise Reg.GATE_EVENT 4 else s3

/-- A planned retirement: the spare flask takes over with the state as it is; no handler runs again (R563). [log 147 DEDUCED] -/
def Chip.planRetire (s : Chip) (c f : Nat) : Nat × Chip :=
  if (s.gate.crus.get c).state ≠ 0 || !(s.flask c f).works || (s.flask c f).held then (4, s)
  else match s.spareOf c with
    | none => (2, s)
    | some n => (0, s.swapFlask c f n)

/-- A flask with no trusted state: its engine restarts on the spare with local data cleared and every thread as after a reset; trigger slots stay
armed (R541). With no spare the crucible is retired (R550). -/
def Chip.loseState (s : Chip) (c f half : Nat) : Chip :=
  let e := (s.flask c f).engine
  let s1 := s.faultFlask 5 c f half
  match s1.spareOf c with
  | none => s1.crucibleGone c true
  | some n =>
    let s2 := (s1.swapFlask c f n)
    let s3 := (List.range 8).foldl (fun u k => u.resetThread c (e * 8 + k)) s2
    { s3 with cru := { s3.cru with localData := s3.cru.localData.filter fun (p : Nat × Byte) => p.1 / 32768 ≠ c * 32 + e } }

/-- FLASK_RETIRE: a held flask is retired, and its rolled-back engine goes on on the spare flask; with no spare the crucible is retired (R546,
R550). -/
def flaskRetire (c : Cru) (f : Fin 33) (s : Chip) : Chip :=
  let x := s.flask c f
  if !x.works || !x.held || (s.gate.crus.get c).state ≠ 0 then s
  else match s.spareOf c with
    | none => s.crucibleGone c true
    | some n =>
      let s1 := (s.swapFlask c f n).undoLines c x.engine
      (List.range 8).foldl (fun u k => u.rollBack c n (x.engine * 8 + k)) s1

/-! ### Errors and splits (R533 to R542) -/

/-- HEALTH after an error (R536). -/
def Half.worse (h : Half) (now : Nat) : Half := { h with health := h.health - 32, errAt := some now, erred := true }

/-- An error that a half reports: HEALTH falls; in a working flask it takes SUSPECT and its twin ACTIVE, and the gate stays in SIMPLEX until it
is resynchronised; with the twin SUSPECT the flask's state is lost; below HEALTH_MIN the flask is retired by plan (R536, R537, R540 to R542, R563).
[log 147 DEDUCED] -/
def Chip.halfError (s : Chip) (c f : Nat) (drag : Bool) : Chip :=
  let x := s.flask c f
  let me := (if drag then x.drag else x.cope).worse s.frc
  let twin := if drag then x.cope else x.drag
  let put := fun (u : Chip) (a b : Half) (st : Nat) =>
    u.setFlask c f { x with cope := if drag then b else a, drag := if drag then a else b, state := st }
  if !x.works || (s.gate.crus.get c).state ≠ 0 then put s me twin x.state
  else if twin.role = 3 then (put s me twin x.state).loseState c f (ofBool drag)
  else
    let s1 := put s { me with role := 3 } { twin with role := if (if drag then x.drag else x.cope).role = 12 then 12 else twin.role } 1
    if me.health < s.healthMin then (s1.planRetire c f).2 else s1

/-- HALF_ERROR. -/
def halfErrorCmd (c : Cru) (f : Fin 33) (drag : Bool) (s : Chip) : Chip := s.halfError c f drag

/-- RESYNC_DONE: the suspect half takes STANDBY and the gate compares again (R540). -/
def resyncDone (c : Cru) (f : Fin 33) (s : Chip) : Chip :=
  let back := fun (h : Half) => if h.role = 3 then { h with role := 9 } else h
  if (s.flask c f).state = 1 then s.updFlask c f fun x => { x with cope := back x.cope, drag := back x.drag, state := 0 } else s

/-- Whether a half reported an error in the 256 engine cycles before an output, or with it (R533). [log 145 DESIGN CHOICE] -/
def Half.errs (h : Half) (now : Nat) : Bool := match h.errAt with | none => false | some t => decide (now ≤ t + 128)

/-- GATE_COMPARE: an output of a flask reaches its gate. Equal copies pass. Differing copies pass the copy of the half that has not erred, or nothing:
then the flask is held until it is retired (R532, R538, R539). In SIMPLEX nothing is compared (R540). [log 146 DEDUCED] -/
def gateCompare (c : Cru) (f : Fin 33) (differ : Bool) (s : Chip) : Chip :=
  let x := s.flask c f
  let a := x.cope.errs s.frc
  let b := x.drag.errs s.frc
  if !differ || !x.works || (s.gate.crus.get c).state ≠ 0 then s
  else if a ≠ b then
    ((s.bump Reg.GATE_SPLITS_REPORTED).raise Reg.GATE_EVENT 0).faultFlask 1 c f (ofBool b)
  else if x.state = 1 then s
  else
    let s1 := ((s.bump Reg.GATE_SPLITS_UNREPORTED).raise Reg.GATE_EVENT 0).faultFlask (if a then 3 else 2) c f
    s1.updFlask c f fun y => { y with held := true }

/-- One half's step counter as both paths read it at a tick (R551). -/
def Half.polled (h : Half) (r1 r2 now : Nat) : Half :=
  { h with last1 := r1, last2 := r2, moved1 := if r1 = h.last1 then h.moved1 else now, moved2 := if r2 = h.last2 then h.moved2 else now }

/-- How many paths have shown a half's counter standing still for 4 µs: none, one or both (R552). -/
def Half.still (h : Half) (now : Nat) : Nat := ofBool (lasts (now - h.moved1) 4000) + ofBool (lasts (now - h.moved2) 4000)

/-- STEP_COUNTER_POLL: both paths read both halves' counters; a half that stands still on both reports an error, two that do retire the flask, and
one path alone is logged (R551, R552). -/
def stepCounterPoll (c : Cru) (f : Fin 33) (cope1 cope2 drag1 drag2 : Nat) (s : Chip) : Chip :=
  let old := s.flask c f
  let look := fun (h : Half) (r1 r2 : Nat) =>
    let p := if old.works then h.polled r1 r2 s.frc else { h with last1 := r1, last2 := r2, moved1 := s.frc, moved2 := s.frc }
    { p with quiet := p.still s.frc }
  let s1 := s.updFlask c f fun x => { x with cope := look x.cope cope1 cope2, drag := look x.drag drag1 drag2 }
  let x := s1.flask c f
  let fresh := fun (new old : Half) (n : Nat) => new.quiet = n && old.quiet ≠ n
  if !x.works || (s.gate.crus.get c).state ≠ 0 then s1
  else if x.cope.quiet = 2 && x.drag.quiet = 2 then
    if x.held then s1 else (s1.faultFlask 9 c f).updFlask c f fun y => { y with held := true }
  else if fresh x.cope old.cope 2 then (s1.faultFlask 8 c f 0).halfError c f false
  else if fresh x.drag old.drag 2 then (s1.faultFlask 8 c f 1).halfError c f true
  else if fresh x.cope old.cope 1 || fresh x.drag old.drag 1 then
    (s1.faultFlask 10 c f (ofBool (!fresh x.cope old.cope 1))).raise Reg.GATE_EVENT 3
  else s1

/-! ### Context counts (R562) -/

/-- The destination registers that may name a crucible, as applied. [log 151 DEDUCED] -/
def Chip.destRegs (s : Chip) : List W64 :=
  ((List.range 32).flatMap fun t => [s.act (Reg.PONU_SUMMARY_DEST t), s.act (Reg.ALLOC_VERDICT_DEST t)])
  ++ [s.act Reg.FWD_REPORT_DEST, s.act Reg.CIPH_NOTICE_DEST, s.act Reg.GATE_TAKEOVER_DEST, s.act Reg.GLK_PROG_SRC, s.act Reg.GLK_PROG_DEST,
      s.act Reg.GLK_HIER_SRC, s.act Reg.GLK_HIER_DEST, s.reg Reg.SBY_APP_DEST]

/-- The armed trigger slots that target a crucible. -/
def Chip.triggersOf (s : Chip) (c : Nat) : List Trigger :=
  (s.time.trig.map fun (e : Nat × Trigger) => e.2).filter fun g => g.armed && g.crucible = c

/-- A crucible's context count. -/
def Chip.cruCount (s : Chip) (c : Nat) : Nat :=
  (s.treesOf c).length
  + (s.destRegs.filter fun d => bit d 16 && fld d 5 0 = c).length
  + (s.regs.filter fun (e : Nat × W64) => e.1 / 4294967296 = 12 && (fld e.2 2 0 = 1 || fld e.2 2 0 = 4) && fld e.2 8 3 = c).length
  + ((List.range 33).filter fun i => fld (s.act (Cell.tmInj i)) 34 19 ≠ 0 && fld (s.act (Cell.tmInj i)) 40 35 = c).length
  + (s.triggersOf c).length
  + (s.msgs.queues.filter fun (e : Nat × MsgQueue) => e.1 / 1024 = c && bit (s.queueCfg c (e.1 % 1024)) 30 && !(e.2.items.isEmpty && e.2.held.isEmpty)).length
  + (s.cru.threads.filter fun (e : Nat × Thread) => e.1 / 256 = c && e.2.state ≠ stIdle).length
  + ((s.tm.outstanding.get c).map fun (x : Nat × Nat) => cellsOf x.2).sum

/-- A logical engine's context count. -/
def Chip.engineCount (s : Chip) (c e : Nat) : Nat :=
  ((List.range 8).map fun k =>
    let x := s.thread c (e * 8 + k)
    ofBool (x.state ≠ stIdle) + x.held.length + ofBool x.pending.isSome).sum
  + ((s.triggersOf c).filter fun g => g.thread / 8 = e).length

/-! ### GATE_RETIRE_CMD (R563 to R565, R582, R584) -/

/-- The selection of GATE_SEL: crucible and flask. -/
def Chip.gateSel (s : Chip) : Nat × Nat := (s.get Reg.GATE_SEL 5 0, s.get Reg.GATE_SEL 11 6)

/-- A command written with GO: discarded with CMD_ERR while RUNNING, else it acts and its status waits for GATE_CMD_DONE. -/
def Chip.gateCommand (s : Chip) (op : Nat) (act : Chip → Nat × Chip) : Chip :=
  if s.gate.command.isSome then s.raise Reg.GATE_EVENT 6
  else
    let r := act ((s.setField Reg.GATE_RETIRE_CMD 2 0 op).setFlag Reg.GATE_RETIRE_CMD 4 true)
    { r.2 with gate := { r.2.gate with command := some r.1 } }

/-- GATE_CMD_DONE. -/
def gateCmdDone (s : Chip) : Chip :=
  match s.gate.command with
  | none => s
  | some st =>
    let s1 := (s.setField Reg.GATE_RETIRE_CMD 7 5 st).setFlag Reg.GATE_RETIRE_CMD 4 false
    { s1 with gate := { s1.gate with command := none } }

/-- RETIRE_FLASK (R563). -/
def retireFlask (s : Chip) : Chip := s.gateCommand 0 fun u => u.planRetire u.gateSel.1 u.gateSel.2

/-- A retired flask made the crucible's spare, or refused (R564). -/
def Chip.restoreFlask (s : Chip) (c f : Nat) : Nat × Chip :=
  let x := s.flask c f
  let fresh : Half := { role := 6, health := 128 }
  if x.state ≠ 3 || x.bist = 0 then (4, s)
  else if x.bist = 2 then (3, s)
  else if 3 ≤ x.retires || (s.spareOf c).isSome then (4, s)
  else (0, s.setFlask c f { x with state := 2, cope := fresh, drag := fresh })

/-- RESTORE_FLASK (R564). -/
def restoreFlaskCmd (s : Chip) : Chip := s.gateCommand 1 fun u => u.restoreFlask u.gateSel.1 u.gateSel.2

/-- RETIRE_CRUCIBLE (R565). -/
def retireCrucible (s : Chip) : Chip :=
  s.gateCommand 2 fun u =>
    let c := u.gateSel.1
    if (u.gate.crus.get c).state ≠ 0 then (4, u)
    else if u.cruCount c ≠ 0 then (1, u)
    else (0, (u.updGateCru c fun g => { g with state := 3, bist := 0 }).faultLog 12 c 0 0 0 0)

/-- The flasks of a crucible that returns to service: as after a self-test that they pass, but for those that failed theirs (R536, R565). -/
def Chip.freshFlasks (s : Chip) (c : Nat) : Chip :=
  (List.range 33).foldl (fun u f => u.updFlask c f fun x =>
    if x.state = 3 || x.state = 4 then x
    else if x.state = 2 then { x with cope := { role := 6, health := 255 }, drag := { role := 6, health := 255 }, tested := true }
    else { x with state := 0, held := false, cope := { role := 12, health := 255 }, drag := { role := 9, health := 255 }, tested := true }) s

/-- RESTORE_CRUCIBLE: a retired crucible whose self-test has passed and whose context count is 0 serves again, owning nothing (R559, R565). -/
def restoreCrucible (s : Chip) : Chip :=
  s.gateCommand 3 fun u =>
    let c := u.gateSel.1
    let g := u.gate.crus.get c
    if g.state ≠ 2 || g.bist = 0 then (4, u)
    else if g.bist = 2 then (3, u)
    else if u.cruCount c ≠ 0 then (1, u)
    else (0, (u.updGateCru c fun x =>
      { x with state := 0, redirected := false, beatAt := u.frc, probeAt := u.frc, pathFault := false }).freshFlasks c)

/-- GATE_TEST: a self-test of the selected flask when it is RETIRED, or of the selected crucible when it is lost or retired (R584). [log 153 DEDUCED] -/
def gateTest (s : Chip) : Chip :=
  s.gateCommand 4 fun u =>
    let (c, f) := u.gateSel
    if (u.gate.crus.get c).state = 1 || (u.gate.crus.get c).state = 2 then (0, u.updGateCru c fun g => { g with state := 3, bist := 0 })
    else if (u.flask c f).state = 3 then (0, u.updFlask c f fun x => { x with state := 4, bist := 0 })
    else (4, u)

/-- The status of a command whose self-test fails (R584). -/
def Chip.testFailed (s : Chip) : Chip :=
  if s.gate.command = some 0 && s.get Reg.GATE_RETIRE_CMD 2 0 = 4 then { s with gate := { s.gate with command := some 3 } } else s

/-- BIST_DONE: a retired flask's self-test ends; with AUTO_RESTORE one that passes becomes the spare (R549, R564). -/
def bistDone (c : Cru) (f : Fin 33) (pass : Bool) (s : Chip) : Chip :=
  if (s.flask c f).state ≠ 4 then s
  else
    let s1 := s.updFlask c f fun x => { x with state := 3, bist := if pass then 1 else 2, tested := true }
    if !pass then (s1.faultLog 14 c f 0 0 0).testFailed
    else if bit (s.act Reg.GATE_CFG) 16 then (s1.restoreFlask c f).2
    else s1

/-- CRUCIBLE_SELFTEST_DONE: a crucible's self-test ends (R565). -/
def crucibleSelftestDone (c : Cru) (pass : Bool) (s : Chip) : Chip :=
  if (s.gate.crus.get c).state ≠ 3 then s
  else
    let s1 := s.updGateCru c fun g => { g with state := 2, bist := if pass then 1 else 2 }
    if pass then s1 else (s1.faultLog 14 c 0 0 0 0).testFailed

/-! ### Turnover (R566 to R568) -/

/-- The tree whose frames time a crucible's turnovers: the one it owns, else tree 0; none where no such timing runs (R566). [log 154 DESIGN CHOICE] -/
def Chip.turnTree (s : Chip) (c : Nat) : Option Nat :=
  match (List.finRange 32).find? fun (t : Tree) => s.owner t (s.pon.pond.get t).fc = c && s.timingRuns t with
  | some t => some t.val
  | none => if s.timingRuns 0 then some 0 else none

/-- Whether a tick lies in a crucible's last hold. -/
def GateCru.held (g : GateCru) (t : Nat) : Bool := match g.hold with | some (a, b) => a ≤ t && t ≤ b | none => false

/-- Whether a crucible's turnover is due: at a frame whose count is a multiple of 2^TURN_LOG2, or after 8.192 s of logical time where no timing
runs, and once only (R566). One that falls due within a hold takes place at the next frame boundary after the hold (R311). [log 154 DESIGN CHOICE] -/
def Chip.turnDue (s : Chip) (c : Nat) : Bool :=
  let g := s.gate.crus.get c
  match s.turnTree c with
  | some t =>
    let p := s.pon.pond.get t
    let due := fun (n : Nat) => n % 2 ^ fld (s.act Reg.GATE_CFG) 4 0 = 0
    !g.held p.t0 && g.turned ≠ some p.fc && (due p.fc || (due (p.fc + 2251799813685247) && g.held (p.t0 - frameTicks)))
  | none => decide (g.turnedAt + 8192000000 * ns1 ≤ s.logical) && !g.held s.frc

/-- A flask's turnover: ROLE exchanged, HEALTH raised where no error was reported; skipped, and logged, where R566 says so. -/
def Chip.turnFlask (s : Chip) (c f : Nat) : Chip :=
  let x := s.flask c f
  let standby := if x.cope.role = 9 then x.cope else x.drag
  let up := fun (h : Half) (r : Nat) => { h with role := r, health := if h.erred then h.health else min 255 (h.health + 1), erred := false }
  if !x.works then s
  else if x.state = 1 || x.held || standby.role ≠ 9 || standby.health < s.healthMin then s.faultFlask 15 c f
  else (s.setFlask c f { x with cope := up x.cope x.drag.role, drag := up x.drag x.cope.role }).bump Reg.GATE_TURNOVERS

/-- SPARE_ROTATE: the next logical engine moves onto the spare flask, and the flask it leaves is the spare (R568). -/
def Chip.spareRotate (s : Chip) (c : Nat) : Chip :=
  let e := (s.gate.crus.get c).rotate
  match s.flaskOf c e, s.spareOf c with
  | some f, some n =>
    let x := s.flask c f
    if !bit (s.act Reg.GATE_CFG) 17 || x.held then s
    else
      let s1 := s.updFlask c n fun y => { y with state := 0, engine := e, cope := y.cope.starts 12 s.frc, drag := y.drag.starts 9 s.frc }
      let s2 := s1.updFlask c f fun y => { y with state := 2, cope := { y.cope with role := 6 }, drag := { y.drag with role := 6 } }
      s2.updGateCru c fun g => { g with rotate := (e + 1) % 32 }
  | _, _ => if bit (s.act Reg.GATE_CFG) 17 then s.updGateCru c fun g => { g with rotate := (e + 1) % 32 } else s

/-- FLASK_TURNOVER (R566, R568). -/
def flaskTurnover (c : Cru) (s : Chip) : Chip :=
  if (s.gate.crus.get c).state ≠ 0 || !s.turnDue c then s
  else
    let s1 := (List.range 33).foldl (fun u f => u.turnFlask c f) s
    let n := (s.turnTree c).map fun t => (s.pon.pond.get t).fc
    (s1.updGateCru c fun g => { g with turned := n, turnedAt := s.logical }).spareRotate c

/-! ### Outputs of a thread at its gate (R532, R547) -/

/-- An output of a thread that is a message, an AMO instruction or a table operation: in a replay that matches the next entry of the record it is
suppressed and gives the recorded value; else it passes and joins the record, and a replay that differs is logged. -/
def Chip.gatePass (s : Chip) (c t : Nat) (out : List Byte) (act : Chip → W64 × Chip) : W64 × Chip :=
  let crc := crc32c 0xFFFFFFFF#32 out
  let pass := fun (u : Chip) =>
    let r := act u
    (r.1, r.2.updThread c t fun y => y.recordOutput crc r.1)
  match (s.thread c t).expected with
  | some p =>
    if p.crc = crc then (p.value, s.updThread c t fun y => { y with replay := y.replay.map fun l => l.drop 1 })
    else
      let kept := fun (y : Thread) => y.record.take (y.record.length - (y.replay.getD []).length)
      let s1 := s.updThread c t fun y => { y with record := kept y, replay := none, diverged := true }
      pass ((s1.bump Reg.GATE_REPLAY_DIVERGED).faultLog 6 c ((s.flaskOf c (t / 8)).getD 0) (t / 8) 0 t)
  | none => pass s

end Sys2Proof.Machine
end

