-- ==== Sys2Proof/Machine/W20.lean ====
section
/-! DEFINITION. The W20 code: a Reed–Solomon code over GF(2^8) with 16 data symbols and 4 check symbols that corrects any two symbols
(R570), and how the codewords of a DDR5 line lie on its devices (R571). -/
namespace Sys2Proof.Machine

/-! ### GF(2^8) with x^8 + x^4 + x^3 + x^2 + 1 (R570) -/

/-- A field element times α = 0x02. -/
def gfDouble (a : Nat) : Nat := if a < 128 then 2 * a else (2 * a) ^^^ 0x11D

/-- The product of a and the n low bits of b. -/
def gfMulBits : (n a b : Nat) → Nat
  | 0, _, _ => 0
  | n + 1, a, b => (if b % 2 = 1 then a else 0) ^^^ gfMulBits n (gfDouble a) (b / 2)

/-- The product of two field elements. -/
def gf8Mul (a b : Nat) : Nat := gfMulBits 8 a b

/-- α^k. -/
def gfAlpha : Nat → Nat
  | 0 => 1
  | k + 1 => gfDouble (gfAlpha k)

/-- a^254, the inverse of a field element that is not 0: the product of a^2, a^4 and so on to a^128. -/
def gf8Inv (a : Nat) : Nat :=
  let sq := fun x => gf8Mul x x
  let a2 := sq a
  let a4 := sq a2
  let a8 := sq a4
  let a16 := sq a8
  let a32 := sq a16
  let a64 := sq a32
  gf8Mul (sq a64) (gf8Mul a64 (gf8Mul a32 (gf8Mul a16 (gf8Mul a8 (gf8Mul a4 a2)))))

/-! ### Codewords -/

/-- Symbol k of a codeword of 128 data bits followed by 32 check bits (R570). -/
def w20Symbol (c : BitVec 160) (k : Nat) : Nat := bitsOf c.toNat (159 - 8 * k) (152 - 8 * k)

/-- A codeword with one symbol and 0 elsewhere. -/
def w20At (k e : Nat) : BitVec 160 := BitVec.ofNat 160 (e <<< (152 - 8 * k))

/-- The coefficients of x^3 to x^0 of the generator polynomial, whose roots are α^0 to α^3. -/
def w20Gen : List Nat := [15, 54, 120, 64]

/-- The remainder of a polynomial times x^4 by the generator, by its coefficients from the highest; `r` is what stands before it. -/
def w20Divide (r : List Nat) : List Nat → List Nat
  | [] => r
  | d :: ds =>
    let f := d ^^^ r.headD 0
    w20Divide ((w20Gen.zip (r.drop 1 ++ [0])).map fun p => gf8Mul f p.1 ^^^ p.2) ds

/-- The check symbols of 128 data bits: symbol 0 is the coefficient of x^19. [log 243 DEDUCED] -/
def w20Checks (d : BitVec 128) : BitVec 32 :=
  BitVec.ofNat 32 ((w20Divide [0, 0, 0, 0] ((List.range 16).map fun k => w20Symbol (d ++ (0 : BitVec 32)) k)).foldl (fun a b => a * 256 + b) 0)

/-- A word with its check bits, as it is stored (R282, R570). -/
def w20Encode (d : BitVec 128) : BitVec 160 := d ++ w20Checks d

/-- Syndrome i of a received word: its polynomial at α^i. -/
def w20Syndrome (c : BitVec 160) (i : Nat) : Nat :=
  (List.range 20).foldl (fun acc k => gf8Mul acc (gfAlpha i) ^^^ w20Symbol c k) 0

/-- The error of one symbol, at its place, that has given syndromes. -/
def w20One (s0 s1 s2 s3 : Nat) : Option (BitVec 160) :=
  ((List.range 20).find? fun k =>
    let x := gfAlpha (19 - k)
    s0 ≠ 0 && s1 = gf8Mul s0 x && s2 = gf8Mul s1 x && s3 = gf8Mul s2 x).map fun k => w20At k s0

/-- The errors of the symbols j and k that have the first two of the given syndromes, if they have all four and neither is 0. -/
def w20Pair (s0 s1 s2 s3 j k : Nat) : Option (BitVec 160) :=
  let x := gfAlpha (19 - j)
  let y := gfAlpha (19 - k)
  let e := gf8Mul (s1 ^^^ gf8Mul s0 y) (gf8Inv (x ^^^ y))
  let g := s0 ^^^ e
  let ok := e ≠ 0 && g ≠ 0 && s2 = gf8Mul e (gf8Mul x x) ^^^ gf8Mul g (gf8Mul y y)
    && s3 = gf8Mul e (gf8Mul x (gf8Mul x x)) ^^^ gf8Mul g (gf8Mul y (gf8Mul y y))
  if ok then some (w20At j e ^^^ w20At k g) else none

/-- The errors of two symbols that have given syndromes. -/
def w20Two (s0 s1 s2 s3 : Nat) : Option (BitVec 160) :=
  (List.range 20).findSome? fun j => (List.range j).findSome? fun k => w20Pair s0 s1 s2 s3 k j

/-- The errors that a received word's decoding assumes: none where no two symbols explain it (R570). -/
def w20Errors (c : BitVec 160) : Option (BitVec 160) :=
  let s0 := w20Syndrome c 0
  let s1 := w20Syndrome c 1
  let s2 := w20Syndrome c 2
  let s3 := w20Syndrome c 3
  if s0 = 0 && s1 = 0 && s2 = 0 && s3 = 0 then some 0
  else match w20One s0 s1 s2 s3 with
    | some e => some e
    | none => w20Two s0 s1 s2 s3

/-- What W20 makes of a stored word in which some bits are wrong: clean, corrected or uncorrectable. It depends on the wrong bits alone, since
the code is linear. -/
def w20Check (wrong : BitVec 160) : WordCheck :=
  if wrong = 0 then .clean
  else match w20Errors wrong with
    | none => .uncorrectable
    | some e => if e = 0 then .clean else .corrected

/-- The data bits that are wrong still after decoding: those of another codeword, for the rare patterns that decode as one (R570). -/
def w20Left (wrong : BitVec 160) : BitVec 128 := (wrong ^^^ (w20Errors wrong).getD wrong).extractLsb' 32 128

/-! ### DDR5 lines (R571) -/

/-- The bits of device d in beat b of a line's 16 beats of 40 bits, the first beat in the highest bits. -/
def beatBits (l : BitVec 640) (b d : Nat) : Nat := bitsOf l.toNat (640 - 40 * b - 4 * d - 1) (640 - 40 * b - 4 * d - 4)

/-- Symbol k of codeword j of a line: the bits of device k / 2 in two of the codeword's four beats, the first two for an even symbol and the last two
for an odd one (R571). -/
def lineSymbol (l : BitVec 640) (j k : Nat) : Nat :=
  let b := 4 * j + 2 * (k % 2)
  beatBits l b (k / 2) * 16 + beatBits l (b + 1) (k / 2)

/-- Codeword j of a line. -/
def lineWord (l : BitVec 640) (j : Nat) : BitVec 160 := (List.range 20).foldl (fun a k => a ||| w20At k (lineSymbol l j k)) 0

/-- How many of the four codewords of a line W20 finds so. -/
def lineCount (x : WordCheck) (wrong : BitVec 640) : Nat := ((List.range 4).filter fun j => w20Check (lineWord wrong j) = x).length

/-- The data bits of a line that are wrong still after decoding: those of each codeword, the first codeword's symbols being the line's first 16 bytes
(R570, R571). [log 243 DEDUCED] -/
def lineLeft (wrong : BitVec 640) : BitVec 512 :=
  (List.range 4).foldl (fun a j => a <<< 128 ||| (w20Left (lineWord wrong j)).setWidth 512) 0

end Sys2Proof.Machine
end

