-- ==== Sys2Proof/Machine/Store.lean ====
section
/-! DEFINITION. Control stores and patterns: the image format, the loader, the start-up load, and errors of control-store words (R282 to
R320). -/
namespace Sys2Proof.Machine

/-! ### Microwords (R286) -/

/-- Bits [hi:lo] of a microword. -/
def uf (w : BitVec 128) (hi lo : Nat) : Nat := bitsOf w.toNat hi lo

/-- The word that a pattern load puts into the patch region: SEQ STOP, all else 0 (R299). -/
def stopWord : BitVec 128 := 3#128 <<< 14

/-- Whether a word ends a commit phase: SEQ END or UNIT 1. -/
def microEnds (w : BitVec 128) : Bool := uf w 15 14 = 2 || uf w 46 46 = 1

/-- The words that a word names as its successors. [log 158 DEDUCED] -/
def microTargets (w : BitVec 128) : List Nat := if uf w 15 14 = 1 then [uf w 13 0, uf w 29 16] else [uf w 13 0]

/-- The words from k on that a commit phase begun at a reaches: no COMMIT after a, no WAIT, every target ahead and within a + 63, and no path into
SEQ STOP (R292). -/
def commitScan (f : Nat → BitVec 128) (a : Nat) : Nat → Nat → List Nat → Bool
  | 0, _, _ => true
  | n + 1, k, reach =>
    if !reach.contains k then commitScan f a n (k + 1) reach
    else
      let w := f k
      let ts := if microEnds w then [] else microTargets w
      uf w 42 37 = 0 && (k = a || uf w 45 45 = 0) && (microEnds w || uf w 15 14 ≠ 3)
        && ts.all (fun t => decide (k < t) && decide (t ≤ a + 63))
        && commitScan f a n (k + 1) (ts ++ reach)

/-- Whether store contents pass R292. [log 158 DEDUCED] -/
def Contents.commitsOk (x : Contents) : Bool :=
  x.words.all fun (e : Nat × BitVec 128) => uf e.2 45 45 = 0 || commitScan x.words.get e.1 64 e.1 [e.1]

/-! ### Images (R295 to R300) -/

/-- The big-endian number in n bytes of an image from offset k. -/
def imgNum (l : List Byte) (k n : Nat) : Nat := numBE ((l.drop k).take n)

/-- The length that an image's header gives it. -/
def imgLength (l : List Byte) : Nat := 32 + 8 * imgNum l 18 2 + 16 * imgNum l 20 4 + 96

/-- The words of the records from an offset on, by address; none where a record breaks R296. -/
def imgRecords (l : List Byte) : Nat → Nat → Option (List (Nat × BitVec 128))
  | 0, _ => some []
  | n + 1, k =>
    let a := imgNum l k 2
    let c := imgNum l (k + 2) 2
    if 16384 ≤ a || c = 0 || 16384 < c || imgNum l (k + 4) 4 ≠ 0 || 16384 < a + c || l.length < k + 8 + 16 * c then none
    else
      (imgRecords l n (k + 8 + 16 * c)).map fun rest =>
        ((List.range c).map fun i => (a + i, BitVec.ofNat 128 (imgNum l (k + 8 + 16 * i) 16))) ++ rest

/-- Whether every reserved control bit of a word is 0 (R286, R298). -/
def microReserved (w : BitVec 128) : Bool := uf w 47 47 = 0 && uf w 127 100 = 0

/-- The words of a well-formed image (R295, R296, R298). -/
def imgWords (l : List Byte) : Option (List (Nat × BitVec 128)) :=
  let kind := imgNum l 6 1
  let version := imgNum l 8 4
  if l.length < 128 || 1048576 < l.length || l.length ≠ imgLength l then none
  else if imgNum l 0 4 ≠ 0x4B585054 || imgNum l 4 2 ≠ 1 || (kind ≠ 1 && kind ≠ 2) || version = 0 then none
  else if imgNum l 24 8 ≠ 0 || imgNum l 18 2 = 0 || 1024 < imgNum l 18 2 then none
  else if kind = 1 && (imgNum l 12 4 ≠ 0 || imgNum l 16 2 ≠ 0) then none
  else if kind = 2 && imgNum l 16 2 = 0 then none
  else match imgRecords l (imgNum l 18 2) 32 with
    | none => none
    | some ws =>
      let addrs := ws.map (·.1)
      if ws.length ≠ imgNum l 20 4 || !(ws.all fun e => microReserved e.2) then none
      else if addrs.eraseDups.length ≠ addrs.length then none
      else if kind = 1 && !(ws.length = 0x3800 && addrs.all (· < 0x3800)) then none
      else if kind = 2 && 2048 < ws.length then none
      else some ws

/-- GLB_KEY_OPTION[1:0] (R31). -/
def keyOption : Nat := if Config.customerKey then 2 else 1

/-- Whether an image's signature r, s, each 48 bytes, is of its other bytes under the fused verification key (R297). [log 14 PRESUMED] -/
def imgSigned (l : List Byte) : Bool :=
  let n := l.length - 96
  ecdsaVerify Config.verifyKey (l.take n) (imgNum l n 48) (imgNum l (n + 48) 48)

/-- Store contents with words written. -/
def Contents.write (x : Contents) (ws : List (Nat × BitVec 128)) : Contents :=
  { x with words := ws.foldl (fun m (e : Nat × BitVec 128) => m.set e.1 e.2) x.words }

/-- The contents that an image would produce from those loaded (R299, R300). -/
def Contents.load (x : Contents) (l : List Byte) (ws : List (Nat × BitVec 128)) : Contents :=
  if imgNum l 6 1 = 1 then
    ({ version := some (imgNum l 8 4) } : Contents).write (ws ++ (List.range 0x800).map fun i => (0x3800 + i, stopWord))
  else ({ x with patches := x.patches ++ [(imgNum l 16 2, imgNum l 8 4)] } : Contents).write ws

/-- The checks of one image against the contents loaded, from FORMAT on, in the order of R302: the RESULT, and for OK the new contents. -/
def checkImage (x : Contents) (l : List Byte) : Nat × Contents :=
  match imgWords l with
  | none => (4, x)
  | some ws =>
    let patch := imgNum l 6 1 = 2
    let new := x.load l ws
    if imgNum l 7 1 ≠ keyOption then (5, x)
    else if !imgSigned l then (6, x)
    else if patch && x.version ≠ some (imgNum l 12 4) then (7, x)
    else if patch && (x.patches.map (·.1)).contains (imgNum l 16 2) then (8, x)
    else if patch && 64 ≤ x.patches.length then (9, x)
    else if !new.commitsOk then (10, x)
    else (0, new)

/-! ### Flash slots (R309, R705) -/

/-- A byte of the flash: an erased one reads 0xFF. [log 8 DESIGN CHOICE] -/
def Chip.flashByte (s : Chip) (a : Nat) : Byte := s.isl.flash.look (fun _ => 0xFF#8) a

/-- Bytes written to the flash. -/
def Chip.flashWrite (s : Chip) (a : Nat) : List Byte → Chip
  | [] => s
  | b :: bs => ({ s with isl := { s.isl with flash := s.isl.flash.put (fun _ => 0xFF#8) a b } } : Chip).flashWrite (a + 1) bs

/-- A range of the flash erased. -/
def Chip.flashErase (s : Chip) (lo n : Nat) : Chip :=
  { s with isl := { s.isl with flash := s.isl.flash.filter fun (e : Nat × Byte) => e.1 < lo || lo + n ≤ e.1 } }

/-- Where a slot begins: A or B. -/
def slotBase (b : Bool) : Nat := if b then 0x200000 else 0

/-- n bytes of the flash. -/
def Chip.flashRead (s : Chip) (a n : Nat) : List Byte := (List.range n).map fun i => s.flashByte (a + i)

/-- The image at an offset of a slot, as long as its header says and as the slot reaches. -/
def Chip.slotImage (s : Chip) (b : Bool) (off : Nat) : List Byte :=
  let n := imgLength (s.flashRead (slotBase b + off) 32)
  s.flashRead (slotBase b + off) (min n (0x200000 - off))

/-- The images of a slot, in order: an erased MAGIC or the slot's end ends it (R705). -/
def Chip.slotImages (s : Chip) (b : Bool) : Nat → Nat → List (List Byte)
  | 0, _ => []
  | n + 1, off =>
    if 0x200000 ≤ off + 128 || imgNum (s.flashRead (slotBase b + off) 4) 0 4 = 0xFFFFFFFF then []
    else
      let l := s.slotImage b off
      l :: s.slotImages b n (off + (l.length + 7) / 8 * 8)

/-- The images of a slot: at most 2 MiB of at least 136 bytes each. -/
def Chip.slotList (s : Chip) (b : Bool) : List (List Byte) := s.slotImages b 15421 0

/-- Patches checked and loaded in order, up to the first one refused: its RESULT, and the contents so far (R309). [log 160 DEDUCED] -/
def loadPatches (x : Contents) : List (List Byte) → Nat × Contents
  | [] => (0, x)
  | l :: ls =>
    let r := if imgNum l 6 1 = 2 then checkImage x l else (4, x)
    if r.1 ≠ 0 then (r.1, x) else loadPatches r.2 ls

/-- A slot checked: whether its pattern loads, the RESULT, and the contents. -/
def Chip.checkSlot (s : Chip) (b : Bool) : Bool × Nat × Contents :=
  match s.slotList b with
  | [] => (false, 3, {})
  | l :: ls =>
    let r := if imgNum l 6 1 = 1 then checkImage {} l else (4, {})
    if r.1 ≠ 0 then (false, r.1, {}) else (true, loadPatches r.2 ls)

/-- FLASH_CHECK of a slot: every image of it passes R295 to R298, and the first is a pattern (R706). -/
def Chip.slotPasses (s : Chip) (b : Bool) : Bool :=
  match s.slotList b with
  | [] => false
  | l :: ls =>
    imgNum l 6 1 = 1 && ls.all (fun p => imgNum p 6 1 = 2)
      && (l :: ls).all fun p => (imgWords p).isSome && imgNum p 7 1 = keyOption && imgSigned p

/-! ### The loader (R302 to R309) -/

/-- A crucible's control store. -/
def Chip.store (s : Chip) (c : Nat) : ControlStore := s.patterns.stores.get c

def Chip.setStore (s : Chip) (c : Nat) (x : ControlStore) : Chip :=
  { s with patterns := { s.patterns with stores := s.patterns.stores.set c x } }

def Chip.setLoader (s : Chip) (f : Loader → Loader) : Chip :=
  { s with patterns := { s.patterns with loader := f s.patterns.loader } }

/-- A load starts, or is refused while one is under way (R308). -/
def Chip.loadStart (s : Chip) (sideBand : Bool) (ep source : Nat) : Chip :=
  if s.patterns.loader.busy then s.raise (Reg.CRU_UC_EVENT 0) 5
  else s.setLoader fun l => { busy := true, phase := 1, source := source, sideBand := sideBand, ep := ep, result := l.result, slotB := l.slotB }

/-- LOAD_GO: a write of GO with SOURCE; its reserved code leaves SOURCE as it was (R25, R308, R320). [log 157 DESIGN CHOICE] -/
def loadGo (e : Ep) (source : Fin 4) (s : Chip) : Chip :=
  let s1 := if source = 3 then s else s.setField Reg.CRU_LOAD_CTRL 2 1 source
  s1.loadStart false e (s1.get Reg.CRU_LOAD_CTRL 2 1)

/-- The load ends: BUSY clears, RESULT is reported, LOAD_DONE or LOAD_REFUSED sets, and the island logs it (R302, R307, R320, R707). [log 165 DESIGN CHOICE] -/
def Chip.loadEnd (s : Chip) (result : Nat) : Chip :=
  let l := s.patterns.loader
  let s1 := s.setLoader fun x => { x with busy := false, phase := 0, result := result }
  (s1.raise (Reg.CRU_UC_EVENT 0) (if result = 0 then 4 else 5)).islLog 4 0 [BitVec.ofNat 8 (ofBool l.sideBand), BitVec.ofNat 8 result]

/-- What a load's checks find: the RESULT, whether anything is to be applied, its contents and the words it writes (none: all). [log 160 DEDUCED] -/
def Chip.loadChecks (s : Chip) (img : Option (List Byte)) : Nat × Bool × Contents × Option (List Nat) :=
  let l := s.patterns.loader
  let cur := (s.store 32).contents
  match img with
  | none => (1, false, {}, none)
  | some bytes =>
    if l.source = 0 then
      let n := s.get Reg.CRU_LOAD_LEN 20 0
      let body := bytes.take n
      if !(s.hif.eps.get l.ep).bme then (1, false, {}, none)
      else if n = 0 || 1048576 < n then (2, false, {}, none)
      else
        let r := checkImage cur body
        (r.1, r.1 = 0, r.2, if imgNum body 6 1 = 1 then none else (imgWords body).map fun ws => ws.map (·.1))
    else
      let r := s.checkSlot (l.source = 2)
      (r.2.1, r.1, r.2.2, none)

/-! ### The reserve (R303, R315, R316) -/

/-- The DDR5 offset of a word's copy in a bank of the reserve: two banks of two copies of 16,384 words of 16 bytes, in the MiB from offset 0 (R303,
R737). [log 246 DESIGN CHOICE] -/
def reserveAt (bank copy word : Nat) : Nat := bank * 0x80000 + copy * 0x40000 + 16 * word

/-- Store contents written to both copies of a bank. -/
def Chip.reserveWrite (s : Chip) (bank : Nat) (x : Contents) : Chip :=
  (List.range 2).foldl (fun u copy =>
    (List.range 16384).foldl (fun v a => v.ddrWrite (reserveAt bank copy a) (bytesBE 16 (x.words.get a).toNat)) u) s

/-- Whether a copy of a word in the reserve can be read: a channel serves its line, which is not poisoned (R303, R572). [log 246 DESIGN CHOICE] -/
def Chip.copyReads (s : Chip) (bank copy word : Nat) : Bool := !s.poisoned (reserveAt bank copy word) 16

/-- A word of the reserve, from its first copy that can be read; none where every copy is lost (R315, R316). -/
def Chip.reserveWord (s : Chip) (bank word : Nat) : Option (BitVec 128) :=
  ((List.range 2).find? fun copy => s.copyReads bank copy word).map fun copy => BitVec.ofNat 128 (numBE (s.ddrRead (reserveAt bank copy word) 16))

/-- The bank that holds the contents a crucible runs: during a load those that have applied it run the new one (R303, R315). -/
def Chip.bankOf (s : Chip) (c : Nat) : Nat :=
  if s.patterns.loader.phase = 3 && c < s.patterns.loader.done then 1 - s.patterns.bank else s.patterns.bank

/-- LOAD_CHECKED: the image as fetched from host memory, or none where the fetch or the flash read failed. Every check comes before any store
is written; a passing load writes the reserve bank not in use (R302, R303). -/
def loadChecked (img : Option (List Byte)) (s : Chip) : Chip :=
  if !s.patterns.loader.busy || s.patterns.loader.phase ≠ 1 then s
  else
    let (r, ok, new, written) := s.loadChecks img
    if !ok then s.loadEnd r
    else
      let s1 := s.setLoader fun l => { l with phase := 3, new := new, written := written, status := r, done := 0, since := s.frc }
      s1.reserveWrite (1 - s.patterns.bank) new

/-- Whether a crucible's application point has come: a frame that began after the last crucible was done, on a tree whose present frame it owns, or
at once where it owns no tree with running timing (R304). [log 161 DEDUCED] -/
def Chip.holdDue (s : Chip) (c : Nat) : Bool :=
  let l := s.patterns.loader
  let running := fun (t : Tree) => match (s.pon.pond.get t).timing with | .running _ => true | _ => false
  let own := (List.finRange 32).filter fun t => running t && s.owner t (s.pon.pond.get t).fc = c
  own.isEmpty || own.any fun t => match (s.pon.pond.get t).timing with
    | .running next => decide (l.since + frameTicks < next)
    | _ => false

/-- The threads of a crucible whose long instruction is held in its prepare phase are READY at it again (R294, R305). -/
def Chip.abandonAll (s : Chip) (c : Nat) : Chip :=
  (List.range 256).foldl (fun u t => match (u.thread c t).wait with
    | .routine r => if r.commit then u else u.abandon c t
    | _ => u) s

/-- The ticks in which a hold of n written words can last: from the frame boundary at which it begins, 320 engine cycles and one for each word (R304,
R306). [log 247 DESIGN CHOICE] -/
def Chip.holdSpan (s : Chip) (c n : Nat) : Nat × Nat :=
  let start := match (List.finRange 32).find? fun (t : Tree) => s.timingRuns t && s.owner t (s.pon.pond.get t).fc = c with
    | some t => (s.pon.pond.get t).t0
    | none => s.frc
  (start, start + ceilDiv (320 + n) 2)

/-- CRUCIBLE_HOLD: the next crucible in order abandons the routines in their prepare phases and takes the load's words and its list of patches; the last
one ends the load (R304 to R307). -/
def crucibleHold (c : Cru) (s : Chip) : Chip :=
  let l := s.patterns.loader
  if l.phase ≠ 3 || l.done ≠ c.val || !s.holdDue c then s
  else
    let old := s.store c
    let kept := fun (a : Nat) => match l.written with | none => false | some ws => !ws.contains a
    let span := s.holdSpan c (match l.written with | none => 16384 | some ws => ws.length)
    let s0 := (s.abandonAll c).updGateCru c fun g => { g with hold := some span }
    let s1 := (s0.setStore c { contents := l.new, wrong := old.wrong.filter fun e => kept e.1, broken := old.broken.filter kept }).setLoader fun x =>
      { x with done := x.done + 1, since := s.frc }
    if c.val ≠ 32 then s1
    else ({ s1 with patterns := { s1.patterns with bank := 1 - s1.patterns.bank } } : Chip).loadEnd l.status

/-- BOOT_LOAD: slot A, or slot B where A's pattern is refused or unreadable, into every crucible (R309). [log 162 DESIGN CHOICE, 208 DESIGN CHOICE] -/
def bootLoad (readA readB : Bool) (s : Chip) : Chip :=
  let a := if readA then s.checkSlot false else (false, 1, {})
  let b := if readB then s.checkSlot true else (false, 1, {})
  let slotB := !a.1
  let (ok, r, new) := if slotB then b else a
  let s1 := s.setLoader fun _ => { source := if slotB then 2 else 1, boot := true, slotB := slotB, new := new, done := if ok then 33 else 0 }
  if !ok then s1.loadEnd r
  else
    let s2 := (List.range 33).foldl (fun u c => u.setStore c { contents := new }) s1
    ((({ s2 with patterns := { s2.patterns with bank := 0 } } : Chip).reserveWrite 0 new).loadEnd r).startStage 3

/-! ### Errors of words (R313 to R318) -/

/-- CRU_UC_ERR_ADDR and its counter and event. [log 163 DESIGN CHOICE] -/
def Chip.ucUncorr (s : Chip) (c word engine : Nat) (scrub : Bool) : Chip :=
  ((s.setReg (Reg.CRU_UC_ERR_ADDR c) (w64 (word + engine <<< 16 + ofBool scrub <<< 21))).bump (Reg.CRU_UC_UNCORR c)).raise
    (Reg.CRU_UC_EVENT c) 1

/-- A flask stopped by a control-store word: both halves report an error, its threads are held, and it waits to be retired (R314, R317, R539).
[log 164 DESIGN CHOICE] -/
def Chip.ucStop (s : Chip) (c e : Nat) : Chip :=
  match s.flaskOf c e with
  | none => s
  | some f =>
    let s1 := s.updFlask c f fun x => { x with held := true, cope := x.cope.worse s.frc, drag := x.drag.worse s.frc }
    (s1.raise Reg.GATE_EVENT 0).faultFlask 3 c f

/-- Bits that turn wrong in words of a control store. -/
def Chip.csStrike (s : Chip) (c : Nat) (l : CsFetch) : Chip :=
  let st := s.store c
  if l.isEmpty then s else s.setStore c { st with wrong := l.foldl (fun m u => m.set u.word (m.get u.word ^^^ u.wrong)) st.wrong }

/-- A word of a control store written back as W20 decodes it; `left` are the bits in which that differs from the word as it was written. -/
def Chip.rewriteWord (s : Chip) (c a : Nat) (left : BitVec 128) : Chip :=
  let st := s.store c
  s.setStore c { st with contents := { st.contents with words := st.contents.words.set a (st.contents.words.get a ^^^ left) }
                         wrong := st.wrong.set a 0 }

/-- The fetch of a control-store word by an engine: the word, or none where it does not act. A word that waits for its repair is not fetched; one that W20
corrects is rewritten and counted; one that W20 cannot correct, and one with SEQ STOP, stop the flask (R313, R314, R317). [log 164 DESIGN CHOICE] -/
def Chip.csFetch (s : Chip) (c e a : Nat) : Option (BitVec 128) × Chip :=
  let st := s.store c
  let wrong := st.wrong.get a
  if st.broken.contains a then (none, s)
  else if w20Check wrong = .uncorrectable then
    (none, ((s.setStore c { st with broken := a :: st.broken }).ucUncorr c a e false).ucStop c e)
  else
    let s1 := if wrong = 0 then s else s.rewriteWord c a (w20Left wrong)
    let s2 := if w20Check wrong = .corrected then (s1.bump (Reg.CRU_UC_CORR c)).raise (Reg.CRU_UC_EVENT c) 0 else s1
    let w := (s2.store c).contents.words.get a
    if uf w 15 14 = 3 || st.contents.version.isNone then (none, (s2.raise (Reg.CRU_UC_EVENT c) 3).ucStop c e)
    else (some w, s2)

/-- A word's repair from the reserve; where no copy of it can be read the crucible sets REPAIR_FAIL and is retired (R315, R316). -/
def Chip.repairWord (s : Chip) (c word : Nat) (reserveBad : Bool) : Chip :=
  let st := s.store c
  match (if reserveBad then none else s.reserveWord (s.bankOf c) word) with
  | none => (s.raise (Reg.CRU_UC_EVENT c) 2).crucibleGone c true
  | some w =>
    s.setStore c { st with contents := { st.contents with words := st.contents.words.set word w }, wrong := st.wrong.set word 0
                           broken := st.broken.erase word }

/-- CS_REPAIR. [log 163 DESIGN CHOICE] -/
def csRepair (c : Cru) (word : Fin 16384) (reserveBad : Bool) (s : Chip) : Chip :=
  if (s.store c).broken.contains word.val then s.repairWord c word reserveBad else s

/-- CS_SCRUB: the scrubber finds a word that it cannot correct (R318). -/
def csScrub (c : Cru) (word : Fin 16384) (reserveBad : Bool) (s : Chip) : Chip :=
  (s.ucUncorr c word 31 true).repairWord c word reserveBad

/-! ### The registers of the loader and the stores (R320) -/

/-- CRU_PATTERN_VERSION. -/
def Chip.patternVersion (s : Chip) (c : Nat) : W64 :=
  match (s.store c).contents.version with | none => 0 | some v => w64 (v + 4294967296)

/-- CRU_PATCH_LIST, with INDEX as written. -/
def Chip.patchList (s : Chip) (c : Nat) : W64 :=
  let i := s.get (Reg.CRU_PATCH_LIST c) 5 0
  let l := (s.store c).contents.patches
  let e := l.getD i (0, 0)
  w64 (i + l.length <<< 8 + e.1 <<< 16 + e.2 <<< 32)

/-- CRU_LOAD_STATUS. -/
def Chip.loadStatus (s : Chip) : W64 :=
  let l := s.patterns.loader
  w64 (ofBool l.busy + l.phase <<< 1 + ofBool l.sideBand <<< 3 + l.result <<< 4 + l.done <<< 12 + ofBool l.boot <<< 18 + ofBool l.slotB <<< 19)

end Sys2Proof.Machine
end

