-- ==== Sys2Proof/Machine/CruBus.lean ====
section
/-! DEFINITION. What the host does to a crucible: its memories, threads and queues (R246, R276 to R281, R310, R749). -/
namespace Sys2Proof.Machine

/-! ### Memories (R225, R279, R749) -/

/-- A byte of instruction RAM. -/
def Chip.iramByte (s : Chip) (c off : Nat) : Byte := s.cru.iram.get (c * 262144 + off % 262144)

/-- Consecutive bytes put into instruction RAM. -/
def Chip.putIram (s : Chip) (c off : Nat) : List Byte → Chip
  | [] => s
  | b :: bs => ({ s with cru := { s.cru with iram := s.cru.iram.set (c * 262144 + off % 262144) b } } : Chip).putIram c (off + 1) bs

/-- Consecutive bytes written to instruction RAM; a word that could not be corrected is sound again once it is written whole. -/
def Chip.writeIram (s : Chip) (c off : Nat) (l : List Byte) : Chip :=
  let s1 := s.putIram c off l
  { s1 with mem := { s1.mem with badIram := uncovered (c * 262144 + off % 262144) l.length s1.mem.badIram } }

/-- The offset that CRU_MEM_ADDR names, its low bits ignored. -/
def Chip.memOffset (s : Chip) (c : Nat) : Nat := s.get (Reg.CRU_MEM_ADDR c) 21 0 / 8 * 8

/-- n bytes at an offset of the space that CRU_MEM_ADDR selects; those beyond the space read 0. -/
def Chip.memBytes (s : Chip) (c off n : Nat) : List Byte :=
  match s.get (Reg.CRU_MEM_ADDR c) 23 22 with
  | 0 => s.readStore c off n
  | 1 => if iramSize ≤ off then List.replicate n 0 else (List.range n).map fun i => s.iramByte c (off + i)
  | 2 => if 32768 ≤ off then List.replicate n 0 else (List.range n).map fun i => s.localByte c (s.get (Reg.CRU_MEM_ADDR c) 28 24) (off + i)
  | _ => List.replicate n 0

/-- Bytes written at an offset of that space; writes beyond it are ignored. [log 60 DESIGN CHOICE] -/
def Chip.setMemBytes (s : Chip) (c off : Nat) (l : List Byte) : Chip :=
  match s.get (Reg.CRU_MEM_ADDR c) 23 22 with
  | 0 => s.storeBytes c off l
  | 1 => if iramSize ≤ off then s else s.writeIram c off l
  | 2 => if 32768 ≤ off then s else s.putLocal c (s.get (Reg.CRU_MEM_ADDR c) 28 24) off l
  | _ => s

/-- OFFSET moves on by 8 after a 64-bit access or one to the high half, with AUTOINC set (R749). [log 26 DESIGN CHOICE] -/
def Chip.memAdvance (s : Chip) (c : Nat) (lanes : Lanes) : Chip :=
  if s.flag (Reg.CRU_MEM_ADDR c) 63 && lanes ≠ .low then
    s.setField (Reg.CRU_MEM_ADDR c) 21 0 ((s.get (Reg.CRU_MEM_ADDR c) 21 0 + 8) % 4194304)
  else s

/-- CRU_MEM_DATA as it reads. -/
def Chip.memWord (s : Chip) (c : Nat) : W64 := w64 (numBE (s.memBytes c (s.memOffset c) 8))

/-- CRU_MEM_DATA_READ: bits [31:0] are the last four of the 8 bytes at the address (R13, R749). -/
def cruMemDataRead (c : Cru) (lanes : Lanes) (s : Chip) : Chip :=
  let v := s.memWord c
  let shown := match lanes with
    | .full => v
    | .low => w64 (fld v 31 0)
    | .high => w64 (fld v 63 32)
  (s.answer shown).memAdvance c lanes

/-- CRU_MEM_DATA_WRITE: a 32-bit write carries its half in bits [31:0] of `v` (R749). -/
def cruMemDataWrite (c : Cru) (lanes : Lanes) (v : W64) (s : Chip) : Chip :=
  let off := s.memOffset c
  let s1 := match lanes with
    | .full => s.setMemBytes c off (wordBytes v)
    | .low => s.setMemBytes c (off + 4) (bytesBE 4 (fld v 31 0))
    | .high => s.setMemBytes c off (bytesBE 4 (fld v 31 0))
  s1.memAdvance c lanes

/-! ### Threads (R246, R278, R310) -/

/-- Whether a crucible has a pattern, so that its threads may start (R310). -/
def Chip.hasPattern (s : Chip) (c : Nat) : Bool := (s.store c).contents.version.isSome

/-- THREAD_START: START to a thread that is not IDLE, or while no pattern is loaded, sets START_ERR (R278, R310). -/
def threadStart (c : Cru) (t : Fin 256) (s : Chip) : Chip :=
  if (s.thread c t).state ≠ stIdle || !s.hasPattern c then s.raise (Reg.CRU_EVENT c) 1
  else s.startThread c t (fld (s.reg (Cell.threadCtrl c t)) 47 32) 0 0

/-- THREAD_STOP: the request waits for the next boundary at which an interrupt could be taken (R246). [log 58 DEDUCED] -/
def threadStop (c : Cru) (t : Fin 256) (s : Chip) : Chip :=
  if (s.thread c t).state = stReady || (s.thread c t).state = stWaiting then s.updThread c t fun x => { x with stopReq := true } else s

/-- THREAD_RESUME: a STOPPED thread goes on at its IP (R278). [log 58 DEDUCED] -/
def threadResume (c : Cru) (t : Fin 256) (s : Chip) : Chip :=
  if (s.thread c t).state = stStopped then s.updThread c t fun x => { x with state := stReady, readyFrom := s.frc } else s

/-- THREAD_RESET (R278). -/
def threadReset (c : Cru) (t : Fin 256) (s : Chip) : Chip := s.resetThread c t

/-- A write to CRU_THREAD_CTRL: its fields, then RESET, STOP, RESUME and START in that order (R278). -/
def Chip.threadCtrlWrite (s : Chip) (c : Cru) (t : Fin 256) (bits : W64) : Chip :=
  let s1 := if bit bits 3 then threadReset c t s else s
  let s2 := if bit bits 1 then threadStop c t s1 else s1
  let s3 := if bit bits 2 then threadResume c t s2 else s2
  if bit bits 0 then threadStart c t s3 else s3

/-- CRU_THREAD_STATUS of a thread. -/
def Chip.threadStatus (s : Chip) (c t : Nat) : W64 :=
  let x := s.thread c t
  w64 (x.state + ofBool x.super <<< 3 + x.held.length <<< 4 + ofBool x.pending.isSome <<< 7 + (x.ip / 4) <<< 32)

/-! ### Queues (R276, R277) -/

/-- The queues of a crucible that a table of configurations lists. -/
def listedQueues (m : Map W64) (c : Nat) : List Nat :=
  (m.filter fun (e : Nat × W64) => decide (Cell.queueCfg c 0 ≤ e.1) && decide (e.1 < Cell.queueCfg c 1024)).map fun e => e.1 - Cell.queueCfg c 0

/-- Whether a queue's staged configuration may be applied (R277). -/
def Chip.queueStageOk (s : Chip) (c q : Nat) : Bool :=
  let new := s.reg (Cell.queueCfg c q)
  let old := s.queueCfg c q
  let x := s.msgs.queues.get (c * 1024 + q)
  (!bit new 30 || (decide (slotOffset new (slotCount new) ≤ 4194304) && decide (2 ≤ fld new 22 19) && decide (fld new 22 19 ≤ 14)))
  && (fld new 22 0 = fld old 22 0 || (!bit old 30 && x.busy.isEmpty))

/-- Whether a crucible's staged queues may be applied (R277). -/
def Chip.queuesStagedOk (s : Chip) (c : Nat) : Bool :=
  (listedQueues s.regs c ++ listedQueues s.active c).all fun q => s.queueStageOk c q

/-- CRU_QUEUE_GO (R277). -/
def cruQueueGo (c : Cru) (s : Chip) : Chip := s.go (Reg.CRU_COMMIT c) (s.queuesStagedOk c)

/-- CRU_QUEUE_APPLY (R276). -/
def cruQueueApply (c : Cru) (s : Chip) : Chip :=
  if s.goPending (Reg.CRU_COMMIT c) then
    (s.applyRange (Cell.queueCfg c 0) (Cell.queueCfg c 1024)).goDone (Reg.CRU_COMMIT c)
  else s

/-- CRU_QUEUE_STATUS of a queue. -/
def Chip.queueStatus (s : Chip) (c q : Nat) : W64 :=
  let x := s.msgs.queues.get (c * 1024 + q)
  w64 (x.busy.length + x.held.length <<< 15)

/-- TRIG_LOG_READ (R20, R269). -/
def trigLogRead (c : Cru) (e : Ep) (lanes : Lanes) (s : Chip) : Chip :=
  s.rcRead e (Reg.CRU_TRIG_LOG c) lanes (s.cru.trigLog.get c) fun u =>
    { u with cru := { u.cru with trigLog := u.cru.trigLog.upd c fun l => l.drop 1 } }

/-- STAT_HALF_FIFO_READ (R20, R208). -/
def statHalfFifoRead (t : Tree) (e : Ep) (lanes : Lanes) (s : Chip) : Chip :=
  s.rcRead e (Reg.POND_STAT_HALF_FIFO t) lanes (s.pon.pond.get t).halfFifo fun u =>
    { u with pon := { u.pon with pond := u.pon.pond.upd t fun p => { p with halfFifo := p.halfFifo.drop 1 } } }

/-! ### Counters (R272) -/

/-- The event codes that count cycles (R275). -/
def cycleCodes : List Nat := [0x01, 0x03, 0x12, 0x13, 0x1A, 0x1E, 0x24, 0x2D, 0x2E, 0x2F]

/-- An engine's counter: CYC is the count of engine cycles (R60, R272). -/
def Chip.ctrValue (s : Chip) (c e k : Nat) : W64 :=
  if k = 0 then w64 s.cru.cycles else w64 (fld (s.reg (Cell.ctrData c e k)) 47 0)

/-- Whether a counter counts cycles. -/
def Chip.countsCycles (s : Chip) (c e k : Nat) : Bool := k = 0 || cycleCodes.contains (fld (s.reg (Cell.ctrCfg c e k)) 7 0)

/-- A counter set (R272, R281): writes to CYC are ignored. -/
def Chip.ctrSet (s : Chip) (c e k : Nat) (v : W64) : Chip := if k = 0 ∨ 6 < k then s else s.setReg (Cell.ctrData c e k) (w64 (fld v 47 0))

end Sys2Proof.Machine
end

