-- ==== Sys2Proof/Machine/EthGate.lean ====
section
/-! DEFINITION. What an uplink subport may start: enables, pauses, gate control lists and preemption (R655, R660, R662 to R666). Subport
k is 4 × port + subport. -/
namespace Sys2Proof.Machine

/-- A subport, and one changed. -/
def Chip.sub (s : Chip) (k : Nat) : Subport := s.subs.get k
def Chip.updSub (s : Chip) (k : Nat) (f : Subport → Subport) : Chip := { s with subs := s.subs.upd k f }

/-- The applied settings of a subport (ETH_SUB_CFG). -/
def Chip.subCfg (s : Chip) (k : Nat) : W64 := s.act (Reg.ETH_SUB_CFG (k / 4) (k % 4))

/-- MAX_LEN of a subport. -/
def Chip.maxLen (s : Chip) (k : Nat) : Nat := fld (s.subCfg k) 13 0

/-- MAX_LEN for a frame whose first byte arrived at a tick: that before an application later than it (R678). -/
def Chip.rxMaxLen (s : Chip) (k tick : Nat) : Nat := if tick < (s.sub k).appliedAt then (s.sub k).maxBefore else s.maxLen k

/-- Whether a subport is enabled (R655, R680). -/
def Chip.subOn (s : Chip) (k : Nat) : Bool := bit (s.act (Reg.ETH_PORT_CFG (k / 4))) (4 + k % 4)

/-- Bytes that a subport of the mode sends in 2 ns (R655). -/
def modeRate (mode : Nat) : Nat := if mode = 0 then 100 else if mode = 1 then 50 else 25

def Chip.subRate (s : Chip) (k : Nat) : Nat := modeRate (fld (s.act (Reg.ETH_PORT_CFG (k / 4))) 1 0)

/-! ### Gate control lists (R662, R663) -/

/-- The entry in force at a place in the cycle and where in the cycle it ends: the last one holds until the cycle ends, and one that
would run past the end is cut (R662). Times are in ns. -/
def entryAt (cycle pos : Nat) : List W64 → Nat → Nat → Nat × Nat
  | [], i, _ => (i, cycle)
  | [_], i, _ => (i, cycle)
  | e :: es, i, start =>
    let last := start + fld e 31 8
    if pos < last then (i, min last cycle) else entryAt cycle pos es (i + 1) last

/-- The place in its cycle of a list at a logical time in ns. -/
def GateList.place (g : GateList) (ns : Int) : Nat := ((ns - g.base) % (g.cycle : Int)).toNat

/-- The entry of a list in force at a logical time in ns. [log 192 DEDUCED] -/
def GateList.entryNow (g : GateList) (ns : Int) : Nat := (entryAt g.cycle (g.place ns) g.entries 0 0).1

/-- The ns from a place in the cycle until a class's gate closes, `gone` having passed; none where it stays open. -/
def closesFrom (g : GateList) (cls : Nat) : Nat → Nat → Nat → Option Nat
  | 0, _, _ => none
  | n + 1, pos, gone =>
    let (i, last) := entryAt g.cycle pos g.entries 0 0
    if !bit (nth g.entries i) cls then some gone
    else closesFrom g cls n (if last = g.cycle then 0 else last) (gone + (last - pos))

/-- The ns from a logical time until the list closes a class's gate. -/
def GateList.closesIn (g : GateList) (cls : Nat) (ns : Int) : Option Nat :=
  closesFrom g cls (2 * g.entries.length + 2) (g.place ns) 0

/-- The gate list staged for a subport. -/
def Chip.stagedGates (s : Chip) (k : Nat) : GateList :=
  let p := k / 4
  let c := s.reg (Reg.ETH_GCL_CYCLE p (k % 4))
  { on := true, base := (s.reg (Reg.ETH_GCL_BASE p (k % 4))).toNat, cycle := fld c 29 0
    entries := (List.range (fld c 40 32)).map fun i => s.reg (Cell.gcl k i) }

/-- Logical time in whole ns. -/
def Chip.nowNs (s : Chip) : Int := s.logical / 65536

/-- Whether a subport's gates follow a list: GATE_EN is 1 and a list is in force (R662). -/
def Chip.gated (s : Chip) (k : Nat) : Bool := bit (s.subCfg k) 41 && (s.sub k).gates.on

/-- The ns from now until a class's gate closes, through the change of list that waits (R662, R663). [log 192 DEDUCED] -/
def Chip.closesIn (s : Chip) (k cls : Nat) : Option Nat :=
  let x := s.sub k
  let ns := s.nowNs
  let now := if s.gated k then x.gates.closesIn cls ns else none
  match x.change with
  | none => now
  | some at_ =>
    let left := ((at_ : Int) - ns).toNat
    match now with
    | some d => if d ≤ left then some d else ((s.stagedGates k).closesIn cls at_).map (left + ·)
    | none => ((s.stagedGates k).closesIn cls at_).map (left + ·)

/-- Whether a class's gate is open: the entry in force opens it, or no list rules (R662). -/
def Chip.gateOpen (s : Chip) (k cls : Nat) : Bool :=
  !s.gated k || bit (nth (s.sub k).gates.entries (s.sub k).entry) cls

/-- The bytes that may still leave before a class's gate closes; none where it stays open. -/
def Chip.roomBefore (s : Chip) (k cls : Nat) : Option Nat := (s.closesIn k cls).map fun d => d * s.subRate k / 2

/-! ### Pauses (R660) -/

/-- The ticks that a number of quanta of 512 bit times lasts at a subport's rate. -/
def Chip.quantaTicks (s : Chip) (k q : Nat) : Nat := ceilDiv (q * 128 * 622080) (s.subRate k * 1000000)

/-- Whether a class is paused. -/
def Chip.pausedClass (s : Chip) (k cls : Nat) : Bool :=
  match (s.sub k).paused.get cls with
  | some t => decide (s.frc < t)
  | none => false

/-! ### Preemption (R664 to R666) -/

/-- Whether preemption is active on a subport: PREEMPT_EN is 1 and the verification has succeeded or is not asked for (R665). [log 191 DEDUCED] -/
def Chip.preemptOn (s : Chip) (k : Nat) : Bool :=
  bit (s.subCfg k) 30 && ((s.sub k).verify = 3 || bit (s.subCfg k) 31)

/-- The octets that begin mPackets: an express frame, a verify and a respond mPacket, and a start and a continuation of frame number n; and the
octet of a fragment count (R665; those of IEEE 802.3br, PRESUMED). [log 258 PRESUMED] -/
def smdExpress : Byte := 0xD5
def smdVerify : Byte := 0x07
def smdRespond : Byte := 0x19
def smdStart (n : Nat) : Byte := nth [0xE6, 0x4C, 0x7F, 0xB3] (n % 4)
def smdNext (n : Nat) : Byte := nth [0x61, 0x52, 0x9E, 0x2A] (n % 4)
def fragCount (n : Nat) : Byte := nth [0xE6, 0x4C, 0x7F, 0xB3] (n % 4)

/-- The mCRC of a fragment that ends a frame's octets so far: their FCS with its last two octets inverted (R666; IEEE 802.3br's, PRESUMED). [log 258 PRESUMED] -/
def mCrc (l : List Byte) : List Byte :=
  let c := ethFcs l false
  c.take 2 ++ (c.drop 2).map (~~~ ·)

/-- Whether a class of a subport may be cut into fragments. -/
def Chip.cuttable (s : Chip) (k cls : Nat) : Bool := s.preemptOn k && bit (s.subCfg k) (22 + cls)

/-- Whether n bytes with 8 of preamble fit in a room. -/
def fitsRoom (room : Option Nat) (n : Nat) : Bool :=
  match room with
  | none => true
  | some r => decide (8 + n ≤ r)

/-- The bytes of a frame's first fragment: the most that are a multiple of 8, at least 64 × (1 + ADD_FRAG) − 4, leave 64 of the frame's len,
and end with their mCRC in the room that a gate leaves; none where no number meets that (R664, R666). [log 193 DEDUCED] -/
def Chip.fragmentLen (s : Chip) (k len : Nat) (room : Option Nat) : Option Nat :=
  let least := 64 * (1 + fld (s.subCfg k) 33 32) - 4
  let most := match room with
    | none => len - 64
    | some r => min (len - 64) (r - 12)
  let d := most / 8 * 8
  if 64 ≤ len && least ≤ d && (room.all fun r => 12 ≤ r) then some d else none

/-- The length of a frame on the wire, from DA to FCS (R659). -/
def wireLen (len : Nat) : Nat := max 60 len + 4

/-- Whether a subport may start a frame of a class and length now (R664). While a preempted frame waits, only the express MAC sends. -/
def Chip.ethAllows (s : Chip) (k cls len : Nat) : Bool :=
  let room := s.roomBefore k cls
  s.subOn k && (s.sub k).link && s.gateOpen k cls && !s.pausedClass k cls
  && !((s.sub k).preempted.isSome && bit (s.subCfg k) (22 + cls))
  && (fitsRoom room (wireLen len) || (s.cuttable k cls && (s.fragmentLen k (wireLen len) room).isSome))

end Sys2Proof.Machine
end

