-- ==== Sys2Proof/Machine/Stats.lean ====
section
/-! DEFINITION. The per-context counters of a tree (R207 to R211): on-die accumulators and their DDR5 totals. -/
namespace Sys2Proof.Machine

/-- The key of a counter: 0 FRAMES, 1 BYTES, 2 DISCARDS of a context and direction (0 downstream, 1 upstream). -/
def statKey (t ctx dir k : Nat) : Nat := ((t * 32768 + ctx) * 2 + dir) * 4 + k

/-- Where DDR5 holds a counter's total: 8 bytes, big-endian, in the 64 MiB that start-up reserves (R208, R737). [log 241 DESIGN CHOICE] -/
def statAddr (key : Nat) : Nat := 0x4000000 + 8 * key

/-- The total that DDR5 holds of a counter. -/
def Chip.statTotal (s : Chip) (key : Nat) : Nat := numBE (s.ddrRead (statAddr key) 8)

/-- A per-context counter's value: what DDR5 holds and what the accumulator adds, modulo 2^48 (R208, R670). -/
def Chip.stat (s : Chip) (key : Nat) : Nat := countAdd (s.statTotal key) (s.pon.statAccs.get key)

/-- An accumulator set. -/
def Chip.setStatAcc (s : Chip) (key n : Nat) : Chip := { s with pon := { s.pon with statAccs := s.pon.statAccs.set key n } }

/-- A counter set to a value: in DDR5, or, where that does not serve, in its accumulator. -/
def Chip.setStat (s : Chip) (key v : Nat) : Chip :=
  if s.ddrHas (statAddr key) 8 then (s.ddrWrite (statAddr key) (bytesBE 8 v)).setStatAcc key 0
  else s.setStatAcc key ((v + 281474976710656 - s.statTotal key % 281474976710656) % 281474976710656)

/-- STAT_FOLD of one counter: the accumulator is added to DDR5's total, modulo 2^48 (R208, R670). -/
def Chip.foldOne (s : Chip) (key : Nat) : Chip := s.setStat key (s.stat key)

/-- An entry for the half-range FIFO of a tree, or one lost when it holds 64 (R211). -/
def Chip.statHalf (s : Chip) (t : Nat) (ctx dir k : Nat) : Chip :=
  let p := s.pon.pond.get t
  if 64 ≤ p.halfFifo.length then s.bump (Reg.POND_STAT_HALF_LOST t)
  else
    let e := w64 (ctx + dir <<< 15 + k <<< 16 + 1 <<< 63)
    ({ s with pon := { s.pon with pond := s.pon.pond.set t { p with halfFifo := p.halfFifo ++ [e] } } }).raise
      (Reg.POND_EVENT t) 8

/-- A per-context counter incremented, in its on-die accumulator of 32 bits, which is folded into DDR5 before it can overflow; a crossing of
half range is entered in the FIFO (R207, R208, R211). [log 241 DESIGN CHOICE] -/
def Chip.statAdd (s : Chip) (t ctx dir k n : Nat) : Chip :=
  let key := statKey t ctx dir k
  let crossed := crossesHalf (s.stat key) n
  let s1 := if s.pon.statAccs.get key + n < 4294967296 then s else s.foldOne key
  let s2 := s1.setStatAcc key (s1.pon.statAccs.get key + n)
  if crossed then s2.statHalf t ctx dir k else s2

/-- STAT_FOLD: the three accumulators of a context and direction go to DDR5 (R208). -/
def statFold (t : Tree) (ctx : Fin 32768) (dir : Fin 2) (s : Chip) : Chip :=
  ((s.foldOne (statKey t ctx dir 0)).foldOne (statKey t ctx dir 1)).foldOne (statKey t ctx dir 2)

/-- STAT_SEL_WRITE: the selector is stored and BUSY sets (R209). A write while BUSY reads 1 starts no second copy. [log 28 DESIGN CHOICE] -/
def statSelWrite (t : Tree) (v : W64) (s : Chip) : Chip :=
  if s.flag (Reg.POND_STAT_SEL t) 63 then s
  else s.setReg (Reg.POND_STAT_SEL t) (w64 (fld v 15 0 + 1 <<< 63))

/-- The register that shows counter k of the selected context. -/
def statReg (t : Tree) (k : Nat) : Nat :=
  match k with
  | 0 => Reg.POND_STAT_FRAMES t
  | 1 => Reg.POND_STAT_BYTES t
  | _ => Reg.POND_STAT_DISCARDS t

/-- The counter that POND_STAT_SEL selects. -/
def Chip.selStat (s : Chip) (t : Tree) (k : Nat) : Nat :=
  statKey t (s.get (Reg.POND_STAT_SEL t) 14 0) (s.get (Reg.POND_STAT_SEL t) 15 15) k

/-- STAT_COPY_DONE: the selected context's three counters reach the registers and BUSY clears (R209). -/
def statCopyDone (t : Tree) (s : Chip) : Chip :=
  if !s.flag (Reg.POND_STAT_SEL t) 63 then s
  else
    let s1 := (List.range 3).foldl (fun u k => u.setReg (statReg t k) (w64 (s.stat (s.selStat t k)))) s
    s1.setFlag (Reg.POND_STAT_SEL t) 63 false

/-- A 48-bit counter's value with the half that a write reaches replaced (R673). -/
def withHalf (old : Nat) (x : LaneWrite) : Nat :=
  match x.lanes with
  | .full => fld x.value 47 0
  | .low => fld (setFld (w64 old) 31 0 (fld x.value 31 0)) 47 0
  | .high => fld (setFld (w64 old) 63 32 (fld x.value 31 0)) 47 0

/-- STAT_WRITE: while BUSY reads 0, a write sets the selected context's counter and the copy; a 32-bit write changes the half it reaches of
each (R210, R673). -/
def statWrite (t : Tree) (k : Fin 3) (x : LaneWrite) (s : Chip) : Chip :=
  if s.flag (Reg.POND_STAT_SEL t) 63 then s
  else
    let key := s.selStat t k
    (s.setReg (statReg t k) (w64 (withHalf (s.get (statReg t k) 47 0) x))).setStat key (withHalf (s.stat key) x)

end Sys2Proof.Machine
end

