-- ==== Sys2Proof/Machine/Slow.lean ====
section
/-! DEFINITION. Spreading and the slow path (R352 to R358), and what a receive ring can accept (R641). -/
namespace Sys2Proof.Machine

/-! ### Receive rings -/

/-- A ring's key: direction (0 receive, 1 transmit) × 4096 + number. -/
def ringKey (dir ring : Nat) : Nat := dir * 4096 + ring

/-- A ring's settings (HIF_RING_CFG). -/
def Chip.ringCfg (s : Chip) (dir ring : Nat) : W64 := s.reg (Cell.hifRing (ringKey dir ring) 1)

/-- The posted buffers left once n bytes have filled them in posting order (R639); none where they do not cover n. -/
def fillBuffers : List Desc → Nat → Option (List Desc)
  | ds, 0 => some ds
  | [], _ + 1 => none
  | d :: ds, n => fillBuffers ds (n - fld d.w2 15 0)

/-- Whether a receive ring accepts a delivery of n bytes: EN is 1, its endpoint may master the bus, and its posted buffers
cover the whole length beyond what it has accepted before (R631, R641). -/
def Chip.ringAccepts (s : Chip) (ring n : Nat) : Bool :=
  let r := s.rings.get (ringKey 0 ring)
  bit (s.ringCfg 0 ring) 0 && (s.hif.eps.get (fld (s.ringCfg 0 ring) 1 1)).bme &&
    (match r.inbox.foldl (fun (o : Option (List Desc)) it => o.bind (fillBuffers · it.data.length)) (some r.posted) with
     | none => false
     | some ds => (fillBuffers ds n).isSome && n ≠ 0)

/-- A delivery handed to a receive ring. -/
def Chip.ringPut (s : Chip) (ring : Nat) (it : RxItem) : Chip :=
  { s with rings := s.rings.upd (ringKey 0 ring) fun r => { r with inbox := r.inbox ++ [it] } }

/-! ### The spreading hash (R352, R353) -/

/-- The spreading hash of an input under an algorithm, with the seed and key of one epoch's copy. -/
def spreadHash (val : Nat → W64) (alg : Bool) (input : List Byte) : BitVec 32 :=
  if alg then toeplitz 72 (numBE ((List.range 9).flatMap fun k => wordBytes (val (Reg.PRS_TOEPLITZk k)))) input
  else crc32c (BitVec.ofNat 32 (fld (val Reg.PRS_HASH_SEED) 31 0)) input

/-- The indirection index: hash bits [8:0]. -/
def hashIndex (h : BitVec 32) : Nat := h.toNat % 512

/-- The hash index of a slow-path delivery that PONU raises: TREE, WL and ONU_ID under profile 0's HASH_ALG (R353). -/
def Chip.ponuHash (s : Chip) (t w onu : Nat) : Nat :=
  hashIndex (spreadHash s.act (bit (s.act (Cell.prsProfileCtrl 0)) 4)
    [BitVec.ofNat 8 t, BitVec.ofNat 8 w, BitVec.ofNat 8 (onu / 256), BitVec.ofNat 8 onu])

/-! ### Slow-path delivery (R355 to R358) -/

/-- A delivery: its class, hash index, SOURCE, the four descriptor words, the bytes that follow, and what a ring records. -/
structure SlowItem where
  cls : Nat := 0
  index : Nat := 0
  source : Nat := 0
  words : List W64 := []
  body : List Byte := []
  stamp : Nat := 0
  untrusted : Bool := false
  oversize : Bool := false
  flowTag : Nat := 0
  length : Nat := 0
  ringData : Option (List Byte) := none
  held : Option Nat := none
  deriving DecidableEq, Repr, Inhabited

/-- A slow-path item discarded: the class's PRS_SP_DROP and SP_DROP (R357). -/
def Chip.slowDrop (s : Chip) (cls : Nat) : Chip := (s.bump (Cell.prsSpDrop cls)).raise Reg.PRS_EVENT 2

/-- SLOW_PATH_DELIVER: through the class's indirection table to a queue or a host ring, or discarded; the flag says whether it
was accepted (R356, R357). [log 98 DESIGN CHOICE] -/
def Chip.slowDeliver (s : Chip) (i : SlowItem) : Bool × Chip :=
  let cfg := s.reg (Cell.prsSpCfg i.cls)
  let e := s.reg (Cell.prsInd (fld cfg 5 0) i.index)
  let msg := wordsBytes i.words ++ i.body
  if bit cfg 8 then (false, s.slowDrop i.cls)
  else if fld e 2 0 = 1 && i.oversize then (false, s.slowDrop i.cls)
  else if fld e 2 0 = 1 then
    match s.sendQueue (fld e 8 3) (fld e 18 9) i.source msg with
    | (true, s1) => (true, s1.bump (Cell.prsSpDelivered i.cls))
    | (false, s1) => (false, s1.slowDrop i.cls)
  else if fld e 2 0 = 2 then
    let data := i.ringData.getD msg
    if s.ringAccepts (fld e 14 3) data.length then
      let it : RxItem := { kind := 1, cls := i.cls, flowTag := i.flowTag, word1 := nth i.words 1, stamp := i.stamp,
                           data := data, length := i.length, untrusted := i.untrusted, oversize := i.oversize, held := i.held }
      (true, (s.ringPut (fld e 14 3) it).bump (Cell.prsSpDelivered i.cls))
    else (false, s.slowDrop i.cls)
  else (false, s.slowDrop i.cls)

end Sys2Proof.Machine
end

