-- ==== Sys2Proof/Machine/Gone.lean ====
section
/-! DEFINITION. The packet buffer's cells, held slow-path frames, and what happens when a frame leaves or is dropped
(R418, R432 to R436, R646). -/
namespace Sys2Proof.Machine

/-- The state of TM changed. -/
def Chip.updTm (s : Chip) (f : TmState → TmState) : Chip := { s with tm := f s.tm }

/-- The applied injection region of a crucible (R432). -/
def Chip.injRegion (s : Chip) (c : Nat) : W64 := s.act (Cell.tmInj c)

/-- Whether n bytes from a packet-buffer address lie in a crucible's injection region. -/
def Chip.inRegion (s : Chip) (c addr n : Nat) : Bool :=
  let r := s.injRegion c
  fld r 18 0 * 256 ≤ addr && addr + n ≤ (fld r 18 0 + fld r 34 19) * 256

/-- OUTSTANDING of a crucible's injection region: the cells not yet released; the field holds no more than 65,535 (R433, R447). [log 251 DESIGN CHOICE] -/
def Chip.outstandingCells (s : Chip) (c : Nat) : Nat := min 65535 (((s.tm.outstanding.get c).map fun x => cellsOf x.2).sum)

/-- Cells of all injection regions (R432). -/
def Chip.regionCells (s : Chip) : Nat := ((List.range 33).map fun c => fld (s.injRegion c) 34 19).sum

/-- Free shared cells: FREE of TM_BUF_STATUS. -/
def Chip.freeCells (s : Chip) : Nat := 524288 - s.regionCells - s.tm.used

/-- Cells held by slow-path frames: SLOW_USED (R434, R435). [log 99 DESIGN CHOICE] -/
def Chip.slowCells (s : Chip) : Nat := ((s.tm.held.filter fun h => !h.disposed).map fun h => cellsOf h.length).sum

/-- Whether fewer shared cells are free than EXPRESS_RESERVE. -/
def Chip.bufferLow (s : Chip) : Bool := decide (s.freeCells < fld (s.act Reg.TM_BUF_CFG) 19 0)

/-- BUF_LOW where the free shared cells of `s` have fallen below EXPRESS_RESERVE since `old` (R447). -/
def Chip.raiseLow (old s : Chip) : Chip := if s.bufferLow && !old.bufferLow then s.raise Reg.TM_EVENT 7 else s

/-- Shared cells taken. -/
def Chip.takeCells (s : Chip) (n : Nat) : Chip := Chip.raiseLow s (s.updTm fun t => { t with used := t.used + n })

/-- Shared cells given back. -/
def Chip.giveCells (s : Chip) (n : Nat) : Chip := s.updTm fun t => { t with used := t.used - n }

/-- INJ_RELEASE: the release message of a frame from an injection region; one that its queue refuses is kept (R433). SOURCE is
block 8, TM, with instance 0 (the spec gives none; see the log). -/
def Chip.release (s : Chip) (c addr len : Nat) (dropped : Bool) : Chip :=
  let r := s.injRegion c
  let w := w64 (addr % 134217728 + len <<< 32 + ofBool dropped <<< 48)
  let s1 := s.updTm fun t => { t with outstanding := t.outstanding.upd c (·.erase (addr, len)) }
  match s1.sendQueue (fld r 40 35) (fld r 50 41) (deviceSource 8 0) (wordBytes w) with
  | (true, s2) => s2
  | (false, s2) => s2.updTm fun t => { t with releases := t.releases ++ [{ crucible := fld r 40 35, queue := fld r 50 41, word := w }] }

/-- RELEASE_RETRY: the kept release messages are sent again, in order; those refused again are kept (R433). -/
def releaseRetry (s : Chip) : Chip :=
  s.tm.releases.foldl (fun u r =>
    match u.sendQueue r.crucible r.queue (deviceSource 8 0) (wordBytes r.word) with
    | (true, v) => v
    | (false, v) => v.updTm fun t => { t with releases := t.releases ++ [r] }) (s.updTm fun t => { t with releases := [] })

/-- A held slow-path frame released (R434): its shared cells go back; a frame that lies in an injection region is released to the
region's owner (R433), `dropped` saying how it ended. -/
def Chip.dropHeld (s : Chip) (addr : Nat) (dropped : Bool) : Chip :=
  match s.tm.held.find? fun h => h.addr = addr with
  | none => s
  | some h =>
    let s1 := s.updTm fun t => { t with held := t.held.filter fun x => x.addr ≠ addr }
    match h.frame.buf with
    | .region c => s1.release c h.addr h.length dropped
    | _ => s1.giveCells (cellsOf h.length)

/-- The write-back status of a timed frame of a transmit ring becomes known (R646). -/
def Chip.timedStatus (s : Chip) (f : PipeFrame) (status : Nat) : Chip :=
  match f.ring, f.tsTag with
  | some r, some tag =>
    let k := ringKey 1 r
    let ring := s.rings.get k
    match ring.open_.findIdx? fun o => o.timed && o.status.isNone && fld (o.descs.headD {}).w1 47 32 = tag with
    | none => s
    | some i => { s with rings := s.rings.set k { ring with open_ := ring.open_.set i { nth ring.open_ i with status := some status } } }
  | _, _ => s

/-- A frame leaves the part or is dropped: its cells go back, a region's owner hears of it, and a timed frame that was dropped
completes as DROPPED (R433, R434, R646). `deposited` says whether shared cells were taken for it. -/
def Chip.frameGone (s : Chip) (f : PipeFrame) (deposited dropped : Bool) : Chip :=
  let s1 := match f.buf with
    | .shared => if deposited then s.giveCells (cellsOf f.length) else s
    | .region c => s.release c f.addr f.length dropped
    | .held => s.dropHeld f.addr dropped
    | .fetched => s.giveCells (cellsOf f.length)
  if dropped then s1.timedStatus f 3 else s1

/-- A frame dropped in a pipe after it was bound: its context's DISCARDS counts, where it has one (R207), and its buffer goes
back. -/
def Chip.pipeDrop (s : Chip) (f : PipeFrame) : Chip :=
  let s1 := match f.ctx with
    | some k => s.statAdd (k / 32768) (k % 32768) 1 2 1
    | none => s
  s1.frameGone f false true

/-- Whether n cells from cell c on meet a taken stretch, as the first cell after it. -/
def stretchAfter (c n : Nat) (taken : List (Nat × Nat)) : Option Nat :=
  (taken.find? fun x => c < x.2 && x.1 < c + n).map (·.2)

/-- The first cell, from c on and once round the buffer, of n cells that meet no taken stretch; none where there is no such place. [log 96 DESIGN CHOICE] -/
def findCells (n : Nat) (taken : List (Nat × Nat)) : Nat → Nat → Option Nat
  | 0, _ => none
  | k + 1, c =>
    if 524288 < c + n then findCells n taken k 0
    else match stretchAfter c n taken with
      | none => some c
      | some c' => findCells n taken k c'

/-- A packet-buffer address for a slow-path frame: a place free of held frames and injection regions, wherever the search
begins (the spec leaves the choice open). [log 96 DESIGN CHOICE] -/
def Chip.placeFrame (s : Chip) (len : Nat) : Option Nat × Chip :=
  let (i, s1) := s.tick
  let taken := (s.tm.held.map fun h => (h.addr / 256, h.addr / 256 + cellsOf h.length))
    ++ (List.range 33).map fun c => (fld (s.injRegion c) 18 0, fld (s.injRegion c) 18 0 + fld (s.injRegion c) 34 19)
  ((findCells (cellsOf len) taken (2 * taken.length + 2) (Config.bufferCell i % 524288)).map (· * 256), s1)

/-- Bytes written to the packet buffer. -/
def Chip.bufferWrite (s : Chip) (addr : Nat) (l : List Byte) : Chip :=
  s.updTm fun t => { t with buffer := (numberedFrom addr l).foldl (fun m e => m.set e.1 e.2) t.buffer }
where
  /-- Bytes with their addresses. -/
  numberedFrom (a : Nat) : List Byte → List (Nat × Byte)
    | [] => []
    | b :: bs => (a, b) :: numberedFrom (a + 1) bs

/-- n bytes of the packet buffer. [log 8 DESIGN CHOICE] -/
def Chip.bufferRead (s : Chip) (addr n : Nat) : List Byte := (List.range n).map fun i => s.tm.buffer.get (addr + i)

/-- A slow-path frame holds its cells at an address, with its bytes there (R434). One that held cells before holds those again. -/
def Chip.holdFrame (s : Chip) (addr : Nat) (f : PipeFrame) : Chip :=
  match f.buf with
  | .held => s.updTm fun t => { t with held := t.held.map fun h => if h.addr = f.addr then { h with disposed := false } else h }
  | .fetched => (s.bufferWrite addr f.bytes).updTm fun t => { t with held := t.held ++ [{ addr := addr, length := f.length, frame := f }] }
  | .region _ => s.updTm fun t => { t with held := t.held ++ [{ addr := addr, length := f.length, frame := f }] }
  | .shared => ((s.takeCells (cellsOf f.length)).bufferWrite addr f.bytes).updTm fun t =>
      { t with held := t.held ++ [{ addr := addr, length := f.length, frame := f }] }

/-- Where a slow-path frame lies: its own address where it has one, else a place found for it; none where too few shared cells are free (R418, R432). -/
def Chip.slowAddr (s : Chip) (f : PipeFrame) : Option Nat × Chip :=
  match f.buf with
  | .shared => if s.freeCells < cellsOf f.length then (none, s) else s.placeFrame f.length
  | .fetched => s.placeFrame f.length
  | _ => (some f.addr, s)

end Sys2Proof.Machine
end

