-- ==== Sys2Proof/Machine/Tables.lean ====
section
/-! DEFINITION. Two-choice hash tables with relocation (R374 to R379, R753), and the L2 and flow entries (R380 to R382). -/
namespace Sys2Proof.Machine

/-! ### Relocation (R377, R379)

A table is seen through two functions: `other b k` is the other candidate bucket of the occupant of slot k of bucket b, or none
when the slot is free. -/

/-- The lowest free slot of a bucket. -/
def freeIn (other : Nat → Nat → Option Nat) (b : Nat) : Option Nat := (List.range 4).find? fun k => (other b k).isNone

/-- The first path of exactly n + 1 moves out of a bucket, in the ranking of R377: later moves by slot. A path lists the
(bucket, slot) of each move's occupant, and ends at the bucket with a free slot. -/
def pathFrom (other : Nat → Nat → Option Nat) : Nat → Nat → List Nat → Option (List (Nat × Nat) × Nat)
  | 0, b, seen => (List.range 4).findSome? fun k =>
      match other b k with
      | none => none
      | some d => if seen.contains d || (freeIn other d).isNone then none else some ([(b, k)], d)
  | n + 1, b, seen => (List.range 4).findSome? fun k =>
      match other b k with
      | none => none
      | some d => if seen.contains d then none
        else (pathFrom other n d (d :: seen)).map fun p => ((b, k) :: p.1, p.2)

/-- The path with the fewest moves, up to a depth, out of bucket A before bucket B (R377). -/
def bestPath (other : Nat → Nat → Option Nat) (a b depth : Nat) : Option (List (Nat × Nat) × Nat) :=
  (List.range depth).findSome? fun n =>
    match pathFrom other n a [a] with
    | some p => some p
    | none => pathFrom other n b [b]

/-- The moves of a path as (from, to) slots, last move first, so that each fills a free slot (R377). -/
def movesOf (other : Nat → Nat → Option Nat) (path : List (Nat × Nat)) (last : Nat) : List ((Nat × Nat) × (Nat × Nat)) :=
  let dests := (path.drop 1) ++ [(last, (freeIn other last).getD 0)]
  (path.zip dests).reverse

/-- Where an insert puts a new entry: the moves to make first and the slot, or none when no path frees one (R377, R379). -/
def insertPlan (other : Nat → Nat → Option Nat) (a b depth : Nat) : Option (List ((Nat × Nat) × (Nat × Nat)) × (Nat × Nat)) :=
  match freeIn other a with
  | some k => some ([], (a, k))
  | none => match freeIn other b with
    | some k => some ([], (b, k))
    | none => (bestPath other a b depth).map fun p => (movesOf other p.1 p.2, p.1.headD (a, 0))

/-- The second candidate bucket, kept apart from the first (R374). -/
def apart (a b : Nat) : Nat := if b = a then a ^^^ 1 else b

/-! ### Rule banks (R334, R753) -/

/-- The two candidate buckets of a rule key. -/
def ruleBuckets (key : Nat) : Nat × Nat :=
  let h := (crc32c 0xFFFFFFFF#32 (bytesBE 32 key)).toNat
  (h % 4096, apart (h % 4096) (h >>> 12 % 4096))

/-- The place of a rule in a bank: bank × 16384 + bucket × 4 + slot. -/
def rulePlace (bank b k : Nat) : Nat := (bank * 4096 + b) * 4 + k

/-- The place of the rule with a key in a bank (R375). -/
def Chip.findRule (s : Chip) (bank key : Nat) : Option (Nat × Nat) :=
  let (a, b) := ruleBuckets key
  ([(a, 0), (a, 1), (a, 2), (a, 3), (b, 0), (b, 1), (b, 2), (b, 3)]).find? fun p =>
    let r := s.prs.rules.get (rulePlace bank p.1 p.2)
    r.valid && r.key = key

/-- The state of PRS changed. -/
def Chip.updPrs (s : Chip) (f : PrsState → PrsState) : Chip := { s with prs := f s.prs }

/-- A rule stored at a place of a bank; an entry that is not valid is stored as an empty one. -/
def Chip.setRule (s : Chip) (bank : Nat) (p : Nat × Nat) (r : Rule) : Chip :=
  s.updPrs fun x => { x with rules := x.rules.set (rulePlace bank p.1 p.2) (if r.valid then r else {}) }

/-- A rule inserted into a bank, with relocation to a depth of 4; none when full (R753, R377, R379). -/
def Chip.insertRule (s : Chip) (bank key : Nat) (result : W64) : Option Chip :=
  let (a, b) := ruleBuckets key
  let other := fun (c k : Nat) =>
    let r := s.prs.rules.get (rulePlace bank c k)
    if !r.valid then none
    else some (if (ruleBuckets r.key).1 = c then (ruleBuckets r.key).2 else (ruleBuckets r.key).1)
  (insertPlan other a b 4).map fun (moves, slot) =>
    let s1 := moves.foldl (fun u m =>
      (u.setRule bank m.2 (u.prs.rules.get (rulePlace bank m.1.1 m.1.2))).setRule bank m.1 {}) s
    s1.setRule bank slot { key := key, result := result, valid := true }

/-! ### L2 and flow entries (R366, R374, R380, R381) -/

/-- An entry of the L2 or flow table. -/
abbrev Entry := BitVec 128

/-- Bits [hi:lo] of an entry. -/
def efld (e : Entry) (hi lo : Nat) : Nat := bitsOf e.toNat hi lo

/-- An entry with bits [hi:lo] replaced. -/
def setEfld (e : Entry) (hi lo x : Nat) : Entry :=
  let m : Nat := (2 ^ (hi + 1 - lo) - 1) <<< lo
  (e &&& ~~~(BitVec.ofNat 128 m)) ||| BitVec.ofNat 128 ((x <<< lo) &&& m)

def Entry.valid (e : Entry) : Bool := efld e 127 127 = 1
def Entry.hit (e : Entry) : Bool := efld e 125 125 = 1
def Entry.aged (e : Entry) : Bool := efld e 124 124 = 1
def Entry.static (e : Entry) : Bool := efld e 123 123 = 1
def Entry.flapping (e : Entry) : Bool := efld e 122 122 = 1
def Entry.dest (e : Entry) : Nat := efld e 31 0

/-- The key of an entry as the number of its key bytes: bridge domain and MAC address, or FLOW_TAG and FLOW_KEY (R366). -/
def entryKey (table : Nat) (e : Entry) : Nat := if table = 0 then efld e 111 50 else efld e 111 32

/-- An entry holding only a key and a DEST. -/
def entryOf (table key dest : Nat) : Entry :=
  if table = 0 then setEfld (BitVec.ofNat 128 dest) 111 50 key else setEfld (BitVec.ofNat 128 dest) 111 32 key

/-- The key bytes, most significant first: 8 for the L2 table, 10 for the flow table (R374). -/
def keyBytes (table key : Nat) : List Byte := bytesBE (if table = 0 then 8 else 10) key

/-- PARITY of an entry: the bytewise exclusive or of bits [111:0], MOVE_CNT and MOVE_T taken as 0 in an L2 entry, and 0x01 when
STATIC is 1 (R381). -/
def entryParity (table : Nat) (e : Entry) : Nat :=
  let word := if table = 0 then setEfld e 49 32 0 else e
  let x := (List.range 14).foldl (fun a i => a ^^^ efld word (8 * i + 7) (8 * i)) 0
  if e.static then x ^^^ 1 else x

/-- An entry with its parity written (R381). -/
def withParity (table : Nat) (e : Entry) : Entry := setEfld e 119 112 (entryParity table e)

/-- The applied configuration of a table: SEED, RELOC_DEPTH, EXT_EN, EXT_LOG2. -/
def Chip.tableCfg (s : Chip) (table : Nat) : W64 := s.act (Reg.FWD_TABLE_CFGn table)

/-- Buckets of a partition: 16,384 on-die, 2^EXT_LOG2 / 64 in the extension (R374, R383). -/
def Chip.bucketCount (s : Chip) (table ext : Nat) : Nat :=
  if ext = 0 then 16384 else 2 ^ (fld (s.tableCfg table) 41 37 - 6)

/-- The partition of a key: bits [3:0] of its hash from SEED, on-die and in the extension (R374, R383). -/
def Chip.partition (s : Chip) (table key : Nat) : Nat :=
  (crc32c (BitVec.ofNat 32 (fld (s.tableCfg table) 31 0)) (keyBytes table key)).toNat % 16

/-- The two candidate buckets of a key on-die, or in the extension under SEED inverted (R374, R383). -/
def Chip.buckets (s : Chip) (table ext key : Nat) : Nat × Nat :=
  let seed := BitVec.ofNat 32 (fld (s.tableCfg table) 31 0)
  let h := (crc32c (if ext = 0 then seed else ~~~seed) (keyBytes table key)).toNat
  let n := s.bucketCount table ext
  let a := (h >>> 4) % n
  (a, apart a ((h >>> 18) % n))

/-- The index of a slot: (p × buckets + b) × 4 + s (R374). -/
def Chip.entryIndex (s : Chip) (table ext part b k : Nat) : Nat := (part * s.bucketCount table ext + b) * 4 + k

/-- Where an entry is stored: the table, the extension bit and the index. -/
def entryPlace (table ext idx : Nat) : Nat := (table * 2 + ext) * 4294967296 + idx

/-- The state of FWD changed. -/
def Chip.updFwd (s : Chip) (f : FwdState → FwdState) : Chip := { s with fwd := f s.fwd }

/-- Where an extension begins in DDR5 (R383). -/
def Chip.extBase (s : Chip) (table : Nat) : Nat := fld (s.act (Reg.FWD_EXT_BASEn table)) 59 6 * 64

/-- An entry of a table: on-die, or the 16 bytes of DDR5 at its place in the extension (R383). [log 250 DESIGN CHOICE] -/
def Chip.entry (s : Chip) (table ext idx : Nat) : Entry :=
  if ext = 0 then s.fwd.entries.get (entryPlace table 0 idx)
  else BitVec.ofNat 128 (numBE (s.ddrRead (s.extBase table + 16 * idx) 16))

/-- An entry of a table written; one that is not valid is written as empty. -/
def Chip.setEntry (s : Chip) (table ext idx : Nat) (e : Entry) : Chip :=
  let v := if e.valid then e else 0
  if ext = 0 then s.updFwd fun f => { f with entries := f.entries.set (entryPlace table 0 idx) v }
  else s.ddrWrite (s.extBase table + 16 * idx) (bytesBE 16 v.toNat)

/-- The valid entries of a table, on-die or in its extension (FWD_OCCUPANCYn). -/
def Chip.occupancy (s : Chip) (table ext : Nat) : Nat :=
  if ext = 0 then (s.fwd.entries.filter fun x => x.1 / 4294967296 = table * 2).length
  else if !bit (s.tableCfg table) 36 then 0
  else (s.ddr.filter fun x =>
    s.extBase table ≤ x.1 && x.1 < s.extBase table + 16 * 2 ^ fld (s.tableCfg table) 41 37 && (x.1 - s.extBase table) % 16 = 0 && 128 ≤ x.2.toNat).length

/-- Whether an entry fails its check: `fault` that W20 cannot correct its word, a poisoned line of the extension, or a PARITY that differs (R382). -/
def Chip.entryBad (s : Chip) (table ext idx : Nat) (fault : Bool) : Bool :=
  fault || (ext ≠ 0 && s.poisoned (s.extBase table + 16 * idx) 16)
    || efld (s.entry table ext idx) 119 112 ≠ entryParity table (s.entry table ext idx)

/-- A lookup: both candidate buckets, every valid entry compared (R375). -/
def Chip.lookup (s : Chip) (table ext key : Nat) : Option Nat :=
  let part := s.partition table key
  let (a, b) := s.buckets table ext key
  ((List.range 4).map (s.entryIndex table ext part a ·) ++ (List.range 4).map (s.entryIndex table ext part b ·)).find? fun i =>
    let e := s.entry table ext i
    e.valid && entryKey table e = key

/-- A lookup on-die, then in the extension where that is asked for and enabled (R383): the extension bit and index. -/
def Chip.lookupBoth (s : Chip) (table key : Nat) (withExt : Bool) : Option (Nat × Nat) :=
  match s.lookup table 0 key with
  | some i => some (0, i)
  | none => if withExt && bit (s.tableCfg table) 36 then (s.lookup table 1 key).map (1, ·) else none

/-- The other candidate bucket of the occupant of slot k of bucket c; none where the slot is free. A free slot that a routine has reserved (R291) is no
place for another entry, and nothing moves out of it. -/
def Chip.occupant (s : Chip) (table ext part c k : Nat) : Option Nat :=
  let i := s.entryIndex table ext part c k
  let o := s.entry table ext i
  if !o.valid then (if s.fwd.reserved.contains (entryPlace table ext i) then some c else none)
  else
    let bs := s.buckets table ext (entryKey table o)
    some (if bs.1 = c then bs.2 else bs.1)

/-- The free slot that an insert would fill in the end, on-die or in the extension: its index. -/
def Chip.insertSpace (s : Chip) (table ext : Nat) (e : Entry) : Option Nat :=
  let key := entryKey table e
  let part := s.partition table key
  let (a, b) := s.buckets table ext key
  (insertPlan (s.occupant table ext part) a b (fld (s.tableCfg table) 35 32)).map fun (moves, slot) =>
    let free := match moves with | [] => slot | m :: _ => m.2
    s.entryIndex table ext part free.1 free.2

/-- An entry inserted on-die or in the extension, with relocation to RELOC_DEPTH; its index, or none when full (R377 to R379). -/
def Chip.insertIn (s : Chip) (table ext : Nat) (e : Entry) : Option (Nat × Chip) :=
  let key := entryKey table e
  let part := s.partition table key
  let (a, b) := s.buckets table ext key
  (insertPlan (s.occupant table ext part) a b (fld (s.tableCfg table) 35 32)).map fun (moves, slot) =>
    let s1 := moves.foldl (fun u m =>
      let i := u.entryIndex table ext part m.1.1 m.1.2
      (u.setEntry table ext (u.entryIndex table ext part m.2.1 m.2.2) (u.entry table ext i)).setEntry table ext i 0) s
    let i := s.entryIndex table ext part slot.1 slot.2
    (i, s1.setEntry table ext i (withParity table e))

/-- An insert on-die, and in the extension only when the on-die one fails (R383): the extension bit, index and state. -/
def Chip.insertBoth (s : Chip) (table : Nat) (e : Entry) (withExt : Bool) : Option (Nat × Nat × Chip) :=
  match s.insertIn table 0 e with
  | some (i, s1) => some (0, i, s1)
  | none =>
    if withExt && bit (s.tableCfg table) 36 then (s.insertIn table 1 e).map fun (i, s1) => (1, i, s1) else none

/-- REHASH of a key's partition (R389). -/
def Chip.rehash (s : Chip) (table key : Nat) : Chip :=
  (s.raise Reg.FWD_REHASH (table * 16 + s.partition table key)).raise Reg.FWD_EVENT 0

/-- Milliseconds of logical time modulo 16,384 (R380, MOVE_T). -/
def Chip.moveTime (s : Chip) : Nat := (s.logical / 65536000000 % 16384).toNat

/-! ### DEST (R367, R751) -/

/-- Whether a DEST is a reserved encoding (R751). -/
def reservedDest (d : Nat) : Bool :=
  let ty := bitsOf d 31 28
  if ty = 0 then bitsOf d 27 0 ≠ 0
  else if ty = 1 then bitsOf d 27 20 ≠ 0
  else if ty = 2 then bitsOf d 27 5 ≠ 0
  else if ty = 3 then bitsOf d 27 6 ≠ 0
  else if ty = 4 then bitsOf d 27 12 ≠ 0
  else if ty = 5 then bitsOf d 27 5 ≠ 0 || !(bitsOf d 4 0 = 0 || 16 ≤ bitsOf d 4 0)
  else true

/-! ### Reports (R396) -/

/-- FWD_REPORT: a report of an enabled kind to FWD_REPORT_DEST, or discarded and counted, with whether it was sent. SOURCE is block 7, FWD, with instance 0
(the spec gives none; see the log). -/
def Chip.reportTry (s : Chip) (kind table key oldDest : Nat) (e : Entry) (stamp : Nat) : Bool × Chip :=
  let d := s.act Reg.FWD_REPORT_DEST
  if !bit d (17 + kind) then (false, s)
  else
    let w0 := w64 (kind + table <<< 4 + s.partition table key <<< 5 + oldDest <<< 32)
    match s.sendDest d (deviceSource 7 0) (wordsBytes [w0, w64 (efld e 127 64), w64 (efld e 63 0), w64 stamp]) with
    | some (false, u) => (false, (u.bump Reg.FWD_REPORT_DROP).raise Reg.FWD_EVENT 4)
    | some (true, u) => (true, u)
    | none => (false, s)

/-- A report, whether or not it is sent. -/
def Chip.report (s : Chip) (kind table key oldDest : Nat) (e : Entry) (stamp : Nat) : Chip := (s.reportTry kind table key oldDest e stamp).2

/-- ENTRY_ERR: an entry that fails its check is invalidated, counted and reported (R382). -/
def Chip.entryErr (s : Chip) (table ext idx stamp : Nat) : Chip :=
  let e := s.entry table ext idx
  (((s.setEntry table ext idx 0).bump Reg.FWD_ENTRY_ERR).raise Reg.FWD_EVENT 2).report 7 table (entryKey table e) 0 e stamp

end Sys2Proof.Machine
end

