-- ==== Sys2Proof/Machine/Fwd.lean ====
section
/-! DEFINITION. Slow-path delivery of frames (R355 to R358, R434, R623) and the forwarding lookups of FWD (R362 to R385, R390). -/
namespace Sys2Proof.Machine

/-! ### The source of a frame (R321) -/

def PipeFrame.srcKind (f : PipeFrame) : Nat := f.kind
def PipeFrame.srcUnit (f : PipeFrame) : Nat := fld f.start 28 23
def PipeFrame.action (f : PipeFrame) : Nat := fld f.result 1 0
def PipeFrame.flowTag (f : PipeFrame) : Nat := fld f.result 51 28

/-- Bytes [from, from + n) of a frame as a number; a byte beyond its end is open. [log 104 DESIGN CHOICE] -/
def PipeFrame.bytesAt (f : PipeFrame) (from_ n : Nat) : Nat :=
  numBE ((List.range n).map fun i => f.bytes.getD (from_ + i) (Config.missingByte (from_ + i)))

/-- Where the L2 header begins: the recorded L2 layer offset, else START_OFFSET (R325). -/
def PipeFrame.l2At (f : PipeFrame) : Nat := ((f.layers.find? fun x => x.1 = 1).map (·.2)).getD f.offset

def PipeFrame.dstMac (f : PipeFrame) : Nat := f.bytesAt f.l2At 6
def PipeFrame.srcMac (f : PipeFrame) : Nat := f.bytesAt (f.l2At + 6) 6

/-! ### Slow path (R355 to R358, R434, R435, R623) -/

/-- The descriptor of a slow-path frame at an address (R358). -/
def slowWords (f : PipeFrame) (cls addr : Nat) : List W64 :=
  [w64 (cls + ofBool f.malformed <<< 5 + ofBool f.depth <<< 6 + ofBool f.fragment <<< 7 + f.passes <<< 8 + ofBool f.hit <<< 10
      + ofBool f.bad <<< 11 + f.action <<< 12 + f.lastNode <<< 14 + f.epoch <<< 22),
   f.start, w64 (addr + f.length <<< 32), w64 (f.stamp % 2 ^ 48)]

/-- Bytes of the frame that follow the descriptor: none, 64, 128 or 256 (PRS_SP_CFG.SNAP). -/
def snapBytes (cfg : W64) : Nat := if fld cfg 7 6 = 0 then 0 else 32 <<< fld cfg 7 6

/-- Whether a received hierarchy message is for this node's peer entry, and its plaintext: VERSION 1, and the tag checked under
RX_SLOT of the source node's entry (R623, R624). The flag says whether the slot's use was counted. -/
def Chip.hierOpen (s : Chip) (msg : List Byte) : Option (List Byte) × Chip :=
  let b := natsOf msg
  let path := s.reg (Cell.glkPeer (nth b 2 % 32) 1)
  let rx := fld path 37 22
  let n := nth b 4 * 256 + nth b 5
  let x := s.slot rx
  if b.length < 32 + n || nth b 0 ≠ 1 || 32 ≤ nth b 2 || !bit path 5 || !s.slotOk rx 1 then (none, s)
  else match s.slotUse rx 1 (gcmBlocks n) with
    | (false, s1) => (none, s1)
    | (true, s1) =>
      let iv := fld x.label 31 0 <<< 64 + numNats ((b.drop 8).take 8)
      match gcmOpen x.keyBytes iv (b.take 16) ((b.drop 16).take n) ((b.drop (16 + n)).take 16) with
      | some pt => (some (bytesOf pt), s1)
      | none => (none, s1.chargeFail rx x.loads)

/-- Where a hierarchy frame's message begins: after the EtherType, past one 802.1Q tag. [log 102 DESIGN CHOICE] -/
def hierOffset (f : PipeFrame) : Nat := if f.bytesAt (f.l2At + 12) 2 = 0x8100 then f.l2At + 18 else f.l2At + 14

/-- HIER_RECEIVE: what GLK makes of the oldest hierarchy frame that has come to it: the plaintext to GLK_HIER_DEST, counted in the class's PRS_SP_DELIVERED, or discarded in
its PRS_SP_DROP; one that fails its check counts in GLK_HIER_FAIL (R623). -/
def Chip.hierTake (s : Chip) (f : PipeFrame) (cls : Nat) : Chip :=
  match s.hierOpen (f.bytes.drop (hierOffset f)) with
  | (none, s1) => ((s1.bump Reg.GLK_HIER_FAIL).raise Reg.GLK_EVENT 11).frameGone f false true
  | (some pt, s1) =>
    match s1.sendDest (s1.act Reg.GLK_HIER_DEST) (deviceSource 12 0) pt with
    | some (true, s2) => (s2.bump (Cell.prsSpDelivered cls)).frameGone f false false
    | some (false, s2) => (s2.slowDrop cls).pipeDrop f
    | none => (s1.slowDrop cls).pipeDrop f

/-- SLOW_PATH_DELIVER of a frame in a class: to the queue or ring of its indirection entry, holding its cells, or discarded (R356,
R357, R434, R435). A class that the hierarchy uses goes to GLK when a rule's SLOW result names it (R623); an uplink frame whose FCS was wrong is discarded (R657).
[log 266 DESIGN CHOICE] -/
def Chip.slowFrame (s : Chip) (half : Nat) (f : PipeFrame) (cls : Nat) : Chip :=
  let hier := s.act Reg.GLK_HIER_CFG
  if f.bad && f.kind = 1 then s.pipeDrop f
  else if bit hier 26 && fld hier 31 27 = cls && f.action = 0 then { s with glk := { s.glk with hierIn := s.glk.hierIn ++ [(cls, f)] } }
  else if fld (s.act Reg.TM_BUF_CFG) 39 20 < s.slowCells + cellsOf f.length then (s.slowDrop cls).pipeDrop f
  else
    match s.slowAddr f with
    | (none, s1) => (s1.slowDrop cls).pipeDrop f
    | (some addr, s1) =>
    let snap := f.bytes.take (snapBytes (s.reg (Cell.prsSpCfg cls)))
    let it : SlowItem := {
      cls := cls, index := f.hash, source := deviceSource 6 (half / 2), words := slowWords f cls addr, body := snap,
      stamp := f.stamp, untrusted := f.bad, oversize := f.oversize, flowTag := f.flowTag,
      length := (if f.oversize then f.received else f.length), ringData := some f.bytes,
      held := some addr }
    match s1.slowDeliver it with
    | (true, s2) => s2.holdFrame addr { f with addr := addr }
    | (false, s2) => s2.pipeDrop f

/-! ### Service contexts (R362 to R364) -/

/-- COUNT and BASE of a port window. -/
def Chip.portBase (s : Chip) (t w : Nat) : Nat := fld (s.act (Cell.fwdPortmap (2 * t + w))) 15 0
def Chip.portCount (s : Chip) (t w : Nat) : Nat := fld (s.act (Cell.fwdPortmap (2 * t + w))) 31 16

/-- The context of an upstream port-ID (R362). -/
def Chip.portContext (s : Chip) (t w p : Nat) : Option Nat :=
  if s.portBase t w ≤ p && p < s.portBase t w + s.portCount t w then
    some (if w = 0 then p - s.portBase t 0 else s.portCount t 0 + p - s.portBase t 1)
  else none

/-- The wavelength and port-ID on which a context is sent downstream; none beyond both windows (R363). -/
def Chip.contextPort (s : Chip) (t c : Nat) : Option (Nat × Nat) :=
  if c < s.portCount t 0 then some (0, s.portBase t 0 + c)
  else if c < s.portCount t 0 + s.portCount t 1 then some (1, s.portBase t 1 + c - s.portCount t 0)
  else none

/-- A context's record. -/
def Chip.ctxRec (s : Chip) (t c : Nat) : W64 := s.reg (Cell.fwdCtx t c)

/-- Whether a context is enabled: its record has EN and it lies in a window (R363, R364). -/
def Chip.ctxEnabled (s : Chip) (t c : Nat) : Bool := bit (s.ctxRec t c) 0 && (s.contextPort t c).isSome

/-- The context an upstream port is bound to for a burst of an ONU (R364, R86). -/
def Chip.bindPort (s : Chip) (t w p onu : Nat) : Option Nat :=
  match s.portContext t w p with
  | none => none
  | some c => if bit (s.ctxRec t c) 0 && fld (s.ctxRec t c) 10 1 = onu then some c else none

/-! ### Lookups (R365 to R373) -/

/-- A frame's bridge domain (R366). -/
def Chip.bridgeOf (s : Chip) (f : PipeFrame) : Nat :=
  match f.srcKind, f.ctx with
  | 0, some k => fld (s.ctxRec (k / 32768) (k % 32768)) 24 11
  | _, _ => f.flowTag % 16384

/-- A frame's own source DEST: its context, or FWD_UPLINK_DEST of its port and subport; none for injected and host frames (R390,
R372). -/
def Chip.sourceDest (s : Chip) (f : PipeFrame) : Option Nat :=
  match f.srcKind, f.ctx with
  | 0, some k => some (0x10000000 + (k / 32768 % 32) <<< 15 + k % 32768)
  | 1, _ => some (fld (s.reg (Cell.fwdUplink (f.srcUnit % 32))) 31 0)
  | _, _ => none

/-- The bytes of a key buffer that a mask selects, in ascending order. -/
def selectBytes (mask : W64) (key : List Byte) : List Byte := ((List.range 64).filter (bit mask ·)).map fun i => key.getD i 0

/-- The flow key as a number: FLOW_TAG and the 7 bytes that FLOW_MASK selects, padded with zeros (R366). -/
def Chip.flowKey (s : Chip) (f : PipeFrame) : Nat :=
  let b := selectBytes (s.act (Cell.fwdFlowMask f.profile)) f.key
  f.flowTag <<< 56 + numBE (b ++ List.replicate (7 - b.length) 0)

/-- The L2 key of an address in a bridge domain (R366). -/
def l2Key (bd mac : Nat) : Nat := bd <<< 48 + mac

/-- A frame dropped by FWD and counted (R371, R372). -/
def Chip.fwdDrop (s : Chip) (f : PipeFrame) (ctr : Nat) (event : Option Nat) : Chip :=
  let s1 := s.bump ctr
  (match event with | some k => s1.raise Reg.FWD_EVENT k | none => s1).pipeDrop f

/-- HIT set on an entry (R399). -/
def Chip.touch (s : Chip) (table ext idx : Nat) : Chip := s.setEntry table ext idx (setEfld (s.entry table ext idx) 125 125 1)

/-- Where a frame's DEST sends it: away, to the slow path, or on to TM; an aggregation takes its member at the frame's hash index
(R367, R369, R370). The result is none where the frame has left the pipe. A frame for the slow path leaves in its port's order (R384). -/
def Chip.forwardTo (s : Chip) (f : PipeFrame) (dest : Nat) : Option PipeFrame × Chip :=
  match bitsOf dest 31 28 with
  | 0 => (none, s.pipeDrop f)
  | 3 =>
    let e := s.reg (Cell.prsInd (dest % 64) f.hash)
    if fld e 2 0 = 3 then
      (some { f with stage := .ready, dest := w64 (0x20000000 + (fld e 5 3) <<< 2 + fld e 7 6) }, s)
    else (none, s.fwdDrop f Reg.FWD_AGG_DROP none)
  | 5 => (some { f with stage := .slow (dest % 32) }, s)
  | _ => (some { f with stage := .ready, dest := w64 dest }, s)

/-- A learn event queued for its key's partition, unless one like it is queued or the queue is full (R392). -/
def Chip.learnPut (s : Chip) (key dest stamp : Nat) : Chip :=
  let p := s.partition 0 key
  let q := s.fwd.learn.get p
  if q.any fun x => x.key = key && x.dest = dest then s
  else if 256 ≤ q.length then (s.bump Reg.FWD_LEARN_DROP).raise Reg.FWD_EVENT 3
  else s.updFwd fun x => { x with learn := x.learn.set p (q ++ [{ key := key, dest := dest, stamp := stamp }]) }

/-- Learning from a frame in L2 lookup: an event, or a withheld one counted for a FLAPPING entry (R390, R391, R393). [log 103 DESIGN CHOICE] -/
def Chip.learnFrom (s : Chip) (f : PipeFrame) (bd : Nat) (src : Option Entry) (faulty : Bool) : Chip :=
  match s.sourceDest f with
  | none => s
  | some own =>
    let ctxLearn := match f.srcKind, f.ctx with
      | 0, some k => bit (s.ctxRec (k / 32768) (k % 32768)) 25
      | 0, none => false
      | _, _ => true
    let base := bit (s.act (Cell.fwdProfileCtrl f.profile)) 2 && bit (s.reg (Cell.fwdBd bd)) 32 && ctxLearn && !f.bad
      && f.srcMac >>> 40 % 2 = 0 && !faulty
    if !base then s
    else match src with
      | none => s.learnPut (l2Key bd f.srcMac) own f.stamp
      | some e =>
        if e.static || e.dest = own then s
        else if e.flapping then s.bump Reg.FWD_MOVE_IGNORED
        else s.learnPut (l2Key bd f.srcMac) own f.stamp

/-- The entry that a lookup finds, if any, looked at: one that fails its check is invalidated and a miss, and the flag says so (R382). -/
def Chip.faultAt (s : Chip) (table : Nat) (key : Nat) (ext fault : Bool) (stamp : Nat) : Bool × Chip :=
  match s.lookupBoth table key ext with
  | some (x, i) => if s.entryBad table x i fault then (true, s.entryErr table x i stamp) else (false, s)
  | none => (false, s)

/-- The entry found for a key. -/
def Chip.found (s : Chip) (table key : Nat) (ext : Bool) : Option (Nat × Nat × Entry) :=
  (s.lookupBoth table key ext).map fun (x, i) => (x, i, s.entry table x i)

/-- An L2 result that breaks service separation: a service context that is not enabled or whose BD differs (R371). [log 95 DESIGN CHOICE] -/
def Chip.breaksBd (s : Chip) (bd dest : Nat) : Bool :=
  bitsOf dest 31 28 = 1 &&
    (!s.ctxEnabled (bitsOf dest 19 15) (bitsOf dest 14 0) || fld (s.ctxRec (bitsOf dest 19 15) (bitsOf dest 14 0)) 24 11 ≠ bd)

/-- A frame from a PON tree bound for a service context in a bridge domain with HAIRPIN 0 (R371). -/
def Chip.hairpins (s : Chip) (f : PipeFrame) (bd dest : Nat) : Bool :=
  f.srcKind = 0 && bitsOf dest 31 28 = 1 && !bit (s.reg (Cell.fwdBd bd)) 33

/-- The L2 lookup of a frame, its source's included (R365, R368, R371, R372, R399). -/
def Chip.l2Lookup (s : Chip) (f : PipeFrame) (bd : Nat) (ext srcFaulty : Bool) : Option PipeFrame × Chip :=
  let src := s.found 0 (l2Key bd f.srcMac) ext
  let dst := s.found 0 (l2Key bd f.dstMac) ext
  let dest := match dst with
    | some (_, _, e) => e.dest
    | none => fld (s.reg (Cell.fwdBd bd)) 31 0
  let spoof := match src, s.sourceDest f with
    | some (_, _, e), some own => e.static && e.dest ≠ own
    | _, _ => false
  let s1 := if spoof then s else
    match src with
    | some (x, i, _) => s.touch 0 x i
    | none => s
  let s2 := s1.learnFrom f bd (src.map (·.2.2)) srcFaulty
  if s2.breaksBd bd dest || s2.hairpins f bd dest then (none, s2.fwdDrop f Reg.FWD_SEP_DROP (some 5))
  else if spoof then (none, s2.fwdDrop f Reg.FWD_SPOOF_DROP (some 6))
  else s2.forwardTo f dest

/-- The result of a flow lookup that found an entry (R371, R399). -/
def Chip.flowHit (s : Chip) (f : PipeFrame) (bd : Nat) (x i : Nat) (e : Entry) : Option PipeFrame × Chip :=
  let s1 := s.touch 1 x i
  if s1.hairpins f bd e.dest then (none, s1.fwdDrop f Reg.FWD_SEP_DROP (some 5)) else s1.forwardTo f e.dest

/-- Whether a half's extension queue of 256 frames is full (R385). -/
def Chip.extFull (s : Chip) (half : Nat) : Bool := decide (256 ≤ ((s.prs.pipes.get half).filter fun g => g.stage = .ext).length)

/-- A lookup that finds the extension queue full is a miss (R385). -/
def Chip.extShed (s : Chip) : Chip := (s.bump Reg.FWD_EXT_SHED).raise Reg.FWD_EVENT 7

/-- The L2 lookup as a stage: a source or destination missed on-die waits for the extension, or is shed; `again` says that this is the repeat there. A source
entry that fails its check, on-die or there, raises no learn event (R382, R383, R385). [log 103 DESIGN CHOICE] -/
def Chip.l2Stage (s : Chip) (half : Nat) (f : PipeFrame) (bd : Nat) (faults : LookupFaults) (again : Bool) : Option PipeFrame × Chip :=
  let q := s.faultAt 0 (l2Key bd f.srcMac) again faults.src f.stamp
  let srcFaulty := q.1 || (again && f.srcFaulty)
  let s1 := (q.2.faultAt 0 (l2Key bd f.dstMac) again faults.dst f.stamp).2
  let misses := (s1.lookup 0 0 (l2Key bd f.srcMac)).isNone || (s1.lookup 0 0 (l2Key bd f.dstMac)).isNone
  if again || !bit (s1.tableCfg 0) 36 || !misses then s1.l2Lookup f bd again srcFaulty
  else if s1.extFull half then s1.extShed.l2Lookup f bd false srcFaulty
  else (some { f with stage := .ext, extL2 := true, srcFaulty := srcFaulty }, s1)

/-- The flow lookup as a stage; a miss sends the frame to the slow path in class 0, or in MODE 2 to the L2 lookup (R365, R368, R382, R383, R385).
[log 103 DESIGN CHOICE] -/
def Chip.flowStage (s : Chip) (half : Nat) (f : PipeFrame) (bd : Nat) (faults : LookupFaults) (again : Bool) : Option PipeFrame × Chip :=
  let s1 := (s.faultAt 1 (s.flowKey f) again faults.flow f.stamp).2
  let miss := fun (u : Chip) =>
    if fld (u.act (Cell.fwdProfileCtrl f.profile)) 1 0 = 1 then (some { f with stage := .slow 0 }, u) else u.l2Stage half f bd faults false
  match s1.found 1 (s1.flowKey f) again with
  | some (x, i, e) => s1.flowHit f bd x i e
  | none =>
    if again || !bit (s1.tableCfg 1) 36 then miss s1
    else if s1.extFull half then miss s1.extShed
    else (some { f with stage := .ext, extL2 := false }, s1)

/-- FWD_LOOKUP of a FORWARD frame by its profile's MODE; `again` says that a lookup is repeated in the extension (R365, R368, R371, R382, R383). -/
def Chip.fwdFrame (s : Chip) (half : Nat) (f : PipeFrame) (faults : LookupFaults) (again : Bool) : Option PipeFrame × Chip :=
  let bd := s.bridgeOf f
  if !bit (s.reg (Cell.fwdBd bd)) 35 then (none, s.fwdDrop f Reg.FWD_SEP_DROP (some 5))
  else if fld (s.act (Cell.fwdProfileCtrl f.profile)) 1 0 = 0 || (again && f.extL2) then s.l2Stage half f bd faults again
  else s.flowStage half f bd faults again

/-- Whether an earlier frame of the same source holds back the frame at place i of a half (R350, R384). -/
def heldBack (l : List PipeFrame) (i : Nat) : Bool := (l.take i).any fun g => fld g.start 45 21 = fld (nth l i).start 45 21

/-- The frames of a half that wait for the slow path and that no earlier frame of their source holds back are delivered: at most n (R384). -/
def Chip.releaseSlow (s : Chip) (half : Nat) : Nat → Chip
  | 0 => s
  | n + 1 =>
    let l := s.prs.pipes.get half
    let isSlow := fun (f : PipeFrame) => match f.stage with | .slow c => some c | _ => none
    match (List.range l.length).find? fun i => (isSlow (nth l i)).isSome && !heldBack l i with
    | none => s
    | some i =>
      let s1 := s.updPrs fun p => { p with pipes := p.pipes.upd half (·.eraseIdx i) }
      (s1.slowFrame half (nth l i) ((isSlow (nth l i)).getD 0)).releaseSlow half n

/-! ### Commit (R401) -/

/-- Bits set in the low n bits of a number. -/
def countBits (n x : Nat) : Nat := ((List.range n).filter fun i => x >>> i % 2 = 1).length

/-- Whether a table's SEED, EXT_LOG2 or EXT_BASE changes while it holds entries (R401). -/
def Chip.seedMoves (s : Chip) (table : Nat) : Bool :=
  let a := s.reg (Reg.FWD_TABLE_CFGn table)
  let b := s.act (Reg.FWD_TABLE_CFGn table)
  (fld a 31 0 ≠ fld b 31 0 || fld a 41 37 ≠ fld b 41 37 || s.reg (Reg.FWD_EXT_BASEn table) ≠ s.act (Reg.FWD_EXT_BASEn table))
    && s.occupancy table 0 + s.occupancy table 1 ≠ 0

/-- Whether the staged values may apply, the occupancy test apart (R401, R365). -/
def Chip.fwdStagedOk (s : Chip) : Bool :=
  s.legalRange 0xC00000 0xE00000 &&
  ((List.range 2).all fun n =>
    let c := s.reg (Reg.FWD_TABLE_CFGn n)
    1 ≤ fld c 35 32 && fld c 35 32 ≤ 8 && (!bit c 36 || (16 ≤ fld c 41 37 && fld c 41 37 ≤ 24))) &&
  ((List.range 16).all fun p => fld (s.reg (Cell.fwdProfileCtrl p)) 1 0 ≠ 3 && countBits 64 (s.reg (Cell.fwdFlowMask p)).toNat ≤ 7) &&
  ((List.range 64).all fun wk =>
    let v := s.reg (Cell.fwdPortmap wk)
    fld v 15 0 + fld v 31 16 ≤ 65535 && fld v 31 16 ≤ 32768) &&
  ((List.range 32).all fun t =>
    fld (s.reg (Cell.fwdPortmap (2 * t))) 31 16 + fld (s.reg (Cell.fwdPortmap (2 * t + 1))) 31 16 ≤ 32768)

/-- Whether FWD's staged values may be applied: legal, and no seed or extension moves under a table that holds entries (R401). [log 113 DESIGN CHOICE] -/
def Chip.fwdMayApply (s : Chip) : Bool := s.fwdStagedOk && !s.seedMoves 0 && !s.seedMoves 1

/-- FWD_GO (R401). -/
def fwdGo (s : Chip) : Chip := s.go Reg.FWD_COMMIT s.fwdMayApply

/-- FWD_APPLY: the occupancy is tested again; a GO that fails it applies nothing (R401). [log 113 DESIGN CHOICE] -/
def fwdApply (s : Chip) : Chip :=
  if !s.goPending Reg.FWD_COMMIT then s
  else if s.seedMoves 0 || s.seedMoves 1 then (s.goDone Reg.FWD_COMMIT).stageErr Reg.FWD_COMMIT
  else ((s.applyRange 0xC00000 0xE00000).applyRange (cell 16 0) (cell 19 0)).goDone Reg.FWD_COMMIT

end Sys2Proof.Machine
end

