-- ==== Sys2Proof/Machine/Tm.lean ====
section
/-! DEFINITION. TM: records, shapers, policers, admission, scheduling, drains and sampling (R405 to R445). -/
namespace Sys2Proof.Machine

/-! ### Records (R405, R408, R411, R412, R414) -/

/-- Kinds of record (TM_REC_SEL). -/
def kQueue : Nat := 0
def kClass : Nat := 1
def kTerminal : Nat := 2
def kChannel : Nat := 3
def kPort : Nat := 4
def kPolicer : Nat := 5
def kMap : Nat := 6

/-- Records of each kind. -/
def kindCount (k : Nat) : Nat :=
  match k with
  | 0 => 1048576
  | 1 => 262144
  | 2 => 32768
  | 3 => 104
  | 4 => 41
  | 5 => 262144
  | 6 => 1052704
  | _ => 0

/-- The key of a record: kind × 2^24 + index. -/
def tmKey (kind i : Nat) : Nat := kind * 16777216 + i

/-- An active record. -/
def Chip.tmRec (s : Chip) (kind i : Nat) : TmRec := s.tm.recs.get (tmKey kind i)

/-- A record set. -/
def Chip.setTmRec (s : Chip) (kind i : Nat) (r : TmRec) : Chip := s.updTm fun t => { t with recs := t.recs.set (tmKey kind i) r }

/-- The queue record's fields of word 0 and 1 (R411). -/
def TmRec.parent (r : TmRec) : Nat := fld r.w0 17 0
def TmRec.qClass (r : TmRec) : Nat := fld r.w0 20 18
def TmRec.qEn (r : TmRec) : Bool := bit r.w0 21
def TmRec.qAccept (r : TmRec) : Bool := bit r.w0 22
def TmRec.qHold (r : TmRec) : Bool := bit r.w0 23
def TmRec.qExpress (r : TmRec) : Bool := bit r.w0 24
def TmRec.qOvf (r : TmRec) : Bool := bit r.w0 25

/-- The port above a channel (R405). -/
def portOf (c : Nat) : Nat := if c < 64 then c / 2 else if c < 96 then 32 + (c - 64) / 4 else 40

/-- The path of a queue: class, terminal and channel nodes (R405). -/
def Chip.pathOf (s : Chip) (q : Nat) : Nat × Nat × Nat :=
  let c := (s.tmRec kQueue q).parent
  let t := (s.tmRec kClass c).parent
  (c, t, (s.tmRec kTerminal t).parent)

/-- The record keys of a queue's shapers, from queue to port. -/
def Chip.pathKeys (s : Chip) (q : Nat) : List (Nat × Nat) :=
  let (c, t, ch) := s.pathOf q
  [(kQueue, q), (kClass, c), (kTerminal, t), (kChannel, ch), (kPort, portOf ch)]

/-- PRIO and WEIGHT of a child at a level: a queue's from word 1, a node's from word 0 (R411, R412). -/
def TmRec.prio (r : TmRec) (kind : Nat) : Nat := if kind = kQueue then fld r.w1 50 48 else fld r.w0 21 19
def TmRec.weight (r : TmRec) (kind : Nat) : Nat := if kind = kQueue then fld r.w1 60 51 else fld r.w0 31 22

/-! ### Tokens (R413, R425, R428, R429) -/

/-- One byte in token units. -/
def tokenByte : Int := 4294967296

/-- The tokens of a bucket of RATE and BURST at a tick: refilled at RATE × 125 bytes per second, counted in ticks to 2^−32 byte, up
to BURST × 64 bytes (R425). -/
def refill (rate burst : Nat) (b : Bucket) (now : Nat) : Int :=
  min (burst * 64 * 4294967296 : Nat) (b.level + ((now - b.at_) * rate * 125 * 4294967296 / 622080000 : Nat))

/-- The word that holds a record's RATE and BURST: word 2, or a policer's word 0. -/
def rateWord (kind : Nat) (r : TmRec) : W64 := if kind = kPolicer then r.w0 else r.w2

/-- The tokens of a shaper or policer now. -/
def Chip.tokens (s : Chip) (kind i : Nat) : Int :=
  let w := rateWord kind (s.tmRec kind i)
  refill (fld w 28 0) (fld w 47 29) (s.tm.buckets.get (tmKey kind i)) s.frc

/-- A bucket set to a level now. -/
def Chip.setTokens (s : Chip) (kind i : Nat) (level : Int) : Chip :=
  s.updTm fun t => { t with buckets := t.buckets.set (tmKey kind i) { level := level, at_ := s.frc } }

/-- Whether a shaper is on: RATE is not 0 (R413). -/
def Chip.shaped (s : Chip) (kind i : Nat) : Bool := fld (s.tmRec kind i).w2 28 0 ≠ 0

/-- Whether a shaper lets its node or queue be eligible (R423). -/
def Chip.shaperOpen (s : Chip) (kind i : Nat) : Bool := !s.shaped kind i || 0 < s.tokens kind i

/-- SHAPER_DEBIT of one shaper by a length in bytes (R425). -/
def Chip.debit (s : Chip) (kind i : Nat) (len : Int) : Chip :=
  if s.shaped kind i then s.setTokens kind i (s.tokens kind i - len * tokenByte) else s

/-- SHAPER_ELIGIBLE: the refill of a shaper whose tokens have risen above 0 is taken into its bucket (R425). -/
def shaperEligible (kind i : Nat) (s : Chip) : Chip :=
  if s.shaped kind i && 0 < s.tokens kind i then s.setTokens kind i (s.tokens kind i) else s

/-- A frame's accounting length under a channel: its length plus LEN_ADJ. -/
def Chip.accountLen (s : Chip) (ch len : Nat) : Int := len + signed 7 (fld (s.tmRec kChannel ch).w0 38 32)

/-! ### Queues -/

def Chip.tmQueue (s : Chip) (q : Nat) : TmQueue := s.tm.queues.get q

/-- Bytes of a queue, on-die and in DDR5. -/
def TmQueue.depth (x : TmQueue) : Nat := (x.frames.map fun f => f.f.length).sum

/-- Bytes of a queue that are on-die. -/
def TmQueue.onDie (x : TmQueue) : Nat := ((x.frames.filter fun f => !f.inDdr).map fun f => f.f.length).sum

/-- Whether frames of a queue lie in DDR5: OVF_ACTIVE. -/
def TmQueue.ovf (x : TmQueue) : Bool := x.frames.any (·.inDdr)

/-- A queue set. -/
def Chip.setTmQueue (s : Chip) (q : Nat) (x : TmQueue) : Chip := s.updTm fun t => { t with queues := t.queues.set q x }

/-- A frame dropped after step 1: the counter of its step and the queue's DROPS (R416). [log 224 DEDUCED] -/
def Chip.queueDropped (s : Chip) (q : Nat) : Chip :=
  s.setTmQueue q { s.tmQueue q with drops := countAdd (s.tmQueue q).drops 1 }

/-- A frame that TM or an egress drops: the DISCARDS of the context it was bound for (R207), and its buffer. `deposited` says whether
its shared cells were taken. [log 119 DESIGN CHOICE] -/
def Chip.tmDiscard (s : Chip) (f : PipeFrame) (deposited : Bool) : Chip :=
  let s1 := if bitsOf f.dest.toNat 31 28 = 1 then s.statAdd (fld f.dest 19 15) (fld f.dest 14 0) 0 2 1 else s
  let s2 := match f.ctx with
    | some k => s1.statAdd (k / 32768) (k % 32768) 1 2 1
    | none => s1
  s2.frameGone f deposited true

/-! ### Admission (R407 to R421, R426) -/

/-- The target index of a DEST (R407). -/
def targetOf (dest : W64) : Nat :=
  match fld dest 31 28 with
  | 1 => fld dest 19 0
  | 2 => 1048576 + fld dest 4 0
  | _ => 1048608 + fld dest 11 0

/-- Whether a channel is a target's (R409). -/
def Chip.channelFits (s : Chip) (dest : W64) (ch : Nat) : Bool :=
  match fld dest 31 28 with
  | 1 => match s.contextPort (fld dest 19 15) (fld dest 14 0) with
    | some (w, _) => ch = 2 * fld dest 19 15 + w
    | none => false
  | 2 => ch = 64 + fld dest 4 0
  | _ => 96 ≤ ch

/-- The queue of a frame and whether R409 lets it in. -/
def Chip.mapQueue (s : Chip) (f : PipeFrame) : Option Nat :=
  let e := (s.tmRec kMap (targetOf f.dest)).w0
  let q := fld e 19 0 + min (fld f.result 51 49) (fld e 22 20)
  if bit e 23 && s.channelFits f.dest (s.pathOf q).2.2 then some q else none

/-- The length that steps 4 and 6 use: an uplink frame counts as its port's MAX_LEN (R419). [log 115 DESIGN CHOICE] -/
def Chip.admitLen (s : Chip) (f : PipeFrame) : Nat :=
  if f.srcKind = 1 then fld (s.act (Reg.ETH_SUB_CFG (f.srcUnit / 4) (f.srcUnit % 4))) 13 0 else f.length

/-- Whether a queue's frames are policed: POL_EN is 1 and the policer named has EN 1 (R414). [log 114 DESIGN CHOICE] -/
def Chip.policed (s : Chip) (q : Nat) : Bool :=
  let r := s.tmRec kQueue q
  bit r.w0 26 && bit (s.tmRec kPolicer (fld r.w0 44 27)).w0 48

/-- POLICER_DECIDE: a frame passes, and is subtracted, when the policer holds its length (R426). -/
def Chip.police (s : Chip) (q len : Nat) : Bool × Chip :=
  if !s.policed q then (true, s)
  else
    let p := fld (s.tmRec kQueue q).w0 44 27
    if (len : Int) * tokenByte ≤ s.tokens kPolicer p then (true, s.setTokens kPolicer p (s.tokens kPolicer p - len * tokenByte))
    else (false, s)

/-- Bytes of the overflow region in use. -/
def Chip.ovfUsed (s : Chip) : Nat :=
  (s.tm.queues.map fun e => ((e.2.frames.filter (·.inDdr)).map fun f => f.f.length).sum).sum

/-- Whether an admitted frame of a queue goes to DDR5 (R430); a region of size 0 disables overflow. [log 114 DESIGN CHOICE] -/
def Chip.toDdr (s : Chip) (q : Nat) : Bool :=
  let r := s.tmRec kQueue q
  r.qOvf && fld (s.act Reg.TM_OVF_SIZE) 17 0 ≠ 0 &&
    (fld r.w1 47 24 * 1024 ≤ (s.tmQueue q).onDie || (s.tmQueue q).ovf)

/-- The cells that step 6 counts for a frame beyond those it holds: an injected frame's by its descriptor, though they lie in its crucible's region (R416, R419).
[log 252 DESIGN CHOICE] -/
def cellsTested (f : PipeFrame) (len : Nat) : Nat :=
  match f.buf with
  | .shared => cellsOf len
  | .region _ => cellsOf len
  | _ => 0

/-- Cells that a frame still has to take from the shared ones. -/
def cellsNeeded (f : PipeFrame) (len : Nat) : Nat := match f.buf with | .shared => cellsOf len | _ => 0

/-- The step at which R416 drops a frame, with the state after the policer's charge (R417). [log 116 DESIGN CHOICE] -/
def Chip.admitSteps (s : Chip) (f : PipeFrame) (ovfBusy : Bool) : Option (Nat × Option Nat) × Chip :=
  match s.mapQueue f with
  | none => (some (Reg.TM_DROP_MAP, none), s)
  | some q =>
    let r := s.tmRec kQueue q
    if !r.qEn || !r.qAccept then (some (Reg.TM_DROP_ACCEPT, some q), s)
    else
      let (pass, s1) := s.police q f.length
      if !pass then (some (Reg.TM_DROP_POLICER, some q), s1)
      else if fld r.w1 23 0 * 1024 < (s1.tmQueue q).depth + s1.admitLen f then (some (Reg.TM_DROP_DEPTH, some q), s1)
      else if s1.toDdr q then
        if ovfBusy || fld (s1.act Reg.TM_OVF_SIZE) 17 0 * 1048576 < s1.ovfUsed + f.length then
          (some (Reg.TM_DROP_OVF, some q), s1.raise Reg.TM_EVENT 4)
        else (none, s1)
      else
        let need := cellsTested f (s1.admitLen f)
        let floor := if r.qExpress then 0 else fld (s1.act Reg.TM_BUF_CFG) 19 0
        if s1.freeCells < need + floor then (some (Reg.TM_DROP_BUFFER, some q), s1) else (none, s1)

/-- A frame taken out of a queue or straight from admission is handed to its channel's egress in its queue's CLASS, and every shaper on its
path is debited (R410, R425). -/
def Chip.handOver (s : Chip) (q : Nat) (x : TmFrame) : Chip :=
  let ch := (s.pathOf q).2.2
  let len := s.accountLen ch x.f.length
  let s1 := (s.pathKeys q).foldl (fun u k => u.debit k.1 k.2 len) s
  s1.updTm fun t => { t with egress := t.egress.upd ch (· ++ [{ x with cls := (s.tmRec kQueue q).qClass, turn := t.turns }]), turns := t.turns + 1 }

/-- Whether an express frame may begin its egress at once (R421), a path that R423 makes ineligible excepted; a policer delays an
uplink frame only (R419, R422). [log 117 DESIGN CHOICE, 221 DEDUCED] -/
def Chip.cutsThrough (s : Chip) (q : Nat) (f : PipeFrame) : Bool :=
  let r := s.tmRec kQueue q
  let ch := (s.pathOf q).2.2
  let need := (if f.srcKind = 1 then (s.admitLen f : Int) else s.accountLen ch f.length) * tokenByte
  r.qExpress && !r.qHold && !(f.srcKind = 1 && s.policed q) && (s.tm.egress.get ch).isEmpty && (s.tmQueue q).frames.isEmpty &&
    (ch < 64 || 96 ≤ ch || s.ethAllows (ch - 64) r.qClass (s.admitLen f)) &&
    (s.pathKeys q).all fun k => (k.1 = kQueue || bit (s.tmRec k.1 k.2).w0 18) && (!s.shaped k.1 k.2 || need ≤ s.tokens k.1 k.2)

/-- A frame that a context or uplink carries on has passed its check (R479), or goes to a host ring, where it is marked; an uplink frame whose FCS
was wrong goes nowhere that it has not begun (R657). -/
def goesOn (f : PipeFrame) : Bool := !f.bad || (fld f.dest 31 28 = 4 && f.kind ≠ 1)

/-- A frame that goes to DDR5 gives back the shared cells it already holds, and takes its place like any other; one of an injection region keeps its place there
until it is sent or dropped (R430, R433). -/
def Chip.leaveCells (s : Chip) (f : PipeFrame) (ddr : Bool) : PipeFrame × Chip :=
  let inShared := fun (h : HeldFrame) => match h.frame.buf with | .region _ => false | _ => true
  match ddr, f.buf with
  | true, .fetched => ({ f with buf := .shared }, s.giveCells (cellsOf f.length))
  | true, .held => if s.tm.held.any fun h => h.addr = f.addr && inShared h then ({ f with buf := .shared }, s.dropHeld f.addr false) else (f, s)
  | _, _ => (f, s)

/-! ### The overflow region (R430) -/

/-- The stretches of the overflow region that frames in DDR5 take. -/
def Chip.ovfTaken (s : Chip) : List (Nat × Nat) :=
  s.tm.queues.flatMap fun e => (e.2.frames.filter (·.inDdr)).flatMap (·.at_)

/-- The gaps between taken stretches, in rising order, from a to b. -/
def gaps (b : Nat) : Nat → List (Nat × Nat) → List (Nat × Nat)
  | a, [] => if a < b then [(a, b - a)] else []
  | a, (x, n) :: l => (if a < x then [(a, x - a)] else []) ++ gaps b (max a (x + n)) l

/-- n bytes of a list of gaps. -/
def takeBytes : Nat → List (Nat × Nat) → List (Nat × Nat)
  | 0, _ => []
  | _, [] => []
  | n, (a, k) :: l => if n ≤ k then [(a, n)] else (a, k) :: takeBytes (n - k) l

/-- Stretches of the overflow region for a frame of n bytes: free ones, wherever the search begins (the spec leaves the choice open). [log 253 DESIGN CHOICE] -/
def Chip.ovfPlace (s : Chip) (n : Nat) : List (Nat × Nat) × Chip :=
  let (i, s1) := s.tick
  let base := fld (s.act Reg.TM_OVF_BASE) 59 6 * 64
  let size := fld (s.act Reg.TM_OVF_SIZE) 17 0 * 1048576
  let from_ := base + Config.ovfByte i % max 1 size
  let taken := s.ovfTaken.mergeSort fun a b => decide (a.1 ≤ b.1)
  let free := gaps (base + size) base taken
  let after := free.filterMap fun (a, k) => if from_ < a + k then some (max a from_, a + k - max a from_) else none
  let before := free.filterMap fun (a, k) => if a < from_ then some (a, min k (from_ - a)) else none
  (takeBytes n (after ++ before), s1)

/-- A frame's bytes written to its stretches of DDR5. -/
def Chip.ovfWrite (s : Chip) : List (Nat × Nat) → List Byte → Chip
  | [], _ => s
  | (a, n) :: l, bytes => (s.ddrWrite a (bytes.take n)).ovfWrite l (bytes.drop n)

/-- A frame's bytes as its stretches hold them. -/
def Chip.ovfRead (s : Chip) (l : List (Nat × Nat)) : List Byte := l.flatMap fun (a, n) => s.ddrRead a n

/-- A frame admitted: its cells are taken, and it cuts through, waits in its queue, or goes to DDR5 (R418, R421, R430). One whose
check failed leaves stomped where its egress has begun, and is discarded otherwise (R479). -/
def Chip.deposit (s : Chip) (q : Nat) (f : PipeFrame) : Chip :=
  let r := s.tmRec kQueue q
  let ddr := s.toDdr q
  let (f, s) := s.leaveCells f ddr
  let (place, s) := if ddr then s.ovfPlace f.bytes.length else ([], s)
  let x : TmFrame := { f := f, queue := q, express := r.qExpress, tick := s.frc, stomp := f.bad || f.oversize, inDdr := ddr, at_ := place }
  let taken := if ddr then s.ovfWrite place f.bytes else s.takeCells (cellsNeeded f f.length)
  if s.cutsThrough q f then (taken.handOver q x).bump Reg.TM_CUT_THROUGH
  else if goesOn f then taken.setTmQueue q { s.tmQueue q with frames := (s.tmQueue q).frames ++ [{ x with stomp := f.oversize }] }
  else s.tmDiscard f false

/-- TM_ADMIT: the first frame of a half that is done with its lookups and is not held back by an earlier frame of its source (R350,
R384, R416). -/
def Chip.nextReady (s : Chip) (half : Nat) : Option Nat :=
  let l := s.prs.pipes.get half
  (List.range l.length).find? fun i =>
    (nth l i).stage = .ready && !heldBack l i

/-- TM_ADMIT: the frame meets the steps of R416; the slow-path frames that it held back follow it (R384). [log 117 DESIGN CHOICE] -/
def tmAdmit (half : Nat) (ovfBusy : Bool) (s : Chip) : Chip :=
  match s.nextReady half with
  | none => s
  | some i =>
    let l := s.prs.pipes.get half
    let s1 := s.updPrs fun p => { p with pipes := p.pipes.upd half (·.eraseIdx i) }
    let r := s1.admitSteps (nth l i) ovfBusy
    let s3 := match r.1 with
      | some (ctr, q) =>
        let s2 := r.2.bump ctr
        (match q with | some k => s2.queueDropped k | none => s2).tmDiscard (nth l i) false
      | none => match r.2.mapQueue (nth l i) with
        | some q => r.2.deposit q (nth l i)
        | none => r.2
    s3.releaseSlow half l.length

/-! ### Deficits (R424) -/

/-- The element of a path at a level: 0 queue, 1 class, 2 terminal, 3 channel, 4 port. -/
def levelOf (p : Nat × Nat × Nat × Nat) (l : Nat) : Nat :=
  match l with
  | 0 => p.1
  | 1 => p.2.1
  | 2 => p.2.2.1
  | 3 => p.2.2.2
  | _ => portOf p.2.2.2

/-- Whether any frame is queued beneath a node. -/
def Chip.busyBelow (s : Chip) (kind i : Nat) : Bool :=
  s.tm.queues.any fun (q, x) =>
    let (c, t, ch) := s.pathOf q
    !x.frames.isEmpty && levelOf (q, c, t, ch) kind = i

/-- The deficits of a queue and the nodes above it that have become empty set to 0 (R424). -/
def Chip.clearDeficits (s : Chip) (q : Nat) : Chip :=
  let (c, t, ch) := s.pathOf q
  [(kQueue, q), (kClass, c), (kTerminal, t), (kChannel, ch)].foldl (fun u k =>
    if u.busyBelow k.1 k.2 then u else u.updTm fun m => { m with deficits := m.deficits.set (tmKey k.1 k.2) 0 }) s

/-! ### Overflow (R430) -/

/-- OVF_RETURN: frames of a queue come back to the packet buffer in queue order while its on-die bytes are below ONDIE_LIMIT / 2 and
cells are free, with the bytes that DDR5 holds; one whose bytes cannot be corrected is dropped (R430, R572). [log 253 DESIGN CHOICE] -/
def ovfReturn (q : Nat) (s : Chip) : Chip :=
  let x := s.tmQueue q
  let half := fld (s.tmRec kQueue q).w1 47 24 * 512
  let (frames, _, s1, _) := x.frames.foldl (fun (st : List TmFrame × Nat × Chip × Bool) f =>
    let (out, onDie, u, stop) := st
    if !f.inDdr then (out ++ [f], onDie, u, stop)
    else if stop || half ≤ onDie || u.freeCells < cellsNeeded f.f f.f.length then (out ++ [f], onDie, u, true)
    else if f.at_.any fun p => u.poisoned p.1 p.2 then (out, onDie, (u.queueDropped q).tmDiscard f.f false, false)
    else
      let back := { f with inDdr := false, at_ := [], f := { f.f with bytes := u.ovfRead f.at_ } }
      (out ++ [back], onDie + f.f.length, u.takeCells (cellsNeeded f.f f.f.length), false))
    ([], x.onDie, s, false)
  (s1.setTmQueue q { s1.tmQueue q with frames := frames }).clearDeficits q

/-! ### Choosing the next frame (R423, R424) -/

/-- What an egress asks for: express frames only, others only, or either; the space that a frame must fit (R202); the uplink subport whose
pauses and windows it must meet (R424, R664); and the queues whose head it holds already and has not placed, which keep their place
(R39, R202). -/
structure EgressAsk where
  held : List Nat := []
  express : Option Bool := none
  space : Option Nat := none
  uplink : Option Nat := none
  deriving DecidableEq, Repr, Inhabited

/-- Whether a head frame meets a request. -/
def Chip.meets (s : Chip) (a : EgressAsk) (x : TmFrame) : Bool :=
  !x.inDdr && !a.held.contains x.queue && (match a.express with | some b => x.express = b | none => true) &&
    (match a.space with | some n => decide (x.f.length ≤ n) | none => true) &&
    (match a.uplink with | some k => s.ethAllows k (s.tmRec kQueue x.queue).qClass x.f.length | none => true)

/-- The eligible queues beneath a port, with their paths (R423). -/
def Chip.eligible (s : Chip) (ask : EgressAsk) : List (Nat × Nat × Nat × Nat) :=
  s.tm.queues.filterMap fun (q, x) =>
    let r := s.tmRec kQueue q
    let (c, t, ch) := s.pathOf q
    let nodes := [(kClass, c), (kTerminal, t), (kChannel, ch), (kPort, portOf ch)]
    match x.frames.head? with
    | none => none
    | some f =>
      if r.qEn && !r.qHold && s.meets ask f && s.shaperOpen kQueue q &&
          nodes.all (fun k => bit (s.tmRec k.1 k.2).w0 18 && s.shaperOpen k.1 k.2)
      then some (q, c, t, ch) else none

/-- One turn of deficit round robin over children (key, length, quantum), starting at a place, until one is chosen (R424). [log 118 DESIGN CHOICE] -/
def drrTurn (node : Nat) (kids : List (Nat × Int × Nat)) : Nat → Nat → TmState → Nat × TmState
  | 0, i, st => (i % kids.length, st)
  | n + 1, i, st =>
    let (k, len, quantum) := nth kids (i % kids.length)
    let d := st.deficits.get k
    if len ≤ d then
      (i % kids.length, { st with deficits := st.deficits.set k ((d : Int) - len).toNat, pointers := st.pointers.set node (k % 16777216) })
    else drrTurn node kids n (i + 1) { st with deficits := st.deficits.set k (d + quantum) }

/-- The queue that a node chooses, with the deficits and pointers as the choice leaves them (R424). A level 0 node is a queue. [log 118 DESIGN CHOICE] -/
def Chip.pick (s : Chip) (elig : List (Nat × Nat × Nat × Nat)) : Nat → Nat → TmState → Option (Nat × TmState)
  | 0, q, st => some (q, st)
  | l + 1, node, st =>
    let kids := ((elig.filter fun p => levelOf p (l + 1) = node).map (levelOf · l)).eraseDups.mergeSort
    let info := kids.filterMap fun k => (s.pick elig l k st).map fun r => (k, r.1)
    let isExp := fun (x : Nat × Nat) => (s.tmRec kQueue x.2).qExpress
    let top := if info.any isExp then info.filter isExp else info
    let pr := fun (x : Nat × Nat) => (s.tmRec l x.1).prio l
    let least := (top.map pr).foldl min 7
    let win := top.filter fun x => pr x = least
    if win.isEmpty then none
    else
      let len := fun (x : Nat × Nat) => s.accountLen (s.pathOf x.2).2.2 (((s.tmQueue x.2).frames.headD {}).f.length)
      let list := win.map fun x => (tmKey l x.1, len x, (s.tmRec l x.1).weight l * 64)
      let start := (win.findIdx? fun x => st.pointers.get (tmKey (l + 1) node) ≤ x.1).getD 0
      let (i, st1) := drrTurn (tmKey (l + 1) node) list (300 * list.length) start st
      s.pick elig l (nth win i).1 st1

/-- TM chooses a frame for a channel: the queue chosen, with the frame moved to the channel's egress (R424, R425). The host's
channels compete at their port (R406, R642). -/
def Chip.tmChoose (s : Chip) (ch : Nat) (ask : EgressAsk) : Chip :=
  let all := s.eligible ask
  let pick := if 96 ≤ ch then s.pick (all.filter fun p => 96 ≤ p.2.2.2) 4 40 s.tm
    else s.pick (all.filter fun p => p.2.2.2 = ch) 3 ch s.tm
  match pick with
  | none => s
  | some (q, st) =>
    let x := (s.tmQueue q).frames.headD {}
    let s1 := { s with tm := { s.tm with deficits := st.deficits, pointers := st.pointers } }
    ((s1.setTmQueue q { s.tmQueue q with frames := (s.tmQueue q).frames.drop 1 }).handOver q x).clearDeficits q

/-! ### Staged records (R415, R443 to R445) -/

/-- REC_PUSH: the selected record and its three words join the staged list, or STAGE_ERR sets (R443). -/
def recPush (s : Chip) : Chip :=
  let sel := s.reg Reg.TM_REC_SEL
  let k := tmKey (fld sel 2 0) (fld sel 23 3)
  if s.goPending Reg.TM_COMMIT || 64 ≤ s.tm.staged.length || kindCount (fld sel 2 0) ≤ fld sel 23 3 then s.stageErr Reg.TM_COMMIT
  else
    let r : TmRec := { w0 := s.reg (Reg.TM_REC_STGk 0), w1 := s.reg (Reg.TM_REC_STGk 1), w2 := s.reg (Reg.TM_REC_STGk 2) }
    s.updTm fun t => { t with staged := (t.staged.filter fun e => e.1 ≠ k) ++ [(k, r)] }

/-- Whether RATE and BURST of a word are valid encodings (R413). -/
def rateOk (w : W64) : Bool :=
  fld w 28 0 ≤ 400000000 && fld w 47 29 ≤ 262144 && (fld w 28 0 = 0 || fld w 47 29 ≠ 0)

/-- A record without the bits that its format reserves, which read 0 and ignore writes (R24, R408, R411 to R414). [log 218 DEDUCED] -/
def TmRec.formatted (r : TmRec) (kind : Nat) : TmRec :=
  match kind with
  | 0 => { w0 := w64 (fld r.w0 44 0), w1 := w64 (fld r.w1 60 0), w2 := w64 (fld r.w2 48 0) }
  | 5 => { w0 := w64 (fld r.w0 48 0) }
  | 6 => { w0 := w64 (fld r.w0 23 0) }
  | _ => { w0 := w64 (fld r.w0 38 0), w2 := w64 (fld r.w2 48 0) }

/-- Whether a staged record holds no reserved encoding (R408, R411 to R414, R445). [log 218 DEDUCED] -/
def recOk (kind i : Nat) (r : TmRec) : Bool :=
  match kind with
  | 0 => fld r.w1 60 51 ≠ 0 && rateOk r.w2
  | 5 => rateOk r.w0 && (!bit r.w0 48 || fld r.w0 28 0 ≠ 0)
  | 6 => fld r.w0 19 0 + fld r.w0 22 20 ≤ 1048575
  | _ =>
    let shares := kind = kClass || kind = kTerminal || (kind = kChannel && 96 ≤ i)
    rateOk r.w2 &&
      (!shares || fld r.w0 31 22 ≠ 0) && (kind ≠ kPort || fld r.w0 31 19 = 0) && (kind = kChannel || fld r.w0 38 32 = 0) &&
      (match kind with
       | 1 => r.parent < 32768
       | 2 => r.parent < 104
       | _ => r.parent = 0)

/-- Whether a staged record may take effect while the queues hold what they hold (R445). -/
def Chip.recFits (s : Chip) (k : Nat) (r : TmRec) : Bool :=
  let kind := k / 16777216
  let i := k % 16777216
  let old := s.tmRec kind i
  recOk kind i r &&
    (kind ≠ kQueue || ((old.parent = r.parent && old.qExpress = r.qExpress) || (s.tmQueue i).frames.isEmpty)) &&
    (kind ≠ kQueue || (s.tm.draining.map (·.1)) ≠ some i) &&
    (!(kind = kClass || kind = kTerminal) || old.parent = r.parent || !s.busyBelow kind i)

/-- Whether the staged injection regions overlap one another, or one changes with cells out (R445). -/
def Chip.regionsOk (s : Chip) : Bool :=
  let reg := fun c => s.reg (Cell.tmInj c)
  let span := fun c => (fld (reg c) 18 0, fld (reg c) 18 0 + fld (reg c) 34 19)
  (List.range 33).all fun c =>
    fld (reg c) 40 35 ≤ 32 && (reg c = s.injRegion c || (s.tm.outstanding.get c).isEmpty) &&
      (List.range c).all fun d => (span c).2 ≤ (span d).1 || (span d).2 ≤ (span c).1 || fld (reg c) 34 19 = 0 || fld (reg d) 34 19 = 0

/-- Whether the staged sample rings suit EN (R445). -/
def Chip.samplesOk (s : Chip) : Bool :=
  !bit (s.reg Reg.TM_SAMPLE_CFG) 4 ||
    (List.range 8).all fun r => 10 ≤ s.get (Reg.TM_SRING_CTRLr r) 4 0 && s.get (Reg.TM_SRING_CTRLr r) 4 0 ≤ 24

/-- Whether TM's staged values and records may be applied (R445). -/
def Chip.tmStagedOk (s : Chip) : Bool :=
  s.legalRange 0xE00000 0x1000000 && (s.tm.staged.all fun e => s.recFits e.1 e.2) && s.regionsOk && s.samplesOk &&
    ((s.reg Reg.TM_OVF_BASE = s.act Reg.TM_OVF_BASE && s.reg Reg.TM_OVF_SIZE = s.act Reg.TM_OVF_SIZE) || s.ovfUsed = 0)

/-- TM_GO (R445). -/
def tmGo (s : Chip) : Chip := s.go Reg.TM_COMMIT s.tmStagedOk

/-- One staged record applied, with the resets of its bucket (R415, R428, R429). [log 218 DEDUCED] -/
def Chip.applyRec (s : Chip) (k : Nat) (r0 : TmRec) : Chip :=
  let kind := k / 16777216
  let i := k % 16777216
  let old := s.tmRec kind i
  let n := r0.formatted kind
  let r := if kind = kQueue && n.qExpress then { n with w0 := setBit n.w0 25 false } else n
  let a := rateWord kind old
  let b := rateWord kind r
  let moved := fld a 47 0 ≠ fld b 47 0
  let s1 := s.setTmRec kind i r
  if kind = kMap then s1
  else if kind = kPolicer then
    if moved || (!bit a 48 && bit b 48) then s1.setTokens kind i (fld b 47 29 * 64 * tokenByte) else s1
  else if moved then s1.setTokens kind i (if bit b 48 then 0 else fld b 47 29 * 64 * tokenByte) else s1

/-- TM_APPLY: the whole staged list and every other staged TM register apply at one clock, and the list empties; injection regions that grow may leave the buffer
low (R432, R444, R447). -/
def tmApply (s : Chip) : Chip :=
  if !s.goPending Reg.TM_COMMIT then s
  else
    let s1 := s.tm.staged.foldl (fun u e => u.applyRec e.1 e.2) s
    Chip.raiseLow s ((((s1.applyRange 0xE00000 0x1000000).applyRange (cell 22 0) (cell 23 0)).goDone Reg.TM_COMMIT).updTm fun t =>
      { t with staged := [] })

/-! ### Drains (R437 to R439) -/

/-- DRAIN_GO: a write to TM_DRAIN_CMD with GO; while RUNNING, or with the reserved TIMEOUT 0, it sets CMD_ERR and changes nothing else (R437, R748).
[log 225 DEDUCED] -/
def drainGo (v : W64) (s : Chip) : Chip :=
  if s.flag Reg.TM_DRAIN_CMD 37 then s.raise Reg.TM_EVENT 5
  else
    let s1 := s.setField Reg.TM_DRAIN_CMD 19 0 (fld v 19 0)
    if fld v 35 20 = 0 then s.raise Reg.TM_EVENT 5
    else
      let q := fld v 19 0
      let s2 := ((s1.setField Reg.TM_DRAIN_CMD 35 20 (fld v 35 20)).setFlag Reg.TM_DRAIN_CMD 37 true).setFlag Reg.TM_DRAIN_CMD 38 false
      (s2.setTmRec kQueue q { s.tmRec kQueue q with w0 := setBit (s.tmRec kQueue q).w0 22 false }).updTm fun t =>
        { t with draining := some (q, s.frc) }

/-- The drain ended. -/
def Chip.drainEnd (s : Chip) : Chip := (s.setFlag Reg.TM_DRAIN_CMD 37 false).updTm fun t => { t with draining := none }

/-- DRAIN_DONE: the draining queue has become empty (R437). -/
def drainDone (s : Chip) : Chip :=
  match s.tm.draining with
  | none => s
  | some (q, _) => if (s.tmQueue q).frames.isEmpty then s.drainEnd.raise Reg.TM_EVENT 0 else s

/-- DRAIN_TIMEOUT: the frames still queued are dropped (R438). -/
def drainTimeout (s : Chip) : Chip :=
  match s.tm.draining with
  | none => s
  | some (q, since) =>
    let x := s.tmQueue q
    if x.frames.isEmpty || s.frc < since + s.get Reg.TM_DRAIN_CMD 35 20 * frameTicks then s
    else
      let n := x.frames.length
      let s1 := s.setTmQueue q { frames := [], drops := countAdd x.drops n }
      let s2 := x.frames.foldl (fun u f => u.tmDiscard f.f (!f.inDdr)) s1
      ((((s2.bump Reg.TM_DRAIN_DROPS n).setFlag Reg.TM_DRAIN_CMD 38 true).drainEnd).raise Reg.TM_EVENT 1).clearDeficits q

/-! ### Sampling (R440 to R442) -/

/-- SOJOURN of a queue's head, in units of 16 ns. -/
def Chip.sojourn (s : Chip) (x : TmQueue) : Nat :=
  match x.frames.head? with
  | none => 0
  | some f => (s.frc - f.tick) * 1000000 / 622080 / 16

/-- QUEUE_SAMPLE: a sample of an enabled queue goes to its ring, or is discarded when the ring is full. -/
def queueSample (q : Nat) (s : Chip) : Chip :=
  let r := s.tmRec kQueue q
  let ring := q / 131072
  if !bit (s.act Reg.TM_SAMPLE_CFG) 4 || !r.qEn then s
  else
    let prod := s.get (Reg.TM_SRING_PRODr ring) 31 0
    let cons := s.get (Reg.TM_SRING_CONSr ring) 31 0
    let size := 2 ^ fld (s.act (Reg.TM_SRING_CTRLr ring)) 4 0
    if (prod + 4294967296 - cons) % 4294967296 = size then (s.bump Reg.TM_SAMPLE_LOST).raise Reg.TM_EVENT 2
    else
      let x := s.tmQueue q
      let w0 := w64 (q + ofBool x.ovf <<< 20 + ofBool r.qHold <<< 21 + (min x.depth 4294967295) <<< 32)
      let w1 := w64 (s.sojourn x % 4294967296 + (nsOf s.logical % 4294967296) <<< 32)
      let at_ := fld (s.act (Reg.TM_SRING_BASEr ring)) 59 6 * 64 + prod % size * 16
      (s.ddrWrite at_ (wordsBytes [w0, w1])).setReg (Reg.TM_SRING_PRODr ring) (w64 ((prod + 1) % 4294967296))

end Sys2Proof.Machine
end

