-- ==== Sys2Proof/Machine/Mem.lean ====
section
/-! DEFINITION. MEM: the scrubber, mirrored DDR5, channels, and the causes for which a part demotes itself (R570 to R587, R596). -/
namespace Sys2Proof.Machine

/-! ### Self-demotion (R596) -/

/-- Fewer than 14 cipher pairs (R459). -/
def Chip.pairsLow (s : Chip) : Bool := decide (s.ciph.units.pairs.length < 14)

/-- A DDR5 channel FAILED in independent mode, or both channels of a pair. -/
def Chip.ddrFailed (s : Chip) : Bool :=
  let bad := fun c => decide ((s.mem.chans.get c).state = 5)
  if bit (s.act Reg.MEM_CFG) 0 then (List.range 4).any fun p => bad (2 * p) && bad (2 * p + 1) else (List.range 8).any bad

/-- Every uplink port without link: no subport of any has one. -/
def Chip.linksLost (s : Chip) : Bool := (List.range 32).all fun k => !(s.subs.get k).link

/-- SELF_DEMOTE on each cause of R596 that holds now and did not before. -/
def Chip.demotions (old s : Chip) : Chip :=
  let s1 := if s.pairsLow && !old.pairsLow then s.selfDemote 1 else s
  let s2 := if s.ddrFailed && !old.ddrFailed then s1.selfDemote 2 else s1
  if s.linksLost && !old.linksLost then s2.selfDemote 3 else s2

/-! ### On-die words (R572) -/

/-- The frame at a place of a list changed, or left as it is where there is none. -/
def updAt {α : Type} [Inhabited α] (l : List α) (i : Nat) (f : α → α) : List α := if i < l.length then l.set i (f (nth l i)) else l

/-- A frame of a queue whose buffer cell is lost is dropped before egress (R572). -/
def Chip.dropQueued (s : Chip) (q i : Nat) : Chip :=
  let x := s.tmQueue q
  if i < x.frames.length && !(nth x.frames i).inDdr then
    ((s.setTmQueue q { frames := x.frames.eraseIdx i, drops := countAdd x.drops 1 }).tmDiscard (nth x.frames i).f true).clearDeficits q
  else s

/-- What an uncorrectable on-die word does, by its store (R572). [log 166 DESIGN CHOICE] -/
def Chip.sramLost (s : Chip) : SramWord → Chip
  | .control c w bad => (s.ucUncorr c w 31 true).repairWord c w bad
  | .localData c f drag => s.halfError c f drag
  | .store c w => s.updMem fun m => { m with badStore := (c.val * 262144 + w.val) :: m.badStore.erase (c.val * 262144 + w.val) }
  | .iram c w => s.updMem fun m => { m with badIram := (c.val * 16384 + w.val) :: m.badIram.erase (c.val * 16384 + w.val) }
  | .queued q i => s.dropQueued q i
  | .egress ch i => s.updTm fun t => { t with egress := t.egress.upd ch fun l => updAt l i fun (x : TmFrame) => { x with stomp := true } }
  | .piped half i => s.updPrs fun p => { p with pipes := p.pipes.upd half fun l => updAt l i fun (f : PipeFrame) => { f with bad := true } }
  | .entry table i => if s.entry table 0 i = 0 then s else s.entryErr table 0 i (stampOf s.logical)
  | .keySlot k => s.slotBad k
  | .other => s

/-- The bits that are wrong in an on-die word: those that a command names, and of a control store those that are wrong already. -/
def Chip.sramWrong (s : Chip) (wrong : BitVec 160) : SramWord → BitVec 160
  | .control c w _ => (s.store c).wrong.get w ^^^ wrong
  | _ => wrong

/-- What a corrected on-die word leaves: it is written back, and a correction in an engine's local data is an event of the engine (R275, R572). Bits that stay
wrong, where the wrong bits decode as another codeword (R570), are those of the word. [log 166 DESIGN CHOICE] -/
def Chip.sramBack (s : Chip) (left : BitVec 128) (fixed : Bool) : SramWord → Chip
  | .control c w _ => s.rewriteWord c w left
  | .localData c f _ =>
    if fixed && (s.flask c f).works then
      let e := (s.flask c f).engine
      [1, 2, 3, 4, 5, 6].foldl (fun u k =>
        let cfg := u.reg (Cell.ctrCfg c e k)
        if fld cfg 7 0 = 0x3C && fld cfg 9 8 ≠ 0 then u.ctrAdd c e k 1 else u) s
    else s
  | .store c w => if left = 0 then s else s.putStore c (16 * w) (xorBytes left (s.readStore c (16 * w) 16))
  | .iram c w => if left = 0 then s else s.putIram c (16 * w) (xorBytes left ((List.range 16).map fun i => s.iramByte c (16 * w + i)))
  | .entry table i => if left = 0 || s.entry table 0 i = 0 then s else s.setEntry table 0 i (s.entry table 0 i ^^^ left)
  | _ => s
where
  /-- Sixteen bytes with the bits of a word turned. -/
  xorBytes (left : BitVec 128) (l : List Byte) : List Byte := bytesBE 16 (numBE l ^^^ left.toNat)

/-- SRAM_SCRUB: one on-die word read, some of its bits wrong; a corrected one is written back; `last` says that the word ends a pass (R570, R572,
R587). -/
def sramScrub (w : SramWord) (wrong : BitVec 160) (last : Bool) (s : Chip) : Chip :=
  let all := s.sramWrong wrong w
  let s1 := match w20Check all with
    | .clean => s.sramBack (w20Left all) false w
    | .corrected => (s.bump Reg.MEM_SRAM_CORR).sramBack (w20Left all) true w
    | .uncorrectable => ((s.bump Reg.MEM_SRAM_UNCORR).raise Reg.MEM_EVENT 0).sramLost w
  if last then s1.setField Reg.MEM_SCRUB_STATUS 31 0 (s1.get Reg.MEM_SCRUB_STATUS 31 0 + 1) else s1

/-! ### Channels (R573 to R579) -/

def Chip.chan (s : Chip) (c : Nat) : Channel := s.mem.chans.get c

def Chip.updChan (s : Chip) (c : Nat) (f : Channel → Channel) : Chip := s.updMem fun m => { m with chans := m.chans.upd c f }

/-- A channel's partner. -/
def partner (c : Nat) : Nat := if c % 2 = 0 then c + 1 else c - 1

/-- Whether a channel is its pair's primary: the even one, unless the roles are exchanged (R574). -/
def Chip.isPrimary (s : Chip) (c : Nat) : Bool := decide (c % 2 = 1) = s.mem.swapped.get (c / 2)

/-- A channel made its pair's primary. -/
def Chip.makePrimary (s : Chip) (c : Nat) : Chip := s.updMem fun m => { m with swapped := m.swapped.set (c / 2) (decide (c % 2 = 1)) }

/-- The minute of the time domain in which an event falls. [log 171 DESIGN CHOICE] -/
def Chip.minute (s : Chip) : Nat := s.frc / 37324800000

/-- A channel becomes FAILED; its partner is primary and serves the pair alone; what no channel holds is lost (R577, R578). [log 168 DEDUCED] -/
def Chip.chanFail (s : Chip) (c : Nat) : Chip :=
  (((s.updChan c fun x => { x with state := 5, progress := 0 }).makePrimary (partner c)).raise Reg.MEM_EVENT 3).ddrForget

/-- Uncorrectable codewords of a channel counted, with the line kept in MEM_ERR_ADDR; more than 8 in one minute make it FAILED (R575, R577). [log 170 DEDUCED] -/
def Chip.chanUncorr (s : Chip) (c line n : Nat) : Chip :=
  if n = 0 then s
  else
    let s1 := ((s.bump (Reg.MEM_UNCORRc c) n).raise Reg.MEM_EVENT 0).setReg Reg.MEM_ERR_ADDR (w64 (line % 1099511627776 + c <<< 40))
    let now := (s.mem.uncorrs.get c).filter (· = s.minute) ++ List.replicate n s.minute
    let s2 := s1.updMem fun m => { m with uncorrs := m.uncorrs.set c now }
    if 8 < now.length && (s.chan c).serves then s2.chanFail c else s2

/-- A line that no copy can give enters the poison list of at most 1,024 (R572, R587). [log 170 DEDUCED] -/
def Chip.poisonLine (s : Chip) (line : Nat) : Chip :=
  if s.mem.poison.contains line || 1024 ≤ s.mem.poison.length then s
  else (s.updMem fun m => { m with poison := m.poison ++ [line] }).raise Reg.MEM_EVENT 5

/-- Mismatches of a pair within the last 60 minutes, in steps of one (R576). [log 171 DESIGN CHOICE] -/
def Chip.mismatchHour (s : Chip) (p : Nat) : Nat := ((s.mem.mismatches.get p).filter fun m => s.minute < m + 60).length

/-- Two clean copies of a line differ: the secondary is rewritten, the event is logged and counted, and beyond SUSPECT_LIMIT the secondary is
SUSPECT (R576). -/
def Chip.mismatch (s : Chip) (p line : Nat) : Chip :=
  let kept := (s.mem.mismatches.get p).filter fun m => s.minute < m + 60
  let w := w64 (line % 1099511627776 + p <<< 40 + 9223372036854775808)
  let s1 := ((s.bump Reg.MEM_MISMATCH).raise Reg.MEM_EVENT 1).updMem fun m =>
    { m with mismatches := m.mismatches.set p (kept ++ [s.minute]), log := if 64 ≤ m.log.length then m.log else m.log ++ [w] }
  let second := if s.isPrimary (2 * p) then 2 * p + 1 else 2 * p
  if fld (s.act Reg.MEM_CFG) 23 16 < s1.mismatchHour p && !(s.chan second).suspect then
    (s1.updChan second fun x => { x with suspect := true }).raise Reg.MEM_EVENT 2
  else s1

/-- One copy of a line as W20 finds it with some of its bits wrong: corrected codewords are counted and written back. -/
def Chip.checkCopy (s : Chip) (c line : Nat) (wrong : BitVec 640) : Chip :=
  let n := lineCount .corrected wrong
  (if n = 0 then s else s.bump (Reg.MEM_CORRc c) n).chanUncorr c line (lineCount .uncorrectable wrong)

/-- The data of a line with the bits turned that decoding leaves wrong, where wrong bits decode as another codeword (R570). -/
def Chip.ddrTurn (s : Chip) (line : Nat) (wrong : BitVec 640) : Chip :=
  let left := lineLeft wrong
  if left = 0 then s
  else
    let new := bytesBE 64 (numBE (s.ddrRead (line * 64) 64) ^^^ left.toNat)
    { s with ddr := (addressed (line * 64) new).foldl (fun m (e : Nat × Byte) => m.set e.1 e.2) s.ddr }

/-- DDR_SCRUB: a populated line read; `first` has the bits that are wrong in its copy in independent mode or the primary's, beat by
beat, `second` in the secondary's; `differ` says that both decode clean and differ; `last` that the line ends a pass (R572, R575, R576, R587).
[log 170 DEDUCED] -/
def ddrScrub (line : Nat) (first second : BitVec 640) (differ last : Bool) (s : Chip) : Chip :=
  let lost1 := lineCount .uncorrectable first
  let lost2 := lineCount .uncorrectable second
  let alone := fun (u : Chip) (c : Nat) (wrong : BitVec 640) =>
    let v := u.checkCopy c line wrong
    if lineCount .uncorrectable wrong = 0 then v.ddrTurn line wrong else v.poisonLine line
  let check := fun (u : Chip) =>
    if !u.mirrored then alone u (channelOf (line / 4)).1 first
    else
      let p := line / 4 % 4
      let a := if u.isPrimary (2 * p) then 2 * p else 2 * p + 1
      let b := partner a
      if !(u.chan a).serves then alone u b second
      else if !(u.chan b).serves then alone u a first
      else
        let v := (u.checkCopy a line first).checkCopy b line second
        if lost1 ≠ 0 && lost2 ≠ 0 then v.poisonLine line
        else if lost1 ≠ 0 then (v.bump (Reg.MEM_UNCORRc b) lost1).ddrTurn line second
        else
          let w := v.ddrTurn line first
          if lost2 = 0 && (differ || lineLeft first ≠ lineLeft second) then w.mismatch p line else w
  let s1 := if s.ddrHas (line * 64) 64 then s.demotions (check s) else s
  if last then s1.setField Reg.MEM_SCRUB_STATUS 63 32 (s1.get Reg.MEM_SCRUB_STATUS 63 32 + 1) else s1

/-- MISMATCH_LOG_READ (R20, R576). -/
def mismatchLogRead (e : Ep) (lanes : Lanes) (s : Chip) : Chip :=
  s.rcRead e Reg.MEM_MISMATCH_LOG lanes s.mem.log fun u => u.updMem fun m => { m with log := m.log.drop 1 }

/-- Whether MEM's staged values may be applied: MIRROR does not change while any channel is ONLINE (R573, R585). -/
def Chip.memStagedOk (s : Chip) : Bool :=
  let online := (List.range 8).any fun c => decide ((s.chan c).state = 3)
  s.legalRange 0x1A00000 0x1C00000 && !(online && bit (s.reg Reg.MEM_CFG) 0 != s.mirrored)

/-- MEM_GO (R585). -/
def memGo (s : Chip) : Chip := s.go Reg.MEM_COMMIT s.memStagedOk

/-- MEM_APPLY (R585). -/
def memApply (s : Chip) : Chip := if s.goPending Reg.MEM_COMMIT then (s.applyRange 0x1A00000 0x1C00000).goDone Reg.MEM_COMMIT else s

/-- A channel command on the channel of MEM_CHAN_SEL: discarded with CMD_ERR while RUNNING, else its STATUS is reported (R585, R587). [log 172 DEDUCED] -/
def Chip.chanCmd (s : Chip) (op : Nat) (run : Chip → Nat → Nat × Chip) : Chip :=
  if s.mem.command.isSome then s.raise Reg.MEM_EVENT 6
  else
    let r := run (s.setField Reg.MEM_CHAN_CMD 2 0 op) (s.get Reg.MEM_CHAN_SEL 2 0)
    r.2.setField Reg.MEM_CHAN_CMD 7 5 r.1

/-- CHAN_OFFLINE: refused unless the partner holds every line (R578). DIMM_SUPPLY_OFF then takes the slot's supply away (R704).
[log 167 DESIGN CHOICE, 168 DEDUCED] -/
def chanOffline (s : Chip) : Chip :=
  s.chanCmd 0 fun u c =>
    let st := (u.chan c).state
    if st ≠ 3 && st ≠ 4 && st ≠ 5 then (4, u)
    else if !u.mirrored || (u.chan (partner c)).state ≠ 3 then (1, u)
    else
      (0, (u.updChan c fun x => { x with state := 1, progress := 0 }).makePrimary (partner c))

/-- CHAN_ONLINE: the slot is supplied and the channel trains (R579, R580, R704). -/
def chanOnline (s : Chip) : Chip :=
  s.chanCmd 1 fun u c =>
    let st := (u.chan c).state
    if st ≠ 0 && st ≠ 1 && st ≠ 5 then (4, u)
    else
      let v := (u.updChan c fun x => { x with state := 2 }).setFlag Reg.MEM_CHAN_CMD 4 true
      (0, { v with isl := { v.isl with dimms := v.isl.dimms ||| 2 ^ c }, mem := { v.mem with command := some c } })

/-- MAKE_PRIMARY: the selected channel takes the primary role from its partner (R574). -/
def makePrimary (s : Chip) : Chip :=
  s.chanCmd 2 fun u c => if !u.mirrored || (u.chan c).state ≠ 3 then (4, u) else (0, u.makePrimary c)

/-- CLEAR_SUSPECT (R587). -/
def clearSuspect (s : Chip) : Chip :=
  s.chanCmd 3 fun u c =>
    if !(u.chan c).suspect then (4, u)
    else (0, (u.updChan c fun x => { x with suspect := false }).updMem fun m => { m with mismatches := m.mismatches.set (c / 2) [] })

/-- TRAINING_DONE: whether the channel trained, whether its SPD is of a registered DIMM of DDR5-5200 or above, and its capacity in GB. A mirrored
channel whose partner serves resilvers; any other is ONLINE. At start-up every channel with a DIMM trains (R577, R579, R580, R736). Of a channel
that serves, a failure says that one of its commands has failed after 4 retries (R577). [log 169 DESIGN CHOICE, 208 DESIGN CHOICE, 255 DESIGN CHOICE] -/
def trainingDone (c : Fin 8) (trained suits : Bool) (capacity : Fin 256) (s : Chip) : Chip :=
  let boot := s.starting && (s.chan c).state = 0
  if !boot && (s.chan c).state ≠ 2 then (if !trained && (s.chan c).serves then s.demotions (s.chanFail c) else s)
  else
    let other := s.chan (partner c)
    let mirror := s.mirrored && other.serves
    let small := mirror && decide (capacity.val < other.capacity)
    let (status, s1) :=
      if !trained then (2, s.demotions ((s.updChan c fun x => { x with capacity := capacity }).chanFail c))
      else if !suits || (small && !boot) then (3, s.updChan c fun x => { x with state := 1, capacity := capacity })
      else if mirror && !boot then
        (0, (s.updChan c fun x => { x with state := 4, capacity := capacity, progress := 0, suspect := false }).makePrimary (partner c))
      else (0, s.updChan c fun x => { x with state := 3, capacity := capacity, progress := 0, suspect := false })
    let s1 := if boot then s1.startStage 2 else s1
    if s.mem.command = some c.val then
      let s2 := (s1.setField Reg.MEM_CHAN_CMD 7 5 status).setFlag Reg.MEM_CHAN_CMD 4 false
      { s2 with mem := { s2.mem with command := none } }
    else s1

/-- RESILVER_DONE: the copying of a RESILVERING channel has come to so many per mille; at 1,000 it is ONLINE as secondary (R579, R580). [log 172 DEDUCED] -/
def resilverDone (c : Fin 8) (progress : Fin 1001) (s : Chip) : Chip :=
  if (s.chan c).state ≠ 4 then s
  else if progress.val = 1000 then
    ((s.updChan c fun x => { x with state := 3, progress := 0 }).makePrimary (partner c)).raise Reg.MEM_EVENT 4
  else s.updChan c fun x => { x with progress := progress }

/-! ### Status registers (R587) -/

/-- MEM_CHAN_STATUS of the selected channel. -/
def Chip.chanStatus (s : Chip) : W64 :=
  let c := s.get Reg.MEM_CHAN_SEL 2 0
  let x := s.chan c
  w64 (x.state + ofBool (s.isPrimary c) <<< 3 + ofBool x.suspect <<< 4 + (x.capacity % 256) <<< 8 + (x.progress % 1024) <<< 16
    + (min 255 (s.mismatchHour (c / 2))) <<< 32)

end Sys2Proof.Machine
end

