-- ==== Sys2Proof/Machine/Ponu.lean ====
section
/-! DEFINITION. The burst receivers: staging, bursts and their outcomes, quiet windows, LOS and dark light, summaries
(R66 to R125). -/
namespace Sys2Proof.Machine

/-! ### Staging (R119 to R122) -/

/-- TEQD's largest value: 750 µs in units of the wavelength (R107, R125). -/
def teqdMax (w : Nat) : Nat := if w = 0 then 597196800 else 119439360

/-- Whether a staged profile meets R68, R69, R76 and its field's encodings; one staged as 0 is unused (R122). -/
def profileOk (w : Nat) (p : W64) : Bool :=
  p = 0 ||
    ((if w = 0 then profRate p ≤ 2 else profRate p = 0)
      && fld p 17 16 ≤ 1
      && minGuard w (profRate p) ≤ profGuard p
      && (if profSeed p then minSeeded w (profRate p) else minPreamble w (profRate p)) ≤ profPreamble p
      && (w ≠ 0 || profFec p)
      && (if fld p 17 16 = 0 then profTol p ≤ 3 else profTol p ≤ 7))

/-- Whether staged drift limits meet R118 and hold no reserved encoding (R125). -/
def driftOk (d : W64) : Bool :=
  fld d 35 32 ≠ 0 && fld d 31 16 < fld d 63 40 && fld d 15 0 ≤ fld d 31 16

/-- Whether a tree's staged PONU values may be applied (R122). -/
def Chip.ponuStagedOk (s : Chip) (t : Tree) : Bool :=
  fld (s.reg (Reg.PONU_SUMMARY_DEST t)) 5 0 ≤ 32
  && (List.finRange 2).all fun w =>
      fld (s.reg (Reg.PONU_TEQD t w)) 31 0 ≤ teqdMax w
      && driftOk (s.reg (Reg.PONU_DRIFT t w))
      && (List.range 4).all fun p => profileOk w (s.reg (Reg.PONU_PROFILEp t w p))

/-- The window of a tree's PONU registers. -/
def ponuBase (t : Tree) : Nat := 0x400000 + t.val * 0x10000

/-- Whether a burst granted in frame n is still to end under the values before frame m (R121). [log 66 DEDUCED] -/
def Chip.oldBursts (s : Chip) (t : Tree) (m : Nat) : Bool :=
  (List.finRange 2).any fun w => (s.pon.rx.get (wkey t w)).maps.any fun x =>
    !frameGe x.frame m && x.bursts.any fun b => b.result.isNone

/-- PONU_PENDING_CLEAR: PENDING clears once no burst granted under the previous values is outstanding (R121). [log 66 DEDUCED] -/
def Chip.ponuPendingClear (s : Chip) (t : Tree) : Chip :=
  match (s.pon.ponu.get t).from_ with
  | none => s
  | some m =>
    if s.goPending (Reg.PONU_COMMIT t) && (s.goAt.get (Reg.PONU_COMMIT t)).isNone && !s.oldBursts t m then
      s.goDone (Reg.PONU_COMMIT t)
    else s

/-- PONU_APPLY: the staged values take effect together and APPLIED_FRAME is recorded (R119, R120). -/
def Chip.ponuApply (s : Chip) (t : Tree) (applied : Nat) (from_ : Option Nat) : Chip :=
  let p := s.pon.ponu.get t
  let prev := s.keepRange (ponuBase t) (ponuBase t + 0x10000)
  let s1 := (s.applyRange (ponuBase t) (ponuBase t + 0x10000)).setField (Reg.PONU_COMMIT t) 63 32 applied
  { s1 with goAt := s1.goAt.set (Reg.PONU_COMMIT t) none
            pon := { s1.pon with ponu := s1.pon.ponu.set t { applied := true, from_ := from_, prevApplied := p.applied, prev := prev } } }

/-- Whether a tree's GO waits for its application point as one given while the timing does not run. -/
def Chip.setIdleGo (s : Chip) (t : Nat) (b : Bool) : Chip :=
  { s with pon := { s.pon with ponu := s.pon.ponu.upd t fun p => { p with idleGo := b } } }

/-- PONU_GO (R122, R23): STAGE_ERR, or PENDING until the application point (R119). -/
def ponuGo (t : Tree) (s : Chip) : Chip :=
  if s.goPending (Reg.PONU_COMMIT t) || !s.ponuStagedOk t then s.stageErr (Reg.PONU_COMMIT t)
  else (s.goSet (Reg.PONU_COMMIT t)).setIdleGo t !(s.timingRuns t)

/-- PONU_APPLY without running timing, at the first clock at least 2 µs after GO: APPLIED_FRAME records the low 32 bits of
POND_FC_START, and the values govern every burst (R119). [log 65 DEDUCED] -/
def Chip.ponuApplyIdle (s : Chip) (t : Tree) : Chip :=
  if (s.pon.ponu.get t).idleGo && s.goAged (Reg.PONU_COMMIT t) 2000 s.frc then
    (s.ponuApply t (s.get (Reg.POND_FC_START t) 31 0) none).goDone (Reg.PONU_COMMIT t)
  else s

/-- PONU_APPLY at the start of frame n at tick t0: the first frame at least 252 µs after GO (R119). -/
def Chip.ponuApplyAt (s : Chip) (t : Tree) (n t0 : Nat) : Chip :=
  if !(s.pon.ponu.get t).idleGo && s.goAged (Reg.PONU_COMMIT t) 252000 t0 then (s.ponuApply t (n % 4294967296) (some n)).ponuPendingClear t else s

/-! ### Finding a burst -/

/-- Whether the receiver of a wavelength is enabled (R66). -/
def Chip.rxEnabled (s : Chip) (t : Tree) (w : Wl) : Bool := s.flag (Reg.PONU_CTRL t) w

/-- The place of a frame's map among those a receiver expects. -/
def Receiver.mapAt (r : Receiver) (n : Nat) : Option Nat := r.maps.findIdx? fun m => m.frame = n

/-- The place of a burst in a map by its START. -/
def RxMap.burstAt (m : RxMap) (start : Nat) : Option Nat := m.bursts.findIdx? fun b => b.start = start

/-- A burst of a receiver changed. -/
def Receiver.updBurst (r : Receiver) (i j : Nat) (f : RxBurst → RxBurst) : Receiver :=
  let m := nth r.maps i
  { r with maps := r.maps.set i { m with bursts := m.bursts.set j (f (nth m.bursts j)) } }

/-- The bits of a place that differ from a profile's delimiter, first bit on the wire in bit 63; a 32-bit delimiter is [63:32] (R76, R125). -/
def spotDiffs (x : DelimSpot) (p pattern : W64) : Nat :=
  ones ((x.bits ^^^ pattern) >>> (64 - profDelim p)) (profDelim p)

/-- The delimiter position the receiver takes: fewest differing bits, the earlier on equal counts (R76). -/
def bestSpot (p pattern : W64) (spots : List DelimSpot) : Option DelimSpot :=
  spots.foldl (fun o x => match o with
    | none => some x
    | some y =>
      if spotDiffs x p pattern < spotDiffs y p pattern || (spotDiffs x p pattern = spotDiffs y p pattern && x.offset < y.offset) then some x else some y) none

/-- The delimiter found within ±DELIM_WIN of the expected position and within DELIM_TOL (R75, R76). -/
def windowSpot (p pattern d : W64) (spots : List DelimSpot) : Option DelimSpot :=
  bestSpot p pattern (spots.filter fun x => spotDiffs x p pattern ≤ profTol p && x.offset.natAbs ≤ fld d 63 40)

/-- The delimiter found, within DELIM_TOL, where all of it lies inside a ranging grant's quiet window (R114). -/
def quietSpot (w start : Nat) (q : Nat × Nat) (p pattern : W64) (spots : List DelimSpot) : Option DelimSpot :=
  bestSpot p pattern (spots.filter fun x =>
    let at_ : Int := start * unitsGtu w + x.offset
    spotDiffs x p pattern ≤ profTol p && decide (((q.1 * unitsGtu w + profDelim p * unitsBit w (profRate p) : Nat) : Int) ≤ at_)
      && decide (at_ ≤ (((q.1 + q.2) * unitsGtu w : Nat) : Int)))

/-- The delimiter pattern of a profile for bursts of frame n (R125). -/
def Chip.delimiter (s : Chip) (t : Tree) (w : Wl) (n p : Nat) : W64 := s.ponuAt t n (Reg.PONU_DELIMp t w p)

/-- The delimiter the receiver finds in a burst's light: around its granted place, or for a ranging grant in its window (R75, R114). -/
def Chip.findSpot (s : Chip) (t : Tree) (w : Wl) (n : Nat) (b : RxBurst) (spots : List DelimSpot) : Option DelimSpot :=
  let p := s.profile t w n b.profile
  let d := s.delimiter t w n b.profile
  if b.ranging then quietSpot w b.start (b.window.getD (0, 0)) p d spots
  else windowSpot p d (s.ponuAt t n (Reg.PONU_DRIFT t w)) spots

/-- The place of the first bit of a delimiter found at an offset, in units from frame 0. -/
def delimAt (w n start : Nat) (p : W64) (offset : Int) : Int :=
  ((n * gtuFrame w + start) * unitsGtu w : Nat) + offset - (profDelim p * unitsBit w (profRate p) : Nat)

/-- The data bits that one allocation takes in its burst: a DBRu where it was granted, and the payload (R128). -/
def RxGrant.bits (g : RxGrant) : Nat := (if g.dbru then 32 else 0) + 32 * g.size

/-- The place of the first data bit of allocation a of a burst: after the header, the PLOAMu and the allocations before (R71). -/
def RxBurst.allocAt (b : RxBurst) (a : Nat) : Nat :=
  32 + (if b.ploamu then 384 else 0) + ((b.grants.take a).map RxGrant.bits).sum

/-- The data bits of a received burst from its header on, as the map grants them (R71). -/
def RxBurst.dataBits (b : RxBurst) : Nat := b.allocAt b.grants.length + 32

/-- The end of a received burst in units from frame 0. -/
def burstEndAt (w n : Nat) (p : W64) (b : RxBurst) (offset : Int) : Nat :=
  ((((n * gtuFrame w + b.start) * unitsGtu w + codedBits w (profFec p) b.dataBits * unitsBit w (profRate p) : Nat) : Int) + offset).toNat

/-- The data bits of one codeword: none where the profile's FEC is off (R69, R70). -/
def codewordBits (w : Nat) (p : W64) : Option Nat := if w = 0 then some 14592 else if profFec p then some 1728 else none

/-- The codewords of a burst that are decoded: those up to its granted end, and none without FEC (R70, R71). -/
def heardCodewords (w : Nat) (p : W64) (b : RxBurst) (l : List (Option Nat)) : List (Option Nat) :=
  match codewordBits w p with
  | none => []
  | some d => l.take (ceilDiv b.dataBits d)

/-- Whether any of the data bits [lo, hi) of a burst lies in an uncorrectable codeword (R80, R82, R84). -/
def lostBits (w : Nat) (p : W64) (b : RxBurst) (l : List (Option Nat)) (lo hi : Nat) : Bool :=
  match codewordBits w p with
  | none => false
  | some d => (((heardCodewords w p b l).take (ceilDiv hi d)).drop (lo / d)).any Option.isNone

/-- Whether a delimiter lies less than the minimum guard of its profile after the previous burst's end (R92, OVERLAP). [log 71 DEDUCED] -/
def tooClose (w : Nat) (p : W64) (lastEnd : Option Nat) (delim : Int) : Bool :=
  match lastEnd with
  | none => false
  | some e => delim < ((e + minGuard w (profRate p) * unitsBit w (profRate p) : Nat) : Int)

/-- The outcome of a burst whose delimiter was found, by the order of its table (R78, R79, R92). -/
def foundOutcome (overlap : Bool) (onu : Nat) (h : BurstHead) (codewords : List (Option Nat)) : Nat :=
  if overlap then 5
  else if h.hec = .bad || (h.onu.val ≠ onu && !(onu = 1023 && h.onu.val ≤ 1019)) then 4
  else if codewords.any Option.isNone then 2
  else if codewords.any (fun c => c.getD 0 ≠ 0) then 1
  else 0

/-- What the light of a burst comes to, after a burst that ended at `lastEnd`: its outcome, and its delimiter's offset where one was
found (R75 to R79, R92). -/
def Chip.burstOutcome (s : Chip) (t : Tree) (w : Wl) (n : Nat) (b : RxBurst) (lastEnd : Option Nat) (h : BurstHead)
    (codewords : List (Option Nat)) : Nat × Option Int :=
  let p := s.profile t w n b.profile
  match s.findSpot t w n b h.spots with
  | none => (3, none)
  | some q => (foundOutcome (tooClose w p lastEnd (delimAt w n b.start p q.offset)) b.onu h (heardCodewords w p b codewords), some q.offset)

/-- The ONU-ID a burst came from: of its grant, or of its header under a grant to 1023 (R79). -/
def RxBurst.from_ (b : RxBurst) (h : BurstHead) : Nat := if b.onu = 1023 then h.onu.val else b.onu

/-- Corrected symbols of codewords. -/
def corrSymbols (l : List (Option Nat)) : Nat := (l.map fun c => c.getD 0).sum

/-- Uncorrectable codewords. -/
def lostCodewords (l : List (Option Nat)) : Nat := (l.filter Option.isNone).length

/-! ### Counting (R92, R93) -/

/-- The outcome counter of a wavelength (R92). -/
def outcomeCounter (t : Tree) (w : Wl) (o : Nat) : Nat :=
  if o ≤ 2 then Reg.PONU_BURSTS_RECEIVED t w
  else if o = 3 then Reg.PONU_BURSTS_LOST t w
  else if o = 4 then Reg.PONU_HEADER_DISCARD t w
  else if o = 5 then Reg.PONU_OVERLAP t w
  else Reg.PONU_BURSTS_SKIPPED t w

/-- The FEC, HEC and BIP-32 counters of a decoded burst (R92, R93, R114). A corrected header of a burst that is then discarded, for its
ONU-ID or as OVERLAP, is not counted. [log 235 DESIGN CHOICE] -/
def Chip.countDecoded (s : Chip) (t : Tree) (w : Wl) (codewords : List (Option Nat)) (x : BurstLight) : Chip :=
  let s1 := (s.bump (Reg.PONU_FEC_CORR t w) (corrSymbols codewords)).bump (Reg.PONU_FEC_UNCORR t w) (lostCodewords codewords)
  let s2 := if x.head.hec = .corrected then s1.bump (Reg.PONU_HEC_CORR t w) else s1
  if x.bipOk then s2 else s2.bump (Reg.PONU_BIP_ERR t w)

/-! ### Effects of a burst -/

/-- The DBRu of one allocation of a decoded burst: written to its report slot where it passed its CRC-8 in codewords that were decoded, else
the slot is STALE (R81, R82). -/
def Chip.writeReport (s : Chip) (t : Tree) (w : Wl) (n idx : Nat) (dbru : Option (BitVec 24)) : Chip :=
  let k := recKey t 0 2 idx
  match dbru with
  | some v => s.setRec k (w64 (v.toNat + 1 <<< 25 + (n % 4294967296) <<< 32))
  | none => (s.setRec k (setBit (s.pon.recs.get k) 24 true)).bump (Reg.PONU_DBRU_ERR t w)

/-- SIZE granted to an Alloc record in a frame's map, over all its bursts (R134). -/
def RxMap.granted (m : RxMap) (idx : Nat) : Nat :=
  (m.bursts.map fun b => ((b.grants.filter fun h => h.record = some idx).map (·.size)).sum).sum

/-- DBRU_WRITE and MONITOR_SLOT_WRITE for one grant of a burst (R81, R82, R134): `decoded` says whether anything was decoded, `dbru` what the
allocation's DBRu held. A standby part takes its slots from SLOT records instead (R602). [log 76 DESIGN CHOICE] -/
def Chip.writeSlots (s : Chip) (t : Tree) (w : Wl) (m : RxMap) (decoded : Bool) (g : RxGrant) (dbru : Option (BitVec 24)) (used : Nat) : Chip :=
  match g.record with
  | none => s
  | some idx =>
    let n := m.frame
    let mk := recKey t 0 3 idx
    let s1 := if g.dbru && decoded then s.writeReport t w n idx dbru else s
    let mon := s1.pon.recs.get mk
    let before := if fld mon 63 48 = n % 65536 then fld mon 47 24 else 0
    let total := if decoded then before + used else 0
    s1.setRec mk (w64 (m.granted idx % 16777216 + (total % 16777216) <<< 24 + (n % 65536) <<< 48))

/-- The allocations of a burst with what their light gave: each DBRu that passed its CRC-8 in decoded codewords (R82), and the words used. -/
def burstAllocs (w : Nat) (p : W64) (b : RxBurst) (x : BurstLight) : List (RxGrant × Option (BitVec 24) × Nat) :=
  (List.range b.grants.length).map fun a =>
    let at_ := b.allocAt a
    let light := nth x.allocs a
    (nth b.grants a, (if lostBits w p b x.codewords at_ (at_ + 32) then none else light.dbru), light.used)

/-- COEFF_STORE: the converged coefficients of a clean burst of a RANGED terminal, known by the tick of the burst (R73). [log 73 DESIGN CHOICE] -/
def Chip.storeCoeff (s : Chip) (t : Tree) (w : Wl) (onu tick : Nat) : Chip :=
  { s with pon := { s.pon with seeds := s.pon.seeds.set (wkey t w * 1024 + onu) (tick + 1) } }

/-- The drift run of a terminal that is RANGED, or that a write of this same cycle has taken from RANGED (R116, R117). -/
def Chip.rangedRun (s : Chip) (t : Tree) (w : Wl) (onu : Nat) : Option Nat :=
  let k := wkey t w * 1024 + onu
  if s.rangingState t w onu = 2 then some (s.pon.driftRuns.get k)
  else match s.pon.leftRanged.get k with
    | some (at_, run) => if at_ = s.frc && !s.suspendedNow t w onu then some run else none
    | none => none

/-- DRIFT_SUSPEND: a terminal becomes SUSPENDED, whatever a program writes to its record in the same cycle (R116, R117). -/
def Chip.suspend (s : Chip) (t : Tree) (w : Wl) (onu : Nat) : Chip :=
  let rk := recKey t w 1 onu
  let s1 := ((s.setRec rk (setFld (s.pon.recs.get rk) 1 0 3)).leaveRanged t w onu).raise (Reg.PONU_EVENT t) 4
  { s1 with pon := { s1.pon with suspended := s1.pon.suspended.set (wkey t w * 1024 + onu) (some s1.frc) } }

/-- The watch over drift: after DRIFT_STOP_COUNT bursts in a row beyond DRIFT_STOP a RANGED terminal is SUSPENDED (R115, R116, R74). A burst with
outcome 3 to 6, whose drift is not measured, neither counts nor ends a run. [log 238 DESIGN CHOICE] -/
def Chip.watchDrift (s : Chip) (t : Tree) (w : Wl) (onu : Nat) (d : W64) (drift : Int) : Chip :=
  match s.rangedRun t w onu with
  | none => s
  | some old =>
    let run := if fld d 31 16 < drift.natAbs then old + 1 else 0
    if run = 0 || run < fld d 35 32 then
      if s.rangingState t w onu = 2 then { s with pon := { s.pon with driftRuns := s.pon.driftRuns.set (wkey t w * 1024 + onu) run } } else s
    else s.suspend t w onu

/-- LOS_CLEAR: a burst that ends other than LOST or NOT_ATTEMPTED ends the run and clears LOS (R95). -/
def Chip.losClear (s : Chip) (t : Tree) (w : Wl) (outcome : Nat) : Chip :=
  if outcome = 3 || outcome = 6 then s
  else ((s.updRx (wkey t w) fun r => { r with losRun := 0, los := false }).setFlag (Reg.PONU_WL_STATUS t w) 1 false).pmDefect (1 + wkey t w) false

/-- The descriptor words of a PON delivery: class, outcome, the burst's place, ARRIVAL and STAMP (R80, R358). -/
def ponuWords (cls outcome t w onu level n arrival stamp : Nat) : List W64 :=
  [w64 (cls + (if cls = 3 then outcome <<< 14 else 0)),
   w64 (t + w <<< 5 + onu <<< 6 + level <<< 16 + (n % 4294967296) <<< 32),
   w64 (arrival % 4294967296), w64 stamp]

/-- PLOAMU_DELIVER and RANGING_NOTICE: a delivery of class 1 or 3, and whether it was accepted (R80, R114, R353, R356). -/
def Chip.ponuDeliver (s : Chip) (cls outcome : Nat) (t : Tree) (w : Wl) (onu level n arrival : Nat) (stamp : Nat)
    (ploamu : Option (List Byte)) : Bool × Chip :=
  s.slowDeliver { cls := cls, index := s.ponuHash t w onu, source := deviceSource 3 (wkey t w),
                  words := ponuWords cls outcome t w onu level n arrival stamp,
                  body := (ploamu.getD []).take 48, stamp := stamp, length := (ploamu.getD []).length }

/-- ARRIVAL of a burst whose delimiter lies at an offset from its granted place: TEQD and the offset (R102, R105). -/
def arrivalOf (teqd : Nat) (offset : Int) : Nat := wrapInt 32 (teqd + offset)

/-- The SLOT record of a burst: the slots of its grants (R599). -/
def Chip.sendSlotRecord (s : Chip) (t : Tree) (w : Wl) (n : Nat) (b : RxBurst) : Chip :=
  if !s.mateOn || s.standbyAt n then s
  else
    let body := b.grants.flatMap fun g => match g.record with
      | none => []
      | some i => [w64 i, s.pon.recs.get (recKey t 0 2 i), w64 (i + 1 <<< 14), s.pon.recs.get (recKey t 0 3 i)]
    s.glkRecord 3 (t.val <<< 35 + w.val <<< 34 + n % 4294967296) body

/-- The partial frames of a burst's Alloc-IDs have seen a burst (R90). -/
def Chip.touchPartials (s : Chip) (t : Tree) (w : Wl) (b : RxBurst) : Chip :=
  { s with pon := { s.pon with partials := b.grants.foldl (fun m g =>
      let k := wkey t w * 16384 + g.allocId
      match m.get k with
      | none => m
      | some p => m.set k (some { p with seen := true, idle := 0 })) s.pon.partials } }

/-- Whether the receiver attempts a burst: enabled, values applied, its map in time, and no more than 512 before it (R92). -/
def Chip.attempts (s : Chip) (t : Tree) (w : Wl) (n : Nat) (late : Bool) (place : Nat) : Bool :=
  s.rxEnabled t w && s.ponuOn t n && !late && place < 512

/-- The PLOAMu of a burst, where one was granted and decoded and none of it lay in an uncorrectable codeword (R80). -/
def heardPloamu (w : Nat) (p : W64) (b : RxBurst) (x : BurstLight) : Option (List Byte) :=
  if !b.ploamu || lostBits w p b x.codewords 32 416 then none else x.ploamu

/-- The LOS run after an upstream frame's bursts (R95): skipped frames leave it, a frame of LOST bursts adds one, another ends it. -/
def losRunAfter (run : Nat) (m : RxMap) : Nat :=
  let os := m.bursts.filterMap fun b => b.result.map (·.outcome)
  let tried := os.filter fun o => o ≠ 6
  if tried = [] then run else if tried.all fun o => o = 3 then run + 1 else 0

/-- The frames of maps in which every burst has ended are judged for LOS, in their order (R95): after the first that is still
open nothing is judged. -/
def judgeMaps (run : Nat) : List RxMap → Nat × List RxMap
  | [] => (run, [])
  | m :: ms =>
    if m.judged then
      let r := judgeMaps run ms
      (r.1, m :: r.2)
    else if m.ended && m.bursts.all (fun b => b.result.isSome) then
      let r := judgeMaps (losRunAfter run m) ms
      (r.1, { m with judged := true } :: r.2)
    else (run, m :: ms)

/-- LOS_RAISE: after eight non-skipped frames of LOST bursts (R95). [log 69 DESIGN CHOICE] -/
def Chip.losRaise (s : Chip) (t : Tree) (w : Wl) : Chip :=
  let r := s.pon.rx.get (wkey t w)
  if 8 ≤ r.losRun && !r.los then
    (((s.updRx (wkey t w) fun x => { x with los := true }).setFlag (Reg.PONU_WL_STATUS t w) 1 true).raise (Reg.PONU_EVENT t) w).pmDefect
      (1 + wkey t w) true
  else s

/-- The frames that can be judged for LOS now, judged: a frame whose ranging window closes after it waits for that (R95). [log 69 DESIGN CHOICE] -/
def Chip.judge (s : Chip) (t : Tree) (w : Wl) : Chip :=
  (s.updRx (wkey t w) fun r =>
    let j := judgeMaps r.losRun r.maps
    { r with losRun := j.1, maps := j.2 }).losRaise t w

/-- A burst ends with an outcome: counters, slots, coefficients, drift, LOS, the mate's record and the summary's entry (R92 and
the rules beside it). `found` is the delimiter's offset where one was found, `delivered` whether its PLOAMu was delivered: never that of a
ranging burst, whose notice carries it. [log 70 DESIGN CHOICE, 71 DEDUCED, 76 DESIGN CHOICE, 234 DESIGN CHOICE, 239 DEDUCED] -/
def Chip.endBurst (s : Chip) (t : Tree) (w : Wl) (n i j : Nat) (outcome : Nat) (found : Option Int) (delivered : Bool) (x : BurstLight) : Chip :=
  let m := nth (s.pon.rx.get (wkey t w)).maps i
  let b := nth m.bursts j
  let p := s.profile t w n b.profile
  let d := s.ponuAt t n (Reg.PONU_DRIFT t w)
  let heard := heardCodewords w p b x.codewords
  let decoded := outcome ≤ 2
  let onu := b.from_ x.head
  let late := decoded && !x.trained
  let drift := if decoded then found.getD 0 else 0
  let allocs := burstAllocs w p b x
  let s1 := ((s.bump (Reg.PONU_BURSTS_GRANTED t w)).bump (outcomeCounter t w outcome)).pmBlocks (1 + wkey t w) 1
    (ofBool ((2 ≤ outcome && outcome ≤ 5) || (decoded && !x.bipOk)))
  let s2 := if decoded then s1.countDecoded t w heard x else s1
  let s3 := if late then s2.bump (Reg.PONU_TRAIN_LATE t w) else s2
  let s4 := if s3.standbyAt n then s3 else allocs.foldl (fun u (g, dbru, used) => u.writeSlots t w m decoded g dbru used) s3
  let s5 := if outcome ≤ 1 && !late && profSeed p && s4.rangingState t w onu = 2 then s4.storeCoeff t w onu x.tick else s4
  let s6 := if decoded then s5.watchDrift t w onu d drift else s5
  let s7 := s6.losClear t w outcome
  let r : BurstResult :=
    { outcome := outcome, ploamu := delivered,
      dbruOk := decoded && allocs.all (fun (g, dbru, _) => !g.dbru || dbru.isSome) && b.grants.any (·.dbru),
      trainLate := late, seeded := outcome ≠ 6 && b.onu ≠ 1023 && profSeed p && s.seeded t w b.onu, drift := drift,
      corr := (if outcome = 3 || outcome = 6 then 0 else corrSymbols heard), level := (if outcome = 6 then 0 else x.level) }
  let s8 := s7.updRx (wkey t w) fun rx =>
    let rx1 := rx.updBurst i j fun y => { y with head := some x.head, result := some r }
    match found with
    | none => rx1
    | some o => { rx1 with lastEnd := some (burstEndAt w n p b o) }
  let s9 := if decoded then s8.touchPartials t w b else s8
  ((s9.sendSlotRecord t w n b).ponuPendingClear t).judge t w

/-- The light of a burst whose head is known already from the frames deframed before its end. -/
def knownLight (x : BurstLight) (h : Option BurstHead) : BurstLight := { x with head := h.getD x.head }

/-- BURST_END: a burst of a data grant reaches its granted end and ends in exactly one outcome (R92); its PLOAMu is delivered (R80). -/
def burstEnd (t : Tree) (w : Wl) (n start : Nat) (x : BurstLight) (s : Chip) : Chip :=
  let rx := s.pon.rx.get (wkey t w)
  match rx.mapAt n with
  | none => s
  | some i =>
    let m := nth rx.maps i
    match m.burstAt start with
    | none => s
    | some j =>
      let b := nth m.bursts j
      let y := knownLight x b.head
      let r := s.burstOutcome t w n b rx.lastEnd y.head y.codewords
      if b.ranging || b.result.isSome then s
      else if !s.attempts t w n m.late j then s.endBurst t w n i j 6 none false y
      else match heardPloamu w (s.profile t w n b.profile) b y with
        | some bytes =>
          if r.1 ≤ 2 && s.servesAt t n then
            let d := s.ponuDeliver 1 r.1 t w y.head.onu y.level.toNat n
              (arrivalOf (fld (s.ponuAt t n (Reg.PONU_TEQD t w)) 31 0) (r.2.getD 0)) (stampOf (s.logicalAt y.tick)) (some bytes)
            d.2.endBurst t w n i j r.1 r.2 d.1 y
          else s.endBurst t w n i j r.1 r.2 false y
        | none => s.endBurst t w n i j r.1 r.2 false y

/-! ### Quiet windows (R114) -/

/-- What a burst in a quiet window gave: its light, offset and outcome. -/
structure QuietFind where
  light : BurstLight
  offset : Int := 0
  outcome : Nat := 0
  deriving DecidableEq, Repr, Inhabited

/-- The bursts decoded in a quiet window, up to eight, with OVERLAP applied between them (R114). -/
def Chip.quietFinds (s : Chip) (t : Tree) (w : Wl) (n : Nat) (b : RxBurst) : Nat → Option Nat → List BurstLight → List QuietFind
  | 0, _, _ => []
  | _, _, [] => []
  | k + 1, lastEnd, x :: xs =>
    match s.burstOutcome t w n b lastEnd x.head x.codewords with
    | (_, none) => s.quietFinds t w n b (k + 1) lastEnd xs
    | (o, some off) =>
      ⟨x, off, o⟩ :: s.quietFinds t w n b k (some (burstEndAt w n (s.profile t w n b.profile) b off)) xs

/-- RANGING_NOTICE for one burst of a window (R114): a standby part's carries no PLOAMu (R602). [log 72 DESIGN CHOICE] -/
def Chip.rangingNotice (s : Chip) (t : Tree) (w : Wl) (n teqd : Nat) (b : RxBurst) (f : QuietFind) : Chip :=
  (s.ponuDeliver 3 f.outcome t w f.light.head.onu f.light.level.toNat n (arrivalOf teqd f.offset)
    (stampOf (s.logicalAt f.light.tick))
    (if f.outcome ≤ 2 && s.servesAt t n then heardPloamu w (s.profile t w n b.profile) b f.light else none)).2

/-- The notice of a window in which nothing was decoded: OUTCOME LOST and no PLOAMu (R114), with the grant's ONU-ID (1023 for a broadcast
grant), RX_LEVEL and ARRIVAL 0, and the time at which the window closes as STAMP. [log 236 DESIGN CHOICE] -/
def Chip.lostNotice (s : Chip) (t : Tree) (w : Wl) (n onu : Nat) : Chip :=
  (s.ponuDeliver 3 3 t w onu 0 n 0 (stampOf s.logical) none).2

/-- A burst of a window after the first: it is counted only in the FEC, HEC and BIP-32 counters (R114), and, where it is a clean burst of a
RANGED terminal, its coefficients are stored and its drift is watched like any other's (R73, R115). [log 239 DEDUCED] -/
def Chip.laterFind (s : Chip) (t : Tree) (w : Wl) (n : Nat) (b : RxBurst) (f : QuietFind) : Chip :=
  let p := s.profile t w n b.profile
  let onu := f.light.head.onu.val
  if 2 < f.outcome then s
  else
    let s1 := s.countDecoded t w (heardCodewords w p b f.light.codewords) f.light
    let s2 := if f.outcome ≤ 1 && f.light.trained && profSeed p && s1.rangingState t w onu = 2 then s1.storeCoeff t w onu f.light.tick else s1
    s2.watchDrift t w onu (s.ponuAt t n (Reg.PONU_DRIFT t w)) f.offset

/-- QUIET_WINDOW_CLOSE: the window of a ranging grant closes and its burst ends with the outcome of the first burst decoded in it,
or LOST; every decoded burst gives its notice (R114), and the last one is the burst before the next for OVERLAP. A grant that its receiver
does not attempt ends NOT_ATTEMPTED, and its window, in which nothing is decoded, still gives its notice with LOST. [log 237 DESIGN CHOICE] -/
def quietWindowClose (t : Tree) (w : Wl) (n start : Nat) (lights : List BurstLight) (s : Chip) : Chip :=
  let rx := s.pon.rx.get (wkey t w)
  match rx.mapAt n with
  | none => s
  | some i =>
    let m := nth rx.maps i
    match m.burstAt start with
    | none => s
    | some j =>
      let b := nth m.bursts j
      let teqd := fld (s.ponuAt t n (Reg.PONU_TEQD t w)) 31 0
      if !b.ranging || b.result.isSome then s
      else if !s.attempts t w n m.late j then (s.endBurst t w n i j 6 none false default).lostNotice t w n b.onu
      else
        match s.quietFinds t w n b 8 rx.lastEnd lights with
        | [] => (s.endBurst t w n i j 3 none false default).lostNotice t w n b.onu
        | f :: fs =>
          let s1 := s.endBurst t w n i j f.outcome (some f.offset) false f.light
          let s2 := fs.foldl (fun u g => u.laterFind t w n b g) s1
          let s3 := match fs.getLast? with
            | none => s2
            | some g => s2.updRx (wkey t w) fun r => { r with lastEnd := some (burstEndAt w n (s.profile t w n b.profile) b g.offset) }
          (f :: fs).foldl (fun u g => u.rangingNotice t w n teqd b g) s3

/-! ### The end of an upstream frame (R90, R95 to R97) -/

/-- The dark spans whose level exceeds DARK_THRESH (R96). -/
def Chip.bright (s : Chip) (t : Tree) (w : Wl) (spans : List DarkSpan) : List DarkSpan :=
  spans.filter fun d => s.get (Reg.PONU_DARK_THRESH t w) 7 0 < d.level.toNat

/-- Dark-light time in ns (R96, R99). -/
def Chip.darkTime (s : Chip) (t : Tree) (w : Wl) (spans : List DarkSpan) : Nat := ((s.bright t w spans).map (·.ns)).sum

/-- DARK_LIGHT: light above DARK_THRESH for at least 1 µs in one upstream frame; the first position is kept until the event is
cleared (R96, R97). [log 69 DESIGN CHOICE] -/
def Chip.darkLight (s : Chip) (t : Tree) (w : Wl) (n : Nat) (spans : List DarkSpan) : Chip :=
  let bright := s.bright t w spans
  if s.darkTime t w spans < 1000 then s
  else if s.flag (Reg.PONU_EVENT t) (2 + w.val) then s
  else
    let pos := (bright.map (·.pos)).foldl min ((bright.headD default).pos)
    (s.setReg (Reg.PONU_DARK_POS t w) (w64 (pos % 4294967296 + (n % 4294967296) <<< 32))).raise (Reg.PONU_EVENT t) (2 + w.val)

/-- Frames whose work is done leave the receiver's list. -/
def Receiver.clean (r : Receiver) : Receiver :=
  { r with maps := r.maps.filter fun m => !(m.ended && m.judged && m.summarised && m.bursts.all fun b => b.result.isSome) }

/-- A partial frame one upstream frame later (R90). -/
def Partial.age (p : Partial) : Partial :=
  if p.seen then { p with seen := false, idle := 0 } else { p with idle := p.idle + 1 }

/-- The partial frames of a wavelength age by one upstream frame unless a burst of their Alloc-ID came in it (R90). [log 79 DESIGN CHOICE] -/
def Chip.agePartials (s : Chip) (t : Tree) (w : Wl) : Chip :=
  let step := fun (m : Map (Option Partial)) (k : Nat) => m.set k ((m.get k).map Partial.age)
  let keys := (s.pon.partials.map (·.1)).filter fun k => k / 16384 = wkey t w
  { s with pon := { s.pon with partials := keys.foldl step s.pon.partials } }

/-- UPSTREAM_FRAME_END: upstream frame n ends at the receiver; LOS and dark light are judged (R95, R96), the frames that still wait for a
quiet window excepted. [log 69 DESIGN CHOICE] -/
def upstreamFrameEnd (t : Tree) (w : Wl) (n : Nat) (light : Bool) (spans : List DarkSpan) (s : Chip) : Chip :=
  let rx := s.pon.rx.get (wkey t w)
  let dark := s.darkTime t w spans
  let s1 := match rx.mapAt n with
    | none => s.updRx (wkey t w) (fun r => { r with maps := r.maps ++ [({ frame := n, ended := true, dark := dark } : RxMap)] })
    | some i => s.updRx (wkey t w) (fun r =>
        let m := nth r.maps i
        if m.ended then r else { r with maps := r.maps.set i { m with ended := true, dark := dark } })
  let s2 := s1.judge t w
  let s3 := (s2.setFlag (Reg.PONU_WL_STATUS t w) 0 light).darkLight t w n spans
  (s3.agePartials t w).updRx (wkey t w) Receiver.clean

/-- A partial frame discarded and counted (R90). [log 77 DESIGN CHOICE] -/
def Chip.dropPartial (s : Chip) (t : Tree) (w : Wl) (alloc : Nat) : Chip :=
  let k := wkey t w * 16384 + alloc
  match s.pon.partials.get k with
  | none => s
  | some p =>
    let s1 := { s with pon := { s.pon with partials := s.pon.partials.set k none } }
    if p.broken then s1
    else
      let s2 := s1.bump (Reg.PONU_FRAG_DISCARD t w)
      match p.ctx with
      | some c => s2.statAdd (c / 32768) (c % 32768) 1 2 1
      | none => s2

/-- FRAG_TIMEOUT: a partial frame whose Alloc-ID had no burst in eight upstream frames is discarded (R90). [log 79 DESIGN CHOICE] -/
def fragTimeout (t : Tree) (w : Wl) (alloc : Fin 16384) (s : Chip) : Chip :=
  match s.pon.partials.get (wkey t w * 16384 + alloc) with
  | none => s
  | some p => if p.idle < 8 then s else s.dropPartial t w alloc

/-! ### Burst summaries (R98 to R100) -/

/-- A summary entry (R99). [log 75 DESIGN CHOICE] -/
def summaryEntry (b : RxBurst) : W64 :=
  let r := b.result.getD {}
  w64 (b.onu <<< 54 + r.outcome <<< 51 + ofBool r.ploamu <<< 50 + ofBool r.dbruOk <<< 49 + ofBool r.trainLate <<< 48
    + ofBool r.seeded <<< 47 + wrapInt 23 (satInt 23 r.drift) <<< 24 + (min r.corr 4095) <<< 12 + r.level.toNat <<< 4)

/-- A summary message: the header and an entry for each granted burst in order of StartTime (R99). -/
def summaryBody (t : Tree) (w : Wl) (dark : Nat) (m : RxMap) : List Byte :=
  wordsBytes (w64 (t.val <<< 59 + w.val <<< 58 + m.bursts.length <<< 48 + (min dark 65535) <<< 32 + m.frame % 4294967296)
    :: m.bursts.map summaryEntry)

/-- BURST_SUMMARY: once every burst granted in frame n's map has ended, or the frame itself where nothing was granted, its summary goes
to PONU_SUMMARY_DEST as it governs n; one that its queue cannot accept is discarded and counted (R98, R100). DARK is the frame's
dark-light time, or that of the light so far where the frame has not ended (R99). -/
def burstSummary (t : Tree) (w : Wl) (n : Nat) (spans : List DarkSpan) (s : Chip) : Chip :=
  let rx := s.pon.rx.get (wkey t w)
  match rx.mapAt n with
  | none => s
  | some i =>
    let m := nth rx.maps i
    if m.summarised || !(m.bursts.all fun b => b.result.isSome) || (m.bursts = [] && !m.ended) then s
    else
      let s1 := (s.updRx (wkey t w) fun r => { r with maps := r.maps.set i { m with summarised := true } })
      let dark := (if m.ended then m.dark else s.darkTime t w spans) / 16
      let s2 := match s1.sendDest (s1.ponuAt t n (Reg.PONU_SUMMARY_DEST t)) (deviceSource 3 (wkey t w)) (summaryBody t w dark m) with
        | some (false, u) => (u.bump (Reg.PONU_SUMMARY_DROP t w)).raise (Reg.PONU_EVENT t) 5
        | some (true, u) => u
        | none => s1
      s2.updRx (wkey t w) Receiver.clean

end Sys2Proof.Machine
end

