-- ==== Sys2Proof/Machine/Pond.lean ====
section
/-! DEFINITION. Downstream framing: staging, frame timing, PLOAM queues, time-of-day captures and the start of a frame
(R169 to R188, R204 to R206, R213 to R217). The placing of SDUs is in Place. -/
namespace Sys2Proof.Machine

/-! ### Staging (R193, R213, R215) -/

/-- The layout of a downstream frame: line rate in bit/s, bits, bytes of PSBd, FEC codewords with their bits and data bits, and the data bits by
which the last one is shortened (R179). -/
structure FrameLayout where
  rate : Nat
  bits : Nat
  psbd : Nat
  codewords : Nat
  coded : Nat
  data : Nat
  shortened : Nat
  deriving DecidableEq, Repr

/-- The layout on a wavelength: LDPC (17280, 14592) on wavelength 0, RS(248, 216) on wavelength 1 (R179). -/
def frameLayout (w : Nat) : FrameLayout :=
  if w = 0 then { rate := 49766400000, bits := 6220800, psbd := 24, codewords := 360, coded := 17280, data := 14592, shortened := 192 }
  else { rate := 9953280000, bits := 1244160, psbd := 24, codewords := 627, coded := 1984, data := 1728, shortened := 0 }

/-- FS frame words of a wavelength: what its codewords hold (R179). -/
def fsWords (w : Nat) : Nat := ((frameLayout w).codewords * (frameLayout w).data - (frameLayout w).shortened) / 32

/-- Whether a staged downstream express window is legal (R215). -/
def dsWindowOk (w : Nat) (v : W64) : Bool :=
  let p := if fld v 45 36 = 0 then 1024 else fld v 45 36
  (!bit v 60 || fld v 17 0 + fld v 35 18 ≤ fsWords w) && fld v 55 46 < p && fld v 59 56 + 1 ≤ p

/-- Whether a tree's staged POND values may be applied (R193, R215). -/
def Chip.pondStagedOk (s : Chip) (t : Tree) : Bool :=
  (List.finRange 2).all fun w =>
    64 ≤ s.get (Reg.POND_MAX_SDU t w) 13 0
    && s.get (Reg.POND_PLOAM_MAX t w) 4 0 ≤ 16
    && (s.get (Reg.POND_CLASS t w) 7 0 &&& s.get (Reg.POND_CLASS t w) 15 8) = 0
    && (List.range 8).all fun x => dsWindowOk w (s.reg (Reg.POND_XWx t w x))

/-- The window of a tree's POND registers. -/
def pondBase (t : Tree) : Nat := 0x600000 + t.val * 0x10000

/-- POND_APPLY: the staged values take effect and APPLIED_FRAME is recorded (R213). -/
def Chip.pondApply (s : Chip) (t : Tree) (applied : Nat) : Chip :=
  ((s.applyRange (pondBase t) (pondBase t + 0x10000)).setField (Reg.POND_COMMIT t) 63 32 applied).goDone (Reg.POND_COMMIT t)

/-- POND_GO (R215, R23): STAGE_ERR, or PENDING; while timing does not run the values apply at once (R213). [log 65 DEDUCED] -/
def pondGo (t : Tree) (s : Chip) : Chip :=
  if s.goPending (Reg.POND_COMMIT t) || !s.pondStagedOk t then s.stageErr (Reg.POND_COMMIT t)
  else
    let s1 := s.goSet (Reg.POND_COMMIT t)
    if s1.timingRuns t then s1 else s1.pondApply t (s1.get (Reg.POND_FC_START t) 31 0)

/-- POND_APPLY at the start of frame n at tick t0: the first frame at least 2 µs after GO (R213). -/
def Chip.pondApplyAt (s : Chip) (t : Tree) (n t0 : Nat) : Chip :=
  if s.goAged (Reg.POND_COMMIT t) 2000 t0 then s.pondApply t (n % 4294967296) else s

/-! ### Transmitters and timing (R173 to R178, R204) -/

/-- A tree's timing state changed. -/
def Chip.updPond (s : Chip) (t : Nat) (f : PondTree → PondTree) : Chip :=
  { s with pon := { s.pon with pond := s.pon.pond.upd t f } }

/-- REMAINDER_ABORT: a pending remainder is discarded and counted (R204). -/
def Chip.abortRemainder (s : Chip) (t : Tree) (w : Wl) : Chip :=
  match (s.pon.framers.get (wkey t w)).remainder with
  | none => s
  | some r =>
    let s1 := ((s.updFramer (wkey t w) fun f => { f with remainder := none }).bump (Reg.POND_FRAG_ABORT t w)).raise
      (Reg.POND_EVENT t) 6
    (s1.statAdd t r.ctx 0 2 1).frameGone r.frame true true

/-- A write of one transmitter's enable (R178): the wavelength starts or stops at a frame boundary; disabling drops a remainder. [log 94 DEDUCED] -/
def Chip.enableTx (s : Chip) (t : Tree) (w : Wl) (en : Bool) : Chip :=
  if s.flag (Reg.POND_CTRL t) w = en then s
  else
    let s1 := (s.setFlag (Reg.POND_CTRL t) w en).updFramer (wkey t w) fun f => { f with want := if en then some s.frc else none }
    if en then s1 else s1.abortRemainder t w

/-- TX_ENABLE_WRITE: a write of both enables of POND_CTRL (R178). [log 94 DEDUCED] -/
def txEnableWrite (t : Tree) (en0 en1 : Bool) (s : Chip) : Chip := (s.enableTx t 0 en0).enableTx t 1 en1

/-- Whether both transmitters and both receivers of a tree are disabled (R173). -/
def Chip.treeQuiet (s : Chip) (t : Tree) : Bool :=
  s.get (Reg.POND_CTRL t) 1 0 = 0 && s.get (Reg.PONU_CTRL t) 1 0 = 0

/-- Frames are counted anew: the PONU and ALLOC values in force govern every frame of the new count, and a PONU change already applied
is complete (R119, R162, R174). [log 67 DEDUCED] -/
def Chip.countAnew (s : Chip) (t : Tree) : Chip :=
  let k := Reg.PONU_COMMIT t
  let s1 := { s with pon := { s.pon with ponu := s.pon.ponu.upd t fun p => { p with from_ := none },
                                         alloc := s.pon.alloc.upd t fun a => { a with from_ := none } } }
  if s1.goPending k && (s1.goAt.get k).isNone then s1.goDone k else s1

/-- A GO of a tree whose timing stops waits for no frame any more: POND's and ALLOC's values apply, PONU's at its own point (R119, R162, R213). -/
def Chip.goStopped (s : Chip) (t : Tree) : Chip :=
  let s1 := if s.goPending (Reg.POND_COMMIT t) then s.pondApply t (s.get (Reg.POND_FC_START t) 31 0) else s
  let s2 := s1.allocApplyStopped t
  if s2.goPending (Reg.PONU_COMMIT t) then s2.setIdleGo t true else s2

/-- TIMING_ARM: refused with TIMING_ERR unless all four are disabled; else any running timing stops at once and frame FC_START waits
for START_TIME (R173, R174, R204). [log 67 DEDUCED] -/
def timingArm (t : Tree) (s : Chip) : Chip :=
  if !s.treeQuiet t then s.raise (Reg.POND_EVENT t) 1
  else
    let s1 := (((s.abortRemainder t 0).abortRemainder t 1).countAnew t).goStopped t
    let s2 := (s1.updPond t fun p => { p with timing := .armed s.frc }).setFlag (Reg.POND_TIMING_CTRL t) 1 false
    (List.finRange 2).foldl (fun u w => (u.updFramer (wkey t w) fun f => { f with sending := false, mapFrame := none }).updChecker
      (wkey t w) fun _ => {}) s2

/-! ### PLOAM queues (R182 to R188) -/

/-- A 64-byte entry posted to a wavelength's queue, or discarded when it holds 256 (R184, R186). -/
def Chip.ploamPost (s : Chip) (t : Tree) (w : Wl) (bytes : List Byte) : Chip :=
  if 256 ≤ (s.pon.framers.get (wkey t w)).queue.length then (s.bump (Reg.POND_PLOAM_FULL t w)).raise (Reg.POND_EVENT t) 2
  else
    let e : PloamEntry := { bytes := bytes.take 48, tag := numBE ((bytes.drop 54).take 2) }
    s.updFramer (wkey t w) fun f => { f with queue := f.queue ++ [e] }

/-- PLOAM_FLUSH: the queue is emptied and nothing sent (R187). -/
def ploamFlush (t : Tree) (w : Wl) (s : Chip) : Chip :=
  s.updFramer (wkey t w) fun f => { f with queue := [], eligible := 0 }

/-- PLOAM_HOST_POST: a write to POND_PLOAM_HOST7 posts the eight registers as one entry (R184); a 32-bit write sets its half. -/
def ploamHostPost (t : Tree) (w : Wl) (lanes : Lanes) (v : W64) (s : Chip) : Chip :=
  let a := Reg.POND_PLOAM_HOSTi t w 7
  let s1 := match lanes with
    | .full => s.setReg a v
    | .low => s.setField a 31 0 (fld v 31 0)
    | .high => s.setField a 63 32 (fld v 31 0)
  s1.ploamPost t w ((List.range 8).flatMap fun i => wordBytes (s1.reg (Reg.POND_PLOAM_HOSTi t w i)))

/-! ### Time of day (R205, R206) -/

/-- TOD_ARM: a write of POND_TOD_ARM; with ARMED 1 a capture is armed for the named frame, or for the next one when the count is not
at least 2 ahead of POND_FC (R205). [log 93 DEDUCED] -/
def todArm (t : Tree) (v : W64) (s : Chip) : Chip :=
  let ahead := (fld v 50 0 + fcMod - (s.pon.pond.get t).fc) % fcMod
  (s.setReg (Reg.POND_TOD_ARM t) (w64 (fld v 51 0 + fld v 63 63 <<< 63))).updPond t fun p =>
    { p with todNext := bit v 63 && ahead < 2 }

/-- TOD_CAPTURE at frame n: the t0 stamp plus latency and offset; ARMED clears and TOD_DONE sets (R205, R206). [log 93 DEDUCED] -/
def Chip.todCapture (s : Chip) (t : Tree) (n : Nat) : Chip :=
  let a := s.reg (Reg.POND_TOD_ARM t)
  let p := s.pon.pond.get t
  if !bit a 63 || !(p.todNext || fld a 50 0 = n) then s
  else
    let w : Nat := fld a 51 51
    let at_ : Int := p.stamp + (Config.txLatency (t.val * 2 + w)).toNat + signed 32 (s.get (Reg.POND_TX_OFFSET t w) 31 0)
    let s1 := (s.setReg (Reg.POND_TOD_STAMP_NS t) (w64 (nsOf at_))).setReg (Reg.POND_TOD_STAMP_FRAC t) (w64 (fracOf at_))
    ((s1.setReg (Reg.POND_TOD_ARM t) (w64 (n + w <<< 51))).updPond t fun q => { q with todNext := false }).raise
      (Reg.POND_EVENT t) 7

/-! ### A frame begins (R176, R177, R181) -/

/-- PHASE_CHECK: after a frame its t0 stamp and PHASE_ERR, saturating, are written, and PHASE sets where |PHASE_ERR| exceeds PHASE_LIMIT (R177).
[log 91 DESIGN CHOICE] -/
def Chip.phaseCheck (s : Chip) (t : Tree) : Chip :=
  let p := s.pon.pond.get t
  let frames := (p.fc + fcMod - s.get (Reg.POND_FC_START t) 50 0) % fcMod
  let err := satInt 32 (p.stamp - (((s.reg (Reg.POND_START_TIME t)).toNat + frames * 125000) * 65536 : Nat))
  let s1 := (s.setReg (Reg.POND_T0_STAMP t) (w64 (nsOf p.stamp))).setReg (Reg.POND_PHASE t)
    (w64 (wrapInt 32 err + fracOf p.stamp <<< 32))
  if s.get (Reg.POND_PHASE_LIMIT t) 15 0 * 65536 < err.natAbs then s1.raise (Reg.POND_EVENT t) 0 else s1

/-- Idle XGEM frames from the wavelength's place up to a word (R181, R197, R202). [log 88 DESIGN CHOICE] -/
def Chip.idleTo (s : Chip) (t : Tree) (w : Wl) (until_ : Nat) : Chip :=
  let f := s.pon.framers.get (wkey t w)
  if until_ ≤ f.pos then s
  else
    let s1 := s.updFramer (wkey t w) fun g => { g with pos := until_ }
    if s.lasers then s1.emit (.xgemIdle (wkey t w) f.pos until_) else s1

/-- A frame is complete: what a sending transmitter has left of the FS frame carried idle XGEM frames (R181), its parity is out, and the frame
is counted; the depth of the PLOAM queue and the last PLOAMd's TAG and frame become readable (R188). [log 91 DESIGN CHOICE] -/
def Chip.frameDone (s : Chip) (t : Tree) (w : Wl) : Chip :=
  let f := s.pon.framers.get (wkey t w)
  let s1 := s.setReg (Reg.POND_PLOAM_STATUS t w) (w64 (f.queue.length + f.lastTag <<< 16 + (f.lastFrame % 4294967296) <<< 32))
  if !f.sending then s1
  else
    let s2 := (s1.idleTo t w (fsWords w)).bump (Reg.POND_FRAMES_SENT t w)
    let y := frameLayout w
    if s2.lasers then s2.emit (.phyEnd (wkey t w) y.codewords y.shortened y.bits) else s2

/-- A transmitter at a frame start at tick t0: it stops when disabled, and starts with the first frame at least 2 µs after the write that
enabled it (R178). -/
def Framer.atBoundary (f : Framer) (en : Bool) (t0 : Nat) : Framer :=
  if !en then { f with sending := false, want := none }
  else match f.want with
    | none => f
    | some at_ => if lasts (t0 - at_) 2000 then { f with sending := true, want := none } else { f with sending := false }

/-- A wavelength's transmitter at a frame start; one that stops drops a remainder that is still pending (R178, R204). -/
def Chip.txBoundary (s : Chip) (t : Tree) (w : Wl) (t0 : Nat) : Chip :=
  let s1 := s.updFramer (wkey t w) fun f => f.atBoundary (s.flag (Reg.POND_CTRL t) w) t0
  if (s1.pon.framers.get (wkey t w)).sending then s1 else s1.abortRemainder t w

/-- The 24 bytes of a PSBd: PSync, the superframe counter structure and the PON-ID structure, each of these with its HEC (R170, R179, R180).
[log 240 DESIGN CHOICE] -/
def psbdBytes (w fc ponId : Nat) : List Byte :=
  wordsBytes [Config.psync w, w64 (withHec 51 fc), w64 (withHec 51 ponId)]

/-- HLend: the count of allocation structures, the count of PLOAMd messages and the HEC (R181; the places of the counts are those of ITU-T
G.9807.1, PRESUMED). [log 242 PRESUMED] -/
def hlend (structures ploams : Nat) : BitVec 32 := BitVec.ofNat 32 (withHec 19 ((structures % 2048) <<< 8 + ploams % 256))

/-- A sending wavelength's header: HLend, the BWmap taken for frame n, and PLOAMd entries up to PLOAM_MAX of those queued by
then; it is sent and its words counted (R180 to R182). A frame for which no map was taken, one that began less than 4 µs after a takeover,
carries an empty map. [log 228 DESIGN CHOICE] -/
def Chip.sendHeader (s : Chip) (t : Tree) (w : Wl) (n : Nat) : Chip :=
  let f := s.pon.framers.get (wkey t w)
  if !f.sending then s
  else
    let map := if f.mapFrame = some n then f.map else []
    let k := min (min (fld (s.act (Reg.POND_PLOAM_MAX t w)) 4 0) f.eligible) f.queue.length
    let ps := f.queue.take k
    let header := 1 + 2 * map.length + 12 * k
    let f1 := { f with queue := f.queue.drop k, eligible := 0, header := header, pos := header, ploams := ps,
                       lastTag := (match ps.getLast? with | some p => p.tag | none => f.lastTag),
                       lastFrame := (if k = 0 then f.lastFrame else n % 4294967296) }
    let s1 := (s.updFramer (wkey t w) fun _ => f1).bump (Reg.POND_PLOAM_SENT t w) k
    if !s1.lasers then s1
    else s1.emit (.phyFrame (wkey t w) n (psbdBytes w n (fld (s.act (Reg.POND_PON_ID t w)) 50 0)) (hlend map.length k) map (ps.map (·.bytes)))

/-- The tree's own part of a frame start (R176): the frame before is completed, the count advances, staged values of POND, PONU and
ALLOC reach their application points, and each sending wavelength begins its frame. [log 68 DESIGN CHOICE] -/
def Chip.beginFrame (s : Chip) (t : Tree) (n t0 : Nat) : Chip :=
  let s1 := if s.timingRuns t then ((s.phaseCheck t).frameDone t 0).frameDone t 1 else s
  let s2 := (s1.updPond t fun p => { p with timing := .running (t0 + frameTicks), ran := true, fc := n, t0 := t0, stamp := s.logicalAt t0 })
  let s3 := ((s2.setReg (Reg.POND_FC t) (w64 n)).setFlag (Reg.POND_TIMING_CTRL t) 1 true).setField
    (Reg.ALLOC_TSTATUS t) 31 0 (n % 4294967296)
  let s4 := (((s3.pondApplyAt t n t0).ponuApplyAt t n t0).allocApplyAt t n t0).ownerHandover t n
  let s5 := (s4.txBoundary t 0 t0).txBoundary t 1 t0
  ((s5.sendHeader t 0 n).sendHeader t 1 n).todCapture t n

end Sys2Proof.Machine
end

