-- ==== Sys2Proof/Machine/Glk.lean ====
section
/-! DEFINITION. GLK: heartbeats, roles and turnover, the mirror stream, the link, performance bins (R588 to R628). -/
namespace Sys2Proof.Machine

def Chip.updGlk (s : Chip) (f : GlkState → GlkState) : Chip := { s with glk := f s.glk }

def Chip.updLink (s : Chip) (f : GlkLink → GlkLink) : Chip := s.updGlk fun g => { g with link := f g.link }

/-! ### The link's state (R610 to R616) -/

/-- LANES as applied. -/
def Chip.laneCount (s : Chip) : Nat := fld (s.act Reg.GLK_LINK_CFG) 3 0

/-- Whether the lanes in use have an error of numbering or skew (R614). -/
def Chip.laneErr (s : Chip) : Bool :=
  let n := s.laneCount
  let used := ((List.range n).map s.glk.link.lanes.get).filter (·.aligned)
  used.any (fun l => decide (n ≤ l.number)) || (used.map (·.number)).eraseDups.length ≠ used.length || !withinSkew (used.filterMap (·.place))

/-- Whether the link is aligned (R614). -/
def Chip.linkAligned (s : Chip) : Bool := (List.range s.laneCount).all (fun k => (s.glk.link.lanes.get k).aligned) && !s.laneErr

/-- Whether rows reach the consumers as they are: aligned, and the label expected (R615, R616). -/
def Chip.rowsPass (s : Chip) : Bool := s.linkAligned && s.glk.link.label = fld (s.act Reg.GLK_LINK_CFG) 27 20

/-- The defect of source 0 of the performance bins: quiet is none (R618, R619). -/
def Chip.linkDefect (s : Chip) : Chip := s.pmDefect 0 (!s.glk.link.rxQuiet && !s.rowsPass)

/-- What follows a change of the lanes: ALIGN_LOSS, LANE_ERR and the defect; the order of rows starts afresh (R613, R614). -/
def Chip.lanesChanged (old s : Chip) : Chip :=
  let s1 := if old.linkAligned && !s.linkAligned then
      let u := s.updLink fun l => { l with expect := none, rows := [], next := none }
      if s.glk.link.rxQuiet then u else u.raise Reg.GLK_EVENT 4
    else s
  (if s.laneErr && !old.laneErr then s1.raise Reg.GLK_EVENT 10 else s1).linkDefect

/-- BLOCK_LOCK: sync headers reach a lane, which gains or loses block lock; after QUIET_NEXT the loss is quiet (R610, R611, R618). -/
def blockLock (lane : Fin 8) (headers : List (BitVec 2)) (s : Chip) : Chip :=
  let old := s.glk.link.lanes.get lane
  let new := headers.foldl GlkLane.sync old
  let bad := (headers.filter fun h => h = 0 ∨ h = 3).length
  let s0 := if bad = 0 then s else s.bump Reg.GLK_BAD_BLOCK bad
  let s1 := s0.updLink fun l =>
    { l with lanes := l.lanes.set lane new
             rxQuiet := if new.lock then false else if old.lock then l.rxQuiet || l.quietNext else l.rxQuiet
             quietNext := !old.lock && l.quietNext || new.lock && l.quietNext }
  s1.lanesChanged s

/-- LANE_ALIGN: a block reaches a locked lane's marker search at a position of 1,024 (R613, R614). -/
def laneAlign (lane : Fin 8) (header : BitVec 2) (block : W64) (place : Fin 1024) (s : Chip) : Chip :=
  let x := s.glk.link.lanes.get lane
  if !x.lock || x.aligned then s
  else (s.updLink fun l => { l with lanes := l.lanes.set lane (x.search (fld (s.act Reg.GLK_LINK_CFG) 6 4) header block place) }).lanesChanged s

/-- ROW_SLIP: the slip buffer repeats a whole row, whose SEQ is then discarded, or drops the next; which, the spec leaves open (R617). [log 257 DESIGN CHOICE] -/
def rowSlip (s : Chip) : Chip :=
  let (i, s1) := s.tick
  (s1.updLink fun l => { l with dropRow := Config.slipDrops i }).bump Reg.GLK_SLIPS

/-! ### Staging (R626) -/

/-- Whether GLK's staged values may be applied (R626). -/
def Chip.glkStagedOk (s : Chip) : Bool :=
  let m := s.reg Reg.GLK_MATE_CFG
  let l := s.reg Reg.GLK_LINK_CFG
  let k := s.reg Reg.GLK_KEY
  s.legalRange 0x1600000 0x1800000 && fld m 4 1 ≠ 3 && fld m 4 1 ≠ 6 && fld k 15 0 < 40960 && fld k 31 16 < 40960
    && !(bit l 28 && fld l 19 12 ≠ 0)

/-- GLK_GO. -/
def glkGo (s : Chip) : Chip := s.go Reg.GLK_COMMIT s.glkStagedOk

/-- GLK_APPLY: the staged values take effect, ROLE among them; changed LANES, N or M restart the alignment search (R626). [log 155 DESIGN CHOICE] -/
def glkApply (s : Chip) : Chip :=
  if !s.goPending Reg.GLK_COMMIT then s
  else
    let s1 := (s.applyRange 0x1600000 0x1800000).goDone Reg.GLK_COMMIT
    let s2 := s1.withRole (fld (s1.act Reg.GLK_MATE_CFG) 4 1) none
    let s3 := if fld (s.act Reg.GLK_LINK_CFG) 11 0 = fld (s1.act Reg.GLK_LINK_CFG) 11 0 then s2
      else (s2.updLink fun l => { l with lanes := l.lanes.map fun (e : Nat × GlkLane) => (e.1, { lock := e.2.lock, recent := e.2.recent }) }).lanesChanged s
    let s4 := s3.updLink fun l => { l with quietSent := if bit (s1.act Reg.GLK_LINK_CFG) 28 then l.quietSent else 0 }
    if s4.mateOn then s4.evalPermit else { s4 with permit := false }

/-! ### Heartbeats (R591 to R593) -/

/-- READY (R604). -/
def Chip.mateReady (s : Chip) : Bool := 80 ≤ s.glk.run

/-- Word 1 of a HEARTBEAT record (R599). -/
def Chip.heartWord (s : Chip) : W64 :=
  w64 ((match s.glk.turn with | none => 0 | some f => 9223372036854775808 + f % 2251799813685248) + ofBool s.mateReady <<< 62)

/-- MIRROR_HEARTBEAT_SEND: a HEARTBEAT record in the mirror stream (R591). -/
def mirrorHeartbeatSend (s : Chip) : Chip := if s.mateOn then s.glkRecord 1 s.ownHeat [s.heartWord] else s

/-- A valid heartbeat on a path: the mate's heat number, READY and turnover frame; the permit and the roles follow (R590, R592, R593). -/
def Chip.heartbeat (s : Chip) (p : Nat) (h : Nat) (v : W64) : Chip :=
  if !s.mateOn then s
  else
    let old := s.glk.paths.get p
    let turn := if bit v 63 then some (fld v 50 0) else none
    let x : MatePath := { seen := true, at_ := s.frc, heat := h, turn := turn, ready := bit v 62
                          readyFrom := if old.seen && old.ready then old.readyFrom else s.frc }
    let s1 := s.updGlk fun g =>
      { g with paths := g.paths.set p x
               turn := if s.role = 9 && g.turn.isNone && turn ≠ g.turned then turn else g.turn }
    (if bitsOf h 3 0 = fld (s.act Reg.GLK_MATE_CFG) 16 13 then s1.raise Reg.GLK_EVENT 8 else s1).evalPermit

/-- PATH_LOSS: no valid heartbeat on path one (0) or two (1) for 300 µs (R592). -/
def pathLoss (p : Fin 2) (s : Chip) : Chip :=
  let k := p.val + 1
  let x := s.glk.paths.get k
  if !x.seen || !lasts (s.frc - x.at_) 300000 then s
  else ((s.updGlk fun g => { g with paths := g.paths.set k {} }).raise Reg.GLK_EVENT (2 + p.val)).evalPermit

/-! ### Rows (R598, R599, R610, R616 to R618) -/

/-- Bytes of a segment's plaintext. -/
def Chip.rowRoom (s : Chip) : Nat := s.laneCount * 8184 - 24

/-- The records that fit a row, in order, and those left. [log 176 DESIGN CHOICE] -/
def fillRow : Nat → List (List W64) → List W64 × List (List W64)
  | _, [] => ([], [])
  | room, r :: rs =>
    if 8 * r.length ≤ room then
      let (ws, left) := fillRow (room - 8 * r.length) rs
      (r ++ ws, left)
    else ([], r :: rs)

/-- A row's plaintext: its records, then PAD. -/
def padRow (room : Nat) (ws : List W64) : List W64 :=
  let k := room / 8 - ws.length
  if k = 0 then ws else ws ++ w64 ((8 * k) <<< 40) :: List.replicate (k - 1) 0

/-- A segment of the next records encrypted under TX_SLOT, and the state after; none where the slot cannot be used. A record too long for any
row is dropped. -/
def Chip.newSegment (s : Chip) : Option (List Byte) × Chip :=
  let k := fld (s.act Reg.GLK_KEY) 15 0
  let x := s.slot k
  if !s.slotOk k 1 then (none, s)
  else match s.slotUse k 1 (gcmBlocks s.rowRoom) with
    | (false, s1) => (none, s1)
    | (true, s1) =>
      let out := s.glkOut.filter fun r => 8 * r.length ≤ s.rowRoom
      let (ws, left) := fillRow s.rowRoom out
      let aad := natsBE 8 x.uses
      let (ct, tag) := gcmSeal x.keyBytes (fld x.label 31 0 <<< 64 + x.uses) aad (natsOf (wordsBytes (padRow s.rowRoom ws)))
      (some (bytesOf (aad ++ ct ++ tag)), { s1 with glkOut := left })

/-- A row leaves on the lanes in use, LANE k taking the k-th 8,184 bytes: markers, and payloads scrambled (R598, R610, R612). [log 256 DESIGN CHOICE] -/
def Chip.sendRow (s : Chip) (label : Nat) (quietNext : Bool) (payload : List Byte) : Chip :=
  let l := s.glk.link
  let frames := (List.range s.laneCount).map fun k =>
    let t := l.tx.get k
    let (bits, after) := scramble t.bits (lineBits ((payload.drop (8184 * k)).take 8184))
    let out := lineBytes bits
    (laneMarker k l.txSeq label t.bip quietNext, out, ({ bits := after, bip := bip8 out } : GlkTxLane))
  let tx := (frames.zip (List.range s.laneCount)).foldl (fun (m : Map GlkTxLane) p => m.set p.2 p.1.2.2) l.tx
  (s.updLink fun y => { y with tx := tx, txSeq := (y.txSeq + 1) % 65536 }).emit (.row (frames.map fun f => (f.1, f.2.1)))

/-- LANE_FRAME_SEND: the frame sequence counts on; the lanes send the next row: a quiet direction 16 markers and then nothing, all-ones while the
own receiver is not aligned, a resent or a new segment under label 0x01, a hierarchy frame under label 0x02, PRBS31 under 0x03 (R610, R615 to R618).
[log 175 DEDUCED, 176 DESIGN CHOICE] -/
def laneFrameSend (s : Chip) : Chip :=
  let cfg := s.act Reg.GLK_LINK_CFG
  let n := s.laneCount * 8184
  let seq := s.glk.link.txSeq
  let on := fun (u : Chip) => u.updLink fun l => { l with txSeq := (l.txSeq + 1) % 65536 }
  let ones := List.replicate n 0xFF#8
  let zeros := List.replicate n 0#8
  if !bit cfg 29 then on s
  else if bit cfg 28 then
    if s.glk.link.quietSent < 16 then (s.updLink fun l => { l with quietSent := l.quietSent + 1 }).sendRow 0 true zeros else on s
  else if !s.linkAligned then s.sendRow 0xFF false ones
  else match fld cfg 19 12 with
    | 1 => match s.glk.link.resend with
      | g :: rest => ((s.updLink fun l => { l with resend := rest }).bump Reg.GLK_RESENT).sendRow 1 false g.bytes
      | [] => match s.newSegment with
        | (none, s2) => s2.sendRow 1 false ones
        | (some bytes, s2) =>
          (s2.updLink fun l => { l with kept := (l.kept ++ [({ seq := seq, bytes := bytes } : Segment)]).drop (l.kept.length - 7) }).sendRow 1 false bytes
    | 2 => match s.glk.hierOut with
      | f :: rest => (s.updGlk fun g => { g with hierOut := rest }).sendRow 2 false ((f ++ List.replicate (n - f.length) 0).take n)
      | [] => s.sendRow 2 false zeros
    | 3 =>
      let (bits, after) := prbs31 (8 * n) s.glk.link.prbs
      (s.updLink fun l => { l with prbs := after }).sendRow 3 false (lineBytes bits)
    | label => s.sendRow label false zeros

/-- A RESEND record asked of the mate, ahead of what waits (R617). [log 175 DEDUCED] -/
def Chip.askResend (s : Chip) (first count : Nat) : Chip :=
  { s with glkOut := [w64 (5 <<< 56 + 8 <<< 40 + first + (min 15 count) <<< 16)] :: s.glkOut }

/-- The records of a plaintext, PAD left out. -/
def recordsOf : Nat → List W64 → List (List W64)
  | 0, _ => []
  | _, [] => []
  | n + 1, h :: rest =>
    let k := fld h 55 40 / 8
    if fld h 63 56 = 0 || k = 0 then []
    else (h :: rest.take (k - 1)) :: recordsOf n (rest.drop (k - 1))

/-- The records of a plaintext join those received. -/
def Chip.takeRecords (s : Chip) (pt : List Byte) : Chip :=
  let ws := bytesWords pt
  s.updLink fun l => { l with inbox := l.inbox ++ recordsOf ws.length ws }

/-- The rows held whose turn has come, in the order of their counts. -/
def Chip.flushRows (s : Chip) : Nat → Chip
  | 0 => s
  | k + 1 =>
    let l := s.glk.link
    match l.next with
    | none => s
    | some n => match l.rows.find? (·.seq = n) with
      | none => s
      | some g => Chip.flushRows ((s.takeRecords g.bytes).updLink fun x => { x with next := some (n + 1), rows := x.rows.filter (·.seq ≠ n) }) k

/-- RESEND_GAP at the receiver: a missing segment that the mate no longer holds ends the hold (R617). [log 175 DEDUCED] -/
def Chip.endHold (s : Chip) : Chip :=
  let l := s.glk.link
  match l.rows.map (·.seq) with
  | [] => s
  | n :: ns =>
    let low := ns.foldl min n
    let s1 := ((s.updLink fun x => { x with next := some low }).raise Reg.GLK_EVENT 6).bump Reg.GLK_GAPS
    s1.flushRows l.rows.length

/-- An accepted segment is delivered in count order, held behind a gap, or too late (R617). [log 175 DEDUCED] -/
def Chip.deliverRow (s : Chip) (count : Nat) (pt : List Byte) : Chip :=
  match s.glk.link.next with
  | none => (s.takeRecords pt).updLink fun l => { l with next := some (count + 1) }
  | some n =>
    if count < n then s
    else
      let s1 := (s.updLink fun l => { l with rows := l.rows ++ [{ seq := count, bytes := pt }] }).flushRows (s.glk.link.rows.length + 1)
      if n + 8 ≤ count && !s1.glk.link.rows.isEmpty then s1.endHold else s1

/-- A segment checked under RX_SLOT: never accepted before, within 64 of the highest, the tag right; else dropped, counted, charged and asked for
again (R598). -/
def Chip.openSegment (s : Chip) (seq : Nat) (payload : List Byte) : Chip :=
  let k := fld (s.act Reg.GLK_KEY) 31 16
  let x := s.slot k
  let b := natsOf payload
  let count := numNats (b.take 8)
  let l := s.glk.link
  let near := match l.highest with | none => true | some h => decide (count ≤ h + 64) && decide (h ≤ count + 64)
  let fail := fun (u : Chip) => ((u.bump Reg.GLK_TAG_FAIL).chargeFail k x.loads).askResend seq 1
  if !s.slotOk k 1 then (s.bump Reg.GLK_TAG_FAIL).askResend seq 1
  else if l.accepted.contains count || !near then fail s
  else match s.slotUse k 1 (gcmBlocks (b.length - 24)) with
    | (false, s1) => (s1.bump Reg.GLK_TAG_FAIL).askResend seq 1
    | (true, s1) =>
      match gcmOpen x.keyBytes (fld x.label 31 0 <<< 64 + count) (b.take 8) ((b.drop 8).take (b.length - 24)) (b.drop (b.length - 16)) with
      | none => fail s1
      | some pt =>
        let h := max count (l.highest.getD count)
        (s1.updLink fun y => { y with highest := some h, accepted := (count :: y.accepted).filter fun c => h ≤ c + 64 }).deliverRow count
          (bytesOf pt)

/-- A row of the mirror stream: a repeated SEQ is discarded, a missing one asked for (R617). -/
def Chip.mirrorRow (s : Chip) (seq : Nat) (payload : List Byte) : Chip :=
  let s1 := s.updLink fun l => { l with expect := some ((seq + 1) % 65536) }
  match s.glk.link.expect with
  | none => s1.openSegment seq payload
  | some e =>
    let d := (seq + 65536 - e) % 65536
    if 32768 ≤ d then s
    else if d = 0 then s1.openSegment seq payload
    else (s1.askResend e d).openSegment seq payload

/-- A row's lane frames at their lanes: the lanes after, and of each frame in order its lane's number, its payload and whether its BIP-8 failed. -/
def Chip.laneFrames (s : Chip) (x : RowLight) : Map GlkLane × List (Nat × List Byte × Bool) :=
  let m := fld (s.act Reg.GLK_LINK_CFG) 11 7
  (x.lanes.take s.laneCount).zipIdx.foldl (fun (st : Map GlkLane × List (Nat × List Byte × Bool)) p =>
    let r := (st.1.get p.2).receive m p.1
    (st.1.set p.2 r.1, st.2 ++ [(r.1.number, r.2)])) (s.glk.link.lanes, [])

/-- The payload of a row: the lanes' payloads in the order of LANE (R614). -/
def rowBytes (l : List (Nat × List Byte × Bool)) : List Byte := (l.mergeSort fun a b => decide (a.1 ≤ b.1)).flatMap (·.2.1)

/-- A row of an aligned link reaches its consumer by its label (R598, R615, R616). -/
def Chip.rowTaken (s : Chip) (label seq : Nat) (payload : List Byte) : Chip :=
  let expect := fld (s.act Reg.GLK_LINK_CFG) 27 20
  if label = 0xFF then s
  else if label ≠ expect then s.raise Reg.GLK_EVENT 5
  else match expect with
    | 1 => s.mirrorRow seq payload
    | 2 => s.updGlk fun g =>
        { g with hierIn := g.hierIn ++ [(fld (s.act Reg.GLK_HIER_CFG) 31 27, { bytes := payload, length := payload.length })] }
    | 3 => s.bump Reg.GLK_PRBS_ERR (prbsErrors payload)
    | _ => s

/-- ROW_RECEIVE: the lane frames of a row at their lanes, then the row, where the link is aligned and the slip buffer does not drop it; the label
decides who takes it (R598, R610 to R617). [log 175 DEDUCED] -/
def rowReceive (x : RowLight) (s : Chip) : Chip :=
  let (lanes, got) := s.laneFrames x
  let bad := (x.lanes.map fun l => badBlocks l.headers).sum
  let bips := (got.filter (·.2.2)).length
  let marks := (x.lanes.zip got).filter fun p => isMarker (p.1.headers.headD 2) p.1.marker
  let s0 := ((s.bump Reg.GLK_BAD_BLOCK bad).bump Reg.GLK_BIP_ERR bips).updLink fun l => { l with lanes := lanes }
  let s1 := s0.lanesChanged s
  if !s.linkAligned then s1
  else
    let s2 := s1.pmBlocks 0 s.laneCount bips
    let (label, quiet) := match marks with
      | p :: _ => (fld p.1.marker 23 16, bit p.1.marker 0)
      | [] => (s2.glk.link.label, s2.glk.link.quietNext)
    let s3 := (s2.updLink fun l => { l with label := label, quietNext := quiet, rxQuiet := false, dropRow := false }).linkDefect
    if !s1.linkAligned || s.glk.link.dropRow then s3
    else s3.rowTaken label (s3.glk.link.lanes.get 0).seq (rowBytes got)

/-! ### Records (R599 to R604, R617) -/

/-- The oldest record received, if it is of a type, and the state without it. -/
def Chip.nextRecord (s : Chip) (type : Nat) : Option (List W64 × Chip) :=
  match s.glk.link.inbox with
  | [] => none
  | r :: rest => if fld (r.headD 0) 63 56 = type then some (r, s.updLink fun l => { l with inbox := rest }) else none

/-- HEARTBEAT_RECORD: the oldest record is a heartbeat of the mate on path one (R592). -/
def heartbeatRecord (s : Chip) : Chip :=
  match s.nextRecord 1 with
  | none => s
  | some (r, s1) => s1.heartbeat 1 (fld (nth r 0) 15 0) (nth r 1)

/-- The list entry that an allocation structure of a wavelength spells, its StartTime and GrantSize in the list's units (R143). [log 180 DESIGN CHOICE] -/
def mirrorEntry (w : Nat) (v : W64) : W64 :=
  let st := if fld v 47 32 = 65535 then 65535 else min 65535 (fld v 47 32 * (Config.startUnit w + 1))
  let sz := min 65535 (fld v 31 16 * (Config.sizeUnit w + 1))
  w64 (fld v 63 50 <<< 50 + fld v 49 48 <<< 48 + fld v 14 13 <<< 46 + fld v 15 15 <<< 45 + st <<< 16 + sz)

/-- Units of 1/16 reference bit in one tick: 1.2559 ps on wavelength 0, 6.2794 ps on wavelength 1 (R101). -/
def unitsTick (w : Nat) : Nat := if w = 0 then 1280 else 256

/-- The tick at which upstream frame n of a wavelength begins at its receiver: t0(n) and TEQD (R105). -/
def Chip.upstreamAt (s : Chip) (t : Tree) (w : Wl) (n : Nat) (t0 : Int) : Int :=
  t0 + (fld (s.ponuAt t n (Reg.PONU_TEQD t w)) 31 0 / unitsTick w : Nat)

/-- A mirrored map for frame n: received under, if it came 4 µs before the upstream frame; the pattern of repeats; its digest compared (R602 to
R604). -/
def Chip.mirrorMap (s : Chip) (t : Tree) (w : Wl) (n : Nat) (t0 : Int) (digest : Nat) (l : List W64) : Chip :=
  let late := decide ((s.upstreamAt t w n t0 - s.frc) * 1000000 < 4000 * 622080)
  let s1 := if late then s.bump Reg.GLK_MIRROR_LATE else s
  let s2 := (s1.expectMap t w n l late).updChecker (wkey t w) fun c =>
    { c with sent := l, sentFrame := some n, windows := windowsAfter w n c.windows l }
  (s2.updGlk fun g => { g with digests := g.digests ++ [(wkey t w, n, digest)] }).digestCheck t w n

/-- The tree and wavelength of a MAP or SLOT record. -/
def recordTree (h : W64) : Tree := ⟨fld h 39 35 % 32, Nat.mod_lt _ (by decide)⟩
def recordWl (h : W64) : Wl := ⟨fld h 34 34 % 2, Nat.mod_lt _ (by decide)⟩

/-- MAP_RECORD (R602 to R604). -/
def mapRecord (s : Chip) : Chip :=
  match s.nextRecord 2 with
  | none => s
  | some (r, s1) =>
    let h := nth r 0
    let t := recordTree h
    match s.nextFrame t with
    | none => s1
    | some (m, t0) => match nearFrame m (fld h 31 0) with
      | none => s1
      | some (n, d) =>
        if !s.standbyAt n then s1
        else s1.mirrorMap t (recordWl h) n (t0 + d * frameTicks) (fld (nth r 1) 31 0)
          (((r.drop 2).take (fld (nth r 1) 47 32)).map (mirrorEntry (recordWl h)))

/-- The pairs of a SLOT record: the record index with KIND, and the slot word. -/
def slotPairs : List W64 → List (W64 × W64)
  | a :: b :: rest => (a, b) :: slotPairs rest
  | _ => []

/-- SLOT_RECORD: report and monitor slots of frames that the mate issued (R602). -/
def slotRecord (s : Chip) : Chip :=
  match s.nextRecord 3 with
  | none => s
  | some (r, s1) =>
    let t := recordTree (nth r 0)
    match s.nextFrame t with
    | none => s1
    | some (m, _) => match nearFrame m (fld (nth r 0) 31 0) with
      | none => s1
      | some (n, _) =>
        if !s.standbyAt n then s1
        else (slotPairs (r.drop 1)).foldl (fun u p => u.setRec (recKey t 0 (2 + fld p.1 14 14) (fld p.1 13 0)) p.2) s1

/-- PROGRAM_RECORD: delivered to GLK_PROG_DEST, or discarded with GAP (R600). [log 177 DEDUCED] -/
def programRecord (s : Chip) : Chip :=
  match s.nextRecord 4 with
  | none => s
  | some (r, s1) =>
    match s1.sendDest (s1.act Reg.GLK_PROG_DEST) (deviceSource 12 0) (wordsBytes (r.drop 1)) with
    | some (true, s2) => s2
    | some (false, s2) => s2.raise Reg.GLK_EVENT 6
    | none => s1.raise Reg.GLK_EVENT 6

/-- PROGRAM_RECORD_SEND: a message of the GLK_PROG_SRC queue becomes a PROGRAM record (R599). [log 175 DEDUCED] -/
def programRecordSend (s : Chip) : Chip :=
  let d := s.act Reg.GLK_PROG_SRC
  if !bit d 16 then s
  else match s.queueTake (s.redirect (fld d 5 0)) (fld d 15 6) with
    | none => s
    | some (body, s1) => s1.glkRecord 4 (fld d 5 0 <<< 32) (bytesWords body)

/-- RESEND_RECORD: the segments asked for are sent again; one no longer held is a gap (R617). -/
def resendRecord (s : Chip) : Chip :=
  match s.nextRecord 5 with
  | none => s
  | some (r, s1) =>
    let h := nth r 0
    (List.range (fld h 19 16)).foldl (fun u i =>
      match u.glk.link.kept.find? (·.seq = (fld h 15 0 + i) % 65536) with
      | some g => u.updLink fun l => { l with resend := l.resend ++ [g] }
      | none => (u.raise Reg.GLK_EVENT 6).bump Reg.GLK_GAPS) s1

/-! ### Turnover (R608, R609) -/

/-- Whether the mate has been READY on a seen path throughout the last 100 ms. -/
def Chip.mateSteady (s : Chip) : Bool :=
  [1, 2].any fun p => let x := s.glk.paths.get p; x.seen && x.ready && lasts (s.frc - x.readyFrom) 100000000

/-- The status of a turnover asked for at frame f when the present frame is n (R608). -/
def Chip.turnStatus (s : Chip) (n f : Nat) : Nat :=
  if !s.mateOn || s.role ≠ 12 then 1
  else if !s.mateSteady then 2
  else if f % 80 ≠ 0 || earlier f (n + 160) || s.glk.turn.isSome then 3
  else 0

/-- A turnover asked for: scheduled where its status is OK. [log 173 DESIGN CHOICE] -/
def Chip.askTurn (s : Chip) (n f : Nat) : Nat × Chip :=
  let st := s.turnStatus n f
  (st, if st = 0 then s.updGlk fun g => { g with turn := some f } else s)

/-- TURN_GO: a write of GLK_TURN with GO (R608, R628). [log 173 DESIGN CHOICE] -/
def turnGo (frame : BitVec 32) (s : Chip) : Chip :=
  let s1 := s.setField Reg.GLK_TURN 31 0 frame.toNat
  let (st, s2) := match s.mateFrame with
    | none => (if !s.mateOn || s.role ≠ 12 then 1 else if !s.mateSteady then 2 else 3, s1)
    | some n => s1.askTurn n ((n + (frame.toNat + 4294967296 - n % 4294967296) % 4294967296) % 2251799813685248)
  s2.setField Reg.GLK_TURN 35 34 st

/-- MATE_TURNOVER at a frame start: at its frame each part exchanges ACTIVE and STANDBY, unless it sees no mate (R609). -/
def Chip.mateTurnover (s : Chip) (n : Nat) : Chip :=
  if s.glk.turn ≠ some n || !s.mateOn || (s.role ≠ 12 && s.role ≠ 9) then s
  else if !(s.glk.paths.get 1).seen && !(s.glk.paths.get 2).seen then s.updGlk fun g => { g with turn := none }
  else
    let s1 : Chip := { s with role := if s.role = 12 then 9 else 12, tookActive := none }
    let s2 := s1.updGlk fun g => { g with turn := none, turned := some n }
    let s3 := ({ s2 with permit := s2.permits } : Chip)
    (s3.raise Reg.GLK_EVENT 9).bump Reg.GLK_TURNOVERS

/-- TURN_AUTO at a superframe boundary: a turnover two superframes ahead, when the period ends or the last attempt was refused (R608). [log 178 DESIGN CHOICE] -/
def Chip.turnAuto (s : Chip) (n : Nat) : Chip :=
  let m := s.act Reg.GLK_MATE_CFG
  if !s.mateOn || !bit m 17 || s.role ≠ 12 || n % 80 ≠ 0 then s
  else if n % (80 * fld m 49 18) = 0 || s.glk.retry then
    let (st, s1) := s.askTurn n ((n + 160) % 2251799813685248)
    s1.updGlk fun g => { g with retry := decide (st ≠ 0) }
  else s

/-- FRAME_START: the next frame of a tree begins once its instant has come (R174, R176); the frames of the lowest running tree time the
turnovers of a pair. -/
def frameStart (t : Tree) (s : Chip) : Chip :=
  match s.nextFrame t with
  | none => s
  | some (n, t0) =>
    if s.frc < t0 then s
    else
      let s1 := s.beginFrame t n t0
      if (List.range t.val).any (fun k => match (s1.pon.pond.get k).timing with | .running _ => true | _ => false) then s1
      else ((s1.mateTurnover n).turnAuto n).evalPermit

/-! ### Performance bins (R619 to R622) -/

/-- UTC seconds as bins see them: the second that LEAP61 adds belongs to the day before, and with LEAP59 the last second to the next (R622). -/
def Chip.binSecond (s : Chip) (k : Nat) : Int :=
  let r := s.reg Reg.TIME_UTC_OFFSET
  let u : Int := k - signed 16 (fld r 15 0)
  if bit r 16 && u % 86400 = 0 then u - 1 else if bit r 17 && u % 86400 = 86399 then u + 1 else u

/-- What a second held for a source: whether it was severely errored, and its counts. -/
def Chip.pmCount (s : Chip) (src k : Nat) : PmCount :=
  let c := s.glk.pm.counts.get (k * 128 + src)
  match (s.glk.pm.sources.get src).defectFrom with
  | some d => { c with defect := c.defect || decide (d ≤ k) }
  | none => c

def PmCount.severe (c : PmCount) (pct : Nat) : Bool := c.defect || (c.errored ≠ 0 && decide (pct * c.blocks ≤ 100 * c.errored))

/-- A second counted into a bin. -/
def PmBin.count (b : PmBin) (c : PmCount) (severe unavailable idf : Bool) : PmBin :=
  let x := { b with idf := b.idf || idf }
  if unavailable then { x with uas := x.uas + 1 }
  else
    let y := { x with es := x.es + ofBool (c.defect || c.errored ≠ 0), ses := x.ses + ofBool severe }
    if severe then y else { y with bbe := y.bbe + c.errored }

/-- A bin and its predecessor as the second whose bin begins at `start` is counted: whether the bin has changed, and both. -/
def binFor (cur prev : PmBin) (start : Nat) (first : Bool) : Bool × PmBin × PmBin :=
  if first then (false, { start := start, idf := true }, prev)
  else if cur.start = start then (false, cur, prev)
  else (true, { start := start }, { cur with complete := true })

/-- Second k of a source counted (R620). -/
def Chip.countSource (s : Chip) (src k : Nat) (first idf : Bool) : Chip :=
  let pct := fld (s.act Reg.GLK_PM_CFG) 6 0
  let x := s.glk.pm.sources.get src
  let sev := fun j => (s.pmCount src j).severe pct
  let next10 := (List.range 10).map fun i => sev (k + i)
  let unav := if x.unavailable then next10.any id else next10.all id
  let u := s.binSecond k
  let q := binFor x.cur15 x.prev15 (u / 900 * 900).toNat first
  let d := binFor x.curDay x.prevDay (u / 86400 * 86400).toNat first
  let put := fun (b : PmBin) => b.count (s.pmCount src k) (sev k) unav idf
  let y : PmSource :=
    { x with cur15 := put q.2.1, prev15 := q.2.2, curDay := put d.2.1, prevDay := d.2.2, unavailable := unav }
  s.updPm fun p => { p with sources := p.sources.set src y }

/-- Defects that are present when counting begins are entered. -/
def Chip.pmPresent (s : Chip) : Chip :=
  (List.range 32).foldl (fun u k => u.pmDefect (65 + k) (!(u.subs.get k).lock || (u.subs.get k).remoteFault)) s.linkDefect

/-- PM_SECOND: 10 s after a second ends it is counted for every source; where counting begins, after reset or a step of time, the next second is
the first (R621, R622). [log 179 DESIGN CHOICE] -/
def pmSecond (s : Chip) : Chip :=
  let now := s.second.toNat
  match s.glk.pm.next with
  | none => s.pmPresent.updPm fun p => { p with next := some (now + 1), marked := ((now + 1) :: p.marked).eraseDups }
  | some k =>
    if now < k + 11 then s
    else
      let first := (s.glk.pm.sources.get 0).cur15.start = 0
      let idf := s.glk.pm.marked.contains k
      let q0 := (s.glk.pm.sources.get 0).cur15.start
      let s1 := (List.range 97).foldl (fun u src => u.countSource src k first idf) s
      let s2 := s1.updPm fun p =>
        { p with next := some (k + 1), counts := p.counts.filter (fun (e : Nat × PmCount) => k < e.1 / 128), marked := p.marked.filter (k < ·) }
      if !first && (s2.glk.pm.sources.get 0).cur15.start ≠ q0 then s2.raise Reg.GLK_EVENT 12 else s2

/-- PM_SEL_WRITE: the selected bin is latched whole; a reserved SOURCE leaves the selection (R25, R626). -/
def pmSelWrite (v : W64) (s : Chip) : Chip :=
  let s1 := (if fld v 6 0 ≤ 96 then s.setField Reg.GLK_PM_SEL 6 0 (fld v 6 0) else s).setField Reg.GLK_PM_SEL 8 7 (fld v 8 7)
  let x := s.glk.pm.sources.get (s1.get Reg.GLK_PM_SEL 6 0)
  let b := match fld v 8 7 with | 0 => x.cur15 | 1 => x.prev15 | 2 => x.curDay | _ => x.prevDay
  (((s1.setReg Reg.GLK_PM_CNT0 (w64 (b.es + b.ses <<< 32))).setReg Reg.GLK_PM_CNT1 (w64 b.uas)).setReg Reg.GLK_PM_BBE
    (w64 (b.bbe % 281474976710656))).setReg Reg.GLK_PM_STATUS
      (w64 (ofBool b.idf + ofBool b.complete <<< 1 + ofBool x.unavailable <<< 2 + (b.start % 4294967296) <<< 32))

/-! ### Status registers (R628) -/

/-- GLK_MATE_STATUS. -/
def Chip.mateStatus (s : Chip) : W64 :=
  let p := fun k => s.glk.paths.get k
  w64 (s.ownHeat + (p 1).heat <<< 16 + (p 2).heat <<< 32 + ofBool (p 1).seen <<< 48 + ofBool (p 2).seen <<< 49 + ofBool s.permit <<< 50
    + ofBool s.glk.turn.isSome <<< 51 + ofBool s.mateReady <<< 52)

/-- GLK_LINK_STATUS. -/
def Chip.linkStatus (s : Chip) : W64 :=
  let l := s.glk.link
  let lane := fun (f : GlkLane → Bool) => ((List.range 8).map fun k => ofBool (f (l.lanes.get k)) <<< k).sum
  w64 (lane (·.lock) + lane (·.aligned) <<< 8 + ofBool s.linkAligned <<< 16 + ofBool l.rxQuiet <<< 17 + l.label <<< 18
    + ofBool (l.label = 0xFF) <<< 26)

end Sys2Proof.Machine
end

