-- ==== Sys2Proof/Machine/Prs.lean ====
section
/-! DEFINITION. PRS: the parse walk, rule lookups, a frame's passes, epochs and the rule-bank commands (R321 to R353). -/
namespace Sys2Proof.Machine

/-! ### Epochs (R340 to R345) -/

/-- A staged PRS value as a frame of an epoch sees it: the copy kept while its epoch drains, else the active one (R342, R344). -/
def Chip.prsVal (s : Chip) (epoch a : Nat) : W64 :=
  if s.prs.draining = some epoch then s.prs.old.look resetW a else s.act a

/-- Frames in flight for an epoch: between their first pass and the end of their last (R343). -/
def Chip.inFlight (s : Chip) (epoch : Nat) : Nat :=
  (s.prs.pipes.map fun p => (p.2.filter fun f => (f.stage = .recirc || f.stage = .ext) && f.epoch = epoch).length).sum

/-- Whether a result is a reserved encoding (R337). -/
def reservedResult (v : W64) : Bool :=
  fld v 63 52 ≠ 0 || (fld v 1 0 = 0 && !(fld v 6 2 = 0 || fld v 6 2 = 2 || fld v 6 2 = 7 || fld v 6 2 = 8 || 16 ≤ fld v 6 2))

/-- Whether a copy range of word 3 may be staged: LEN at most 16, and the bytes it writes lie in 8 to 63 (R345). -/
def keyCopyOk (len pos : Nat) : Bool := len = 0 || (len ≤ 16 && 8 ≤ pos && pos + len ≤ 64)

/-- Whether a staged node holds no reserved encoding (R325, R345). -/
def Chip.nodeOk (s : Chip) (n : Nat) : Bool :=
  let w := fun k => s.reg (Cell.prsNode n k)
  fld (w 0) 8 0 ≤ 256 && fld (w 0) 44 43 ≠ 3 && keyCopyOk (fld (w 3) 10 6) (fld (w 3) 16 11) &&
    keyCopyOk (fld (w 3) 27 23) (fld (w 3) 33 28) && (List.range 16).all fun k => fld (w (4 + k)) 40 32 ≤ 256

/-- Whether PRS's staged values may be applied (R345). Only nodes with a word written since reset need a look: the others hold reset values. -/
def Chip.prsStagedOk (s : Chip) : Bool :=
  let nodes := ((s.regs.filter fun e => cell 6 0 ≤ e.1 && e.1 < cell 7 0).map fun e => e.1 % 4294967296 / 32).eraseDups
  s.legalRange 0xA00000 0xC00000 && nodes.all (s.nodeOk ·) && (List.range 16).all fun p =>
    countBits 64 (s.reg (Cell.prsRuleMask p)).toNat ≤ 32 && !reservedResult (s.reg (Cell.prsMiss p))

/-- PRS_GO: refused in the cases of R345. -/
def prsGo (s : Chip) : Chip := s.go Reg.PRS_COMMIT s.prsStagedOk

/-- PRS_APPLY: the staged copy becomes active under the next EPOCH, and the old copy is kept while frames of its epoch are in flight
(R340, R344). -/
def prsApply (s : Chip) : Chip :=
  if !s.goPending Reg.PRS_COMMIT || s.prs.draining.isSome then s
  else
    let old := s.active.filter fun e => (0xA00000 ≤ e.1 && e.1 < 0xC00000) || (cell 6 0 ≤ e.1 && e.1 < cell 12 0)
    ((s.applyRange 0xA00000 0xC00000).applyRange (cell 6 0) (cell 12 0)).updPrs fun p =>
      { p with epoch := (p.epoch + 1) % 256, draining := some p.epoch, old := old }

/-- Staged values in [lo, hi) set to the applied ones (R344). -/
def Chip.restage (s : Chip) (lo hi : Nat) : Chip :=
  let inside := fun (e : Nat × W64) => decide (lo ≤ e.1) && decide (e.1 < hi) && stagedBits e.1 ≠ 0
  let keys := ((s.regs.filter inside).map (·.1)) ++ ((s.active.filter inside).map (·.1))
  keys.foldl (fun u a => u.setReg a (u.act a)) s

/-- EPOCH_DRAINED: with no frame of the old epoch in flight, PRS copies active to staged, clears PENDING and sets DRAINED (R344). -/
def epochDrained (s : Chip) : Chip :=
  match s.prs.draining with
  | none => s
  | some e =>
    if s.inFlight e ≠ 0 then s
    else
      let s1 := ((s.restage 0xA00000 0xC00000).restage (cell 6 0) (cell 12 0)).goDone Reg.PRS_COMMIT
      (s1.raise Reg.PRS_EVENT 7).updPrs fun p => { p with draining := none, old := [] }

/-! ### The walk (R324 to R333) -/

/-- What a walk has found so far: the key buffer, the recorded layer offsets, newest first, and how it ended. -/
structure Walk where
  key : List Byte := []
  layers : List (Nat × Nat) := []
  last : Nat := 0
  malformed : Bool := false
  toSlow : Bool := false
  depth : Bool := false
  fragment : Bool := false
  deriving DecidableEq, Repr, Inhabited

/-- The two bytes at a place, the first in bits [15:8] (R325). -/
def window (l : List Byte) (p : Nat) : Nat := (l.getD p 0).toNat * 256 + (l.getD (p + 1) 0).toNat

/-- The value of a length window of word 1 or 2 (R326). -/
def lengthOf (w : W64) (l : List Byte) (h : Nat) : Nat :=
  (((window l (h + fld w 5 0) &&& fld w 21 6) >>> fld w 25 22) <<< fld w 27 26) + fld w 35 28

/-- The next node of a header: the first enabled transition that matches, else DEFAULT_NEXT (R326). -/
def nextNode (wd : Nat → W64) (l : List Byte) (h : Nat) : Nat :=
  let sel := window l (h + fld (wd 0) 14 9) &&& fld (wd 0) 30 15
  match (List.range 16).find? fun k => bit (wd (4 + k)) 41 && (sel &&& fld (wd (4 + k)) 31 16) = fld (wd (4 + k)) 15 0 with
  | some k => fld (wd (4 + k)) 40 32
  | none => fld (wd 0) 8 0

/-- The byte ranges (start, end) that a node reads: its windows and key ranges (R329, R330). -/
def rangesRead (wd : Nat → W64) (h : Nat) : List (Nat × Nat) :=
  let two := fun (p : Nat) => (h + p, h + p + 2)
  [two (fld (wd 0) 14 9)]
    ++ (if bit (wd 0) 31 then [two (fld (wd 1) 5 0)] else [])
    ++ (if bit (wd 2) 36 then [two (fld (wd 2) 5 0)] else [])
    ++ (if fld (wd 0) 44 43 = 1 then [two (fld (wd 2) 59 54)] else [])
    ++ (if fld (wd 3) 10 6 = 0 then [] else [(h + fld (wd 3) 5 0, h + fld (wd 3) 5 0 + fld (wd 3) 10 6)])
    ++ (if fld (wd 3) 27 23 = 0 then [] else [(h + fld (wd 3) 22 17, h + fld (wd 3) 22 17 + fld (wd 3) 27 23)])

/-- A range of the frame copied into the key buffer. -/
def copyKey (key l : List Byte) (src len pos : Nat) : List Byte :=
  (List.range 64).map fun i => if pos ≤ i && i < pos + len then l.getD (src + (i - pos)) 0 else key.getD i 0

/-- The walk from a node with its header at h: at most n more nodes. A node whose key ranges lie within the frame's first 512 bytes has made its copies before its
new header start is looked at (R326, R327, R329, R330, R333). [log 100 DEDUCED] -/
def walk (val : Nat → W64) (l : List Byte) : Nat → Nat → Nat → Walk → Walk
  | 0, _, _, w => { w with depth := true }
  | n + 1, node, h, w =>
    let wd := fun k => val (Cell.prsNode node k)
    let w1 := { w with last := node, layers := if fld (wd 0) 42 41 = 0 then w.layers else (fld (wd 0) 42 41, h) :: w.layers }
    let frag := fld (wd 0) 44 43 = 2 || (fld (wd 0) 44 43 = 1 && (window l (h + fld (wd 2) 59 54) &&& fld (wd 2) 53 38) ≠ 0)
    let next := if frag then 256 else nextNode wd l h
    let adv := if bit (wd 0) 31 then lengthOf (wd 1) l h else fld (wd 0) 40 32
    let ranges := rangesRead wd h
    let bad := (ranges.any fun r => l.length < r.2) || (bit (wd 0) 31 && adv < fld (wd 1) 44 36)
      || (l.length ≤ h + adv && next ≠ 256) || (bit (wd 2) 36 && l.length - h < lengthOf (wd 2) l h)
    if bad then { w1 with malformed := true, toSlow := bit (wd 0) 45 }
    else if ranges.any fun r => 512 < r.2 then { w1 with depth := true }
    else
      let k1 := copyKey w.key l (h + fld (wd 3) 5 0) (fld (wd 3) 10 6) (fld (wd 3) 16 11)
      let k2 := copyKey k1 l (h + fld (wd 3) 22 17) (fld (wd 3) 27 23) (fld (wd 3) 33 28)
      let w2 := { w1 with key := k2, fragment := frag }
      if next = 256 then w2 else if 511 < h + adv then { w2 with depth := true } else walk val l n next (h + adv) w2

/-- The start word of a pass: its node, offset and profile with the source fields of the first (R321, R347). -/
def passStart (f : PipeFrame) : W64 := w64 (f.node + f.offset <<< 8 + f.profile <<< 17 + (fld f.start 63 21) <<< 21)

/-- A pass of a frame: the walk, with its key buffer begun from the start word, and the hash index; HIT stays that of the last rule lookup (R324, R352, R358).
[log 100 DEDUCED] -/
def Chip.parse (s : Chip) (f : PipeFrame) : PipeFrame × Walk :=
  let val := s.prsVal f.epoch
  let w := walk val f.bytes 24 f.node f.offset { key := wordBytes (passStart f) ++ List.replicate 56 0 }
  let input := selectBytes (val (Cell.prsHashMask f.profile)) w.key
  let hash := hashIndex (spreadHash val (bit (val (Cell.prsProfileCtrl f.profile)) 4) input)
  ({ f with key := w.key, hash := hash, lastNode := w.last, malformed := w.malformed, depth := w.depth, fragment := w.fragment,
            layers := w.layers, result := 0 }, w)

/-! ### Rule lookup (R335, R336) -/

/-- A rule key: the selected key-buffer bytes, padded with zeros to 32 (R335). -/
def ruleKey (mask : W64) (key : List Byte) : Nat :=
  let b := selectBytes mask key
  numBE (b ++ List.replicate (32 - b.length) 0)

/-- RULE_LOOKUP: the frame with its result; a miss, a rule that fails its check, and RS_EN 0 take the profile's MISS result
(R336). -/
def Chip.ruleLookup (s : Chip) (f : PipeFrame) (faulty : Bool) : PipeFrame × Chip :=
  let val := s.prsVal f.epoch
  let ctrl := val (Cell.prsProfileCtrl f.profile)
  let miss := { f with result := val (Cell.prsMiss f.profile), hit := false }
  if !bit ctrl 3 then (miss, s)
  else
    let bank := fld ctrl 2 0
    match s.findRule bank (ruleKey (val (Cell.prsRuleMask f.profile)) f.key) with
    | none => (miss, s.bump Reg.PRS_RS_MISS)
    | some p =>
      if faulty then (miss, ((s.bump Reg.PRS_RS_MISS).bump Reg.PRS_ENTRY_ERR).raise Reg.PRS_EVENT 5)
      else ({ f with result := (s.prs.rules.get (rulePlace bank p.1 p.2)).result, hit := true }, s)

/-! ### Passes (R331 to R333, R337, R347) -/

/-- What a frame's rule result does with it (R337, R347). -/
def Chip.takeAction (s : Chip) (half : Nat) (f : PipeFrame) (faults : LookupFaults) : Option PipeFrame × Chip :=
  let r := f.result
  match f.action with
  | 0 => (none, s.slowFrame half f (fld r 6 2))
  | 1 => s.fwdFrame half f faults false
  | 2 => (none, s.pipeDrop f)
  | _ =>
    if f.passes = 2 then (none, ((s.bump Reg.PRS_LOOP).raise Reg.PRS_EVENT 3).slowFrame half f 9)
    else (some { f with stage := .recirc, node := fld r 14 7, offset := fld r 23 15, profile := fld r 27 24 }, s)

/-- One pass: parse, look up, act. The result is the frame as it stays in the half, or none (R326 to R337). -/
def Chip.runPass (s : Chip) (half : Nat) (f0 : PipeFrame) (faults : LookupFaults) : Option PipeFrame × Chip :=
  let (f, w) := s.parse f0
  if w.malformed then
    let s1 := (s.bump Reg.PRS_MALFORMED).raise Reg.PRS_EVENT 0
    (none, if w.toSlow then s1.slowFrame half f 5 else s1.pipeDrop f)
  else
    let (g, s1) := s.ruleLookup f faults.rule
    if w.depth then (none, ((s1.bump Reg.PRS_DEPTH).raise Reg.PRS_EVENT 1).slowFrame half g 4)
    else
      let s2 := if w.fragment then s1.bump Reg.PRS_FRAG else s1
      if w.fragment && bit (s.prsVal f.epoch (Cell.prsProfileCtrl f.profile)) 5 then (none, s2.slowFrame half g 6)
      else s2.takeAction half g faults

/-- A frame with DIRECT goes to TM with its descriptor's DEST and FLOW_TAG, without a rule or forwarding lookup; the walk gives its
hash index (R645). [log 101 DESIGN CHOICE] -/
def Chip.runDirect (s : Chip) (f0 : PipeFrame) (dest : W64) (tag : Nat) : Option PipeFrame × Chip :=
  let f := { (s.parse f0).1 with result := w64 (1 + tag <<< 28), malformed := false, depth := false, fragment := false }
  s.forwardTo f (fld dest 31 0)

/-- The frame at a place of a half replaced by what a step left of it. -/
def Chip.putBack (s : Chip) (half i : Nat) (r : Option PipeFrame) : Chip :=
  s.updPrs fun p => { p with pipes := p.pipes.upd half fun l =>
    match r with
    | some f => l.set i f
    | none => l.eraseIdx i }

/-- The first frame of a half at a stage acted on, and the slow-path frames released that it held back (R384). -/
def Chip.onFrame (s : Chip) (half : Nat) (sel : PipeFrame → Bool) (act : PipeFrame → Option PipeFrame × Chip) : Chip :=
  let l := s.prs.pipes.get half
  match l.findIdx? sel with
  | none => s
  | some i =>
    let (r, s1) := act (nth l i)
    (s1.putBack half i r).releaseSlow half l.length

/-- A line frame takes START_NODE, START_OFFSET and PROFILE from its source's entry as its first pass begins (R321, R322). [log 110 DESIGN CHOICE] -/
def Chip.atSource (s : Chip) (f : PipeFrame) : PipeFrame :=
  if f.srcKind < 2 then
    let e := s.act (Cell.prsSrc (if f.srcKind = 0 then 2 * f.srcUnit + fld f.start 29 29 else 64 + f.srcUnit))
    { f with start := setFld f.start 20 0 (fld e 20 0), node := fld e 7 0, offset := fld e 16 8, profile := fld e 20 17 }
  else f

/-- PIPE_ENTRY: the next frame of a half has its first pass, under the present EPOCH; line traffic goes before injections (R49,
R342). -/
def pipeEntry (half : Nat) (faults : LookupFaults) (s : Chip) : Chip :=
  let l := s.prs.pipes.get half
  let line := l.any fun f => f.stage = .first && f.srcKind < 2
  s.onFrame half (fun f => f.stage = .first && (!line || f.srcKind < 2)) fun f =>
    let f1 := { s.atSource f with epoch := s.prs.epoch }
    match f.direct with
    | some (dest, tag) => s.runDirect f1 dest tag
    | none => s.runPass half f1 faults

/-- RECIRC_PASS: an admitted recirculated pass (R347, R349). -/
def recircPass (half : Nat) (faults : LookupFaults) (s : Chip) : Chip :=
  s.onFrame half (fun f => f.stage = .recirc) fun f =>
    (s.bump Reg.PRS_RECIRC).runPass half { f with passes := f.passes + 1, stage := .first } faults

/-- RECIRC_SHED: a recirculation that found no admission for 64 fabric clocks goes to class SHED (R349). -/
def recircShed (half : Nat) (s : Chip) : Chip :=
  s.onFrame half (fun f => f.stage = .recirc) fun f =>
    (none, ((s.bump Reg.PRS_RECIRC_SHED).raise Reg.PRS_EVENT 4).slowFrame half f 10)

/-- EXT_LOOKUP: a half's first frame that waits for the extension has its lookups repeated there (R383, R384). -/
def extLookup (half : Nat) (faults : LookupFaults) (s : Chip) : Chip :=
  s.onFrame half (fun f => f.stage = .ext) fun f => s.fwdFrame half f faults true

/-- A frame that arrives at a half, behind those there. -/
def Chip.enterPipe (s : Chip) (half : Nat) (f : PipeFrame) : Chip :=
  s.updPrs fun p => { p with pipes := p.pipes.upd half (· ++ [f]) }

/-- A start word from START_NODE, START_OFFSET and PROFILE in [20:0] and the source fields (R321). -/
def startWord (entry : W64) (kind unit wl port : Nat) : W64 :=
  w64 (fld entry 20 0 + kind <<< 21 + (unit % 64) <<< 23 + (wl % 2) <<< 29 + (port % 65536) <<< 30)

/-- A frame begun from a start word. -/
def frameOf (start : W64) (bytes : List Byte) (stamp : Nat) : PipeFrame :=
  { bytes := bytes, length := bytes.length, start := start, node := fld start 7 0, offset := fld start 16 8,
    profile := fld start 20 17, kind := fld start 22 21, stamp := stamp }

/-! ### Rule-bank commands (R338, R339, R341) -/

/-- Whether a bank is in use (R341). [log 249 DEDUCED] -/
def Chip.bankInUse (s : Chip) (bank : Nat) : Bool :=
  (List.range 16).any fun p => fld (s.act (Cell.prsProfileCtrl p)) 2 0 = bank ||
    (s.prs.draining.isSome && fld (s.prs.old.look resetW (Cell.prsProfileCtrl p)) 2 0 = bank)

/-- Rules of a bank. -/
def Chip.bankRules (s : Chip) (bank : Nat) : Map Rule :=
  s.prs.rules.filter fun e => bank * 16384 ≤ e.1 && e.1 < (bank + 1) * 16384

/-- The key in PRS_RS_KEY0 to PRS_RS_KEY3. -/
def Chip.rsKey (s : Chip) : Nat := numBE ((List.range 4).flatMap fun i => wordBytes (s.reg (Reg.PRS_RS_KEYk i)))

/-- A rule-bank command begins, or is discarded with CMD_ERR while another runs; its status is written when it completes (R339). -/
def Chip.rsCmd (s : Chip) (op bank dst : Nat) (run : Chip → Nat × Chip) : Chip :=
  if s.prs.command.isSome then s.raise Reg.PRS_EVENT 6
  else
    let s1 := (s.setField Reg.PRS_RS_CMD 8 0 (op + bank <<< 3 + dst <<< 6)).setFlag Reg.PRS_RS_CMD 10 true
    let (st, s2) := run s1
    s2.updPrs fun p => { p with command := some st }

/-- RS_FIND: the rule's result goes to PRS_RS_RESULT. [log 97 DESIGN CHOICE] -/
def rsFind (bank dst : Nat) (s : Chip) : Chip :=
  s.rsCmd 0 bank dst fun u =>
    match u.findRule bank u.rsKey with
    | none => (3, u)
    | some p => (0, u.setReg Reg.PRS_RS_RESULT (u.prs.rules.get (rulePlace bank p.1 p.2)).result)

/-- RS_INSERT. -/
def rsInsert (bank dst : Nat) (s : Chip) : Chip :=
  s.rsCmd 1 bank dst fun u =>
    if reservedResult (u.reg Reg.PRS_RS_RESULT) then (5, u)
    else if u.bankInUse bank then (4, u)
    else if (u.findRule bank u.rsKey).isSome then (2, u)
    else match u.insertRule bank u.rsKey (u.reg Reg.PRS_RS_RESULT) with
      | some v => (0, v)
      | none => (1, u)

/-- RS_DELETE. -/
def rsDelete (bank dst : Nat) (s : Chip) : Chip :=
  s.rsCmd 2 bank dst fun u =>
    if u.bankInUse bank then (4, u)
    else match u.findRule bank u.rsKey with
      | none => (3, u)
      | some p => (0, u.setRule bank p {})

/-- RS_CLEAR. -/
def rsClear (bank dst : Nat) (s : Chip) : Chip :=
  s.rsCmd 3 bank dst fun u =>
    if u.bankInUse bank then (4, u)
    else (0, u.updPrs fun p => { p with rules := p.rules.filter fun e => e.1 / 16384 ≠ bank })

/-- RS_COPY: bank DST takes the contents of bank BANK; DST must not be in use. -/
def rsCopy (bank dst : Nat) (s : Chip) : Chip :=
  s.rsCmd 4 bank dst fun u =>
    if u.bankInUse dst then (4, u)
    else
      let from_ := u.bankRules bank
      let cleared := u.updPrs fun p => { p with rules := p.rules.filter fun e => e.1 / 16384 ≠ dst }
      (0, cleared.updPrs fun p =>
        { p with rules := from_.foldl (fun m (e : Nat × Rule) => m.set (dst * 16384 + e.1 % 16384) e.2) p.rules })

/-- RS_CMD_DONE: STATUS is written and RUNNING clears (R339). [log 97 DESIGN CHOICE] -/
def rsCmdDone (s : Chip) : Chip :=
  match s.prs.command with
  | none => s
  | some st =>
    ((s.setField Reg.PRS_RS_CMD 18 16 st).setFlag Reg.PRS_RS_CMD 10 false).updPrs fun p => { p with command := none }

end Sys2Proof.Machine
end

