-- ==== Sys2Proof/Machine/Hif.lean ====
section
/-! DEFINITION. HIF: rings, events and MSI-X, endpoints (R629 to R649, R739). -/
namespace Sys2Proof.Machine

def Chip.updHif (s : Chip) (f : HifState → HifState) : Chip := { s with hif := f s.hif }

def Chip.endpoint (s : Chip) (e : Nat) : Endpoint := s.hif.eps.get e

def Chip.updEndpoint (s : Chip) (e : Nat) (f : Endpoint → Endpoint) : Chip := s.updHif fun h => { h with eps := h.eps.upd e f }

/-- Whether the strap PCIE_SPLIT was read as 1 (R629, R741). -/
def Chip.split (s : Chip) : Bool := s.flag Reg.GLB_STRAPS 0

/-! ### Rings (R635 to R637) -/

def Chip.ring (s : Chip) (k : Nat) : Ring := s.rings.get k

def Chip.updRing (s : Chip) (k : Nat) (f : Ring → Ring) : Chip := { s with rings := s.rings.upd k f }

/-- Word k of a ring's registers: 0 BASE, 1 CFG, 2 BIND, 3 FRAMES, 4 BYTES, 5 DROPS, 6 STARVED. -/
def Chip.ringReg (s : Chip) (r k : Nat) : W64 := s.reg (Cell.hifRing r k)

/-- EN and EP of a ring, and its 2^LOG2 descriptors. -/
def Chip.ringEn (s : Chip) (r : Nat) : Bool := bit (s.ringReg r 1) 0
def Chip.ringEp (s : Chip) (r : Nat) : Nat := fld (s.ringReg r 1) 1 1
def Chip.ringSize (s : Chip) (r : Nat) : Nat := 2 ^ fld (s.ringReg r 1) 5 2

/-- Whether HIF may do a ring's DMA (R631). -/
def Chip.ringRuns (s : Chip) (r : Nat) : Bool := s.ringEn r && (s.endpoint (s.ringEp r)).bme

/-- A TAIL write: the descriptors that it posts, as the host wrote them; one beyond what is given is whatever host memory held (R635). A
TAIL that goes back takes the last ones from HIF again where it has not used them. [log 181 DESIGN CHOICE, 260 DESIGN CHOICE] -/
def Chip.tailWrite (s : Chip) (r tail : Nat) (descs : List Desc) : Chip :=
  let x := s.ring r
  if s.ringSize r < (tail + 65536 - x.head) % 65536 then s.raise Reg.HIF_EVENT 1
  else
    let ours := (tail + 65536 - x.head) % 65536 - (x.open_.map fun o => o.descs.length).sum
    let n := ours - x.posted.length
    let given := descs.take n
    let (f, s1) := s.tick
    let open_ := (List.range (n - given.length)).map fun i =>
      ({ w0 := Config.hostWord f i 0, w1 := Config.hostWord f i 1, w2 := Config.hostWord f i 2, w3 := Config.hostWord f i 3 } : Desc)
    s1.updRing r fun y => { y with tail := tail, posted := y.posted.take ours ++ given ++ open_ }

/-- RX_TAIL_WRITE. -/
def rxTailWrite (ring : Fin 4096) (tail : BitVec 16) (descs : List Desc) (s : Chip) : Chip := s.tailWrite (ringKey 0 ring) tail.toNat descs

/-- TX_TAIL_WRITE. -/
def txTailWrite (ring : Fin 4096) (tail : BitVec 16) (descs : List Desc) (s : Chip) : Chip := s.tailWrite (ringKey 1 ring) tail.toNat descs

/-- The ring of HIF_RING_SEL. -/
def Chip.selRing (s : Chip) : Nat := ringKey (s.get Reg.HIF_RING_SEL 12 12) (s.get Reg.HIF_RING_SEL 11 0)

/-- The endpoint that a vector belongs to (R630). -/
def Chip.vectorEp (s : Chip) (v : Nat) : Nat := if s.split && 1024 ≤ v then 1 else 0

/-- A ring's settings as a write leaves them: a field given a reserved encoding keeps its value (R25, R647, R677). -/
def Chip.ringCfgAfter (s : Chip) (old v : W64) : W64 :=
  let en := bit v 0
  let log := if en && (fld v 5 2 < 6) then fld old 5 2 else fld v 5 2
  let vec := if s.vectorEp (fld v 16 6) = fld v 1 1 then fld v 16 6 else fld old 16 6
  let cnt := if bit v 17 && fld v 25 18 = 0 then fld old 25 18 else fld v 25 18
  setFld (setFld (setFld (w64 (fld v 43 0)) 5 2 log) 16 6 vec) 25 18 cnt

/-- The frames that a ring still holds go back to the buffer as it is cleared. -/
def Chip.clearRing (s : Chip) (r : Nat) : Chip :=
  ((s.ring r).inbox.foldl (fun u it => match it.frame with
    | some f => u.frameGone f true true
    | none => match it.held with
      | some a => u.dropHeld a true
      | none => u) s).updRing r fun _ => {}

/-- RING_CFG_WRITE: a write of the selected ring's BASE (`base`) or settings. BASE, LOG2, EP and PIPE do not change while EN is 1; setting EN begins
at HEAD and TAIL 0 (R637). [log 183 DEDUCED] -/
def ringCfgWrite (base : Bool) (v : W64) (s : Chip) : Chip :=
  let r := s.selRing
  let old := s.ringReg r 1
  let en := bit old 0
  if base then
    if en then s.raise Reg.HIF_EVENT 2 else s.setReg (Cell.hifRing r 0) (w64 (fld v 63 12 <<< 12))
  else
    let new := s.ringCfgAfter old v
    if en && (fld old 5 1 ≠ fld new 5 1 || fld old 43 42 ≠ fld new 43 42) then s.raise Reg.HIF_EVENT 2
    else
      let s1 := s.setReg (Cell.hifRing r 1) new
      if bit new 0 && !en then s1.clearRing r else s1

/-! ### Write-backs (R636, R648) -/

/-- A descriptor as bytes. -/
def descBytes (d : Desc) : List Byte := wordBytes d.w0 ++ wordBytes d.w1 ++ wordBytes d.w2 ++ wordBytes d.w3

/-- Descriptors written back in ring order from HEAD, which advances; the source's unsignalled write-backs grow. -/
def Chip.writeBack (s : Chip) (r : Nat) : List Desc → Chip
  | [] => s
  | d :: ds =>
    let x := s.ring r
    let at_ := (s.ringReg r 0).toNat + 32 * (x.head % s.ringSize r)
    let s1 := (s.emit (.dma (s.ringEp r) at_ (descBytes d))).updRing r fun y =>
      { y with head := (y.head + 1) % 65536, unsignalled := y.unsignalled + 1, oldest := if y.unsignalled = 0 then s.frc else y.oldest }
    s1.writeBack r ds

/-! ### Receive (R638 to R642) -/

/-- The buffers that data fills in posting order: each with its bytes. -/
def fillChunks : List Desc → List Byte → List (Desc × List Byte)
  | [], _ => []
  | d :: ds, l => if l = [] then [] else (d, l.take (fld d.w2 15 0)) :: fillChunks ds (l.drop (fld d.w2 15 0))

/-- A receive descriptor as HIF writes it back (R638). -/
def rxDone (it : RxItem) (d : Desc) (len : Nat) (sop eop part trunc : Bool) : Desc :=
  { d with
    w0 := w64 (len + ofBool sop <<< 16 + ofBool eop <<< 17 + ofBool part <<< 18 + ofBool trunc <<< 19 + ofBool it.untrusted <<< 20
      + ofBool it.oversize <<< 21 + it.kind <<< 22 + (it.cls % 32) <<< 24 + (it.flowTag % 16777216) <<< 32 + 1 <<< 63)
    w1 := it.word1
    w2 := w64 (it.stamp % 281474976710656 + (it.length % 16384) <<< 48) }

/-- The cells of what a ring has taken or lost go back (R434, R646). -/
def Chip.rxGone (s : Chip) (it : RxItem) (dropped : Bool) : Chip :=
  let s1 := match it.held with | some a => s.dropHeld a dropped | none => s
  match it.frame with
  | some f => if dropped then s1.frameGone f true true else (s1.frameGone f true false).timedStatus f 2
  | none => s1

/-- A forwarded frame dropped whole: its ring has no buffer for its first byte, or is paused or stopped (R631, R637, R641). [log 261 DEDUCED] -/
def Chip.rxDrop (s : Chip) (r : Nat) (it : RxItem) : Chip :=
  (((s.bump (Cell.hifRing r 5)).bump (Cell.hifRing r 6)).raise Reg.HIF_EVENT 4).rxGone it true

/-- An item written to a ring's buffers, or dropped whole where a forwarded frame finds none (R639 to R641). -/
def Chip.rxWrite (s : Chip) (r : Nat) (it : RxItem) : Chip :=
  let x := s.ring r
  let parts := fillChunks x.posted it.data
  let n := parts.length
  if n = 0 then s.rxDrop r it
  else
    let short := decide ((parts.map fun p => p.2.length).sum < it.data.length)
    let s1 := parts.foldl (fun u p => u.emit (.dma (u.ringEp r) p.1.w3.toNat p.2)) s
    let done := (List.range n).map fun i =>
      let p := parts.getD i default
      rxDone it p.1 p.2.length (i = 0) (i + 1 = n) short (short && i + 1 = n)
    let s2 := (s1.updRing r fun y => { y with posted := y.posted.drop n }).writeBack r done
    let s3 := ((s2.bump (Cell.hifRing r 3)).bump (Cell.hifRing r 4) (it.data.length)).rxGone it false
    if short then (s3.bump (Cell.hifRing r 6)).raise Reg.HIF_EVENT 4 else s3

/-- A forwarded frame reaches its ring. -/
def Chip.rxForward (s : Chip) (r : Nat) (it : RxItem) : Chip := if s.ringRuns r then s.rxWrite r it else s.rxDrop r it

/-- The frame that TM has handed to a host channel for a ring before any other: its channel and place (R406, R642). [log 186 DESIGN CHOICE] -/
def Chip.hostFrame (s : Chip) (ring : Nat) : Option (Nat × Nat × TmFrame) :=
  (List.range 8).foldl (fun (best : Option (Nat × Nat × TmFrame)) i =>
    let l := s.tm.egress.get (96 + i)
    match l.findIdx? fun x => fld x.f.dest 31 28 = 4 && fld x.f.dest 11 0 = ring, best with
    | some k, some b => if (nth l k).turn < b.2.2.turn then some (96 + i, k, nth l k) else some b
    | some k, none => some (96 + i, k, nth l k)
    | none, b => b) none

/-- A forwarded frame as a ring receives it. -/
def forwardedItem (x : TmFrame) : RxItem :=
  { kind := 0, flowTag := x.f.flowTag, word1 := x.f.start, stamp := x.f.stamp, data := x.f.bytes
    length := if x.f.oversize then x.f.received else x.f.length
    untrusted := x.f.bad, oversize := x.f.oversize, frame := some x.f }

/-- RX_DELIVER: the next slow-path delivery or engine message of a receive ring, or else the next forwarded frame for it, fills buffers and is
written back; what the ring has accepted waits while its endpoint may not master the bus, and completes after EN is cleared (R631, R637 to R642).
[log 185 DEDUCED] -/
def rxDeliver (ring : Fin 4096) (s : Chip) : Chip :=
  let r := ringKey 0 ring
  match (s.ring r).inbox with
  | it :: rest =>
    if !(s.endpoint (s.ringEp r)).bme then s else (s.updRing r fun x => { x with inbox := rest }).rxWrite r it
  | [] => match s.hostFrame ring with
    | none => s
    | some (ch, k, x) => (s.updTm fun t => { t with egress := t.egress.upd ch (·.eraseIdx k) }).rxForward r (forwardedItem x)

/-! ### Transmit (R643 to R646) -/

/-- The next run of a transmit ring, through its first EOP; none where that is not posted (R644). -/
def nextRun : List Desc → Option (List Desc)
  | [] => none
  | d :: ds => if bit d.w0 17 then some [d] else (nextRun ds).map (d :: ·)

/-- Bytes of a run. -/
def runBytes (l : List Desc) : Nat := (l.map fun d => fld d.w0 15 0).sum

/-- Whether a run is a frame (R644); a second SOP in it, or a descriptor whose LEN R643 does not allow, makes it none. [log 262 DESIGN CHOICE] -/
def runOk (l : List Desc) : Bool :=
  let first := l.headD {}
  bit first.w0 16 && decide (l.length ≤ 32) && decide (14 ≤ runBytes l) && decide (runBytes l ≤ 16383)
    && l.all (fun d => decide (1 ≤ fld d.w0 15 0) && decide (fld d.w0 15 0 ≤ 16383)) && (l.drop 1).all (fun d => !bit d.w0 16)
    && !(bit first.w0 18 && reservedDest (fld first.w1 31 0))

/-- A transmit frame as it enters its pipe (R645, R646). -/
def Chip.txFrame (s : Chip) (ring : Nat) (d : Desc) (bytes : List Byte) : PipeFrame :=
  let bind := s.ringReg (ringKey 1 ring) 2
  { frameOf (startWord bind 3 0 0 ring) bytes (stampOf s.logical) with
    buf := .fetched
    direct := if bit d.w0 18 then some (w64 (fld d.w1 31 0), fld d.w0 47 24) else none
    ring := some ring
    tsTag := if bit d.w0 19 then some (fld d.w1 47 32) else none }

/-- TX_FETCH: the next run of a transmit ring, with the bytes that host memory held or none where they could not be read: BAD_DESC, DMA_ERR, or a
frame into its pipe once cells are free (R644 to R646). -/
def txFetch (ring : Fin 4096) (data : Option (List Byte)) (s : Chip) : Chip :=
  let r := ringKey 1 ring
  if !s.ringRuns r then s
  else match nextRun (s.ring r).posted with
    | none => s
    | some l =>
      let took := s.updRing r fun x => { x with posted := x.posted.drop l.length }
      let first := l.headD {}
      let put := fun (u : Chip) (timed : Bool) (st : Option Nat) =>
        u.updRing r fun x => { x with open_ := x.open_ ++ [{ descs := l, timed := timed, status := st }] }
      if !runOk l then (put took false (some 4)).raise Reg.HIF_EVENT 5
      else match data with
        | none => (put took false (some 5)).raise Reg.HIF_EVENT 3
        | some bytes =>
          let n := runBytes l
          let body := (bytes ++ List.replicate (n - bytes.length) 0).take n
          if s.freeCells < fld (s.act Reg.TM_BUF_CFG) 19 0 + 64 + cellsOf n then s
          else
            let timed := bit first.w0 19
            ((put took timed (if timed then none else some 0)).takeCells (cellsOf n)).enterPipe (2 * fld (s.ringReg r 1) 43 42)
              (s.txFrame ring first body)

/-- A transmit descriptor written back with its STATUS. -/
def txDone (st : Nat) (d : Desc) : Desc := { d with w0 := setBit d.w0 63 true, w1 := setFld d.w1 55 48 st }

/-- TX_WRITEBACK: the oldest frame of a transmit ring is written back once its status is known (R646). [log 185 DEDUCED] -/
def txWriteback (ring : Fin 4096) (s : Chip) : Chip :=
  let r := ringKey 1 ring
  match (s.ring r).open_ with
  | [] => s
  | o :: rest => match o.status with
    | none => s
    | some st =>
      if !(s.endpoint (s.ringEp r)).bme then s
      else
        let s1 := (s.updRing r fun x => { x with open_ := rest }).writeBack r (o.descs.map (txDone st))
        if st ≤ 2 then (s1.bump (Cell.hifRing r 3)).bump (Cell.hifRing r 4) (runBytes o.descs)
        else if st = 4 then s1
        else s1.bump (Cell.hifRing r 5)

/-! ### Events (R61 to R65, R647) -/

/-- The event registers of GLB bit k with their enables. -/
def eventPairs (k : Nat) : List (Nat × Nat) :=
  match k with
  | 0 => [(Reg.GLB_OWN_EVENT, Reg.GLB_OWN_EVENT_ENABLE)]
  | 1 => [(Reg.CLK_EVENT, Reg.CLK_EVENT_ENABLE)]
  | 2 => [(Reg.TIME_EVENT, Reg.TIME_EVENT_ENABLE)]
  | 3 => (List.range 32).map fun t => (Reg.PONU_EVENT t, Reg.PONU_EVENT_ENABLE t)
  | 4 => (List.range 32).map fun t => (Reg.POND_EVENT t, Reg.POND_EVENT_ENABLE t)
  | 5 => [(Reg.ALLOC_EVENT, Reg.ALLOC_EVENT_ENABLE), (Reg.ALLOC_REFUSE_EVENT, Reg.ALLOC_REFUSE_ENABLE)]
  | 6 => [(Reg.PRS_EVENT, Reg.PRS_EVENT_ENABLE)]
  | 7 => [(Reg.FWD_EVENT, Reg.FWD_EVENT_ENABLE)]
  | 8 => [(Reg.TM_EVENT, Reg.TM_EVENT_ENABLE)]
  | 9 => [(Reg.CIPH_EVENT, Reg.CIPH_EVENT_ENABLE)]
  | 10 => (List.range 8).map fun p => (Reg.ETH_EVENT p, Reg.ETH_EVENT_ENABLE p)
  | 11 => [(Reg.HIF_EVENT, Reg.HIF_EVENT_ENABLE)]
  | 12 => [(Reg.GLK_EVENT, Reg.GLK_EVENT_ENABLE)]
  | 13 => [(Reg.GATE_EVENT, Reg.GATE_EVENT_ENABLE)]
  | 14 => [(Reg.MEM_EVENT, Reg.MEM_EVENT_ENABLE)]
  | 15 => (List.range 33).flatMap fun c => [(Reg.CRU_EVENT c, Reg.CRU_EVENT_ENABLE c), (Reg.CRU_UC_EVENT c, Reg.CRU_UC_EVENT_ENABLE c)]
  | 16 => [(Reg.SBY_EVENT, Reg.SBY_EVENT_ENABLE)]
  | _ => []

/-- Whether a block has an event pending that its own enables pass. -/
def Chip.blockEvent (s : Chip) (k : Nat) : Bool := (eventPairs k).any fun p => s.reg p.1 &&& s.reg p.2 ≠ 0

/-- GLB_EVENT_PENDING and GLB_EVENT_ACTIVE (R61). -/
def Chip.eventPending (s : Chip) : W64 := w64 ((List.range 17).map fun k => ofBool (s.blockEvent k) <<< k).sum
def Chip.eventActive (s : Chip) : W64 := s.eventPending &&& s.reg Reg.GLB_EVENT_ENABLE

/-- Whether event source k is active (R647). -/
def Chip.sourceActive (s : Chip) (k : Nat) : Bool :=
  if k = 0 then s.eventActive ≠ 0
  else if k ≤ 17 then s.blockEvent (k - 1)
  else s.flag (Reg.HIF_MB_STATUS (k - 18)) 27

/-- Whether a ring's oldest unsignalled write-back has waited MOD_USEC µs (R648). -/
def Chip.ringAged (s : Chip) (r : Nat) : Bool := lasts (s.frc - (s.ring r).oldest) (fld (s.ringReg r 1) 41 26 * 1000)

/-- Whether a ring source is active (R648). -/
def Chip.ringActive (s : Chip) (r : Nat) : Bool :=
  let x := s.ring r
  x.due || (x.unsignalled ≠ 0 && (decide (fld (s.ringReg r 1) 25 18 ≤ x.unsignalled) || s.ringAged r))

/-- MOD_TIMEOUT: a ring's oldest unsignalled write-back has waited MOD_USEC µs (R648). -/
def modTimeout (transmit : Bool) (ring : Fin 4096) (s : Chip) : Chip :=
  let r := ringKey (ofBool transmit) ring
  if (s.ring r).unsignalled ≠ 0 && s.ringAged r then s.updRing r fun y => { y with due := true } else s

/-! ### Vectors (R649) -/

/-- The rings mapped to a vector. -/
def Chip.vectorRings (s : Chip) (v : Nat) : List Nat :=
  (s.rings.map (·.1)).filter fun r => bit (s.ringReg r 1) 17 && fld (s.ringReg r 1) 16 6 = v

/-- Whether a source mapped to a vector is active. -/
def Chip.vectorActive (s : Chip) (v : Nat) : Bool :=
  (s.vectorRings v).any s.ringActive
  || (List.range 20).any fun k => let m := s.reg (Reg.HIF_SRC_VECk k); bit m 11 && fld m 10 0 = v && s.sourceActive k

/-- A vector's message sent: ARMED clears and its rings count their write-backs as signalled (R648, R649). A message is a DMA write (R631). [log 185 DEDUCED] -/
def Chip.vectorFire (s : Chip) (v : Nat) : Chip :=
  let e := s.vectorEp v
  if !(s.endpoint e).bme then s
  else
    let s1 := (s.emit (.msix e (if e = 1 then v - 1024 else v))).updHif fun h =>
      { h with disarmed := h.disarmed.set v true, pending := h.pending.set v false }
    (s.vectorRings v).foldl (fun u r => u.updRing r fun x => { x with unsignalled := 0, oldest := 0, due := false }) s1

/-- What an ARMED vector with an active source does: its message, or its pending bit while masked (R649). -/
def Chip.vectorTry (s : Chip) (v : Nat) : Chip :=
  if s.hif.disarmed.get v || !s.vectorActive v then s
  else if !s.hif.unmasked.get v then s.updHif fun h => { h with pending := h.pending.set v true }
  else s.vectorFire v

/-- VECTOR_SEND. -/
def vectorSend (v : Fin 2048) (s : Chip) : Chip := s.vectorTry v

/-- VEC_ARM. -/
def vecArm (v : Fin 2048) (s : Chip) : Chip := (s.updHif fun h => { h with disarmed := h.disarmed.set v false }).vectorTry v

/-- MSIX_UNMASK. -/
def msixUnmask (v : Fin 2048) (s : Chip) : Chip :=
  let s1 := s.updHif fun h => { h with unmasked := h.unmasked.set v true }
  if s.hif.pending.get v then s1.vectorFire v else s1

/-! ### Endpoints (R631, R632, R739) -/

/-- FLR: the endpoint's rings are disabled with their descriptors unwritten, and its vectors are armed (R632). [log 184 DEDUCED] -/
def flr (e : Ep) (s : Chip) : Chip :=
  let keys := (s.regs.filter fun (k : Nat × W64) => k.1 / 4294967296 = 26 && k.1 % 16 = 1 && fld k.2 1 1 = e.val).map fun k => k.1 % 4294967296 / 16
  let s1 := keys.foldl (fun u r => (u.setFlag (Cell.hifRing r 1) 0 false).clearRing r) s
  (s1.updHif fun h => { h with disarmed := h.disarmed.filter fun (v : Nat × Bool) => s.vectorEp v.1 ≠ e.val }).raise Reg.HIF_EVENT 9

/-- BME_CLEAR and BME_SET. -/
def bmeClear (e : Ep) (s : Chip) : Chip := s.updEndpoint e fun x => { x with bme := false }
def bmeSet (e : Ep) (s : Chip) : Chip := s.updEndpoint e fun x => { x with bme := true }

/-- PERST_RELEASE: the link trains to a speed code and width, or stays in Detect until READY (R739). The second endpoint is there in split mode
(R629). [log 187 DESIGN CHOICE] -/
def perstRelease (e : Ep) (speed : Fin 6) (width : Fin 17) (s : Chip) : Chip :=
  if e = 1 && !s.split then s
  else
    let ready := s.flag Reg.GLB_STARTUP 3
    s.updEndpoint e fun x => { x with up := ready, detect := !ready, speed := speed, width := width }

/-- HIF_LINK_STATUS. -/
def Chip.linkStatusPci (s : Chip) : W64 :=
  let f := fun (e : Nat) => let x := s.endpoint e; (if x.up then x.speed + x.width <<< 4 else 0) + ofBool x.up <<< 9 + ofBool x.bme <<< 10
  w64 (f 0 + f 1 <<< 16)

/-- HIF_RING_STATUS of the selected ring: WAIT_EOP while a transmit ring's posted run has no EOP (R644, R677). -/
def Chip.ringStatus (s : Chip) : W64 :=
  let r := s.selRing
  let x := s.ring r
  let wait := decide (4096 ≤ r) && !x.posted.isEmpty && (nextRun x.posted).isNone
  w64 (x.head + x.tail <<< 16 + ofBool (s.ringEn r) <<< 32 + ofBool wait <<< 33)

end Sys2Proof.Machine
end

