-- ==== Sys2Proof/Machine/Upstream.lean ====
section
/-! DEFINITION. Upstream XGEM frames: the deframer, CIPH's checks and reassembly (R83 to R91, R464 to R481, R754). -/
namespace Sys2Proof.Machine

/-- Bytes of an XGEM payload on the line: padded to words and to 8 bytes (R189; the standard's least length is presumed). [log 64 PRESUMED] -/
def paddedLen (pli : Nat) : Nat := max 8 (4 * ceilDiv pli 4)

/-- The partial frame of an Alloc-ID on a wavelength. -/
def Chip.fragments (s : Chip) (t : Tree) (w : Wl) (alloc : Nat) : Option Partial := s.pon.partials.get (wkey t w * 16384 + alloc)

/-- The partial frame of an Alloc-ID set. -/
def Chip.setFragments (s : Chip) (t : Tree) (w : Wl) (alloc : Nat) (p : Option Partial) : Chip :=
  { s with pon := { s.pon with partials := s.pon.partials.set (wkey t w * 16384 + alloc) p } }

/-- Reassembly contexts of a tree in use (R88). -/
def Chip.contextsUsed (s : Chip) (t : Tree) : Nat :=
  (s.pon.partials.filter fun e => e.1 / 32768 = t.val &&
    match e.2 with | some p => !p.broken | none => false).length

/-- One frame discarded in its context's DISCARDS (R207). [log 77 DESIGN CHOICE] -/
def Chip.upDiscard (s : Chip) (t : Tree) (ctx : Option Nat) : Chip :=
  match ctx with
  | some c => s.statAdd t c 1 2 1
  | none => s

/-- What stands in an Alloc-ID's context after a fragment of a discarded SDU: a marker under which the SDU's later fragments pass nothing on
and count nowhere, until its last one takes the marker away (R90). [log 231 DESIGN CHOICE] -/
def brokenMark (port : Nat) (last : Bool) : Option Partial := if last then none else some { port := port, broken := true }

/-- A frame of a port that the deframer discards (R84, R754): a whole one counts in its context's DISCARDS; of a fragment the partial frame
is discarded and counted, and its later fragments pass nothing on. Under R754 (`each`) a frame of an SDU discarded before counts once more.
[log 77 DESIGN CHOICE, 231 DESIGN CHOICE] -/
def Chip.loseFrame (s : Chip) (t : Tree) (w : Wl) (alloc port : Nat) (ctx : Option Nat) (last each : Bool) : Chip :=
  match s.fragments t w alloc with
  | some p =>
    if p.port = port then
      (if p.broken then (if each then s.upDiscard t ctx else s) else s.dropPartial t w alloc).setFragments t w alloc (brokenMark port last)
    else if last then s.upDiscard t ctx
    else (((s.dropPartial t w alloc).bump (Reg.PONU_FRAG_DISCARD t w)).upDiscard t ctx).setFragments t w alloc (brokenMark port last)
  | none =>
    if last then s.upDiscard t ctx
    else ((s.bump (Reg.PONU_FRAG_DISCARD t w)).upDiscard t ctx).setFragments t w alloc (brokenMark port last)

/-- A burst of a frame's map changed where the receiver expects it. -/
def Chip.updBurst (s : Chip) (t : Tree) (w : Wl) (i j : Nat) (f : RxBurst → RxBurst) : Chip :=
  s.updRx (wkey t w) fun r => r.updBurst i j f

/-- The grants of a frame's burst changed: one allocation's rest is being discarded (R83, R84, R754). -/
def Chip.skipRest (s : Chip) (t : Tree) (w : Wl) (i j a : Nat) : Chip :=
  s.updBurst t w i j fun b => { b with grants := b.grants.set a { nth b.grants a with skip := true } }

/-- The Alloc-ID's context after CIPH has discarded a frame: its later fragments pass nothing on; a whole frame leaves it as it is. -/
def Chip.markLost (s : Chip) (t : Tree) (w : Wl) (alloc : Nat) (x : XgemLight) (held : Bool) : Chip :=
  if x.last && !held then s else s.setFragments t w alloc (brokenMark x.port x.last)

/-- What a frame's key index makes of a frame at its first byte: in the clear, or under the key its slot holds then; none where CIPH discards
it, with CIPH_REFUSED where its key cannot be used. The directory entry and ENC are read once for the SDU (R462, R464, R466, R467, R750). -/
def Chip.takeUpKey (s : Chip) (t : Tree) (w : Wl) (onu ctx k : Nat) : Option (Option TakenKey) × Chip :=
  if k = 0 then (if fld (s.reg (Cell.ciphEnc t ctx)) 1 0 = 0 then some none else none, s)
  else if k = 3 then (none, s)
  else
    let e := s.reg (Cell.ciphDir t w onu)
    let slot := fld e 15 0 + k - 1
    if bit e 18 && s.slotOk slot 0 then
      (some (some (s.takeKey slot k)), s)
    else (none, s.bump Reg.CIPH_REFUSED)

/-- What CIPH makes of a payload under the key its frame took: its plaintext, or none where the key's limit or the units refuse it (R454, R459,
R477). Direction 1 is upstream. -/
def Chip.decrypt (s : Chip) (t : Tree) (w : Wl) (frame pos : Nat) (key : Option TakenKey) (payload : List Byte) (padded : Nat)
    (unit : UnitReport) : Option (List Byte) × Chip :=
  match key with
  | none => (some payload, s)
  | some x =>
    match s.takenUse x (blockCount (wkey t w) 1 frame pos padded) with
    | (false, s1) => (none, s1)
    | (true, s1) =>
      match s1.serveKeystream unit with
      | (false, s2) => (none, s2)
      | (true, s2) => (some (ctrCrypt x.keyBytes (wkey t w) 1 frame pos payload), s2)

/-- A whole SDU passes its check or not, is counted, and enters the PON-ingress half of the tree's pipe (R44, R87, R207, R479 to R481).
The SDU ends with its FCS except on the terminal's OMCC port, whose frames have no check (R448). -/
def Chip.enterUpstream (s : Chip) (t : Tree) (w : Wl) (onu port ctx : Nat) (data : List Byte)
    (key : Option TakenKey) (tick : Nat) : Chip :=
  let omcc := port = onu
  let bad := !omcc && data.drop (data.length - 4) ≠ ethFcs (data.take (data.length - 4)) false
  let s1 := if bad then
      let u := s.bump Reg.CIPH_CHECK_FAIL
      match key with
      | some k => u.chargeFail k.slot k.loads
      | none => u
    else s
  let s2 := (s1.statAdd t ctx 1 0 1).statAdd t ctx 1 1 data.length
  let bytes := if omcc then data else data.take (data.length - 4)
  let f := frameOf (startWord 0 0 t w port) bytes (stampOf (s2.logicalAt tick))
  s2.enterPipe (t / 8 * 2) { f with bad := bad, ctx := some (t * 32768 + ctx) }

/-- A fragment, or a whole frame, joins what its Alloc-ID holds (R88 to R91): `held` is the partial frame it belongs to. A fragment that finds no
free context is discarded with REASM_FULL and counts in neither FRAG_DISCARD nor DISCARDS; an SDU that grows beyond 16,383 bytes is
discarded and counted like one that lost a fragment. [log 74 DESIGN CHOICE, 112 DESIGN CHOICE, 232 DESIGN CHOICE, 233 DESIGN CHOICE] -/
def Chip.assemble (s : Chip) (t : Tree) (w : Wl) (alloc onu ctx : Nat) (held : Option Partial) (x : XgemLight) (data : List Byte)
    (key : Option TakenKey) : Chip :=
  match held with
  | none =>
    if x.last then s.enterUpstream t w onu x.port ctx data key x.tick
    else if 4096 ≤ s.contextsUsed t then (s.raise (Reg.PONU_EVENT t) 6).setFragments t w alloc (brokenMark x.port false)
    else s.setFragments t w alloc (some { port := x.port, key := key, data := data, ctx := some (t * 32768 + ctx) })
  | some p =>
    let all := p.data ++ data
    if 16383 < all.length then s.loseFrame t w alloc x.port (some ctx) x.last false
    else if x.last then
      (s.setFragments t w alloc none).enterUpstream t w onu x.port ctx all key x.tick
    else s.setFragments t w alloc (some { p with data := all, idle := 0 })

/-- A frame bound to its burst's terminal: CIPH, then reassembly (R86, R87, R464). Every fragment is decrypted under the key that the first one
took (R462, R467). A fragment that begins an SDU takes the one context of its Alloc-ID from a partial frame of another port; a whole frame
leaves that where it is. [log 74 DESIGN CHOICE, 78 DEDUCED, 112 DESIGN CHOICE] -/
def Chip.bound (s : Chip) (t : Tree) (w : Wl) (n onu alloc ctx : Nat) (x : XgemLight) (unit : UnitReport) : Chip :=
  let held := (s.fragments t w alloc).filter fun p => p.port = x.port.val
  if held.any (·.broken) then s.setFragments t w alloc (brokenMark x.port x.last)
  else
    let s1 := if held.isNone && !x.last then s.dropPartial t w alloc else s
    let (taken, s2) := match held with
      | some p => (some p.key, s1)
      | none => s1.takeUpKey t w onu ctx x.keyIndex
    match taken with
    | none => (s2.upDiscard t (some ctx)).markLost t w alloc x held.isSome
    | some key => match s2.decrypt t w n x.position key (x.payload.take x.pli) (paddedLen x.pli) unit with
      | (some data, s3) => s3.assemble t w alloc onu ctx held x data key
      | (none, s3) => (s3.upDiscard t (some ctx)).markLost t w alloc x held.isSome

/-- Whether a burst passes its XGEM frames on: by what it ended with, or by what its head shows before it has ended (R78, R79, R92). -/
def Chip.passes (s : Chip) (t : Tree) (w : Wl) (n : Nat) (b : RxBurst) (h : BurstHead) : Bool :=
  match b.result with
  | some r => r.outcome ≤ 2
  | none => (s.burstOutcome t w n b (s.pon.rx.get (wkey t w)).lastEnd h []).1 ≤ 2

/-- An allocation's payload begins with a frame of another port than the partial frame of its Alloc-ID, which is discarded (R90). -/
def Chip.beginPayload (s : Chip) (t : Tree) (w : Wl) (alloc : Nat) (x : XgemLight) : Chip :=
  match s.fragments t w alloc with
  | some p => if x.position = 0 && p.port ≠ x.port.val then s.dropPartial t w alloc else s
  | none => s

/-- An XGEM frame whose header can be used, in allocation a (grant g) of burst j (b) of map i: one that runs past the grant, an idle one, one with a
byte in an uncorrectable codeword, one without a binding, or one that goes on (R84 to R88, R754). A standby part discards every frame
without counting it per context (R602). -/
def Chip.headed (s : Chip) (t : Tree) (w : Wl) (n i j a : Nat) (b : RxBurst) (g : RxGrant) (h : BurstHead) (damaged : Bool) (x : XgemLight)
    (unit : UnitReport) : Chip :=
  let onu := b.from_ h
  let ctx := s.bindPort t w x.port onu
  let frag := !x.last || (s.fragments t w g.allocId).any fun p => p.port = x.port.val
  if x.port.val = 0xFFFF then s
  else if g.size * 4 < x.position + 8 + paddedLen x.pli then
    let s1 := (s.bump (Reg.PONU_PLI_OVERRUN t w)).skipRest t w i j a
    if !s.servesAt t n then s1
    else if frag then s1.loseFrame t w g.allocId x.port ctx x.last true else s1.upDiscard t ctx
  else if damaged then
    if !s.servesAt t n then s
    else if frag then s.loseFrame t w g.allocId x.port ctx x.last false else s.upDiscard t ctx
  else match ctx with
    | none => s.bump (Reg.PONU_PORT_MISMATCH t w)
    | some c => if !s.servesAt t n then s else s.bound t w n onu g.allocId c x unit

/-- XGEM_DEFRAME: the next XGEM frame of allocation a of the burst granted at START in frame n. The burst's head decides whether its frames
pass on before the burst has ended; then the header's correction and the rest of R83 to R91, in turn. A header lost with an uncorrectable
codeword discards the rest of the allocation and counts nowhere as an uncorrectable header. [log 111 DESIGN CHOICE, 230 DESIGN CHOICE] -/
def xgemDeframe (t : Tree) (w : Wl) (n start a : Nat) (x : XgemLight) (unit : UnitReport) (s : Chip) : Chip :=
  match (s.pon.rx.get (wkey t w)).mapAt n with
  | none => s
  | some i =>
    let m := nth (s.pon.rx.get (wkey t w)).maps i
    match m.burstAt start with
    | none => s
    | some j =>
      let b := nth m.bursts j
      let h := b.head.getD x.head
      match b.grants[a]? with
      | none => s
      | some g =>
        if !s.attempts t w n m.late j || !s.passes t w n b h || g.skip then s
        else
          let p := s.profile t w n b.profile
          let at_ := b.allocAt a + (if g.dbru then 32 else 0) + 8 * x.position
          let s0 := s.updBurst t w i j fun y => { y with head := some h }
          if lostBits w p b x.codewords at_ (at_ + 64) then (s0.skipRest t w i j a).dropPartial t w g.allocId
          else match x.hec with
            | .bad => ((s0.bump (Reg.PONU_HEC_UNCORR t w)).skipRest t w i j a).dropPartial t w g.allocId
            | hec =>
              let s1 := if hec = .corrected then s0.bump (Reg.PONU_HEC_CORR t w) else s0
              let damaged := lostBits w p b x.codewords at_ (at_ + 8 * (8 + paddedLen x.pli))
              (s1.beginPayload t w g.allocId x).headed t w n i j a b g h damaged x unit

end Sys2Proof.Machine
end

