-- ==== Sys2Proof/Machine/Place.lean ====
section
/-! DEFINITION. POND places SDUs in the downstream frame: express windows, cuts, gap fill and encryption (R189 to R203, R212). -/
namespace Sys2Proof.Machine

/-! ### Express windows (R194 to R198) -/

/-- The windows (START, end) among eight POND_XW values that are active in frame n (R194). -/
def activeWindows (xws : List W64) (n : Nat) : List (Nat × Nat) :=
  xws.filterMap fun v =>
    if bit v 60 && fld v 35 18 ≠ 0 && windowActive n (fld v 45 36) (fld v 55 46) (fld v 59 56 + 1) then
      some (fld v 17 0, fld v 17 0 + fld v 35 18)
    else none

/-- The end of the reserved region that holds a place, overlapping and adjoining windows joined; none outside one (R195). -/
def regionEnd (ws : List (Nat × Nat)) : Nat → Nat → Option Nat
  | 0, _ => none
  | k + 1, pos =>
    match ws.find? fun x => x.1 ≤ pos && pos < x.2 with
    | none => none
    | some (_, e) => some ((regionEnd ws k e).getD e)

/-- Where the room at a place ends: with its region, at the next region, or with the FS frame (R195, R199, R201). -/
def roomEnd (ws : List (Nat × Nat)) (w pos : Nat) : Nat :=
  match regionEnd ws 9 pos with
  | some e => min e (fsWords w)
  | none => ((ws.map (·.1)).filter (pos < ·)).foldl min (fsWords w)

/-- The POND_XW values of a wavelength, then its POND_CLASS, as applied. -/
def Chip.pondValues (s : Chip) (t : Tree) (w : Wl) : List W64 :=
  (List.range 8).map (fun x => s.act (Reg.POND_XWx t w x)) ++ [s.act (Reg.POND_CLASS t w)]

/-- A place in the FS frame under given values: the room's end, whether it is reserved, and whether windows are enabled at all. -/
structure Room where
  last : Nat := 0
  reserved : Bool := false
  windows : Bool := false
  deriving DecidableEq, Repr, Inhabited

/-- The room at a place of frame n. -/
def roomAt (vals : List W64) (w n pos : Nat) : Room :=
  let ws := activeWindows (vals.take 8) n
  { last := roomEnd ws w pos, reserved := (regionEnd ws 9 pos).isSome, windows := (vals.take 8).any (bit · 60) }

/-- FRAG_OK, EXPRESS and GAP_FILL of POND_CLASS. -/
def fragOk (vals : List W64) (cls : Nat) : Bool := bit (nth vals 8) cls
def isExpress (vals : List W64) (cls : Nat) : Bool := bit (nth vals 8) (8 + cls)
def gapFill (vals : List W64) : Bool := bit (nth vals 8) 16

/-! ### SDUs (R189 to R192) -/

/-- Words of the XGEM frame of n SDU bytes. [log 64 PRESUMED] -/
def xgemWords (n : Nat) : Nat := 2 + paddedLen n / 4

/-- An SDU as POND takes it: its context, wavelength and port, ONU, class and bytes, FCS included except on the OMCC port. -/
structure Sdu where
  ctx : Nat := 0
  port : Nat := 0
  onu : Nat := 0
  cls : Nat := 0
  data : List Byte := []
  omcc : Bool := false
  deriving DecidableEq, Repr, Inhabited

/-- The SDU of a frame handed to a wavelength; none when its context has no port or is not enabled (R363). -/
def Chip.sduOf (s : Chip) (x : TmFrame) : Option Sdu :=
  let t := fld x.f.dest 19 15
  let c := fld x.f.dest 14 0
  match s.contextPort t c with
  | none => none
  | some (_, port) =>
    let onu := fld (s.ctxRec t c) 10 1
    let omcc := port = onu
    let data := if omcc then x.f.bytes else x.f.bytes ++ ethFcs x.f.bytes x.stomp
    if s.ctxEnabled t c then some { ctx := c, port := port, onu := onu, cls := x.cls, data := data, omcc := omcc } else none

/-- The key an SDU of a context takes at its first byte: in the clear, or under its slot's key; none when the key cannot be used, its limit
apart. The directory entry and ENC are read once for the SDU (R462, R465, R467, R750). -/
def Chip.downKey (s : Chip) (t : Tree) (w : Wl) (ctx onu : Nat) : Option (Option TakenKey) :=
  let enc := fld (s.reg (Cell.ciphEnc t ctx)) 1 0
  if enc = 0 then some none
  else
    let e := s.reg (Cell.ciphDir t w (if enc = 2 then 1023 else onu))
    let k := fld e 17 16
    let slot := fld e 15 0 + k - 1
    if bit e 18 && k ≠ 0 && s.slotOk slot 0 then
      some (some (s.takeKey slot k))
    else none

/-- How long an XGEM frame of an SDU may be at a place, in SDU bytes: all of it, a first fragment, or none (R199, R201). `e` is the end of
the room. -/
def fitBytes (mayCut : Bool) (len pos e : Nat) : Option Nat :=
  if pos + xgemWords len ≤ e then some len
  else if mayCut && pos + 4 ≤ e then
    let n := (e - pos - 2) * 4
    some (if len < n + 8 then len - 8 else n)
  else none

/-- A payload encrypted under the key its SDU took: the bytes sent, or none when CIPH gave none, with whether its key was refused (R191,
R192, R454, R477). [log 131 DESIGN CHOICE] -/
def Chip.encrypt (s : Chip) (t : Tree) (w : Wl) (pos : Nat) (key : Option TakenKey) (data : List Byte) (unit : UnitReport) :
    Option (List Byte) × Bool × Chip :=
  let padded := data ++ List.replicate (paddedLen data.length - data.length) 0
  match key with
  | none => (some padded, false, s)
  | some x =>
    let n := (s.pon.pond.get t).fc
    match s.takenUse x (blockCount (wkey t w) 0 n pos padded.length) with
    | (false, s1) => (none, true, s1)
    | (true, s1) =>
      match s1.serveKeystream unit with
      | (false, s2) => (none, false, s2)
      | (true, s2) => (some (ctrCrypt x.keyBytes (wkey t w) 0 n pos padded), false, s2)

/-- The key index that an XGEM header names. -/
def keyIndex (key : Option TakenKey) : Nat := match key with | none => 0 | some x => x.index

/-- The size class of a length (R674). -/
def sizeClass (n : Nat) : Nat :=
  if n ≤ 64 then 0 else if n ≤ 127 then 1 else if n ≤ 255 then 2 else if n ≤ 511 then 3 else if n ≤ 1023 then 4
  else if n ≤ 1518 then 5 else if n ≤ 2047 then 6 else if n ≤ 4095 then 7 else if n ≤ 9216 then 8 else 9

/-- The type of a frame by its destination address: 0 unicast, 1 multicast, 2 broadcast (R212, R675). -/
def castType (bytes : List Byte) : Nat :=
  if bytes.take 6 = List.replicate 6 0xFF then 2 else if (bytes.headD 0).getLsbD 0 then 1 else 0

/-- An SDU sent whole: the context's counters, the wavelength's size class and type, and the frame's buffer (R207, R212, R433). -/
def Chip.sduDone (s : Chip) (t : Tree) (w : Wl) (ctx len : Nat) (omcc : Bool) (f : PipeFrame) : Chip :=
  let s1 := (s.statAdd t ctx 0 0 1).statAdd t ctx 0 1 len
  let s2 := (s1.bump (Reg.POND_SIZEk t w (sizeClass len))).bump (Reg.POND_TYPEy t w (if omcc then 3 else castType f.bytes))
  (s2.frameGone f true false).timedStatus f 2

/-- The header of an XGEM frame: PLI, key index, port-ID, options 0, LF and HEC (R189). -/
def xgemHeader (pli key port : Nat) (last : Bool) : W64 :=
  w64 (withHec 51 ((pli % 16384) <<< 37 + (key % 4) <<< 35 + (port % 65536) <<< 19 + ofBool last))

/-- One XGEM frame sent at the wavelength's place. -/
def Chip.sendXgem (s : Chip) (t : Tree) (w : Wl) (pli key port : Nat) (last : Bool) (payload : List Byte) : Chip :=
  let f := s.pon.framers.get (wkey t w)
  let s1 := s.updFramer (wkey t w) fun g => { g with pos := g.pos + 2 + payload.length / 4 }
  if s.lasers then s1.emit (.xgem (wkey t w) f.pos (xgemHeader pli key port last) payload) else s1

/-! ### Placing (R198 to R203) -/

/-- The remainder placed at the wavelength's place, or cut again, or waiting while the room is filled (R203, R214). -/
def Chip.placeRemainder (s : Chip) (t : Tree) (w : Wl) (r : Remainder) (unit : UnitReport) : Chip :=
  let f := s.pon.framers.get (wkey t w)
  let room := roomAt r.values w (s.pon.pond.get t).fc f.pos
  match fitBytes true r.data.length f.pos room.last with
  | none => s.idleTo t w room.last
  | some n =>
    match s.encrypt t w f.pos r.key (r.data.take n) unit with
    | (none, refused, s1) =>
      let s2 := (s1.updFramer (wkey t w) fun g => { g with remainder := none }).statAdd t r.ctx 0 2 1
      (if refused then (s2.bump (Reg.POND_KEY_DROP t w)).raise (Reg.POND_EVENT t) 4 else s2).frameGone r.frame true true
    | (some payload, _, s1) =>
      let s2 := s1.sendXgem t w n (keyIndex r.key) r.port (n = r.data.length) payload
      if n = r.data.length then
        (s2.updFramer (wkey t w) fun g => { g with remainder := none }).sduDone t w r.ctx r.length r.omcc r.frame
      else (s2.updFramer (wkey t w) fun g => { g with remainder := some { r with data := r.data.drop n } }).idleTo t w room.last

/-- An SDU discarded by POND: its counter and event, its context's DISCARDS, and its buffer. -/
def Chip.sduDrop (s : Chip) (t : Tree) (x : TmFrame) (ctr : Option (Nat × Nat)) : Chip :=
  let s1 := match ctr with
    | some (a, e) => (s.bump a).raise (Reg.POND_EVENT t) e
    | none => s
  s1.tmDiscard x.f true

/-- An offer taken out of the wavelength's list. -/
def Chip.takeOffer (s : Chip) (t : Tree) (w : Wl) (i : Nat) : Chip :=
  s.updTm fun m => { m with egress := m.egress.upd (wkey t w) (·.eraseIdx i) }

/-- The counter and event of an SDU that POND discards when it reaches it: too long, or express and longer than every window (R190,
R200). -/
def Chip.sduRefusal (s : Chip) (t : Tree) (w : Wl) (vals : List W64) (d : Sdu) : Option (Nat × Nat) :=
  let lens := ((vals.take 8).filter (bit · 60)).map fun v => fld v 35 18
  if fld (s.act (Reg.POND_MAX_SDU t w)) 13 0 < d.data.length then some (Reg.POND_OVERSIZE_DROP t w, 3)
  else if isExpress vals d.cls && !lens.isEmpty && lens.all (· < xgemWords d.data.length) then some (Reg.POND_XW_DISCARD t w, 5)
  else none

/-- An offer placed whole or cut at the wavelength's place (R189, R192, R201). -/
def Chip.placeOffer (s : Chip) (t : Tree) (w : Wl) (i n : Nat) (x : TmFrame) (d : Sdu) (key : Option TakenKey) (vals : List W64)
    (last : Nat) (unit : UnitReport) : Chip :=
  let f := s.pon.framers.get (wkey t w)
  let s0 := s.takeOffer t w i
  match s0.encrypt t w f.pos key (d.data.take n) unit with
  | (none, true, s1) => s1.sduDrop t x (some (Reg.POND_KEY_DROP t w, 4))
  | (none, false, s1) => s1.sduDrop t x none
  | (some payload, _, s1) =>
    let s2 := s1.sendXgem t w n (keyIndex key) d.port (n = d.data.length) payload
    if n = d.data.length then s2.sduDone t w d.ctx d.data.length d.omcc x.f
    else
      let r : Remainder := { ctx := d.ctx, port := d.port, key := key, data := d.data.drop n,
                             length := d.data.length, values := vals, omcc := d.omcc, frame := x.f }
      ((s2.updFramer (wkey t w) fun g => { g with remainder := some r }).bump (Reg.POND_FRAGMENTS t w)).idleTo t w last

/-- What POND would do with an offer at a place: pass it by (its class may not go here), hold it (it does not fit), or place so many
bytes of it. -/
inductive Try where
  | pass
  | hold
  | place (n : Nat)
  deriving DecidableEq, Repr, Inhabited

/-- Whether and how an SDU may be placed at a place (R197 to R201): express ones in reserved regions only while windows are enabled,
others only outside, and none to be cut while a remainder is pending. -/
def tryPlace (vals : List W64) (room : Room) (pos : Nat) (d : Sdu) (pending : Bool) : Try :=
  let ex := isExpress vals d.cls
  if ex && room.windows && !room.reserved then .pass
  else if !ex && (room.reserved || pending) then .pass
  else match fitBytes (!ex && fragOk vals d.cls) d.data.length pos room.last with
    | some n => .place n
    | none => .hold

/-- Whether an SDU that stands at the head of its queue is one POND discards, with its counter: no context, too long, longer than every
window, or without a key that can be used. -/
def Chip.doomed (s : Chip) (t : Tree) (w : Wl) (vals : List W64) (x : TmFrame) : Option (Option (Nat × Nat)) :=
  match s.sduOf x with
  | none => some none
  | some d =>
    match s.sduRefusal t w vals d with
    | some c => some (some c)
    | none => if (s.downKey t w d.ctx d.onu).isNone then some (some (Reg.POND_KEY_DROP t w, 4)) else none

/-- The offers that POND discards, discarded in turn (R190, R192, R200). -/
def Chip.dropDoomed (s : Chip) (t : Tree) (w : Wl) (vals : List W64) : Chip :=
  (s.tm.egress.get (wkey t w)).foldl (fun u x =>
    match u.doomed t w vals x with
    | none => u
    | some c =>
      (u.updTm fun m => { m with egress := m.egress.upd (wkey t w) (·.erase x) }).sduDrop t x c) s

/-- The offer that goes next at a place: an express one first, else the head, or with GAP_FILL any that can be placed (R198, R202).
[log 89 DESIGN CHOICE, 90 DEDUCED] -/
def Chip.chooseOffer (s : Chip) (t : Tree) (w : Wl) (vals : List W64) (room : Room) (pos : Nat) (pending : Bool) :
    Option (Nat × Nat × TmFrame × Sdu) × Bool :=
  let offers := s.tm.egress.get (wkey t w)
  let tried := (List.range offers.length).filterMap fun i =>
    (s.sduOf (nth offers i)).map fun d => (i, d, tryPlace vals room pos d pending)
  let open_ := tried.filter fun y => y.2.2 ≠ .pass
  let express := open_.filter fun y => isExpress vals y.2.1.cls
  let line := if express.isEmpty then open_ else express
  let ready := if gapFill vals then open_ else line.take 1
  let first := (line ++ ready).find? fun y => match y.2.2 with | .place _ => gapFill vals || some y.1 = (line.head?.map (·.1)) | _ => false
  (match first with
   | some (i, d, .place n) => some (i, n, nth offers i, d)
   | _ => none, !open_.isEmpty)

/-- The queues whose heads POND holds and has not placed. -/
def Chip.heldQueues (s : Chip) (t : Tree) (w : Wl) : List Nat := (s.tm.egress.get (wkey t w)).map (·.queue)

/-- Whether POND holds an SDU of an express class. -/
def Chip.holdsExpress (s : Chip) (t : Tree) (w : Wl) (vals : List W64) : Bool :=
  (s.tm.egress.get (wkey t w)).any fun x => (s.sduOf x).any fun d => isExpress vals d.cls

/-- The SDUs of an express class that have reached the head of their TM queue and are longer than every enabled window: discarded there,
whatever the place in the frame (R200). -/
def Chip.dropLongHeads (s : Chip) (t : Tree) (w : Wl) : Chip :=
  let vals := s.pondValues t w
  let long := fun (u : Chip) (x : TmFrame) => match u.sduOf x with
    | some d => isExpress vals d.cls && u.sduRefusal t w vals d = some (Reg.POND_XW_DISCARD t w, 5)
    | none => false
  let queues := (s.tm.queues.map (·.1)).filter fun q => (s.pathOf q).2.2 = wkey t w
  queues.foldl (fun u q =>
    let cls := (u.tmRec kQueue q).qClass
    let gone := (u.tmQueue q).frames.takeWhile fun x => long u { x with cls := cls }
    if gone.isEmpty then u
    else
      let u1 := u.setTmQueue q { u.tmQueue q with frames := (u.tmQueue q).frames.drop gone.length }
      (gone.foldl (fun v x =>
        ((v.bump (Reg.POND_XW_DISCARD t w)).raise (Reg.POND_EVENT t) 5).tmDiscard x.f !x.inDdr) u1).clearDeficits q) s

/-- An express SDU taken from TM where the place admits one and POND holds none, so that it goes ahead of every other class (R198); one that
is discarded makes room for the next. The count bounds how many. -/
def Chip.pullExpress (s : Chip) (t : Tree) (w : Wl) (vals : List W64) : Nat → Chip
  | 0 => s
  | k + 1 =>
    let s1 := s.tmChoose (wkey t w) { express := some true, held := s.heldQueues t w }
    if (s1.heldQueues t w).length = (s.heldQueues t w).length then s
    else
      let s2 := s1.dropDoomed t w vals
      if (s.heldQueues t w).length < (s2.heldQueues t w).length then s2 else s2.pullExpress t w vals k

/-- POND's offers before it places one: those it discards are discarded, and an express SDU waiting in TM comes to it (R190, R192, R198, R200). -/
def Chip.gatherOffers (s : Chip) (t : Tree) (w : Wl) (vals : List W64) (room : Room) : Chip :=
  let s1 := (s.dropDoomed t w vals).dropLongHeads t w
  if (room.windows && !room.reserved) || s1.holdsExpress t w vals then s1
  else s1.pullExpress t w vals ((s1.tm.queues.map fun e => e.2.frames.length).sum)

/-- SDU_PLACE: POND places the next SDU, a fragment of one, or the remainder of the last cut one, at the wavelength's next word; what it
cannot place leaves idle frames (R189 to R203). Words that have passed since the frame began carry idle frames. [log 88 DESIGN CHOICE, 89 DESIGN CHOICE] -/
def sduPlace (t : Tree) (w : Wl) (unit : UnitReport) (s : Chip) : Chip :=
  let p := s.pon.pond.get t
  if !(s.pon.framers.get (wkey t w)).sending || !s.timingRuns t then s
  else
    let gone := min (fsWords w) ((s.frc - p.t0) * fsWords w / frameTicks)
    let vals := s.pondValues t w
    let s0 := s.idleTo t w gone
    let s1 := s0.gatherOffers t w vals (roomAt vals w p.fc (s0.pon.framers.get (wkey t w)).pos)
    let f := s1.pon.framers.get (wkey t w)
    if fsWords w ≤ f.pos then s1
    else
      let room := roomAt vals w p.fc f.pos
      let (offer, waiting) := s1.chooseOffer t w vals room f.pos f.remainder.isSome
      let expressFirst := match offer with | some (_, _, _, d) => isExpress vals d.cls | none => false
      match f.remainder, offer with
      | some r, none =>
        if (roomAt r.values w p.fc f.pos).reserved then (if waiting then s1.idleTo t w room.last else s1)
        else s1.placeRemainder t w r unit
      | some r, some (i, n, x, d) =>
        if expressFirst || (roomAt r.values w p.fc f.pos).reserved then
          s1.placeOffer t w i n x d ((s1.downKey t w d.ctx d.onu).getD none) vals room.last unit
        else s1.placeRemainder t w r unit
      | none, some (i, n, x, d) =>
        s1.placeOffer t w i n x d ((s1.downKey t w d.ctx d.onu).getD none) vals room.last unit
      | none, none => if waiting then s1.idleTo t w room.last else s1

/-- What POND asks of TM for a wavelength now, beside the queues whose heads it holds: the class of frame that its place admits, and the room
left when what it holds does not fit and GAP_FILL is 1; an express frame, which goes ahead, while it holds only others and no window is
enabled; nothing while its transmitter is off or it holds an SDU to place (R197, R198, R202). [log 90 DEDUCED] -/
def Chip.pondAsk (s : Chip) (t : Tree) (w : Wl) : Option EgressAsk :=
  let p := s.pon.pond.get t
  let f := s.pon.framers.get (wkey t w)
  if !f.sending || !s.timingRuns t then none
  else
    let vals := s.pondValues t w
    let pos := max f.pos (min (fsWords w) ((s.frc - p.t0) * fsWords w / frameTicks))
    let room := roomAt vals w p.fc pos
    let ask : EgressAsk := { held := s.heldQueues t w, express := if room.windows then some room.reserved else none }
    let ahead := if room.windows || s.holdsExpress t w vals then none else some { ask with express := some true }
    let (offer, waiting) := s.chooseOffer t w vals room pos f.remainder.isSome
    if offer.isSome then ahead
    else if waiting then
      if gapFill vals && pos + 4 ≤ room.last then some { ask with space := some ((room.last - pos - 2) * 4 - 4) } else ahead
    else some ask

end Sys2Proof.Machine
end

