-- ==== Sys2Proof/Machine/Eth.lean ====
section
/-! DEFINITION. ETH: frames received and sent, flow control, gate lists, preemption, timestamps, links (R655 to R680), and the hierarchy's frames
(R623, R624). Subport k is 4 × port + subport. -/
namespace Sys2Proof.Machine

/-! ### Counters (R674, R675) -/

/-- A frame received with a correct FCS, by its length from DA to FCS. -/
def Chip.rxCount (s : Chip) (k len cast : Nat) : Chip :=
  let p := k / 4
  let q := k % 4
  (((s.bump (Reg.ETH_RX_FRAMES p q)).bump (Reg.ETH_RX_BYTES p q) len).bump (Reg.ETH_RX_SIZEk p q (sizeClass len))).bump
    (Reg.ETH_RX_TYPEy p q cast)

/-- A frame sent. -/
def Chip.txCount (s : Chip) (k len cast : Nat) : Chip :=
  let p := k / 4
  let q := k % 4
  (((s.bump (Reg.ETH_TX_FRAMES p q)).bump (Reg.ETH_TX_BYTES p q) len).bump (Reg.ETH_TX_SIZEk p q (sizeClass len))).bump
    (Reg.ETH_TX_TYPEy p q cast)

/-! ### Staged values (R663, R678) -/

/-- Subports of a mode (R655). -/
def modeSubs (mode : Nat) : Nat := if mode = 0 then 1 else if mode = 1 then 2 else 4

/-- Whether the values staged for a subport may apply (R678). -/
def Chip.subOk (s : Chip) (k : Nat) : Bool :=
  let cfg := s.reg (Reg.ETH_SUB_CFG (k / 4) (k % 4))
  let g := s.stagedGates k
  decide (64 ≤ fld cfg 13 0) && decide (fld cfg 13 0 ≤ 9600) &&
    (!bit cfg 41 || (decide (1000 ≤ g.cycle) && decide (g.cycle ≤ 1000000000) && decide (1 ≤ g.entries.length) && decide (g.entries.length ≤ 256)
      && g.entries.all fun e => fld e 31 8 ≠ 0))

/-- The first instant BASE + n × CYCLE of a list that is not before a time in ns (R663). -/
def GateList.firstAfter (g : GateList) (ns : Int) : Nat :=
  let d := (ns - g.base).toNat
  g.base + ceilDiv d g.cycle * g.cycle

/-- The gate lists staged with GATE_EN 1 wait for their change times, counted from a GO (R663). [log 192 DEDUCED] -/
def Chip.listsWait (s : Chip) (p : Nat) : Chip :=
  (List.range 4).foldl (fun u i =>
    let k := 4 * p + i
    if bit (s.reg (Reg.ETH_SUB_CFG p i)) 41 then u.updSub k fun x => { x with change := some ((s.stagedGates k).firstAfter (s.nowNs + 10000)) }
    else u) s

/-- Whether a port's staged values may be applied (R678). -/
def Chip.ethStagedOk (s : Chip) (p : Nat) : Bool :=
  let cfg := s.reg (Reg.ETH_PORT_CFG p)
  let old := s.act (Reg.ETH_PORT_CFG p)
  let pfc := s.reg (Reg.ETH_PFC_CFG p)
  s.legalRange (Reg.ETH_COMMIT p) (Reg.ETH_COMMIT (p + 1))
    && !(fld cfg 1 0 ≠ fld old 1 0 && fld old 7 4 ≠ 0)
    && decide (fld cfg 7 4 < 2 ^ modeSubs (fld cfg 1 0))
    && ((List.range 4).all fun i => s.subOk (4 * p + i))
    && decide (fld pfc 27 8 ≤ fld pfc 47 28)

/-- ETH_GO: a GO on a port is refused where R678 says. -/
def ethGo (p : Fin 8) (s : Chip) : Chip :=
  let s1 := s.go (Reg.ETH_COMMIT p) (s.ethStagedOk p)
  if s.ethStagedOk p && !s.goPending (Reg.ETH_COMMIT p) then s1.listsWait p else s1

/-- PENDING of a port clears once every part has applied (R678). [log 192 DEDUCED, 196 DESIGN CHOICE] -/
def Chip.ethSettled (s : Chip) (p : Nat) : Chip :=
  if s.goPending (Reg.ETH_COMMIT p) && (s.goAt.get (Reg.ETH_COMMIT p)).isNone && ((List.range 4).all fun i => (s.sub (4 * p + i)).change.isNone)
  then s.goDone (Reg.ETH_COMMIT p) else s

/-- A verify or respond mPacket sent: 60 octets of zero with their mCRC (R665). [log 258 PRESUMED] -/
def Chip.mergeSend (s : Chip) (k : Nat) (smd : Byte) : Chip :=
  let body := List.replicate 60 (0 : Byte)
  s.emit (.ethPacket k smd none (body ++ mCrc body))

/-- An attempt of a subport's verification begins with its verify mPacket (R665). -/
def Chip.verifyTry (s : Chip) (k : Nat) : Chip :=
  (s.updSub k fun y => { y with verify := 2, tries := y.tries + 1, triedAt := s.frc }).mergeSend k smdVerify

/-- A subport's link as its enable leaves it, and the state of its verification (R665, R680). -/
def Chip.subSettled (s : Chip) (k : Nat) : Chip :=
  let cfg := s.subCfg k
  let x := s.sub k
  let off := !s.subOn k
  let s1 := if off && x.link then s.raise (Reg.ETH_EVENT (k / 4)) 0 else s
  let s2 := s1.updSub k fun y =>
    let y := if off then { y with lock := false, link := false, localFault := false, remoteFault := false, assembly := none } else y
    if !bit cfg 30 || bit cfg 31 then { y with verify := 0, tries := 0 } else if !y.link then { y with verify := 1, tries := 0 } else y
  if bit cfg 30 && !bit cfg 31 && (s2.sub k).link && (s2.sub k).verify < 2 then s2.verifyTry k else s2

/-- ETH_APPLY: the staged values of a port are in force, but for gate lists that wait (R663, R678). -/
def ethApply (p : Fin 8) (s : Chip) : Chip :=
  if !s.goPending (Reg.ETH_COMMIT p) || (s.goAt.get (Reg.ETH_COMMIT p)).isNone then s
  else
    let s1 := s.applyRange (Reg.ETH_COMMIT p) (Reg.ETH_COMMIT (p + 1))
    let s2 := (List.range 4).foldl (fun (u : Chip) i =>
      let k := 4 * p.val + i
      let v := if bit (u.subCfg k) 41 then u
        else (u.applyRange (Cell.gcl k 0) (Cell.gcl (k + 1) 0)).updSub k fun x => { x with gates := { x.gates with on := false }, entry := 0 }
      (v.updSub k fun x => { x with maxBefore := s.maxLen k, appliedAt := s.frc }).subSettled k) s1
    s.demotions ({ s2 with goAt := s2.goAt.set (Reg.ETH_COMMIT p) none }.ethSettled p)

/-- GCL_APPLIED: the change time of a staged list has come (R663). -/
def gclApplied (k : Fin 32) (s : Chip) : Chip :=
  match (s.sub k).change with
  | none => s
  | some at_ =>
    if s.nowNs < at_ then s
    else
      let g := s.stagedGates k
      let s1 := (s.applyRange (Cell.gcl k 0) (Cell.gcl (k + 1) 0)).updSub k fun x =>
        { x with gates := g, entry := g.entryNow s.nowNs, change := none, lastChange := at_ }
      (s1.raise (Reg.ETH_EVENT (k / 4)) 5).ethSettled (k / 4)

/-- GCL_STEP: the entry of the list in force becomes that of the present time (R662). -/
def gclStep (k : Fin 32) (s : Chip) : Chip :=
  if s.gated k then s.updSub k fun x => { x with entry := x.gates.entryNow s.nowNs } else s

/-! ### Flow control (R660, R661) -/

/-- A PFC frame's effect: each class named pauses for its quanta. -/
def Chip.pfcPause (s : Chip) (k : Nat) (classes : BitVec 8) (quanta : List (BitVec 16)) : Chip :=
  let s1 := s.bump (Reg.ETH_RX_PFC (k / 4) (k % 4))
  if !bit (s.subCfg k) 42 then s1
  else (List.range 8).foldl (fun (u : Chip) c =>
    if classes.getLsbD c then u.updSub k fun x =>
      { x with paused := x.paused.set c (some (s.frc + s.quantaTicks k (quanta.getD c 0).toNat)) }
    else u) s1

/-- PFC_RECEIVE: a PFC frame of 64 bytes with a correct FCS arrives: the classes it names and the quanta of all eight. [log 194 DESIGN CHOICE] -/
def pfcReceive (k : Fin 32) (classes : BitVec 8) (quanta : List (BitVec 16)) (s : Chip) : Chip :=
  if !(s.subOn k && (s.sub k).lock) then s else ((s.pmBlocks (65 + k) 1 0).rxCount k 64 1).pfcPause k classes quanta

/-- PAUSE_EXPIRE: a class's quanta have run out. -/
def pauseExpire (k : Fin 32) (c : Fin 8) (s : Chip) : Chip :=
  if (s.sub k).paused.get c ≠ none && !s.pausedClass k c then s.updSub k fun x => { x with paused := x.paused.set c none } else s

/-- A PFC frame sent on a subport, and when. [log 194 DESIGN CHOICE] -/
def Chip.pfcSend (s : Chip) (k quanta : Nat) (on : Bool) : Chip :=
  let classes := fld (s.act (Reg.ETH_PFC_CFG (k / 4))) 7 0
  let times := ((List.range 8).filter fun c => bitOf classes c).map fun c => (c, quanta)
  (((s.emit (.pause k times)).bump (Reg.ETH_TX_PFC (k / 4) (k % 4))).txCount k 64 1).updSub k fun x => { x with xoff := if on then some s.frc else none }

/-- The subports of a port that send PFC frames. -/
def Chip.pfcSubs (s : Chip) (p : Nat) : List Nat :=
  ((List.range 4).map fun i => 4 * p + i).filter fun k => s.subOn k && (s.sub k).link && bit (s.subCfg k) 43

/-- PFC_XOFF: FREE has fallen below XOFF_CELLS. -/
def pfcXoff (p : Fin 8) (s : Chip) : Chip :=
  let cfg := s.act (Reg.ETH_PFC_CFG p)
  if fld cfg 27 8 ≤ s.freeCells then s
  else ((s.pfcSubs p).filter fun k => (s.sub k).xoff.isNone).foldl (fun u k => u.pfcSend k (fld cfg 63 48) true) s

/-- PFC_REFRESH: QUANTA / 2 have passed since the last PFC frame of a subport while FREE stays below XON_CELLS. -/
def pfcRefresh (p : Fin 8) (s : Chip) : Chip :=
  let cfg := s.act (Reg.ETH_PFC_CFG p)
  if fld cfg 47 28 ≤ s.freeCells then s
  else ((s.pfcSubs p).filter fun k => match (s.sub k).xoff with
      | some t => decide (s.quantaTicks k (fld cfg 63 48) ≤ 2 * (s.frc - t))
      | none => false).foldl (fun u k => u.pfcSend k (fld cfg 63 48) true) s

/-- PFC_XON: FREE has reached XON_CELLS. -/
def pfcXon (p : Fin 8) (s : Chip) : Chip :=
  if s.freeCells < fld (s.act (Reg.ETH_PFC_CFG p)) 47 28 then s
  else ((s.pfcSubs p).filter fun k => (s.sub k).xoff.isSome).foldl (fun u k => u.pfcSend k 0 false) s

/-! ### Receive (R656, R657, R660) -/

/-- A number in a frame's bytes. -/
def beAt (l : List Byte) (at_ n : Nat) : Nat := numBE ((l.drop at_).take n)

/-- A MAC control frame consumed (R660). [log 195 DESIGN CHOICE] -/
def Chip.macControl (s : Chip) (k : Nat) (bytes : List Byte) : Chip :=
  match beAt bytes 14 2 with
  | 1 => s.bump (Reg.ETH_RX_PAUSE_IGNORED (k / 4) (k % 4))
  | 0x101 => s.pfcPause k (nth bytes 17) ((List.range 8).map fun c => BitVec.ofNat 16 (beAt bytes (18 + 2 * c) 2))
  | _ => s

/-- The stamp of a frame whose point crossed the balls at a tick (R497). -/
def Chip.arrivalStamp (s : Chip) (k tick : Nat) : Nat :=
  stampOf (s.logicalAt tick - signed 32 (s.get (Reg.TIME_ASYM_RXq k) 31 0))

/-- Whether the check of an mPacket is the FCS of a frame's octets (R657). -/
def fcsRight (x : EthLight) : Bool := ethFcs x.bytes false = bytesBE 4 x.check.toNat

/-- A frame enters the uplink-ingress half of its port's pipe (R44, R322, R656, R657). A frame cut at MAX_LEN keeps its length as received, without the
FCS as R323 has it. [log 259 DEDUCED] -/
def Chip.ethEnter (s : Chip) (k len : Nat) (x : EthLight) : Chip :=
  let most := s.rxMaxLen k x.tick
  let long := decide (most < len)
  s.enterPipe (k / 8 * 2 + 1)
    { frameOf (startWord 0 1 k 0 0) (if long then x.bytes.take most else x.bytes) (s.arrivalStamp k x.tick) with
      bad := !fcsRight x, oversize := long, received := len - 4 }

/-- A frame received by the MAC: too short, with a wrong FCS, cut at MAX_LEN, MAC control, or into its pipe. [log 194 DESIGN CHOICE] -/
def Chip.ethArrive (s : Chip) (k : Nat) (x : EthLight) : Chip :=
  let p := k / 4
  let q := k % 4
  let len := x.bytes.length + 4
  let s0 := s.pmBlocks (65 + k) 1 (ofBool (!fcsRight x))
  if len < 64 then s0.bump (Reg.ETH_RX_UNDERSIZE p q)
  else
    let s1 := if fcsRight x then s0.rxCount k len (castType x.bytes) else s0.bump (Reg.ETH_RX_FCS_ERR p q)
    let s2 := if s.rxMaxLen k x.tick < len then s1.bump (Reg.ETH_RX_TRUNCATED p q) else s1
    if beAt x.bytes 12 2 = 0x8808 then (if fcsRight x then s2.macControl k x.bytes else s2) else s2.ethEnter k len x

/-! ### MAC merge (R665, R679) -/

/-- A subport's verification succeeds as the other end responds (R665). -/
def Chip.verified (s : Chip) (k : Nat) : Chip := if (s.sub k).verify = 2 then s.updSub k fun y => { y with verify := 3 } else s

/-- A frame being put together is lost: it is discarded in reassembly (R679). -/
def Chip.assemblyLost (s : Chip) (k : Nat) : Chip :=
  (s.updSub k fun y => { y with assembly := none }).bump (Reg.ETH_RX_REASM_ERR (k / 4) (k % 4))

/-- A preemptable frame begins: it is whole where its check is not the mCRC of its octets (R665). One still unfinished is lost. -/
def Chip.mergeStart (s : Chip) (k n : Nat) (x : EthLight) : Chip :=
  let s1 := if (s.sub k).assembly.isSome then s.assemblyLost k else s
  if mCrc x.bytes = bytesBE 4 x.check.toNat then
    s1.updSub k fun y => { y with assembly := some { number := n, next := 0, bytes := x.bytes, tick := x.tick } }
  else s1.ethArrive k x

/-- A preemptable frame goes on: the next fragment of the frame begun, with the mCRC of the octets so far, or with the frame's FCS as its last. One that
does not follow loses the frame (R665, R679). [log 258 PRESUMED] -/
def Chip.mergeNext (s : Chip) (k n : Nat) (x : EthLight) : Chip :=
  match (s.sub k).assembly with
  | none => s.assemblyLost k
  | some a =>
    let whole := a.bytes ++ x.bytes
    if a.number ≠ n || x.count ≠ fragCount a.next then s.assemblyLost k
    else if mCrc whole = bytesBE 4 x.check.toNat then
      s.updSub k fun y => { y with assembly := some { a with next := a.next + 1, bytes := whole } }
    else ((s.updSub k fun y => { y with assembly := none }).bump (Reg.ETH_RX_REASM_OK (k / 4) (k % 4))).ethArrive k
      { x with bytes := whole, tick := a.tick }

/-- ETH_RX_FRAME: an mPacket that arrives: an express frame, a part of a preemptable one, a verify mPacket, which is answered, a respond mPacket, or one of
an unknown kind (R656, R657, R665, R679). [log 190 DESIGN CHOICE, 196 DESIGN CHOICE, 198 DESIGN CHOICE] -/
def ethRxFrame (k : Fin 32) (x : EthLight) (s : Chip) : Chip :=
  if !(s.subOn k && (s.sub k).lock) then s
  else if x.smd = smdExpress then s.ethArrive k x
  else if x.smd = smdVerify then s.mergeSend k smdRespond
  else if x.smd = smdRespond then s.verified k
  else match (List.range 4).find? fun n => x.smd = smdStart n, (List.range 4).find? fun n => x.smd = smdNext n with
    | some n, _ => s.mergeStart k n x
    | none, some n => s.mergeNext k n x
    | none, none => s.bump (Reg.ETH_RX_SMD_ERR (k / 4) (k % 4))

/-! ### Transmit (R658, R659, R666 to R668) -/

/-- A frame padded to 60 bytes, with its FCS (R658, R659). -/
def wireBytes (bytes : List Byte) (stomp : Bool) : List Byte :=
  let body := bytes ++ List.replicate (60 - bytes.length) 0
  body ++ ethFcs body stomp

/-- TS_APPEND: the stamp of a timed frame joins the FIFO, or is discarded when the FIFO is full; a host frame's status becomes known (R667 to
R669). [log 197 DESIGN CHOICE] -/
def Chip.tsAppend (s : Chip) (k : Nat) (x : TmFrame) : Chip :=
  let sub := s.sub k
  let timed := x.f.tsTag.isSome || bit (s.subCfg k) (14 + x.cls)
  if !timed then s
  else if 512 ≤ sub.stamps.length then
    ((s.bump (Reg.ETH_TS_OVERFLOW (k / 4) (k % 4))).raise (Reg.ETH_EVENT (k / 4)) 3).timedStatus x.f 2
  else
    let sig := crc32c 0xFFFFFFFF#32 ((wireBytes x.f.bytes x.stomp).take 64)
    let w0 := w64 (stampOf (s.uplinkStamp k true) + (x.f.tsTag.getD 0 % 65536) <<< 48)
    let w1 := w64 (sig.toNat + (x.f.ring.getD 0) <<< 32 + ofBool x.f.ring.isSome <<< 44 + 1 <<< 63)
    let s1 := s.updSub k fun y => { y with stamps := y.stamps ++ [(w0, w1)] }
    (if sub.stamps.isEmpty then s1.raise (Reg.ETH_EVENT (k / 4)) 4 else s1).timedStatus x.f 1

/-- A frame has left: counted, stamped, its buffer given back (R433, R658, R675). -/
def Chip.ethSent (s : Chip) (k : Nat) (x : TmFrame) : Chip :=
  let s1 := s.txCount k (wireLen x.f.bytes.length) (castType x.f.bytes)
  let s2 := if x.stomp then s1.bump (Reg.ETH_TX_STOMPED (k / 4) (k % 4)) else s1
  s2.frameGone x.f true false

/-- Whether a frame of the express MAC waits beneath a subport's channel and may be sent. [log 193 DEDUCED] -/
def Chip.expressReady (s : Chip) (k : Nat) : Bool :=
  (s.eligible { uplink := some k }).any fun p => p.2.2.2 = 64 + k && !bit (s.subCfg k) (22 + (s.tmRec kQueue p.1).qClass)

/-- The bytes of a preemptable frame that leave before it is cut, of a length still to send; none where it goes whole (R666). -/
def Chip.cutAt (s : Chip) (k cls len : Nat) : Option Nat :=
  let room := s.roomBefore k cls
  if !s.cuttable k cls then none
  else if s.expressReady k then s.fragmentLen k len room
  else if fitsRoom room len then none
  else s.fragmentLen k len room

/-- A fragment of a preemptable frame leaves: octets from a place on, a number of them, with their mCRC, or the rest with the frame's FCS
(R665, R666). -/
def Chip.fragmentSend (s : Chip) (k : Nat) (r : Preempted) (wire : List Byte) (n : Option Nat) : Chip :=
  let smd := if r.parts = 0 then smdStart r.number else smdNext r.number
  let count := if r.parts = 0 then none else some (fragCount (r.parts - 1))
  let body := match n with
    | some d => (wire.drop r.sent).take d ++ mCrc (wire.take (r.sent + d))
    | none => wire.drop r.sent
  s.emit (.ethPacket k smd count body)

/-- A frame that TM has handed over is dropped as too long, sent whole by its MAC, or sent as far as its first cut (R659, R665, R666). -/
def Chip.ethSend (s : Chip) (k : Nat) (x : TmFrame) : Chip :=
  let wire := wireBytes x.f.bytes x.stomp
  if s.maxLen k < x.f.bytes.length + 4 then (s.bump (Reg.ETH_TX_OVERSIZE_DROP (k / 4) (k % 4))).tmDiscard x.f true
  else if !s.cuttable k x.cls then ((s.tsAppend k x).emit (.ethPacket k smdExpress none wire)).ethSent k x
  else
    let r : Preempted := { frame := x, number := (s.sub k).number }
    let s1 := (s.tsAppend k x).updSub k fun y => { y with number := (y.number + 1) % 4 }
    match s.cutAt k x.cls wire.length with
    | some d =>
      ((s1.fragmentSend k r wire (some d)).bump (Reg.ETH_TX_PREEMPTED (k / 4) (k % 4))).updSub k fun y =>
        { y with preempted := some { r with sent := d, parts := 1 } }
    | none => (s1.fragmentSend k r wire none).ethSent k x

/-- The remainder of a preempted frame goes on while its gate is open and no express frame is ready, and may be cut again (R666). [log 193 DEDUCED] -/
def Chip.ethResume (s : Chip) (k : Nat) (r : Preempted) : Chip :=
  let x := r.frame
  let wire := wireBytes x.f.bytes x.stomp
  let left := wire.length - r.sent
  let room := s.roomBefore k x.cls
  if !s.gateOpen k x.cls || s.expressReady k then s
  else if fitsRoom room left then
    ((s.fragmentSend k r wire none).updSub k fun y => { y with preempted := none }).ethSent k x
  else match s.fragmentLen k left room with
    | some d => (s.fragmentSend k r wire (some d)).updSub k fun y => { y with preempted := some { r with sent := r.sent + d, parts := r.parts + 1 } }
    | none => s

/-- ETH_TX_FRAME: the frame that TM has handed to a subport's channel leaves when it may start; else the remainder of a preempted one goes on.
[log 190 DESIGN CHOICE] -/
def ethTxFrame (k : Fin 32) (s : Chip) : Chip :=
  if !(s.subOn k && (s.sub k).link) then s
  else match s.tm.egress.get (64 + k) with
    | x :: rest =>
      if s.ethAllows k x.cls x.f.length || s.maxLen k < x.f.bytes.length + 4 then
        (s.updTm fun t => { t with egress := t.egress.set (64 + k) rest }).ethSend k x
      else s
    | [] => match (s.sub k).preempted with
      | some r => s.ethResume k r
      | none => s

/-- The head frames beneath a subport's channel that only their gate's closing holds back, each counted once (R664). [log 121 DESIGN CHOICE] -/
def Chip.countHolds (s : Chip) (k : Nat) : Chip :=
  (s.eligible {}).foldl (fun u p =>
    match (s.tmQueue p.1).frames.head? with
    | none => u
    | some x =>
      let key := p.1 + x.tick * 1048576
      let cls := (s.tmRec kQueue p.1).qClass
      if p.2.2.2 = 64 + k && s.gateOpen k cls && !s.pausedClass k cls && !s.ethAllows k cls x.f.length && !(u.sub k).heldFor.contains key
      then (u.bump (Reg.ETH_WINDOW_HOLD (k / 4) (k % 4))).updSub k fun y => { y with heldFor := key :: y.heldFor }
      else u) s

/-- What is known of held frames is kept for those that still wait. -/
def Chip.trimHolds (s : Chip) (k : Nat) : Chip :=
  s.updSub k fun y => { y with heldFor := y.heldFor.filter fun key => match (s.tmQueue (key % 1048576)).frames.head? with
    | some x => x.tick = key / 1048576
    | none => false }

/-- TM_SELECT: an egress asks for a frame of its channel: POND as its place in the frame admits, ETH as its gates and pauses do when it holds none,
HIF without constraint (R424). [log 121 DESIGN CHOICE] -/
def tmSelect (ch : Fin 104) (s : Chip) : Chip :=
  if ch.val < 64 then
    let t : Tree := ⟨ch / 2 % 32, Nat.mod_lt _ (by decide)⟩
    let w : Wl := ⟨ch % 2, Nat.mod_lt _ (by decide)⟩
    let s1 := s.dropLongHeads t w
    match s1.pondAsk t w with
    | some ask => s1.tmChoose ch ask
    | none => s1
  else if ch.val < 96 then
    let k := ch.val - 64
    if !(s.subOn k && (s.sub k).link) || !(s.tm.egress.get ch).isEmpty then s
    else ((s.countHolds k).tmChoose ch { uplink := some k }).trimHolds k
  else s.tmChoose ch {}

/-! ### Timestamps, verification, links (R665, R669, R680) -/

/-- TS_FIFO_READ: a 64-bit read takes the oldest entry and latches its second word; a 32-bit one returns 0 (R669). -/
def tsFifoRead (k : Fin 32) (lanes : Lanes) (s : Chip) : Chip :=
  let second := Reg.ETH_TS_FIFO1 (k / 4) (k % 4)
  match lanes with
  | .full => match (s.sub k).stamps with
    | [] => (s.setReg second 0).answer 0
    | (a, b) :: rest => ((s.updSub k fun y => { y with stamps := rest }).setReg second b).answer a
  | _ => s.answer 0

/-- MM_VERIFY: the other end has responded, or an attempt has gone VERIFY_MS + 1 ms without: then the next begins, and after three the verification
has failed (R665; the three are IEEE 802.3br's, PRESUMED). [log 258 PRESUMED] -/
def mmVerify (k : Fin 32) (ok : Bool) (s : Chip) : Chip :=
  let x := s.sub k
  if x.verify ≠ 2 then s
  else if ok then s.verified k
  else if !lasts (s.frc - x.triedAt) ((fld (s.subCfg k) 40 34 + 1) * 1000000) then s
  else if x.tries < 3 then s.verifyTry k
  else (s.updSub k fun y => { y with verify := 4 }).raise (Reg.ETH_EVENT (k / 4)) 2

/-- LINK_CHANGE: the lock, link and faults of an enabled subport change (R680). [log 196 DESIGN CHOICE] -/
def linkChange (k : Fin 32) (lock link localFault remoteFault : Bool) (s : Chip) : Chip :=
  if !s.subOn k then s
  else
    let x := s.sub k
    let s1 := if x.link != link then s.raise (Reg.ETH_EVENT (k / 4)) 0 else s
    let s2 := if (localFault && !x.localFault) || (remoteFault && !x.remoteFault) then s1.raise (Reg.ETH_EVENT (k / 4)) 1 else s1
    let s3 := (s2.updSub k fun y => { y with lock := lock, link := link, localFault := localFault, remoteFault := remoteFault }).pmDefect (65 + k)
      (!lock || remoteFault)
    s.demotions (s3.subSettled k)

/-- ETH_PORT_STATUS, ETH_MM_STATUS, ETH_GCL_STATUS and ETH_PAUSED as they read (R680). -/
def Chip.portStatus (s : Chip) (p : Nat) : W64 :=
  w64 ((List.range 4).map fun i =>
    let x := s.sub (4 * p + i)
    (ofBool x.lock + 2 * ofBool x.link + 4 * ofBool x.localFault + 8 * ofBool x.remoteFault) <<< (8 * i)).sum

def Chip.mmStatus (s : Chip) (k : Nat) : W64 := w64 ((s.sub k).verify + 8 * ofBool (s.preemptOn k))

def Chip.gclStatus (s : Chip) (k : Nat) : W64 :=
  let x := s.sub k
  w64 (x.entry + ofBool (s.gated k) <<< 8 + ofBool x.change.isSome <<< 9 + ((x.change.getD x.lastChange) % 4294967296) <<< 32)

def Chip.pausedStatus (s : Chip) (k : Nat) : W64 :=
  w64 (((List.range 8).map fun c => ofBool (s.pausedClass k c) <<< c).sum
    + (if (s.sub k).xoff.isSome then fld (s.act (Reg.ETH_PFC_CFG (k / 4))) 7 0 else 0) <<< 8)

/-! ### The hierarchy's frames (R623, R624) -/

/-- The Ethernet frame that GLK builds for a peer entry: its address and tag, the EtherType, and the message. -/
def Chip.hierFrame (s : Chip) (addr : W64) (msg : List Byte) : List Byte :=
  bytesBE 6 (fld addr 47 0) ++ bytesBE 6 Config.hierSource.toNat
    ++ (if bit addr 60 then bytesBE 2 0x8100 ++ bytesBE 2 (fld addr 59 48) else [])
    ++ bytesBE 2 (fld (s.act Reg.GLK_HIER_CFG) 15 0) ++ msg

/-- A message sealed under a slot: header, invocation count, ciphertext, tag (R624); none where the slot gives no use. [log 199 DESIGN CHOICE] -/
def Chip.hierSeal (s : Chip) (slot type dst : Nat) (pt : List Byte) : Option (List Byte) × Chip :=
  let x := s.slot slot
  if !s.slotOk slot 1 then (none, s)
  else match s.slotUse slot 1 (gcmBlocks pt.length) with
    | (false, s1) => (none, s1)
    | (true, s1) =>
      let node := fld (s.act Reg.GLK_HIER_CFG) 20 16
      let head := natsOf ([1, BitVec.ofNat 8 type, BitVec.ofNat 8 node, BitVec.ofNat 8 dst] ++ bytesBE 2 pt.length ++ [0, 0] ++ bytesBE 8 x.uses)
      let (ct, tag) := gcmSeal x.keyBytes (fld x.label 31 0 <<< 64 + x.uses) head (natsOf pt)
      (some (bytesOf (head ++ ct ++ tag)), s1)

/-- HIER_SEND: the oldest message of GLK_HIER_SRC leaves as a frame of its destination's peer entry, on the entry's uplink, or in a row of the Gulrov
link where that sends label 0x02. In the queue, byte 1 of a message is its TYPE, byte 3 its DST_NODE, and its plaintext begins at byte 8.
[log 199 DESIGN CHOICE] -/
def hierSend (s : Chip) : Chip :=
  let src := s.act Reg.GLK_HIER_SRC
  if !bit (s.act Reg.GLK_HIER_CFG) 26 || !bit src 16 || (s.mateOn && s.role ≠ 12) then s
  else match s.queueTake (s.redirect (fld src 5 0)) (fld src 15 6) with
    | none => s
    | some (m, s1) =>
      let dst := (nth m 3).toNat % 32
      let path := s1.reg (Cell.glkPeer dst 1)
      let k := 4 * fld path 2 0 + fld path 4 3
      if !bit path 5 then s1
      else match s1.hierSeal (fld path 21 6) (nth m 1).toNat dst (m.drop 8) with
        | (none, s2) => s2
        | (some msg, s2) =>
          let f := s2.hierFrame (s2.reg (Cell.glkPeer dst 0)) msg
          if fld (s2.act Reg.GLK_LINK_CFG) 19 12 = 2 && bit (s2.act Reg.GLK_LINK_CFG) 29 then s2.updGlk fun g => { g with hierOut := g.hierOut ++ [f] }
          else if !(s2.subOn k && (s2.sub k).link) then s2
          else if s2.maxLen k < f.length + 4 then s2.bump (Reg.ETH_TX_OVERSIZE_DROP (k / 4) (k % 4))
          else (s2.emit (.ethPacket k smdExpress none (wireBytes f false))).txCount k (wireLen f.length) (castType f)

/-- HIER_RECEIVE: GLK takes the oldest hierarchy frame that has come to it (R623). -/
def hierReceive (s : Chip) : Chip :=
  match s.glk.hierIn with
  | [] => s
  | (cls, f) :: rest => (s.updGlk fun g => { g with hierIn := rest }).hierTake f cls

end Sys2Proof.Machine
end

