-- ==== Sys2Proof/Machine/Learn.lean ====
section
/-! DEFINITION. Learning, ageing and the table operations of FWD (R386 to R400, R402, R752). -/
namespace Sys2Proof.Machine

/-- An entry about to be inserted, its HIT open (the spec states none). [log 11 DESIGN CHOICE] -/
def Chip.fresh1 (s : Chip) (e : Entry) : Entry × Chip :=
  let (i, s1) := s.tick
  (setEfld (setEfld e 127 127 1) 125 125 (ofBool (Config.freshHit i)), s1)

/-! ### Learning (R392 to R395) -/

/-- The eight on-die slots of a key's candidate buckets, bucket A first. -/
def Chip.candidates (s : Chip) (table key : Nat) : List Nat :=
  let part := s.partition table key
  let (a, b) := s.buckets table 0 key
  (List.range 4).map (s.entryIndex table 0 part a ·) ++ (List.range 4).map (s.entryIndex table 0 part b ·)

/-- The rank of an occupant for EVICT 1: AGED set, then HIT clear, then HIT set (R394). -/
def evictRank (e : Entry) : Nat := if e.aged then 0 else if e.hit then 2 else 1

/-- The occupant that an install evicts, if any: the oldest, or one chosen at random (R394). [log 109 DESIGN CHOICE] -/
def Chip.victim (s : Chip) (key : Nat) : Option Nat × Chip :=
  let open_ := (s.candidates 0 key).filter fun i => !(s.entry 0 0 i).static
  let rank := fun r => open_.find? fun i => evictRank (s.entry 0 0 i) = r
  match fld (s.act Reg.FWD_LEARN_CFG) 2 1 with
  | 1 => ((rank 0).orElse fun _ => (rank 1).orElse fun _ => rank 2, s)
  | 2 =>
    let (i, s1) := s.tick
    (open_[Config.randomSlot i % max 1 open_.length]?, s1)
  | _ => (none, s)

/-- An absent address installed, under eviction where its buckets are full (R392, R394). [log 105 DESIGN CHOICE] -/
def Chip.install (s : Chip) (ev : LearnEvent) : Chip :=
  let (e0, s1) := s.fresh1 (setEfld (entryOf 0 ev.key ev.dest) 45 32 s.moveTime)
  let e := withParity 0 e0
  match s1.insertBoth 0 e true with
  | some (_, _, s2) => (s2.bump Reg.FWD_LEARNED).report 1 0 ev.key 0 e ev.stamp
  | none =>
    match s1.victim ev.key with
    | (some i, s2) =>
      let old := s2.entry 0 0 i
      let s3 := ((s2.setEntry 0 0 i e).bump Reg.FWD_EVICTED).report 5 0 (entryKey 0 old) 0 old 0
      (s3.bump Reg.FWD_LEARNED).report 1 0 ev.key 0 e ev.stamp
    | (none, s2) => ((s2.bump Reg.FWD_LEARN_FULL).report 6 0 ev.key 0 e ev.stamp).rehash 0 ev.key

/-- An entry's DEST rewritten by a station move (R393). -/
def Chip.moveTo (s : Chip) (x i : Nat) (e : Entry) (ev : LearnEvent) : Chip :=
  let e1 := withParity 0 (setEfld e 31 0 ev.dest)
  ((s.setEntry 0 x i e1).bump Reg.FWD_MOVES).report 2 0 ev.key e.dest e1 ev.stamp

/-- STATION_MOVE (R393). -/
def Chip.stationMove (s : Chip) (x i : Nat) (e : Entry) (ev : LearnEvent) : Chip :=
  let cfg := s.act Reg.FWD_LEARN_CFG
  let now := s.moveTime
  if e.flapping then s.bump Reg.FWD_MOVE_IGNORED
  else if fld cfg 19 7 ≤ (now + 16384 - efld e 45 32) % 16384 then
    s.moveTo x i (setEfld (setEfld e 45 32 now) 49 46 1) ev
  else
    let n := min 15 (efld e 49 46 + 1)
    let e1 := setEfld e 49 46 n
    if n < fld cfg 6 3 then s.moveTo x i e1 ev
    else
      let e2 := setEfld e1 122 122 1
      ((s.setEntry 0 x i e2).raise Reg.FWD_EVENT 1 |>.bump Reg.FWD_FLAPPING).report 3 0 ev.key ev.dest e2 ev.stamp

/-- LEARN_REQUEST: an event reported to the program, unless one like it was sent within the last 1 ms (R395). [log 108 DESIGN CHOICE] -/
def Chip.learnRequest (s : Chip) (part : Nat) (ev : LearnEvent) : Chip :=
  let sent := (s.fwd.requests.get part).filter fun r => !lasts (s.frc - r.2) 1000000
  if sent.any fun r => r.1.key = ev.key && r.1.dest = ev.dest then
    s.updFwd fun f => { f with requests := f.requests.set part sent }
  else
    let q := s.reportTry 0 0 ev.key 0 (entryOf 0 ev.key ev.dest) ev.stamp
    q.2.updFwd fun f => { f with requests := f.requests.set part (if q.1 then (ev, s.frc) :: sent else sent) }

/-- LEARN_EVENT: a partition's agent takes its oldest event; an entry that fails its check is a miss (R382, R392, R395). -/
def learnEvent (part : Nat) (s : Chip) : Chip :=
  match s.fwd.learn.get part with
  | [] => s
  | ev :: rest =>
    let s0 := s.updFwd fun f => { f with learn := f.learn.set part rest }
    let s1 := if bit (s.act Reg.FWD_LEARN_CFG) 0 then s0 else (s0.faultAt 0 ev.key true false ev.stamp).2
    if bit (s.act Reg.FWD_LEARN_CFG) 0 then s1.learnRequest part ev
    else match s1.found 0 ev.key true with
      | none => s1.install ev
      | some (x, i, e) => if e.static || e.dest = ev.dest then s1 else s1.stationMove x i e ev

/-! ### Ageing (R398 to R400, R752) -/

/-- The step of R398 on one entry, with its AGE_ACTION (R400): 0 HIT cleared, 1 AGED set, 2 removed, 3 none. [log 107 DESIGN CHOICE] -/
def Chip.ageStep (s : Chip) (table x i : Nat) : Nat × Chip :=
  let e := s.entry table x i
  if !e.valid || e.static then (3, s)
  else if e.hit then (0, s.setEntry table x i (setEfld e 125 124 0))
  else if !e.aged then (1, s.setEntry table x i (setEfld e 124 124 1))
  else (2, ((s.setEntry table x i 0).bump Reg.FWD_AGED_OUT).report 4 table (entryKey table e) 0 e 0)

/-- Entries a sweep visits: those on-die, then those of an enabled extension. -/
def Chip.sweepSize (s : Chip) (table : Nat) : Nat :=
  1048576 + (if bit (s.tableCfg table) 36 then 2 ^ fld (s.tableCfg table) 41 37 else 0)

/-- The tick at which a sweeper's next visit falls: its visits are spread evenly over its PERIOD in ms (R398). -/
def Chip.sweepDue (s : Chip) (table : Nat) : Nat :=
  let w := s.fwd.sweepers.get table
  w.since + ceilDiv (w.pos * w.period * 622080) (s.sweepSize table)

/-- SWEEP_VISIT: the sweeper's next entry, when its time has come; the visit after the last one ends the sweep and begins the next under the period then set
(R398, R752). -/
def sweepVisit (table : Nat) (s : Chip) : Chip :=
  let w := s.fwd.sweepers.get table
  if !w.running || s.frc < s.sweepDue table then s
  else
    let (x, i) := if w.pos < 1048576 then (0, w.pos) else (1, w.pos - 1048576)
    let s1 := if (s.entry table x i).valid && s.entryBad table x i false then s.entryErr table x i 0 else (s.ageStep table x i).2
    let reg := s1.reg (Reg.FWD_SWEEPn table)
    if w.pos + 1 < s.sweepSize table then
      s1.updFwd fun f => { f with sweepers := f.sweepers.set table { w with pos := w.pos + 1 } }
    else
      (s1.setField (Reg.FWD_SWEEPn table) 63 32 (fld reg 63 32 + 1)).updFwd fun f =>
        { f with sweepers := f.sweepers.set table { w with pos := 0, period := fld reg 31 0, since := w.since + w.period * 622080 } }

/-- SWEEP_PERIOD_WRITE (R752). -/
def sweepPeriodWrite (table : Nat) (v : W64) (s : Chip) : Chip :=
  let w := s.fwd.sweepers.get table
  let s1 := s.setField (Reg.FWD_SWEEPn table) 31 0 (fld v 31 0)
  if fld v 31 0 = 0 then s1.updFwd fun f => { f with sweepers := f.sweepers.set table {} }
  else if w.running then s1
  else s1.updFwd fun f => { f with sweepers := f.sweepers.set table { running := true, pos := 0, period := fld v 31 0, since := s.frc } }

/-! ### Table operations (R386 to R389, R399, R400, R402) -/

/-- A table operation's status, the entry it found, word 3 of the block, and the state after. -/
structure TblAnswer where
  status : Nat := 0
  entry : Option Entry := none
  loc : Nat := 0
  chip : Chip := {}

/-- The flags of word 0 (R386). -/
def tblTable (flags : Nat) : Nat := flags % 2
def tblExt (flags : Nat) : Bool := flags >>> 1 % 2 = 1
def tblStatic (flags : Nat) : Bool := flags >>> 2 % 2 = 1
def tblReplace (flags : Nat) : Bool := flags >>> 3 % 2 = 1
def tblTouch (flags : Nat) : Bool := flags >>> 4 % 2 = 1

/-- Word 3 of a location (R386). -/
def locOf (x i : Nat) : Nat := i % 16777216 + x <<< 24

/-- An operation on the entry with a request's key: MISS where there is none, ENTRY_ERR where its word fails its check (R382,
R387). -/
def Chip.tblOn (s : Chip) (flags : Nat) (e : Entry) (fault : Bool) (act : Nat → Nat → Entry → TblAnswer) : TblAnswer :=
  match s.found (tblTable flags) (entryKey (tblTable flags) e) (tblExt flags) with
  | none => { status := 1, chip := s }
  | some (x, i, found) =>
    if s.entryBad (tblTable flags) x i fault then { status := 4, loc := locOf x i, chip := s.entryErr (tblTable flags) x i 0 } else act x i found

/-- TBL.FIND. [log 106 DESIGN CHOICE] -/
def Chip.tblFind (s : Chip) (flags : Nat) (e : Entry) (fault : Bool) : TblAnswer :=
  s.tblOn flags e fault fun x i found =>
    { entry := some found, loc := locOf x i, chip := if tblTouch flags then s.touch (tblTable flags) x i else s }

/-- An entry rewritten under REPLACE (R388). -/
def replaced (table : Nat) (old : Entry) (static : Bool) (dest now : Nat) : Entry :=
  let e := setEfld (setEfld (setEfld old 31 0 dest) 123 123 (ofBool static)) 125 124 0
  withParity table (if table = 0 then setEfld (setEfld (setEfld e 122 122 0) 49 46 0) 45 32 now else e)

/-- TBL.INS (R387 to R389). [log 105 DESIGN CHOICE, 106 DESIGN CHOICE] -/
def Chip.tblInsert (s : Chip) (flags : Nat) (e : Entry) (fault : Bool) : TblAnswer :=
  let t := tblTable flags
  let key := entryKey t e
  if reservedDest e.dest then { status := 5, chip := s }
  else match s.found t key (tblExt flags) with
    | some (x, i, old) =>
      if s.entryBad t x i fault then { status := 4, loc := locOf x i, chip := s.entryErr t x i 0 }
      else if tblReplace flags then
        { loc := locOf x i, chip := s.setEntry t x i (replaced t old (tblStatic flags) e.dest s.moveTime) }
      else { status := 3, loc := locOf x i, chip := s }
    | none =>
      let (e0, s1) := s.fresh1 (setEfld (entryOf t key e.dest) 123 123 (ofBool (tblStatic flags)))
      let (j, s2) := s1.tick
      let e1 := if t = 0 then setEfld e0 49 32 (Config.freshMove j).toNat else e0
      match s2.insertBoth t e1 (tblExt flags) with
      | some (x, i, s3) => { loc := locOf x i, chip := s3 }
      | none => { status := 2, chip := s2.rehash t key }

/-- TBL.DEL. -/
def Chip.tblDelete (s : Chip) (flags : Nat) (e : Entry) (fault : Bool) : TblAnswer :=
  s.tblOn flags e fault fun x i _ => { loc := locOf x i, chip := s.setEntry (tblTable flags) x i 0 }

/-- TBL.AGE: the step of R398 with its AGE_ACTION (R400). [log 107 DESIGN CHOICE] -/
def Chip.tblAge (s : Chip) (flags : Nat) (e : Entry) (fault : Bool) : TblAnswer :=
  s.tblOn flags e fault fun x i _ =>
    let (a, s1) := s.ageStep (tblTable flags) x i
    { loc := locOf x i + a <<< 25, chip := s1 }

/-- The entry in FWD_TBL_ENTRY_HI and _LO. -/
def Chip.tblEntry (s : Chip) : Entry :=
  BitVec.ofNat 128 ((s.reg Reg.FWD_TBL_ENTRY_HI).toNat <<< 64 + (s.reg Reg.FWD_TBL_ENTRY_LO).toNat)

/-- A host table command begins; one written while another runs is discarded with CMD_ERR (R402). FIND's entry goes to the entry
registers. -/
def Chip.tblCmd (s : Chip) (op flags : Nat) (run : Chip → Entry → TblAnswer) : Chip :=
  if s.fwd.command.isSome then s.raise Reg.FWD_EVENT 8
  else
    let s1 := (s.setField Reg.FWD_TBL_CMD 6 0 (op + flags <<< 2)).setFlag Reg.FWD_TBL_CMD 8 true
    let a := run s1 s1.tblEntry
    let s2 := match a.entry with
      | some e => (a.chip.setReg Reg.FWD_TBL_ENTRY_HI (w64 (efld e 127 64))).setReg Reg.FWD_TBL_ENTRY_LO (w64 (efld e 63 0))
      | none => a.chip
    s2.updFwd fun f => { f with command := some (a.status, w64 a.loc) }

def fwdTblFind (flags : Nat) (fault : Bool) (s : Chip) : Chip := s.tblCmd 0 flags fun u e => u.tblFind flags e fault
def fwdTblInsert (flags : Nat) (fault : Bool) (s : Chip) : Chip := s.tblCmd 1 flags fun u e => u.tblInsert flags e fault
def fwdTblDelete (flags : Nat) (fault : Bool) (s : Chip) : Chip := s.tblCmd 2 flags fun u e => u.tblDelete flags e fault
def fwdTblAge (flags : Nat) (fault : Bool) (s : Chip) : Chip := s.tblCmd 3 flags fun u e => u.tblAge flags e fault

/-- FWD_CMD_DONE: STATUS and FWD_TBL_LOC are written and RUNNING clears (R402). [log 97 DESIGN CHOICE] -/
def fwdCmdDone (s : Chip) : Chip :=
  match s.fwd.command with
  | none => s
  | some (st, loc) =>
    (((s.setField Reg.FWD_TBL_CMD 11 9 st).setFlag Reg.FWD_TBL_CMD 8 false).setReg Reg.FWD_TBL_LOC loc).updFwd fun f =>
      { f with command := none }

end Sys2Proof.Machine
end

