-- ==== Sys2Proof/Machine/Island.lean ====
section
/-! DEFINITION. The island's log and flash writes, and the long operations that mailboxes and side-band nodes start (R652 to R654, R696, R705 to
R709). -/
namespace Sys2Proof.Machine

def Chip.updIsl (s : Chip) (f : Island → Island) : Chip := { s with isl := f s.isl }

/-- Ticks of a microsecond's thousandths: the island's clock after ns nanoseconds, rounded up. [log 4 DESIGN CHOICE] -/
def islTicks (ns : Nat) : Nat := ceilDiv (ns * 622080) 1000000

/-- Whether the island's clock has reached a time. -/
def Chip.islReached (s : Chip) (t : Nat) : Bool := decide (t ≤ s.isl.clock)

/-! ### The log (R707 to R709) -/

/-- The ticks in which the bucket refills by one entry: 4 entries a second. -/
def bucketTick : Nat := 155520000

/-- The bucket as it has refilled since it was last looked at. -/
def Island.refilled (i : Island) : Island :=
  let n := (i.clock - i.bucketAt) / bucketTick
  if i.bucket ≤ n then { i with bucket := 0, bucketAt := i.clock } else { i with bucket := i.bucket - n, bucketAt := i.bucketAt + n * bucketTick }

/-- The place of an entry in the flash (R705). -/
def logPlace (seq : Nat) : Nat := 0x400000 + seq % 131072 * 32

/-- An entry's 32 bytes (R707). -/
def logBytes (seq : Nat) (x : LogEntry) : List Byte :=
  bytesBE 4 seq ++ [BitVec.ofNat 8 x.source, BitVec.ofNat 8 x.kind, BitVec.ofNat 8 x.flags, 0] ++ bytesBE 8 x.time ++ x.data

/-- An entry written to the ring: its 4 KiB sector is erased when its first entry is written. [log 201 DESIGN CHOICE] -/
def Chip.logPut (s : Chip) (x : LogEntry) : Chip :=
  let seq := s.isl.logSeq
  let at_ := logPlace seq
  let s1 := if seq % 128 = 0 then s.flashErase at_ 4096 else s
  (s1.flashWrite at_ (logBytes seq x)).updIsl fun i => { i with logSeq := (seq + 1) % 4294967296, bucket := i.bucket + 1 }

/-- LOG_WRITE: the oldest entry of the buffer goes to the flash, after the count of entries suppressed before; with the bucket empty it is counted instead
(R709). [log 201 DESIGN CHOICE] -/
def logWrite (s : Chip) : Chip :=
  let s0 := s.updIsl Island.refilled
  if s0.isl.bucket < 4096 then
    match s0.isl.suppressed with
    | (k, n) :: rest =>
      (s0.updIsl fun i => { i with suppressed := rest }).logPut
        { source := k / 256, kind := k % 256, flags := 2 + ofBool (s0.isl.core ≠ 3), time := wrapInt 64 s0.isl.now, data := bytesBE 8 n ++ List.replicate 8 0 }
    | [] => match s0.isl.buffer with
      | [] => s0
      | x :: rest => (s0.updIsl fun i => { i with buffer := rest }).logPut x
  else match s0.isl.buffer with
    | [] => s0
    | x :: rest =>
      ((s0.updIsl fun i => { i with buffer := rest, suppressed := i.suppressed.upd (x.source * 256 + x.kind) (· + 1) }).bump
        Reg.SBY_LOG_SUPPRESSED).raise Reg.SBY_EVENT 6

/-- ISLAND_TIME_READ: once a second the island takes logical time from TIME while the core runs (R708). -/
def islandTimeRead (s : Chip) : Chip :=
  if s.isl.core = 3 && (!s.isl.timeRead || s.islReached (s.isl.timeAt + islTicks 1000000000)) then
    s.updIsl fun i => { i with timeNs := s.logical / 65536, timeAt := i.clock, timeRead := true }
  else s

/-- The log entry of a sequence number, where the ring still holds it. -/
def Chip.logRead (s : Chip) (seq : Nat) : Option (List Byte) :=
  let l := s.flashRead (logPlace seq) 32
  if seq < s.isl.logSeq && s.isl.logSeq ≤ seq + 131072 && numBE (l.take 4) = seq then some l else none

/-! ### Slots (R653, R705, R706) -/

/-- VERSION of the pattern in a slot; 0 where it is empty. -/
def Chip.slotVersion (s : Chip) (b : Bool) : Nat :=
  let l := s.flashRead (slotBase b) 12
  if numBE (l.take 4) = 0xFFFFFFFF then 0 else numBE (l.drop 8)

/-- Whether a write of a slot is refused: it would take away the last slot that passes (R654, R706). -/
def Chip.slotGuarded (s : Chip) (b : Bool) : Bool := s.slotPasses b && !s.slotPasses (!b)

/-- The code of R302 for an image that breaks R295 to R298; 0 where it breaks none. -/
def imageCode (l : List Byte) : Nat :=
  if (imgWords l).isNone then 4 else if imgNum l 7 1 ≠ keyOption then 5 else if !imgSigned l then 6 else 0

/-- FLASH_CHECK: the images found and the code of the first failing one; an empty slot gives EMPTY_SLOT. -/
def Chip.flashCheck (s : Chip) (b : Bool) : Nat × Nat :=
  let l := s.slotList b
  let codes := l.map imageCode
  let kinds := if (l.headD []).isEmpty then 3 else if imgNum (l.headD []) 6 1 ≠ 1 || (l.drop 1).any (fun p => imgNum p 6 1 ≠ 2) then 4 else 0
  (l.length, (codes.find? (· ≠ 0)).getD kinds)

/-- The images in a string of bytes laid out like a slot. -/
def dataImages : Nat → List Byte → List (List Byte)
  | 0, _ => []
  | n + 1, l =>
    if l.length < 32 || imgNum l 0 4 = 0xFFFFFFFF then []
    else
      let k := imgLength (l.take 32)
      l.take k :: dataImages n (l.drop ((k + 7) / 8 * 8))

/-- Whether data to be written as a slot passes FLASH_CHECK (R654). -/
def dataPasses (l : List Byte) : Bool :=
  let imgs := dataImages 15421 l
  !imgs.isEmpty && imgs.all (fun p => imageCode p = 0) && imgNum (imgs.headD []) 6 1 = 1 && (imgs.drop 1).all fun p => imgNum p 6 1 = 2

/-! ### Long operations (R652, R696) -/

/-- An operation starts, with the next TOKEN; a mailbox shows it in HIF_MB_STATUS (R652). -/
def Chip.longStart (s : Chip) (x : LongOp) : Chip :=
  let token := (s.hif.token + 1) % 4294967296
  let s1 := { s with hif := { s.hif with long := some { x with token := token }, token := token } }
  match x.by_ with
  | .mailbox e => s1.setReg (Reg.HIF_MB_STATUS e) (w64 (1 + fld (s.reg (Reg.HIF_MB_STATUS e)) 18 11 <<< 11 + x.op <<< 19
      + ofBool (s.flag (Reg.HIF_MB_STATUS e) 27) <<< 27 + token <<< 32))
  | .node n => { s1 with hif := { s1.hif with results := s1.hif.results.set n (token * 256) } }

/-- The operation ends with a result, reported to its starter alone, and logged (R652, R696, R707). [log 203 DESIGN CHOICE] -/
def Chip.longEnd (s : Chip) (x : LongOp) (result : Nat) : Chip :=
  let s1 := ({ s with hif := { s.hif with long := none } } : Chip).islLog 2 x.op (BitVec.ofNat 8 result :: bytesBE 4 x.token)
  match x.by_ with
  | .mailbox e =>
    if s.isl.core ≠ 3 then s1
    else (((s1.setField (Reg.HIF_MB_STATUS e) 18 11 result).setFlag (Reg.HIF_MB_STATUS e) 0 false).setFlag (Reg.HIF_MB_STATUS e) 27 true).raise
      Reg.HIF_EVENT 7
  | .node n => { s1 with hif := { s1.hif with results := s1.hif.results.set n (x.token * 256 + result) } }

/-- Whether a flash write runs: one from a mailbox, or one of the side-band from FLASH_BEGIN to the end of FLASH_END (R697). [log 204 DEDUCED] -/
def Chip.flashWriting (s : Chip) : Bool :=
  s.isl.writeSlot.isSome || (match s.hif.long with | some x => x.op = 5 || x.op = 0x15 || x.op = 0x17 | none => false)

/-- The log entries that a mailbox asks for, from the first one on, as the ring holds them. -/
def Chip.logRange (s : Chip) (first n : Nat) : List (List Byte) := (List.range n).filterMap fun i => s.logRead (first + i)

/-- Log entries written to host memory: how many (R653). -/
def Chip.logSend (s : Chip) (e first n addr : Nat) : Nat × Chip :=
  let l := s.logRange first n
  (l.length, s.emit (.dma e addr l.flatten))

/-- The result of an operation that has run its course, and the state after; none while it cannot end yet. [log 203 DESIGN CHOICE] -/
def Chip.longResult (s : Chip) (x : LongOp) : Option (Nat × Chip) :=
  match x.op with
  | 4 =>
    if !x.dmaOk then some (7, s)
    else match x.by_ with
      | .mailbox e =>
        if !(s.hif.eps.get e).bme then some (7, s) else
        let (n, s1) := s.logSend e x.arg x.arg1 x.arg2
        some (0, if s.isl.core = 3 then s1.setReg (Reg.HIF_MB_DATA0 e) (w64 n) else s1)
      | .node _ => some (6, s)
  | 5 =>
    if !x.dmaOk then some (7, s)
    else if !dataPasses x.bytes then some (6, s)
    else some (0, (s.flashErase (slotBase (x.arg = 1)) 0x200000).flashWrite (slotBase (x.arg = 1)) x.bytes)
  | 6 =>
    let (n, code) := s.flashCheck (x.arg = 1)
    let s1 := match x.by_ with
      | .mailbox e => if s.isl.core = 3 then (s.setReg (Reg.HIF_MB_DATA0 e) (w64 n)).setReg (Reg.HIF_MB_DATA1 e) (w64 code) else s
      | .node _ => s
    some (if code = 0 then 0 else 6, s1)
  | 0x13 => if s.patterns.loader.busy then none else some (s.patterns.loader.result, s)
  | 0x14 => if s.isl.core = 3 then some (0, s) else if s.isl.core = 0 then some (6, s) else none
  | 0x17 =>
    let b := decide (x.arg = 1)
    let s1 := s.updIsl fun i => { i with writeSlot := none }
    if s.slotPasses b then some (0, s1) else some (6, s1.flashErase (slotBase b) 0x200000)
  | _ => some (0, s)

/-- LONG_OP_DONE: the long operation has come to so many per mille; at 1,000 it ends. A FLASH_WRITE whose data passes erases the slot as it first moves
(R652 to R654). -/
def longOpDone (progress : Fin 1001) (s : Chip) : Chip :=
  match s.hif.long with
  | none => s
  | some x =>
    if progress.val = 1000 then
      match s.longResult x with
      | some (r, s1) => s1.longEnd x r
      | none => s
    else
      let s1 := { s with hif := { s.hif with long := some { x with progress := progress } } }
      let s2 := match x.by_ with
        | .mailbox e => if s.isl.core = 3 then s1.setField (Reg.HIF_MB_STATUS e) 10 1 progress else s1
        | .node _ => s1
      if x.op = 5 && x.progress = 0 && progress.val ≠ 0 && x.dmaOk && dataPasses x.bytes then s2.flashErase (slotBase (x.arg = 1)) 0x200000 else s2

/-- ABORT by a starter: its own operation ends with FAILED; any other answers DENIED (R696). A load that has written no store ends with it; so does
the side-band's flash write. [log 203 DESIGN CHOICE] -/
def Chip.longAbort (s : Chip) (who : Starter) : Nat × Chip :=
  match s.hif.long with
  | none => (5, s)
  | some x =>
    if x.by_ ≠ who then (5, s)
    else
      let s1 := if x.op = 0x13 && s.patterns.loader.busy && s.patterns.loader.phase < 3 then s.loadEnd 1 else s
      let s2 := if x.op = 0x15 || x.op = 0x17 then s1.updIsl fun i => { i with writeSlot := none } else s1
      (0, s2.longEnd x 6)

/-- A pattern load ended by a reset: PATTERN_LOAD with FAILED (R697). [log 203 DESIGN CHOICE] -/
def Chip.endPatternLoad (s : Chip) : Chip :=
  match s.hif.long with
  | some x => if x.op = 0x13 then s.longEnd x 6 else s
  | none => s

end Sys2Proof.Machine
end

