-- ==== Sys2Proof/Machine/Power.lean ====
section
/-! DEFINITION. Rails, resets, clocks, start-up, temperature and ageing (R681, R701 to R704, R713 to R741). -/
namespace Sys2Proof.Machine

/-! ### The core reset (R703, R717) -/

/-- The bits of GLB_RESET_CAUSE. -/
def cPin : Nat := 0
def cIsland : Nat := 1
def cPower : Nat := 2
def cTherm : Nat := 3
def cLock : Nat := 4

/-- The registers of the island, which a core reset leaves alone (R682). -/
def Chip.islandRegs (s : Chip) : Map W64 := s.regs.filter fun (e : Nat × W64) => 0x2800000 ≤ e.1 && e.1 < 0x2900000

/-- The core after a reset: every block as at reset; the island, what has left the part and the number of the next open value go on. -/
def Chip.coreCleared (s : Chip) : Chip :=
  { regs := s.islandRegs, fresh := s.fresh, readData := s.readData, out := s.out, isl := s.isl
    hif := { long := s.hif.long, token := s.hif.token, results := s.hif.results } }

/-- A cause of the core reset in GLB_RESET_CAUSE (R741). [log 207 DESIGN CHOICE] -/
def Chip.setCause (s : Chip) (cause : Nat) : Chip := s.setFlag Reg.GLB_RESET_CAUSE cause true

/-- The core enters reset, or loses its rails (`core` is the state it comes to), for a cause; the reset is logged, a pattern load ends (R697, R707,
R717). [log 207 DESIGN CHOICE] -/
def Chip.coreDown (s : Chip) (core cause : Nat) : Chip :=
  let causes := if s.isl.core = 3 then 0 else s.get Reg.GLB_RESET_CAUSE 4 0
  let s1 := ((s.endPatternLoad.coreCleared).updIsl fun i => { i with core := core, refresh := none }).islLog 3 cause []
  (s1.setField Reg.GLB_RESET_CAUSE 4 0 causes).setCause cause

/-- PORST_ASSERT: PORST_N goes low. -/
def porstAssert (s : Chip) : Chip :=
  let s1 := s.updIsl fun i => { i with pin := true }
  if s.isl.core = 3 then s1.coreDown 2 cPin else if s.isl.core = 2 then s1.setCause cPin else s1

/-- What still holds the core in reset (R717). -/
def Chip.coreHeld (s : Chip) : Bool := s.isl.pin || s.isl.hold || s.isl.good ≠ 63

/-- The island's hold ends at its time; one that followed a start of the rails supplies every DIMM slot first (R717). -/
def Chip.holdOver (s : Chip) : Chip :=
  match s.isl.holdEnd with
  | none => s
  | some t =>
    if s.islReached t then s.updIsl fun i => { i with hold := false, holdEnd := none, bringUp := false, dimms := if i.bringUp then 255 else i.dimms } else s

/-- PORST_RELEASE: PORST_N as it stands now, with the straps PCIE_SPLIT and MEM_MIRROR. When nothing holds the core any more, its start-up begins and
the straps are read (R717, R732, R736). -/
def porstRelease (pinHigh split mirror : Bool) (s : Chip) : Chip :=
  let s1 := (s.updIsl fun i => { i with pin := !pinHigh }).holdOver
  if s1.isl.core ≠ 2 || s1.coreHeld then s1
  else
    (s1.updIsl fun i => { i with core := 3, releasedAt := i.clock }).setReg Reg.GLB_STRAPS
      (w64 (ofBool split + 2 * ofBool mirror + (s1.isl.node % 32) <<< 2 + ofBool s1.isl.seq <<< 7))

/-! ### Rails (R701, R702, R716, R723) -/

/-- The rails that the island enables: once it disables them, the last of them goes at once and one more each millisecond, in reverse order (R702). -/
def Island.enabled (i : Island) : Nat :=
  match i.offAt with
  | none => i.rails
  | some t => i.rails / 2 ^ (1 + (i.clock - t) / islTicks 1000000)

/-- The core goes down and the rails begin to be disabled, for a cause (R702). [log 206 DESIGN CHOICE] -/
def Chip.railsOff (s : Chip) (cause : Nat) : Chip :=
  (s.coreDown 0 cause).updIsl fun i =>
    { i with offAt := some (i.offAt.getD i.clock), step := 0, hold := false, holdEnd := none, bringUp := false, resetDue := none }

/-- A power fault of a rail: POWER_FAULT, the log, every rail off (R702). -/
def Chip.powerFault (s : Chip) (rail : Nat) : Chip :=
  ((s.railsOff cPower).islLog 3 cPower [BitVec.ofNat 8 rail]).raise Reg.SBY_EVENT 5

/-- The rails are enabled in order, the first one now, with the core held (R701). THERMTRIP_N is released (R723). -/
def Chip.railsOn (s : Chip) : Chip :=
  s.updIsl fun i => { i with core := 1, rails := 1, offAt := none, step := 0, stepAt := i.clock, hold := true, holdEnd := none, bringUp := true, therm := false }

/-- RAIL_POWER_GOOD: a rail's power-good asserts; the next rail is enabled, or after the last the hold ends 10 ms later (R701). Where the board
sequences the rails, the island reports the state only. -/
def railPowerGood (r : Fin 6) (s : Chip) : Chip :=
  let s1 := s.updIsl fun i => { i with good := i.good ||| 2 ^ r.val }
  if !(s.isl.seq && s.isl.core = 1 && s.isl.step = r.val) then
    (if !s.isl.seq && s1.isl.good = 63 then s1.updIsl fun i => { i with therm := false } else s1)
  else if r.val < 5 then s1.updIsl fun i => { i with rails := i.rails ||| 2 ^ (r.val + 1), step := r.val + 1, stepAt := i.clock }
  else s1.updIsl fun i => { i with core := 2, holdEnd := some (i.clock + islTicks 10000000) }

/-- RAIL_TIMEOUT: the power-good of the rail just enabled has not come within 10 ms (R702). -/
def railTimeout (s : Chip) : Chip :=
  let i := s.isl
  if i.seq && i.core = 1 && !bitOf i.good i.step && s.islReached (i.stepAt + islTicks 10000000) then s.powerFault i.step else s

/-- PG_FALL: a rail's power-good falls: the island takes every rail off; where the board sequences them the core is in reset (R702, R717). -/
def pgFall (r : Fin 6) (s : Chip) : Chip :=
  let s1 := s.updIsl fun i => { i with good := i.good &&& (63 - 2 ^ r.val) }
  if s.isl.seq && bitOf s.isl.enabled r then s1.powerFault r
  else if s.isl.core = 3 then s1.coreDown 2 cPower
  else if s.isl.core = 2 then s1.setCause cPower
  else s1

/-- CORE_RESET_HOLD: 10 ms after the answer to a CORE_RESET, the island holds the core in reset for 1 ms (R703). -/
def coreResetHold (s : Chip) : Chip :=
  match s.isl.resetDue with
  | none => s
  | some t =>
    if !s.islReached t then s
    else
      let s1 := s.updIsl fun i => { i with resetDue := none, hold := true, holdEnd := some (i.clock + islTicks 1000000) }
      if s.isl.core = 3 then s1.coreDown 2 cIsland else if s.isl.core = 2 then s1.setCause cIsland
      else s.updIsl fun i => { i with resetDue := none }

/-- DIMM_SUPPLY_OFF: the supply of an OFFLINE channel's slot goes (R704). -/
def dimmSupplyOff (c : Fin 8) (s : Chip) : Chip :=
  if (s.chan c).state = 1 then s.updIsl fun i => { i with dimms := i.dimms &&& (255 - 2 ^ c.val) } else s

/-- ISLAND_RESET: VSTBY falls below 2.6 V (`low`), or comes back, with the straps then read. What the island held is lost but for its flash; the core
loses its rails, or is held; on its return the island logs it and starts the rails that it sequences (R681, R701, R707, R709, R732). [log 207 DESIGN CHOICE] -/
def islandReset (low : Bool) (node : Fin 32) (seq : Bool) (s : Chip) : Chip :=
  if low then
    let s1 := { s.coreCleared with regs := [], hif := {} }
    { s1 with isl := { inReset := true, core := if s.isl.seq then 0 else 2, clock := s.isl.clock, flash := s.isl.flash, logSeq := s.isl.logSeq
                       pin := s.isl.pin, good := if s.isl.seq then 0 else s.isl.good, hold := true } }
  else if !s.isl.inReset then s
  else
    let s1 := (s.updIsl fun i => { i with inReset := false, node := node, seq := seq, bucketAt := i.clock, nextBeat := i.clock }).islLog 0 0 []
    if seq then s1.railsOn
    else s1.updIsl fun i => { i with core := 2, holdEnd := some i.clock, bringUp := true }

/-! ### Clocks (R724 to R729) -/

/-- ROOT_LOCK: the root synthesizer has locked: the domains run, the strap MEM_MIRROR is staged and applied as MEM_CFG.MIRROR (R725, R736).
[log 208 DESIGN CHOICE, 209 DESIGN CHOICE, 210 DEDUCED] -/
def rootLock (s : Chip) : Chip :=
  if s.flag Reg.CLK_STATUS 0 then s
  else
    let s1 := s.setField Reg.CLK_STATUS 1 0 3
    let cfg := setBit (s.reg Reg.MEM_CFG) 0 (s.flag Reg.GLB_STRAPS 1)
    let s2 := { (s1.setReg Reg.MEM_CFG cfg) with active := s1.active.put resetW Reg.MEM_CFG cfg }
    s2.startStage 1

/-- LOCK_LOSS: the synthesizer loses lock with REFCLK there: the island holds the core in reset for 1 ms (R725). -/
def lockLoss (s : Chip) : Chip :=
  if !s.flag Reg.CLK_STATUS 0 || s.flag Reg.CLK_STATUS 3 then s
  else
    ((s.coreDown 2 cLock).updIsl fun i => { i with hold := true, holdEnd := some (i.clock + islTicks 1000000) }).raise Reg.CLK_EVENT 0

/-- REFCLK_LOSS: REFCLK stops or moves too far: HOLD (R726). -/
def refclkLoss (s : Chip) : Chip :=
  if !s.flag Reg.CLK_STATUS 1 then s
  else (((s.setFlag Reg.CLK_STATUS 1 false).setFlag Reg.CLK_STATUS 3 true).raise Reg.CLK_EVENT 1)

/-- REFCLK_BACK: REFCLK has returned and the synthesizer has relocked (R726). -/
def refclkBack (s : Chip) : Chip :=
  if !s.flag Reg.CLK_STATUS 3 then s
  else (((s.setFlag Reg.CLK_STATUS 1 true).setFlag Reg.CLK_STATUS 3 false).raise Reg.CLK_EVENT 2)

/-- Whether CLK's staged values may be applied (R727). -/
def Chip.clkStagedOk (s : Chip) : Bool := s.legalRange 0x100000 0x200000

/-- CLK_GO (R727). -/
def clkGo (s : Chip) : Chip := s.go Reg.CLK_COMMIT s.clkStagedOk

/-- CLK_APPLY: the settings apply; a change of EN begins to ramp the spread in or out (R727, R729). [log 209 DESIGN CHOICE] -/
def clkApply (s : Chip) : Chip :=
  if s.goPending Reg.CLK_COMMIT then
    let s1 := (s.applyRange 0x100000 0x200000).goDone Reg.CLK_COMMIT
    if bit (s1.act Reg.CLK_SPREAD) 0 = bit (s.act Reg.CLK_SPREAD) 0 then s1 else { s1 with rampFrom := some s1.frc }
  else s

/-! ### Temperature and ageing (R718, R719, R723) -/

/-- Temperatures of the core die and the line dies, in 2^−8 °C, as GLB_THERMAL shows them. -/
def Chip.setTemps (s : Chip) (core lineA lineB : BitVec 16) : Chip :=
  s.setField Reg.GLB_THERMAL 47 0 (core.toNat + lineA.toNat <<< 16 + lineB.toNat <<< 32)

/-- Whether any sensor reads above a limit in °C. -/
def anyAbove (limit : Nat) (core lineA lineB : BitVec 16) : Bool := [core, lineA, lineB].any fun t => (limit : Int) * 256 < t.toInt

/-- THERM_WARN: the sensors read; above WARN_C they set THERM_WARN (R723). -/
def thermWarn (core lineA lineB : BitVec 16) (s : Chip) : Chip :=
  let s1 := s.setTemps core lineA lineB
  if anyAbove (s.get Reg.GLB_THERMAL 55 48) core lineA lineB then s1.raise Reg.GLB_OWN_EVENT 0 else s1

/-- THERMTRIP: a sensor above 125 °C asserts THERMTRIP_N; the island takes the rails off and logs it, or the board must (R723). -/
def thermtrip (core lineA lineB : BitVec 16) (s : Chip) : Chip :=
  let s1 := s.setTemps core lineA lineB
  if !anyAbove 125 core lineA lineB then s1
  else
    let s2 := s1.setCause cTherm
    if s.isl.seq then (s2.railsOff cTherm).updIsl fun i => { i with therm := true }
    else s2.updIsl fun i => { i with therm := true }

/-- AVS_STEP: the delay monitors show the lowest code that gives the margin, above 20 where none does, and the slowing since start of life: VID moves
one code toward it, at most one per millisecond once start-up has ended; AVS_LIMIT sets where code 20 no longer does (R718, R719). [log 214 DESIGN CHOICE] -/
def avsStep (lowest : Fin 32) (age : BitVec 16) (s : Chip) : Chip :=
  if s.starting || s.isl.core ≠ 3 || !s.islReached (s.isl.avsAt + islTicks 1000000) then s
  else
    let goal := max 4 (min 20 lowest.val)
    let vid := s.get Reg.GLB_AVS 4 0
    let next := if vid < goal then vid + 1 else if goal < vid then vid - 1 else vid
    let limit := decide (20 < lowest.val)
    let s1 := ((s.setField Reg.GLB_AVS 4 0 next).setFlag Reg.GLB_AVS 5 limit).setField Reg.GLB_AVS 31 16 age.toNat
    let s2 := s1.updIsl fun i => { i with avsAt := i.clock }
    if limit && !s.flag Reg.GLB_AVS 5 then (s2.raise Reg.GLB_OWN_EVENT 3).islLog 3 5 [] else s2

/-! ### Start-up (R309, R736 to R739) -/

/-- The time since reset was released, in ms. -/
def Chip.startupMs (s : Chip) : Nat := (s.isl.clock - s.isl.releasedAt) / 622080

/-- The endpoints that waited in Detect train their links (R739). -/
def Chip.linksUp (s : Chip) : Chip :=
  { s with hif := { s.hif with eps := s.hif.eps.map fun (e : Nat × Endpoint) => (e.1, if e.2.detect then { e.2 with detect := false, up := true } else e.2) } }

/-- STARTUP_FAIL: start-up ends with a cause: 1 CRUCIBLES, 2 PATTERN, 3 RESERVE, 4 FUSE. HIF and the mailboxes come up all the same (R738). -/
def startupFail (code : Fin 4) (s : Chip) : Chip :=
  if !s.starting then s
  else
    ((((s.setFlag Reg.GLB_STARTUP 4 true).setField Reg.GLB_STARTUP 15 8 (code + 1)).setField Reg.GLB_STARTUP 63 32 s.startupMs).raise
      Reg.GLB_OWN_EVENT 2).linksUp

/-- BOOT_LOAD: the boot load of start-up, which fails when neither slot's pattern loads; a refused patch leaves the pattern loaded (R309, R736, R738). -/
def startupLoad (readA readB : Bool) (s : Chip) : Chip :=
  if !s.starting then s
  else
    let s1 := bootLoad readA readB s
    if s1.patterns.loader.done = 33 then s1 else startupFail 1 s1

/-- TRAINING_DONE: a channel's training ends; start-up fails when neither channel 0 nor channel 1 trains (R577, R736, R738). -/
def startupTraining (c : Fin 8) (trained suits : Bool) (capacity : Fin 256) (s : Chip) : Chip :=
  let s1 := trainingDone c trained suits capacity s
  let lost := fun (k : Nat) => (s1.chan k).state = 1 || (s1.chan k).state = 5
  if s.starting && c.val < 2 && lost 0 && lost 1 then startupFail 2 s1 else s1

/-- A flask as its start-up self-test leaves it (R532, R738). [log 215 DESIGN CHOICE] -/
def startedFlask (failed : Bool) (x : Flask) : Flask :=
  if failed then { x with state := 3, bist := 2, tested := true }
  else if x.state = 2 then { x with bist := 1, tested := true, cope := { role := 6, health := 255 }, drag := { role := 6, health := 255 } }
  else { x with bist := 1, tested := true, cope := { role := 12, health := 255 }, drag := { role := 9, health := 255 } }

/-- A crucible whose flasks have been tested: whether it can run, and the state after. One failed working flask gives its engine to the spare.
[log 215 DESIGN CHOICE] -/
def Chip.startCrucible (s : Chip) (c : Nat) (bad : List Nat) (whole : Bool) : Bool × Chip :=
  let s1 := (List.range 33).foldl (fun u f => u.updFlask c f (startedFlask (bad.contains f))) s
  let lost := (List.range 32).filter bad.contains
  if whole || 2 ≤ lost.length || (lost.length = 1 && bad.contains 32) then
    (false, s1.updGateCru c fun g => { g with state := 2, bist := if whole then 2 else g.bist })
  else match lost with
    | [] => (true, s1)
    | f :: _ => (true, s1.updFlask c 32 fun y =>
        { y with state := 0, engine := f, cope := { role := 12, health := 255 }, drag := { role := 9, health := 255 } })

/-- Crucible 32 stands in for one that failed at start-up: it owns its tree, and what is addressed to it is redirected (R738). [log 215 DESIGN CHOICE] -/
def Chip.startReplace (s : Chip) (c : Nat) : Chip :=
  (s.setReg (Reg.ALLOC_OWNER c) (w64 (32 + 32 <<< 6))).updGateCru c fun g => { g with redirected := true }

/-- The per-context counters and the device-held part of the start-up reserve are zeroed; the pattern reserve banks stay (R736, R737). -/
def Chip.zeroReserve (s : Chip) : Chip := { s with ddr := s.ddr.filter fun e => e.1 < 0x100000 || 0x8000000 ≤ e.1 }

/-- STARTUP_DONE: self-test is over: the flasks, whole crucibles and cipher units that failed it start RETIRED; then the core is ready, or start-up fails
because a second crucible needs replacement (R736, R738). [log 208 DESIGN CHOICE, 215 DESIGN CHOICE] -/
def startupDone (flasks : List (Cru × Fin 33)) (crucibles : List Cru) (units : List (Fin 36)) (s : Chip) : Chip :=
  if !s.starting || s.get Reg.GLB_STARTUP 2 0 ≠ 3 then s
  else
    let (gone, s1) := (List.finRange 33).foldl (fun (st : List Nat × Chip) (c : Fin 33) =>
      let bad := (flasks.filter fun p => p.1 = c).map fun p => p.2.val
      let (ok, u) := st.2.startCrucible c bad (crucibles.contains c)
      (if ok then st.1 else st.1 ++ [c.val], u)) ([], s)
    let s2 := (s1.updUnits fun u => units.foldl (fun v n => v.retire (fun _ _ => true) n.val) u).zeroReserve
    let need := gone.filter (· ≠ 32)
    if 2 ≤ need.length || (need.length = 1 && gone.contains 32) then startupFail 0 s2
    else
      let s3 := need.foldl (fun u c => u.startReplace c) s2
      ((((s3.setField Reg.GLB_STARTUP 2 0 4).setFlag Reg.GLB_STARTUP 3 true).setField Reg.GLB_STARTUP 63 32 s.startupMs).raise
        Reg.GLB_OWN_EVENT 1).linksUp

/-- SBY_STATUS and SBY_PWR_STATUS as they read (R712). -/
def Chip.sbyStatus (s : Chip) : W64 :=
  w64 (s.isl.node % 32 + ofBool s.isl.seq <<< 5 + (s.isl.core % 4) <<< 6 + Config.firmware.toNat <<< 32)

def Chip.powerStatus (s : Chip) : W64 := w64 (s.isl.good % 64 + (s.isl.dimms % 256) <<< 8)

end Sys2Proof.Machine
end

