-- ==== Sys2Proof/Machine/Sby.lean ====
section
/-! DEFINITION. The side-band port: frames, heartbeats, requests and APP frames, but for the register accesses (R683 to R706, R710). -/
namespace Sys2Proof.Machine

/-! ### Frames (R684 to R686) -/

/-- The address of a node. -/
def sbMac (n : Nat) : List Byte := [0x02, 0x4B, 0x4C, 0x53, 0x42, BitVec.ofNat 8 n]

/-- A frame's 60 bytes before the FCS. [log 205 DESIGN CHOICE] -/
def Chip.sbBytes (s : Chip) (dest type seq op status : Nat) (data : List Byte) : List Byte :=
  sbMac dest ++ sbMac s.isl.node ++ bytesBE 2 0x88B6 ++ [1, BitVec.ofNat 8 type] ++ bytesBE 2 seq ++ [BitVec.ofNat 8 op, BitVec.ofNat 8 status]
    ++ (data ++ List.replicate 40 0).take 40

/-- A frame that leaves, with its FCS (R685). -/
def Chip.sbEmit (s : Chip) (dest : Nat) (bytes : List Byte) : Chip := (s.emit (.sideBand dest (bytes ++ ethFcs bytes false))).bump Reg.SBY_TX_FRAMES

/-- A frame that waits for the bus. -/
def Chip.sbQueue (s : Chip) (x : SbFrame) : Chip := s.updIsl fun i => { i with queue := i.queue ++ [x] }

/-- An APP frame has left or was dropped (R710). -/
def Chip.appDone (s : Chip) (status : Nat) : Chip :=
  ((s.setFlag Reg.SBY_APP_CTRL 6 false).setField Reg.SBY_APP_CTRL 8 7 status).raise Reg.SBY_EVENT 4

/-- The frame at the front leaves. -/
def Chip.sendFront (s : Chip) : Chip :=
  match s.isl.queue with
  | [] => s
  | x :: rest =>
    let s1 := (s.updIsl fun i => { i with queue := rest }).sbEmit x.dest x.bytes
    if x.app then s1.appDone 0 else s1

/-- The frame at the front is dropped at its attempt limit (R684). -/
def Chip.dropFront (s : Chip) : Chip :=
  match s.isl.queue with
  | [] => s
  | x :: rest =>
    let s1 := ((s.updIsl fun i => { i with queue := rest }).bump Reg.SBY_TX_ABANDONED).raise Reg.SBY_EVENT 1
    if x.app then s1.appDone 1 else s1

/-! ### Heartbeats (R687 to R691) -/

/-- The period of heartbeats, 200 µs, and a microsecond, in ticks. -/
def beatPeriod : Nat := 124416
def microTicks : Nat := 622

/-- Whole microseconds from an instant to now. -/
def Chip.lateBy (s : Chip) (instant : Nat) : Nat := (s.isl.clock - instant) * 1000 / 622080

/-- The refresh that a heartbeat would carry: heartbeats are enabled and the core's last refresh is at most 200 µs old (R687, R688). -/
def Chip.beatReady (s : Chip) : Option (W64 × W64) :=
  match s.isl.refresh with
  | some (h, w, t) => if s.flag Reg.SBY_HB_CFG 5 && s.mateOn && s.isl.clock ≤ t + beatPeriod then some (h, w) else none
  | none => none

/-- A heartbeat starts, so many µs late. -/
def Chip.beatStart (s : Chip) (instant : Nat) : Chip :=
  match s.beatReady with
  | none => s
  | some (h, w) =>
    let late := s.lateBy instant
    let mate := s.get Reg.SBY_HB_CFG 4 0
    let data := bytesBE 2 h.toNat ++ wordBytes w ++ [BitVec.ofNat 8 late]
    ((s.sbEmit mate (s.sbBytes mate 0 0 0 0 data)).bump Reg.SBY_HB_SENT).setField Reg.SBY_HB_STATUS 7 0 late

/-- The heartbeat that waits is abandoned (R690). -/
def Chip.beatAbandon (s : Chip) : Chip :=
  ((s.updIsl fun i => { i with waiting := none }).bump Reg.SBY_HB_ABANDONED).raise Reg.SBY_EVENT 0

/-- A heartbeat of an instant starts, or is abandoned if that would be more than 88 µs late (R690). -/
def Chip.beatTry (s : Chip) (instant : Nat) : Chip :=
  if islTicks 88000 < s.isl.clock - instant then s.beatAbandon else (s.updIsl fun i => { i with waiting := none }).beatStart instant

/-- SB_HEARTBEAT_SEND: the scheduled instant has come: the heartbeat starts, or waits while the bus is busy (R687 to R690). One that still waits from
before is abandoned. -/
def sbHeartbeatSend (busy : Bool) (s : Chip) : Chip :=
  if s.isl.inReset || !s.islReached s.isl.nextBeat then s
  else
    let instant := s.isl.nextBeat + (s.isl.clock - s.isl.nextBeat) / beatPeriod * beatPeriod
    let s1 := if s.isl.waiting.isSome then s.beatAbandon else s
    let s2 := s1.updIsl fun i => { i with nextBeat := instant + beatPeriod }
    if s2.beatReady.isNone then s2
    else if busy then s2.updIsl fun i => { i with waiting := some instant }
    else s2.beatTry instant

/-- SB_HEARTBEAT_ABANDON: the heartbeat that waits collides, or would start more than 88 µs late (R690). -/
def sbHeartbeatAbandon (collided : Bool) (s : Chip) : Chip :=
  match s.isl.waiting with
  | none => s
  | some t =>
    if collided then (s.bump Reg.SBY_COLLISIONS).beatAbandon
    else if islTicks 88000 < s.isl.clock - t then s.beatAbandon
    else s

/-- The distance of a schedule from a target instant, in (−100 µs, 100 µs]. -/
def beatOffset (next target : Nat) : Int :=
  let d : Int := ((target : Int) - next) % (beatPeriod : Int)
  if (beatPeriod / 2 : Nat) < d then d - beatPeriod else d

/-- SCHEDULE_ADJUST: the follower moves its schedule by at most 1 µs toward 100 µs after the leader's instant (R689). [log 212 DESIGN CHOICE] -/
def Chip.followLeader (s : Chip) (leader : Nat) : Chip :=
  let d := beatOffset s.isl.nextBeat (leader + beatPeriod / 2)
  let move := max (-(microTicks : Int)) (min (microTicks : Int) d)
  s.updIsl fun i => { i with nextBeat := ((i.nextBeat : Int) + move).toNat, leaderAt := some leader, offTarget := d - move }

/-- SB_HEARTBEAT_RECEIVE: a heartbeat from a node: it reaches GLK as path two; the part with the higher UNIT follows its sender's schedule (R689, R691).
[log 212 DESIGN CHOICE] -/
def sbHeartbeatReceive (heat : BitVec 16) (word : W64) (late : Byte) (s : Chip) : Chip :=
  if s.isl.inReset then s
  else
    let s1 := ((s.bump Reg.SBY_RX_FRAMES).bump Reg.SBY_HB_RECEIVED).setField Reg.SBY_HB_STATUS 15 8 late.toNat
    let unit := fld (s.act Reg.GLK_MATE_CFG) 16 13
    let theirs := heat.toNat % 16
    let s2 := if s.mateOn && theirs < unit then s1.followLeader (s.isl.clock - islTicks (late.toNat * 1000))
      else if s.mateOn then s1.updIsl fun i => { i with leaderAt := none } else s1
    let s3 := s2.setField Reg.SBY_HB_STATUS 17 16 (ofBool (s.mateOn && decide (unit < theirs))
      + 2 * ofBool (s2.isl.leaderAt.isSome && decide (s2.isl.offTarget.natAbs ≤ microTicks)))
    if s.isl.core = 3 then s3.heartbeat 2 heat.toNat word else s3

/-- HEARTBEAT_REFRESH: every 100 µs GLK gives the island the part's heat number, READY and turnover (R688). -/
def heartbeatRefresh (s : Chip) : Chip :=
  if s.isl.refresh.any fun r => s.isl.clock < r.2.2 + beatPeriod / 2 then s
  else s.updIsl fun i => { i with refresh := some (w64 s.ownHeat, s.heartWord, i.clock) }

/-- SB_FRAME_RETRY: after its back-off the frame at the front is sent, or dropped at 16 attempts; never in place of a heartbeat that waits (R684,
R690). [log 211 DESIGN CHOICE] -/
def sbFrameRetry (s : Chip) : Chip :=
  if s.isl.inReset || s.isl.waiting.isSome then s
  else match s.isl.queue with
    | [] => s
    | x :: _ => if !s.islReached x.from_ then s else if 16 ≤ x.attempts then s.dropFront else s.sendFront

/-- DEFERENCE_END: the bus has been idle for the interframe gap: a heartbeat that waits starts, else the frame at the front (R684, R690).
[log 211 DESIGN CHOICE] -/
def deferenceEnd (s : Chip) : Chip :=
  if s.isl.inReset then s
  else match s.isl.waiting with
    | some t => s.beatTry t
    | none => if s.isl.queue.all fun x => s.islReached x.from_ then s.sendFront else s

/-- The ticks of a frame's back-off after so many attempts: a number of slots of 51.2 µs below 2 to their number, which counts no further than 10
(R684). [log 263 DESIGN CHOICE] -/
def backOffTicks (choice attempts : Nat) : Nat := islTicks (Config.backOff choice % 2 ^ min 10 attempts * 51200)

/-- COLLISION: what would start next collides: a heartbeat is abandoned, another frame backs off, or is dropped at its sixteenth attempt (R684, R690).
[log 211 DESIGN CHOICE] -/
def collision (s : Chip) : Chip :=
  if s.isl.inReset then s
  else
    let s1 := s.bump Reg.SBY_COLLISIONS
    match s.isl.waiting, s.isl.queue with
    | some _, _ => s1.beatAbandon
    | none, [] => s
    | none, x :: rest =>
      if 16 ≤ x.attempts + 1 then s1.dropFront
      else
        let (j, s2) := s1.tick
        let n := x.attempts + 1
        s2.updIsl fun i => { i with queue := { x with attempts := n, from_ := i.clock + backOffTicks j n } :: rest }

/-- SB_RX_DISCARD: a received frame that the island does not accept (R685). -/
def sbRxDiscard (s : Chip) : Chip := if s.isl.inReset then s else (s.bump Reg.SBY_RX_DISCARD).raise Reg.SBY_EVENT 2

/-! ### Requests (R692 to R697) -/

/-- A request of a node carried out and answered, or its kept answer given again within a second (R694). -/
def Chip.sbRequest (s : Chip) (node seq op : Nat) (run : Chip → Nat × List Byte × Chip) : Chip :=
  if s.isl.inReset then s
  else
    let s1 := s.bump Reg.SBY_RX_FRAMES
    let again := match s.isl.answers.get node with
      | some a => if a.seq = seq && s.isl.clock < a.at_ + 622080000 then some a.frame else none
      | none => none
    match again with
    | some frame => s1.sbQueue { dest := node, bytes := frame }
    | none =>
      let (status, data, s2) := run s1
      let frame := s2.sbBytes node 2 seq op status data
      (s2.updIsl fun i => { i with answers := i.answers.set node (some { seq := seq, frame := frame, at_ := i.clock }) }).sbQueue
        { dest := node, bytes := frame }

/-- SB_NOP. -/
def sbNop (node : Fin 32) (seq : BitVec 16) (s : Chip) : Chip := s.sbRequest node seq.toNat 1 fun u => (0, [], u)

/-- IDENTIFY's two words (R653). -/
def Chip.identify (s : Chip) : W64 × W64 :=
  (w64 (Config.firmware.toNat + (s.isl.node % 32) <<< 32), w64 (s.slotVersion false + s.slotVersion true <<< 32))

/-- SENSORS' two words; each field reads 0x8000 while the core is not running (R653, R692). -/
def Chip.sensors (s : Chip) : W64 × W64 :=
  if s.isl.core = 3 then
    (w64 (s.get Reg.GLB_THERMAL 47 0 + (700 + 5 * s.get Reg.GLB_AVS 4 0) <<< 48), w64 (s.get Reg.GLB_AVS 31 16))
  else (0x8000800080008000, 0x8000)

/-- SB_IDENTIFY. [log 205 DESIGN CHOICE] -/
def sbIdentify (node : Fin 32) (seq : BitVec 16) (s : Chip) : Chip :=
  s.sbRequest node seq.toNat 2 fun u => (0, wordBytes u.identify.1 ++ wordBytes u.identify.2, u)

/-- SB_SENSORS. [log 205 DESIGN CHOICE] -/
def sbSensors (node : Fin 32) (seq : BitVec 16) (s : Chip) : Chip :=
  s.sbRequest node seq.toNat 3 fun u => (0, wordBytes u.sensors.1 ++ wordBytes u.sensors.2, u)

/-- SB_LOG_READ: one entry by its sequence number, or BAD_ARG. -/
def sbLogRead (node : Fin 32) (seq : BitVec 16) (entry : BitVec 32) (s : Chip) : Chip :=
  s.sbRequest node seq.toNat 4 fun u => match u.logRead entry.toNat with
    | some l => (0, l, u)
    | none => (3, [], u)

/-- A long operation of a node: BUSY while another runs, else STARTED with its TOKEN (R652, R696). -/
def Chip.sbLong (s : Chip) (node op arg : Nat) (start : Chip → Chip) : Nat × List Byte × Chip :=
  if s.hif.long.isSome then (4, [], s)
  else
    let s1 := (start s).longStart { by_ := .node node, op := op, arg := arg }
    (1, wordBytes (w64 s1.hif.token), s1)

/-- SB_FLASH_CHECK. -/
def sbFlashCheck (node : Fin 32) (seq : BitVec 16) (slot : Byte) (s : Chip) : Chip :=
  s.sbRequest node seq.toNat 6 fun u => if 1 < slot.toNat then (3, [], u) else u.sbLong node 6 slot.toNat id

/-- A CORE_RESET request: BAD_ARG without its key, DENIED while a flash write runs, else the hold is due 10 ms after the answer (R653, R697, R703). -/
def Chip.askReset (s : Chip) (key : W64) : Nat × Chip :=
  if key ≠ 0x3250 then (3, s)
  else if s.flashWriting then (5, s)
  else (0, s.updIsl fun i => { i with resetDue := some (i.clock + islTicks 10000000) })

/-- SB_CORE_RESET. -/
def sbCoreReset (node : Fin 32) (seq : BitVec 16) (key : W64) (s : Chip) : Chip :=
  s.sbRequest node seq.toNat 7 fun u => let r := u.askReset key; (r.1, [], r.2)

/-- SB_ABORT. -/
def sbAbort (node : Fin 32) (seq : BitVec 16) (s : Chip) : Chip :=
  s.sbRequest node seq.toNat 8 fun u => let r := u.longAbort (.node node); (r.1, [], r.2)

/-- SB_PROGRESS: the state of the long operation that the node started. [log 203 DESIGN CHOICE] -/
def sbProgress (node : Fin 32) (seq : BitVec 16) (s : Chip) : Chip :=
  s.sbRequest node seq.toNat 0x10 fun u =>
    let last := u.hif.results.get node
    let mine := match u.hif.long with | some x => if x.by_ = Starter.node node then some x else none | none => none
    match mine with
    | some x => (0, [1] ++ bytesBE 2 x.progress ++ [0] ++ bytesBE 4 x.token, u)
    | none => (0, [0] ++ bytesBE 2 0 ++ [BitVec.ofNat 8 last] ++ bytesBE 4 (last / 256), u)

/-- SB_PATTERN_LOAD: the loader starts from a flash slot; it needs the core running and the loader free (R693, R695, R700). -/
def sbPatternLoad (node : Fin 32) (seq : BitVec 16) (slot : Byte) (s : Chip) : Chip :=
  s.sbRequest node seq.toNat 0x13 fun u =>
    if u.isl.core ≠ 3 then (5, [], u)
    else if 1 < slot.toNat then (3, [], u)
    else if u.patterns.loader.busy then (4, [], u)
    else u.sbLong node 0x13 slot.toNat fun v => v.loadStart true 0 (slot.toNat + 1)

/-- SB_CORE_OFF: every rail off; denied where the board sequences them (R701 to R703). [log 206 DESIGN CHOICE] -/
def sbCoreOff (node : Fin 32) (seq : BitVec 16) (s : Chip) : Chip :=
  s.sbRequest node seq.toNat 0x14 fun u => if !u.isl.seq then (5, [], u) else (0, [], if u.isl.core = 0 then u else u.railsOff cIsland)

/-- SB_CORE_ON: the rails are sequenced on, from OFF with every rail down (R701). [log 206 DESIGN CHOICE] -/
def sbCoreOn (node : Fin 32) (seq : BitVec 16) (s : Chip) : Chip :=
  s.sbRequest node seq.toNat 0x14 fun u =>
    if !u.isl.seq then (5, [], u) else u.sbLong node 0x14 1 fun v => if v.isl.core = 0 && v.isl.enabled = 0 then v.railsOn else v

/-- Whether a channel's slot may be switched by request (R704). -/
def Chip.slotIdle (s : Chip) (c : Nat) : Bool := (s.chan c).state = 0 || (s.chan c).state = 1 || (s.chan c).state = 5

/-- SB_DIMM_OFF and SB_DIMM_ON. -/
def sbDimmOff (node : Fin 32) (seq : BitVec 16) (c : Byte) (s : Chip) : Chip :=
  s.sbRequest node seq.toNat 0x14 fun u =>
    if 8 ≤ c.toNat then (3, [], u) else if !u.slotIdle c.toNat then (5, [], u)
    else (0, [], u.updIsl fun i => { i with dimms := i.dimms &&& (255 - 2 ^ c.toNat) })

def sbDimmOn (node : Fin 32) (seq : BitVec 16) (c : Byte) (s : Chip) : Chip :=
  s.sbRequest node seq.toNat 0x14 fun u =>
    if 8 ≤ c.toNat then (3, [], u) else if !u.slotIdle c.toNat then (5, [], u)
    else (0, [], u.updIsl fun i => { i with dimms := i.dimms ||| 2 ^ c.toNat })

/-- FLASH_BEGIN: a slot is erased for writing, unless that takes away the last one that passes (R706). -/
def flashBegin (node : Fin 32) (seq : BitVec 16) (slot : Byte) (length : BitVec 32) (s : Chip) : Chip :=
  s.sbRequest node seq.toNat 0x15 fun u =>
    let b := decide (slot.toNat = 1)
    if 1 < slot.toNat || length.toNat = 0 || 0x200000 < length.toNat then (3, [], u)
    else if u.hif.long.isSome then (4, [], u)
    else if u.slotGuarded b then (5, [], u)
    else u.sbLong node 0x15 slot.toNat fun v => (v.flashErase (slotBase b) 0x200000).updIsl fun i => { i with writeSlot := some (slot.toNat, length.toNat) }

/-- FLASH_DATA: 32 bytes at an offset of the slot being written (R706). -/
def flashData (node : Fin 32) (seq : BitVec 16) (offset : BitVec 32) (data : List Byte) (s : Chip) : Chip :=
  s.sbRequest node seq.toNat 0x16 fun u => match u.isl.writeSlot with
    | none => (5, [], u)
    | some (slot, len) =>
      if offset.toNat % 32 ≠ 0 || len ≤ offset.toNat then (3, [], u)
      else (0, [], u.flashWrite (slotBase (slot = 1) + offset.toNat) ((data ++ List.replicate 32 0).take 32))

/-- FLASH_END: the slot written is checked, and erased again when it fails (R706). -/
def flashEnd (node : Fin 32) (seq : BitVec 16) (s : Chip) : Chip :=
  s.sbRequest node seq.toNat 0x17 fun u => match u.isl.writeSlot with
    | none => (5, [], u)
    | some (slot, _) =>
      let r := u.sbLong node 0x17 slot id
      (r.1, if r.1 = 1 then wordBytes (w64 (u.flashCheck (slot = 1)).2) else [], r.2.2)

/-! ### APP frames (R710) -/

/-- SB_APP_SEND: GO of SBY_APP_CTRL: the 40 bytes of SBY_APP_TX leave as an APP frame, or CMD_ERR sets while BUSY. -/
def sbAppSend (dest : Fin 32) (s : Chip) : Chip :=
  if s.flag Reg.SBY_APP_CTRL 6 then s.raise Reg.SBY_EVENT 7
  else
    let data := (List.range 5).flatMap fun i => wordBytes (s.reg (Reg.SBY_APP_TXi i))
    ((s.setField Reg.SBY_APP_CTRL 4 0 dest).setFlag Reg.SBY_APP_CTRL 6 true).sbQueue
      { dest := dest, bytes := s.sbBytes dest 3 0 0 0 data, app := true }

/-- SB_APP_RECEIVE: an APP frame goes to the queue of SBY_APP_DEST, or APP_DROP sets. [log 213 DESIGN CHOICE] -/
def sbAppReceive (node : Fin 32) (data : List Byte) (s : Chip) : Chip :=
  if s.isl.inReset then s
  else
    let s1 := s.bump Reg.SBY_RX_FRAMES
    let body := [BitVec.ofNat 8 node] ++ List.replicate 7 0 ++ (data ++ List.replicate 40 0).take 40
    if s.isl.core ≠ 3 then s1.raise Reg.SBY_EVENT 3
    else match s1.sendDest (s.reg Reg.SBY_APP_DEST) (deviceSource 16 0) body with
      | some (true, s2) => s2
      | some (false, s2) => s2.raise Reg.SBY_EVENT 3
      | none => s1.raise Reg.SBY_EVENT 3

end Sys2Proof.Machine
end

