-- ==== Sys2Proof/Machine/Mailbox.lean ====
section
/-! DEFINITION. The mailboxes of the host's endpoints, and a function-level reset as all blocks see it (R632, R650 to R654, R697). -/
namespace Sys2Proof.Machine

/-- The answer of a mailbox command: STATUS with SEQ, two words of data, NOTIFY and MB_DONE (R650). [log 188 DEDUCED] -/
def Chip.mbAnswer (s : Chip) (e seq status : Nat) (d0 d1 : W64) : Chip :=
  ((((s.setReg (Reg.HIF_MB_RSP e) (w64 (status + seq <<< 8))).setReg (Reg.HIF_MB_DATA0 e) d0).setReg (Reg.HIF_MB_DATA1 e) d1).setFlag
    (Reg.HIF_MB_STATUS e) 27 true).raise Reg.HIF_EVENT 6

/-- A mailbox command carried out, its OP and SEQ kept in HIF_MB_CMD. The answer comes at once, unless the island is held in reset: then BUSY stays.
[log 188 DEDUCED] -/
def Chip.mbRun (s : Chip) (e seq op : Nat) (run : Chip → Nat × W64 × W64 × Chip) : Chip :=
  if s.flag (Reg.HIF_MB_CMD e) 17 then s.raise Reg.HIF_EVENT 8
  else
    let s1 := s.setReg (Reg.HIF_MB_CMD e) (w64 (op + seq <<< 8))
    if s.isl.inReset then s1.setFlag (Reg.HIF_MB_CMD e) 17 true
    else
      let (status, d0, d1, s2) := run s1
      s2.mbAnswer e seq status d0 d1

/-- An argument of a mailbox. -/
def Chip.mbArg (s : Chip) (e i : Nat) : Nat := (s.reg (Reg.HIF_MB_ARGi e i)).toNat

/-- A long operation of a mailbox: BUSY while another runs, else STARTED with its TOKEN (R652, R696). -/
def Chip.mbLong (s : Chip) (e : Nat) (x : LongOp) : Nat × W64 × W64 × Chip :=
  if s.hif.long.isSome then (4, 0, 0, s)
  else
    let s1 := s.longStart { x with by_ := .mailbox e }
    (1, w64 s1.hif.token, 0, s1)

/-- MB_NOP. -/
def mbNop (e : Ep) (seq : Byte) (s : Chip) : Chip := s.mbRun e seq.toNat 1 fun u => (0, 0, 0, u)

/-- MB_IDENTIFY. -/
def mbIdentify (e : Ep) (seq : Byte) (s : Chip) : Chip := s.mbRun e seq.toNat 2 fun u => (0, u.identify.1, u.identify.2, u)

/-- MB_SENSORS. -/
def mbSensors (e : Ep) (seq : Byte) (s : Chip) : Chip := s.mbRun e seq.toNat 3 fun u => (0, u.sensors.1, u.sensors.2, u)

/-- MB_LOG_READ: entries from ARG0 on, ARG1 of them, to host memory at ARG2; more than 256 are a long operation. `dmaOk`: host memory can be
written. [log 189 DESIGN CHOICE] -/
def mbLogRead (e : Ep) (seq : Byte) (dmaOk : Bool) (s : Chip) : Chip :=
  s.mbRun e seq.toNat 4 fun u =>
    let n := u.mbArg e 1
    let ok := dmaOk && (u.endpoint e).bme
    if n = 0 || 4096 < n then (3, 0, 0, u)
    else if 256 < n then u.mbLong e { op := 4, arg := u.mbArg e 0, arg1 := n, arg2 := u.mbArg e 2, dmaOk := ok }
    else if !ok then (7, 0, 0, u)
    else
      let (k, v) := u.logSend e (u.mbArg e 0) n (u.mbArg e 2)
      (0, w64 k, 0, v)

/-- MB_FLASH_WRITE: the data that host memory holds, or none where it could not be read (R653, R654). [log 182 DESIGN CHOICE] -/
def mbFlashWrite (e : Ep) (seq : Byte) (data : Option (List Byte)) (s : Chip) : Chip :=
  s.mbRun e seq.toNat 5 fun u =>
    let slot := u.mbArg e 0
    let n := u.mbArg e 2
    if 1 < slot || n = 0 || 0x200000 < n then (3, 0, 0, u)
    else if u.hif.long.isSome then (4, 0, 0, u)
    else if u.slotGuarded (slot = 1) then (5, 0, 0, u)
    else
      let bytes := (data.getD [] ++ List.replicate (n - (data.getD []).length) 0).take n
      u.mbLong e { op := 5, arg := slot, arg1 := u.mbArg e 1, arg2 := n, dmaOk := data.isSome && (u.endpoint e).bme, bytes := bytes }

/-- MB_FLASH_CHECK. -/
def mbFlashCheck (e : Ep) (seq : Byte) (s : Chip) : Chip :=
  s.mbRun e seq.toNat 6 fun u => if 1 < u.mbArg e 0 then (3, 0, 0, u) else u.mbLong e { op := 6, arg := u.mbArg e 0 }

/-- MB_CORE_RESET. -/
def mbCoreReset (e : Ep) (seq : Byte) (s : Chip) : Chip :=
  s.mbRun e seq.toNat 7 fun u => let r := u.askReset (u.reg (Reg.HIF_MB_ARGi e 0)); (r.1, 0, 0, r.2)

/-- MB_ABORT. -/
def mbAbort (e : Ep) (seq : Byte) (s : Chip) : Chip :=
  s.mbRun e seq.toNat 8 fun u => let r := u.longAbort (.mailbox e); (r.1, 0, 0, r.2)

/-- MB_RSP_READ: the answer is returned, and NOTIFY clears (R650). -/
def mbRspRead (e : Ep) (lanes : Lanes) (s : Chip) : Chip :=
  let v := s.reg (Reg.HIF_MB_RSP e)
  let part := match lanes with | .full => v | .low => w64 (fld v 31 0) | .high => w64 (fld v 63 32)
  (s.setFlag (Reg.HIF_MB_STATUS e) 27 false).answer part

/-- A GO with an OP of HIF_MB_CMD, by a register write; host memory holds what no one has said (R650, R651, R653). -/
def Chip.mbGo (s : Chip) (e : Ep) (op : Nat) (seq : Byte) : Chip :=
  match op with
  | 1 => mbNop e seq s
  | 2 => mbIdentify e seq s
  | 3 => mbSensors e seq s
  | 4 => mbLogRead e seq true s
  | 5 =>
    let (f, s1) := s.tick
    mbFlashWrite e seq (some ((List.range (min 0x200000 (s.mbArg e 2))).map (Config.hostByte f))) s1
  | 6 => mbFlashCheck e seq s
  | 7 => mbCoreReset e seq s
  | 8 => mbAbort e seq s
  | _ => s.mbRun e seq.toNat op fun u => (2, 0, 0, u)

/-- BME_CLEAR: Bus Master Enable falls: a pattern load that still fetches from that endpoint's host memory ends with SOURCE (R631). -/
def busMasterOff (e : Ep) (s : Chip) : Chip :=
  let l := s.patterns.loader
  bmeClear e (if l.busy && !l.sideBand && l.source = 0 && l.ep = e.val && l.phase = 1 then s.loadEnd 1 else s)

/-- FLR: a function-level reset also ends a load from that endpoint's host memory and discards the command in progress in its mailbox (R632, R697).
[log 268 DEDUCED] -/
def functionReset (e : Ep) (s : Chip) : Chip :=
  let l := s.patterns.loader
  let s1 := if l.busy && !l.sideBand && l.source = 0 && l.ep = e.val then s.loadEnd 1 else s
  (flr e s1).setFlag (Reg.HIF_MB_CMD e) 17 false

end Sys2Proof.Machine
end

