-- ==== Sys2Proof/Machine/Reads.lean ====
section
/-! DEFINITION. What registers read: where a selected word lives, and the values that a block works out as it is read (R13 to R27). -/
namespace Sys2Proof.Machine

/-- Number k of a register's instance. -/
def inst (l : List Nat) (k : Nat) : Nat := l.getD k 0

/-- Where the word that a register shows lives: under its own offset, or under the table word that its selector names. -/
def Chip.alias (s : Chip) (lo : Nat) (i : List Nat) (a : Nat) : Nat :=
  let c := inst i 0
  let ring := s.selRing
  let peer := s.get Reg.GLK_PEER_SEL 4 0
  match lo with
  | 0x1C00038 => Cell.threadCtrl c (s.get (Reg.CRU_THREAD_SEL c) 7 0)
  | 0x1C00058 => Cell.queueCfg c (s.get (Reg.CRU_QUEUE_SEL c) 9 0)
  | 0x1C00068 => Cell.queueDrops c (s.get (Reg.CRU_QUEUE_SEL c) 9 0)
  | 0x1C00078 => Cell.ctrData c (s.get (Reg.CRU_CTR_SEL c) 4 0) (s.get (Reg.CRU_CTR_SEL c) 7 5)
  | 0x1C00080 => Cell.ctrCfg c (s.get (Reg.CRU_CTR_SEL c) 4 0) (s.get (Reg.CRU_CTR_SEL c) 7 5)
  | 0xA00028 => Cell.prsNode (s.get Reg.PRS_NODE_SEL 7 0) (s.get Reg.PRS_NODE_SEL 12 8)
  | 0xA00038 => Cell.prsSrc (s.get Reg.PRS_SRC_SEL 6 0)
  | 0xA00048 => Cell.prsProfileCtrl (s.get Reg.PRS_PROFILE_SEL 3 0)
  | 0xA00050 => Cell.prsRuleMask (s.get Reg.PRS_PROFILE_SEL 3 0)
  | 0xA00058 => Cell.prsHashMask (s.get Reg.PRS_PROFILE_SEL 3 0)
  | 0xA00060 => Cell.prsMiss (s.get Reg.PRS_PROFILE_SEL 3 0)
  | 0xA00108 => Cell.prsInd (s.get Reg.PRS_IND_SEL 5 0) (s.get Reg.PRS_IND_SEL 14 6)
  | 0xA00118 => Cell.prsSpCfg (s.get Reg.PRS_SP_SEL 4 0)
  | 0xA00120 => Cell.prsSpDelivered (s.get Reg.PRS_SP_SEL 4 0)
  | 0xA00128 => Cell.prsSpDrop (s.get Reg.PRS_SP_SEL 4 0)
  | 0xC00068 => Cell.fwdProfileCtrl (s.get Reg.FWD_PROFILE_SEL 3 0)
  | 0xC00070 => Cell.fwdFlowMask (s.get Reg.FWD_PROFILE_SEL 3 0)
  | 0xC00080 => Cell.fwdPortmap (s.get Reg.FWD_PORTMAP_SEL 5 0)
  | 0xC00090 => Cell.fwdBd (s.get Reg.FWD_BD_SEL 13 0)
  | 0xC000A0 => Cell.fwdCtx (s.get Reg.FWD_CTX_SEL 4 0) (s.get Reg.FWD_CTX_SEL 19 5)
  | 0xC000B0 => Cell.fwdUplink (s.get Reg.FWD_UPLINK_SEL 4 0)
  | 0xE00098 => Cell.tmInj (s.get Reg.TM_INJ_SEL 5 0)
  | 0x1000050 => Cell.ciphDir (s.get Reg.CIPH_DIR_SEL 4 0) (s.get Reg.CIPH_DIR_SEL 5 5) (s.get Reg.CIPH_DIR_SEL 15 6)
  | 0x1000060 => Cell.ciphEnc (s.get Reg.CIPH_ENC_SEL 4 0) (s.get Reg.CIPH_ENC_SEL 19 5)
  | 0x1201018 => Cell.gcl (4 * c + inst i 1) (s.get (Reg.ETH_GCL_SEL c (inst i 1)) 7 0)
  | 0x1400028 => Cell.hifRing ring 0
  | 0x1400030 => Cell.hifRing ring 1
  | 0x1400038 => Cell.hifRing ring 2
  | 0x1400048 => Cell.hifRing ring 3
  | 0x1400050 => Cell.hifRing ring 4
  | 0x1400058 => Cell.hifRing ring 5
  | 0x1400060 => Cell.hifRing ring 6
  | 0x1600080 => Cell.glkPeer peer 0
  | 0x1600088 => Cell.glkPeer peer 1
  | _ => a

/-- Whether the selector of a staged table word asks for its active copy: those of PRS_NODE_DATA and ETH_GCL_DATA can (R360, R680). -/
def Chip.asksActive (s : Chip) (lo : Nat) (i : List Nat) : Bool :=
  match lo with
  | 0xA00028 => s.flag Reg.PRS_NODE_SEL 13
  | 0x1201018 => s.flag (Reg.ETH_GCL_SEL (inst i 0) (inst i 1)) 8
  | _ => false

/-- The record that ALLOC_REC_ADDR selects (R165). [log 20 DESIGN CHOICE] -/
def Chip.selRecord (s : Chip) : W64 :=
  let a := s.reg Reg.ALLOC_REC_ADDR
  s.recValue ⟨fld a 4 0 % 32, Nat.mod_lt _ (by decide)⟩ ⟨fld a 5 5 % 2, Nat.mod_lt _ (by decide)⟩ (fld a 7 6) (fld a 19 8)

/-- The queue of TM_REC_SEL, when its KIND is 0. -/
def Chip.selQueue (s : Chip) : Option Nat := if s.get Reg.TM_REC_SEL 2 0 = 0 then some (s.get Reg.TM_REC_SEL 23 3) else none

/-- TM_TOKENS: whole bytes, rounded down; 0 for a queue map (R447). -/
def Chip.tokensReg (s : Chip) : W64 :=
  let k := s.get Reg.TM_REC_SEL 2 0
  if 6 ≤ k then 0 else w64 (wrapInt 40 (s.tokens k (s.get Reg.TM_REC_SEL 23 3) / tokenByte))

/-- TM_QHEAD. -/
def Chip.queueHead (s : Chip) : W64 :=
  match s.selQueue with
  | none => 0
  | some q =>
    let x := s.tmQueue q
    w64 (s.sojourn x % 4294967296 + ofBool x.ovf <<< 32 + ofBool (s.tm.draining.any fun d => d.1 = q) <<< 33)

/-- CIPH_UNIT_STATUS. -/
def Chip.unitStatus (s : Chip) : W64 :=
  let u := s.ciph.units
  w64 ((u.retired.map fun k => 2 ^ k).sum + u.pairs.length <<< 36 + u.spares.length <<< 41)

/-- CIPH_SLOT_STATUS of the slot of CIPH_SLOT_CMD. -/
def Chip.slotStatus (s : Chip) : W64 :=
  let x := s.slot (s.get Reg.CIPH_SLOT_CMD 15 0)
  w64 (x.state + x.mode <<< 3 + x.limit <<< 5 + ofBool x.saveOk <<< 11 + x.fails <<< 12)

/-- CIPH_ENTROPY_STATUS. -/
def Chip.entropyStatus (s : Chip) : W64 :=
  let ms := min 65535 ((s.frc - s.ciph.lastSeed) / 622080)
  w64 (ofBool s.ciph.healthy + ofBool s.ciph.restarting <<< 1 + ms <<< 32)

/-- TIME_SERVO_STATUS: LAST_ERR in whole ns, limited to 32 bits. -/
def Chip.servoStatus (s : Chip) : W64 :=
  w64 (s.time.servo.state + wrapInt 32 (satInt 32 (s.time.servo.lastErr / ns1)) <<< 32)

/-- TIME_LOCKED_TIME. -/
def Chip.lockedTime (s : Chip) : W64 :=
  if s.time.servo.state = 2 then w64 (min 4294967295 ((s.frc - s.time.servo.lockedAt) / 622080000)) else 0

/-- TIME_HO_STATUS. -/
def Chip.holdStatus (s : Chip) : W64 :=
  let h := s.time.hold
  w64 (ofBool h.ready + ofBool s.fitting <<< 1 + ofBool h.tempOut <<< 2 + ofBool h.tempFast <<< 3 + wrapInt 16 (h.tmin / 256) <<< 16
    + wrapInt 16 (h.tmax / 256) <<< 32 + min 65535 h.resid <<< 48)

/-- TIME_TRIG_STATUS of the selected slot; a single start shows REMAINING 1 (R506). -/
def Chip.trigStatus (s : Chip) : W64 :=
  let g := s.time.trig.get (s.get Reg.TIME_TRIG_SEL 7 0)
  w64 (ofBool g.armed + g.gen <<< 8 + g.crucible <<< 16 + g.thread <<< 22 + g.remaining <<< 32)

/-- GATE_FLASK_STATUS of the selected flask; 0 until the start-up self-test has told its state. [log 27 DESIGN CHOICE] -/
def Chip.flaskStatus (s : Chip) : W64 :=
  let (c, f) := s.gateSel
  let x := s.flask c f
  let heat := fun (h : Half) (unit : Nat) => h.role <<< 12 + h.health <<< 4 + unit
  if !x.tested then 0
  else w64 (heat x.cope 5 + heat x.drag 10 <<< 16 + x.state <<< 32 + x.engine <<< 35 + x.bist <<< 40 + x.retires <<< 42)

/-- GATE_CRU_STATUS of the selected crucible. -/
def Chip.cruStatus (s : Chip) : W64 :=
  let c := s.gateSel.1
  let g := s.gate.crus.get c
  w64 (ofBool (s.spareOf c).isSome + ((List.range 33).filter fun f => (s.flask c f).state = 3).length <<< 1 + g.state <<< 7 + ofBool g.redirected <<< 10)

/-- GATE_CTX_COUNT of the selected crucible and engine. -/
def Chip.ctxCount (s : Chip) : W64 :=
  let c := s.gateSel.1
  w64 (s.cruCount c % 16777216 + (s.engineCount c (s.get Reg.GATE_SEL 16 12) % 65536) <<< 32)

/-- The value a register reads with no effect on anything: worked out, shown from its word, or 0 where it is write-only. -/
def Chip.shown (s : Chip) (r : RegRow) (i : List Nat) (a : Nat) : W64 :=
  let c := inst i 0
  let sub := 4 * c + inst i 1
  match r.lo with
  | 0x8 => Config.uniqueId
  | 0x10 => w64 keyOption
  | 0x100 => s.eventPending
  | 0x100018 => setBit (s.reg a) 2 s.spreading
  | 0x110 => s.eventActive
  | 0x800030 => s.selRecord
  | 0x601000 =>
    let f := s.pon.framers.get (2 * c + inst i 1)
    w64 (ofBool f.sending + ofBool f.remainder.isSome <<< 1)
  | 0x601028 => (Config.txLatency (2 * c + inst i 1)).setWidth 64
  | 0x601200 => 0
  | 0x1C00028 => s.memWord c
  | 0x1C00040 => s.threadStatus c (s.get (Reg.CRU_THREAD_SEL c) 7 0)
  | 0x1C00078 => s.ctrValue c (s.get (Reg.CRU_CTR_SEL c) 4 0) (s.get (Reg.CRU_CTR_SEL c) 7 5)
  | 0x1C00060 => s.queueStatus c (s.get (Reg.CRU_QUEUE_SEL c) 9 0)
  | 0x1C00100 => s.patternVersion c
  | 0x1C00108 => s.patchList c
  | 0x1C00418 => s.loadStatus
  | 0xA00018 =>
    let d := s.prs.draining.getD 0
    w64 (s.prs.epoch + d <<< 8 + ofBool s.prs.draining.isSome <<< 16 + (if s.prs.draining.isSome then s.inFlight d else 0) <<< 24)
  | 0xA000F0 =>
    let b := s.get Reg.PRS_RS_CMD 5 3
    w64 ((s.bankRules b).length + ofBool (s.bankInUse b) <<< 15)
  | 0xC000D8 => w64 (s.occupancy c 0 + s.occupancy c 1 <<< 32)
  | 0xE00020 =>
    let x := s.tm.recs.get (tmKey (s.get Reg.TM_REC_SEL 2 0) (s.get Reg.TM_REC_SEL 23 3))
    if c = 0 then x.w0 else if c = 1 then x.w1 else x.w2
  | 0xE00050 => 0
  | 0xE00058 => w64 s.tm.staged.length
  | 0xE00060 => match s.selQueue with
    | none => 0
    | some q => w64 ((s.tmQueue q).depth + min 16777215 (s.tmQueue q).frames.length <<< 40)
  | 0xE00068 => match s.selQueue with
    | none => 0
    | some q => w64 (s.tmQueue q).drops
  | 0xE00070 => s.queueHead
  | 0xE00078 => s.tokensReg
  | 0xE00088 => w64 (s.freeCells + s.slowCells <<< 20)
  | 0xE000A0 => w64 (s.outstandingCells (s.get Reg.TM_INJ_SEL 5 0))
  | 0x1000038 => s.unitStatus
  | 0x1000040 => s.entropyStatus
  | 0x1000080 => 0
  | 0x10000A0 => s.slotStatus
  | 0x10000A8 => w64 (min (2 ^ 48 - 1) (s.slot (s.get Reg.CIPH_SLOT_CMD 15 0)).uses)
  | 0x10000B0 => (s.slot (s.get Reg.CIPH_SLOT_CMD 15 0)).label
  | 0x200038 => w64 (wrapInt 64 (s.offset / ns1))
  | 0x200040 => w64 (fracOf s.offset)
  | 0x200058 => 0
  | 0x2000A0 => s.servoStatus
  | 0x2000A8 => w64 (wrapInt 40 s.time.servo.y)
  | 0x2000B0 => 0
  | 0x2000B8 => s.lockedTime
  | 0x200130 => s.holdStatus
  | 0x2001A0 => w64 (wrapInt 16 (s.time.oven.temp / 256) + ofBool s.time.oven.valid <<< 16)
  | 0x200408 => s.trigStatus
  | 0x200410 => w64 (s.time.trig.get (s.get Reg.TIME_TRIG_SEL 7 0)).next
  | 0x200418 => 0
  | 0x200420 => w64 s.freeTriggers.length
  | 0x1800028 => s.flaskStatus
  | 0x1800030 => s.cruStatus
  | 0x1800038 => s.ctxCount
  | 0x1A00028 => s.chanStatus
  | 0x1A00048 => w64 s.mem.poison.length
  | 0x1600020 => s.mateStatus
  | 0x1600028 => setBit (s.reg a) 33 s.glk.turn.isSome
  | 0x1600038 => s.linkStatus
  | 0x1600058 => setFld (s.reg a) 31 16 (min 65535 s.glk.run)
  | 0x1400010 => w64 (Config.vendorId.toNat + 0x3250 <<< 16 + ofBool s.split <<< 32)
  | 0x1400018 => s.linkStatusPci
  | 0x1400040 => s.ringStatus
  | 0x1410000 => 0
  | 0x1500000 => w64 (s.ring (ringKey 0 c)).tail
  | 0x1508000 => w64 (s.ring (ringKey 1 c)).tail
  | 0x1200020 => s.portStatus c
  | 0x1201008 => s.mmStatus sub
  | 0x1201030 => s.gclStatus sub
  | 0x1201048 => s.pausedStatus sub
  | 0x2800000 => s.sbyStatus
  | 0x2800030 => 0
  | 0x2800060 => w64 s.isl.logSeq
  | 0x2800068 => s.powerStatus
  | lo =>
    let k := s.alias lo i a
    if s.asksActive lo i then s.act k else s.reg k

/-- COUNTER_LOW_READ: bits [31:0], with bits [47:32] of a counter latched for the endpoint's next read of its high half (R673). [log 29 DEDUCED] -/
def counterLowRead (e : Ep) (a : Nat) (s : Chip) : Chip :=
  match findRow a with
  | none => s.answer 0
  | some (r, i) =>
    let v := s.shown r i a
    let s1 := s.answer (w64 (fld v 31 0))
    if r.counter then { s1 with ctrLatch := s1.ctrLatch.set e (some (a, fld v 47 32)) } else s1

/-- The high half of a counter: the latched one where the endpoint's last 32-bit counter read was the low half of this counter, else the current one
(R673). [log 29 DEDUCED] -/
def Chip.counterHigh (s : Chip) (e : Ep) (a : Nat) (v : W64) : Chip :=
  let h := match s.ctrLatch.get e with
    | some (b, x) => if b = a then x else fld v 63 32
    | none => fld v 63 32
  { s.answer (w64 h) with ctrLatch := s.ctrLatch.set e none }

/-- RC_HIGH_READ: a 32-bit read at offset + 4: the latched half of an RC register, or 0 (R20); the high half of a counter (R673) or of any other
register. One of CRU_MEM_DATA moves OFFSET on (R749). -/
def highRead (e : Ep) (a : Nat) (s : Chip) : Chip :=
  match findRow a with
  | none => s.answer 0
  | some (r, i) =>
    if r.rc then rcHighRead e a s
    else if r.counter then s.counterHigh e a (s.shown r i a)
    else
      let s1 := s.answer (w64 (fld (s.shown r i a) 63 32))
      if r.lo = 0x1C00028 then s1.memAdvance (inst i 0) .high else s1

/-- A 64-bit read of the register at an 8-byte aligned offset: what it returns, and the state with the read's effect, whichever endpoint, engine or
side-band request reads (R17, R20, R494, R669, R749). [log 22 DESIGN CHOICE] -/
def Chip.busRead (s : Chip) (a : Nat) : W64 × Chip :=
  match findRow a with
  | none => (0, s)
  | some (r, i) =>
    let c := inst i 0
    let cru : Cru := ⟨c % 33, Nat.mod_lt _ (by decide)⟩
    let tree : Tree := ⟨c % 32, Nat.mod_lt _ (by decide)⟩
    let took := fun (u : Chip) => (u.readData, { u with readData := s.readData })
    match r.lo with
    | 0x600090 => took (statHalfFifoRead tree 0 .full s)
    | 0x1C00028 => took (cruMemDataRead cru .full s)
    | 0x1C00088 => took (trigLogRead cru 0 .full s)
    | 0x1000030 => took (noticeFifoRead 0 .full s)
    | 0x200018 => took (timeNowRead .full s)
    | 0x200210 => took (tinFifoRead 0 .full ⟨c % 4, Nat.mod_lt _ (by decide)⟩ s)
    | 0x1800050 => took (faultLogRead 0 .full s)
    | 0x1A00038 => took (mismatchLogRead 0 .full s)
    | 0x1201038 => took (tsFifoRead ⟨(4 * c + inst i 1) % 32, Nat.mod_lt _ (by decide)⟩ .full s)
    | 0x1400228 => took (mbRspRead ⟨c % 2, Nat.mod_lt _ (by decide)⟩ .full s)
    | _ => (s.shown r i a, s)

end Sys2Proof.Machine
end

