-- ==== Sys2Proof/Machine/Bus.lean ====
section
/-! DEFINITION. What a write to a register does: as its access type defines, or as its own rule says (R13 to R27, R634, R748). -/
namespace Sys2Proof.Machine

/-! ### A write as it arrives (R15, R16, R634) -/

/-- The bits that an access reaches. -/
def laneMask : Lanes → Nat
  | .low => 0xFFFFFFFF
  | .high => 0xFFFFFFFF00000000
  | .full => 0xFFFFFFFFFFFFFFFF

/-- The written data in the places it reaches; a 32-bit write carries its half in bits [31:0]. [log 16 DESIGN CHOICE] -/
def placed (lanes : Lanes) (v : W64) : W64 :=
  match lanes with
  | .low => w64 (fld v 31 0)
  | .high => v <<< 32
  | .full => v

/-- A word with the bits of a mask taken from another. -/
def mixBits (old new : W64) (m : Nat) : W64 := (old &&& ~~~(w64 m)) ||| (new &&& w64 m)

/-- A write to a register: its row, instance and offset, who writes, the half it reaches, the data in its place, and the data of a 32-bit write
unplaced. -/
structure RegWrite where
  row : RegRow
  at_ : List Nat
  a : Nat
  origin : Origin
  lanes : Lanes
  x : W64
  v : W64

/-- Whether a write reaches bits [31:0]. [log 17 DEDUCED] -/
def RegWrite.lowHit (w : RegWrite) : Bool := w.lanes ≠ .high

/-- Bit k of a write, which is 0 where the write does not reach it. [log 17 DEDUCED] -/
def RegWrite.has (w : RegWrite) (k : Nat) : Bool := bit w.x k

/-- The register's whole value as the write leaves the half it does not reach (R16). -/
def RegWrite.merged (w : RegWrite) (old : W64) : W64 := mixBits old w.x (laneMask w.lanes)

/-! ### Reserved encodings (R25, R354, R447, R488, R751) -/

/-- A field kept at its old value unless the new one is allowed. -/
def keepUnless (ok : Bool) (old new : W64) (hi lo : Nat) : W64 := if ok then new else setFld new hi lo (fld old hi lo)

/-- Every field given an encoding its table reserves keeps its old value. -/
def keepReserved (legal : List FieldLegal) (old new : W64) : W64 :=
  legal.foldl (fun n f => keepUnless (legalFields [f] n) old n (f.1 + f.2.1 - 1) f.1) new

/-- An entry of an indirection table: TYPE and crucible that are reserved keep their values, and the bits that the entry's type does not name are 0.
[log 21 DESIGN CHOICE] -/
def indEntry (old new : W64) : W64 :=
  let n := keepUnless (fld new 2 0 ≤ 4) old new 2 0
  match fld n 2 0 with
  | 1 => keepUnless (fld n 8 3 ≤ 32) old (w64 (fld n 18 0)) 8 3
  | 2 => w64 (fld n 14 0)
  | 3 => w64 (fld n 8 0)
  | 4 => keepUnless (fld n 8 3 ≤ 32) old (w64 (fld n 16 0)) 8 3
  | _ => w64 (fld n 18 0)

/-- Reserved encodings that depend on more than one field. [log 21 DESIGN CHOICE, 226 DEDUCED] -/
def settleReserved (lo : Nat) (old new : W64) : W64 :=
  match lo with
  | 0x800028 => keepUnless (fld new 7 6 ≠ 1 || fld new 19 8 ≤ 1019) old new 19 8
  | 0xA00108 => indEntry old new
  | 0xC00090 => keepUnless (!reservedDest (fld new 31 0)) old new 31 0
  | 0xC000A0 => w64 (fld new 25 0)
  | 0xC000B0 => keepUnless (!reservedDest (fld new 31 0)) old new 31 0
  | 0xE00018 =>
    let n := keepUnless (fld new 23 3 < kindCount (fld new 2 0)) old new 23 3
    if fld n 23 3 < kindCount (fld n 2 0) then n else old
  | 0x1000050 => keepUnless (fld new 0 0 = 0) old new 15 0
  | _ => new

/-! ### A write with no rule of its own (R17, R22 to R27) -/

/-- The COMMIT register of the block that a staged register belongs to. -/
def commitOf (a : Nat) : Nat :=
  if a < 0x200000 then Reg.CLK_COMMIT
  else if a < 0x400000 then Reg.TIME_COMMIT
  else if a < 0x600000 then Reg.PONU_COMMIT ((a - 0x400000) / 0x10000)
  else if a < 0x800000 then Reg.POND_COMMIT ((a - 0x600000) / 0x10000)
  else if a < 0xA00000 then Reg.ALLOC_COMMIT
  else if a < 0xC00000 then Reg.PRS_COMMIT
  else if a < 0xE00000 then Reg.FWD_COMMIT
  else if a < 0x1000000 then Reg.TM_COMMIT
  else if a < 0x1200000 then Reg.CIPH_COMMIT
  else if a < 0x1400000 then Reg.ETH_COMMIT ((a - 0x1200000) / 0x20000)
  else if a < 0x1800000 then Reg.GLK_COMMIT
  else if a < 0x1A00000 then Reg.GATE_COMMIT
  else if a < 0x1C00000 then Reg.MEM_COMMIT
  else Reg.CRU_COMMIT ((a - 0x1C00000) / 0x40000)

/-- The bits that word n of a parse node defines; the rest are reserved (R24, R325). [log 219 DEDUCED] -/
def nodeMask (n : Nat) : Nat :=
  match n with
  | 0 => 0x3FFFFFFFFFFF
  | 1 => 0x1FFFFFFFFFFF
  | 2 => 0x0FFFFFDFFFFFFFFF
  | 3 => 0x3FFFFFFFF
  | _ => if n < 20 then 0x3FFFFFFFFFF else 0

/-- The bits that a write of a register stages: of PRS_NODE_DATA, those of the selected word's format. [log 219 DEDUCED] -/
def Chip.stageMask (s : Chip) (r : RegRow) : Nat :=
  if r.lo = 0xA00028 then nodeMask (s.get Reg.PRS_NODE_SEL 12 8) else r.stg

/-- A write as the access types define: RW bits are set, a 1 clears a W1C bit, STG bits are staged unless the block's GO is pending, RO and reserved bits
stay. Staged fields hold whatever is written until GO checks them. [log 18 DESIGN CHOICE] -/
def Chip.plainWrite (s : Chip) (w : RegWrite) : Chip :=
  let r := w.row
  if s.asksActive r.lo w.at_ then s
  else
    let k := s.alias r.lo w.at_ w.a
    let old := s.reg k
    let m := laneMask w.lanes
    if r.stg ≠ 0 then
      if s.goPending (commitOf w.a) then s.stageErr (commitOf w.a) else s.setReg k (mixBits old w.x (s.stageMask r &&& m))
    else
      let set := settleReserved r.lo old (keepReserved r.legal old (mixBits old w.x (r.rw &&& m)))
      s.setReg k (set &&& ~~~(w.x &&& w64 (r.w1c &&& m)))

/-- A write-only register's data, kept for the command that takes it. -/
def Chip.keepWrite (s : Chip) (w : RegWrite) : Chip := s.setReg w.a (w.merged (s.reg w.a))

/-! ### Registers with rules of their own -/

/-- GO of a COMMIT register, after STAGE_ERR's own clearing (R21 to R23). -/
def Chip.goWrite (s : Chip) (w : RegWrite) (go : Chip → Chip) : Chip :=
  let s1 := s.plainWrite w
  if w.has 0 then go s1 else s1

/-- POND_CTRL: enables and FLUSH bits (R178, R187). -/
def Chip.pondCtrlWrite (s : Chip) (w : RegWrite) (t : Tree) : Chip :=
  if !w.lowHit then s
  else
    let s1 := txEnableWrite t (w.has 0) (w.has 1) s
    let s2 := if w.has 2 then ploamFlush t 0 s1 else s1
    if w.has 3 then ploamFlush t 1 s2 else s2

/-- POND and ALLOC (R165, R166, R173, R178, R184, R205, R209, R210). -/
def Chip.ponWrite (s : Chip) (w : RegWrite) : Chip :=
  let t := Fin.ofNat 32 (inst w.at_ 0)
  let wl := Fin.ofNat 2 (inst w.at_ 1)
  match w.row.lo with
  | 0x400008 => s.goWrite w (ponuGo t)
  | 0x600000 => s.pondCtrlWrite w t
  | 0x600008 => s.goWrite w (pondGo t)
  | 0x600020 => if w.has 0 then timingArm t s else s
  | 0x600058 => todArm t (w.merged (s.reg w.a)) s
  | 0x600070 => if w.lowHit then statSelWrite t w.x s else s
  | 0x600078 => statWrite t 0 ⟨w.lanes, w.v⟩ s
  | 0x600080 => statWrite t 1 ⟨w.lanes, w.v⟩ s
  | 0x600088 => statWrite t 2 ⟨w.lanes, w.v⟩ s
  | 0x601200 => if inst w.at_ 2 = 7 then ploamHostPost t wl w.lanes w.v s else s.keepWrite w
  | 0x800000 => s.goWrite w allocGo
  | 0x800030 =>
    let a := s.reg Reg.ALLOC_REC_ADDR
    allocRecWrite (Fin.ofNat 32 (fld a 4 0)) (Fin.ofNat 2 (fld a 5 5)) (Fin.ofNat 4 (fld a 7 6)) (Fin.ofNat 4096 (fld a 19 8))
      (w.merged s.selRecord) s
  | 0x810000 => allocOwnerWrite t w.lanes w.v s
  | _ => s.plainWrite w

/-- PRS_RS_CMD (R339, R748). [log 225 DEDUCED] -/
def Chip.rsCmdWrite (s : Chip) (w : RegWrite) : Chip :=
  let bank := fld w.x 5 3
  let dst := fld w.x 8 6
  if s.prs.command.isSome then s.raise Reg.PRS_EVENT 6
  else if !w.has 9 then s.plainWrite w
  else match fld w.x 2 0 with
    | 0 => rsFind bank dst s
    | 1 => rsInsert bank dst s
    | 2 => rsDelete bank dst s
    | 3 => rsClear bank dst s
    | 4 => rsCopy bank dst s
    | _ => s.raise Reg.PRS_EVENT 6

/-- FWD_TBL_CMD (R402). -/
def Chip.tblCmdWrite (s : Chip) (w : RegWrite) : Chip :=
  let flags := fld w.x 6 2
  if s.fwd.command.isSome then s.raise Reg.FWD_EVENT 8
  else if !w.has 7 then s.plainWrite w
  else match fld w.x 1 0 with
    | 0 => fwdTblFind flags false s
    | 1 => fwdTblInsert flags false s
    | 2 => fwdTblDelete flags false s
    | _ => fwdTblAge flags false s

/-- TM_DRAIN_CMD (R437, R748). -/
def Chip.drainWrite (s : Chip) (w : RegWrite) : Chip :=
  if s.flag Reg.TM_DRAIN_CMD 37 then s.raise Reg.TM_EVENT 5
  else if w.has 36 then drainGo (w.merged (s.reg Reg.TM_DRAIN_CMD)) s
  else s.plainWrite w

/-- PRS, FWD and TM (R339, R402, R437, R443, R752). [log 20 DESIGN CHOICE] -/
def Chip.pktWrite (s : Chip) (w : RegWrite) : Chip :=
  match w.row.lo with
  | 0xA00000 => s.goWrite w prsGo
  | 0xA000C0 => s.rsCmdWrite w
  | 0xC00000 => s.goWrite w fwdGo
  | 0xC00040 => if w.lowHit then sweepPeriodWrite (inst w.at_ 0) w.x s else s
  | 0xC000B8 => s.tblCmdWrite w
  | 0xE00000 => s.goWrite w tmGo
  | 0xE00050 => if w.has 0 then recPush s else s
  | 0xE000B8 => s.drainWrite w
  | _ => s.plainWrite w

/-- CIPH_SLOT_CMD: a reserved SLOT or OP runs as a command that fails (R486, R748). -/
def Chip.slotCmdWrite (s : Chip) (w : RegWrite) : Chip :=
  let v := w.merged (s.reg Reg.CIPH_SLOT_CMD)
  if s.ciph.command.isSome then s.raise Reg.CIPH_EVENT 7
  else if !w.has 18 then s.plainWrite w
  else match fld v 17 16 with
    | 0 => slotImport (fld v 15 0) s
    | 1 => slotErase (fld v 15 0) s
    | 2 => slotRetire (fld v 15 0) s
    | _ => s.slotCmd (if 40959 < fld v 15 0 then s.get Reg.CIPH_SLOT_CMD 15 0 else fld v 15 0) (s.get Reg.CIPH_SLOT_CMD 17 16) fun u => (1, u)

/-- GATE_RETIRE_CMD (R582, R748). [log 225 DEDUCED] -/
def Chip.retireWrite (s : Chip) (w : RegWrite) : Chip :=
  if s.gate.command.isSome then s.raise Reg.GATE_EVENT 6
  else if !w.has 3 then s.plainWrite w
  else match fld w.x 2 0 with
    | 0 => retireFlask s
    | 1 => restoreFlaskCmd s
    | 2 => retireCrucible s
    | 3 => restoreCrucible s
    | 4 => gateTest s
    | _ => s.raise Reg.GATE_EVENT 6

/-- MEM_CHAN_CMD (R585, R748). [log 225 DEDUCED] -/
def Chip.chanWrite (s : Chip) (w : RegWrite) : Chip :=
  if s.mem.command.isSome then s.raise Reg.MEM_EVENT 6
  else if !w.has 3 then s.plainWrite w
  else match fld w.x 2 0 with
    | 0 => chanOffline s
    | 1 => chanOnline s
    | 2 => Machine.makePrimary s
    | 3 => clearSuspect s
    | _ => s.raise Reg.MEM_EVENT 6

/-- CIPH, GATE, MEM and GLK (R485, R486, R582, R585, R608, R622). -/
def Chip.devWrite (s : Chip) (w : RegWrite) : Chip :=
  match w.row.lo with
  | 0x1000000 => s.goWrite w ciphGo
  | 0x1000068 => s.slotCmdWrite w
  | 0x1000080 => s.keepWrite w
  | 0x1600000 => s.goWrite w glkGo
  | 0x1600028 =>
    if w.has 32 then turnGo (BitVec.ofNat 32 (fld (w.merged (s.reg Reg.GLK_TURN)) 31 0)) s else s.plainWrite w
  | 0x1600090 => if w.lowHit then pmSelWrite w.x s else s
  | 0x1800000 => s.goWrite w gateGo
  | 0x1800040 => s.retireWrite w
  | 0x1A00000 => s.goWrite w memGo
  | 0x1A00030 => s.chanWrite w
  | _ => s.plainWrite w

/-- CLK and TIME (R493, R508, R510, R516, R520, R527, R619). -/
def Chip.timeWrite (s : Chip) (w : RegWrite) : Chip :=
  match w.row.lo with
  | 0x100000 => s.goWrite w clkGo
  | 0x200000 => s.goWrite w timeGo
  | 0x200030 => timeRateWrite (w.merged (s.reg Reg.TIME_RATE)) s
  | 0x200050 => if w.lowHit then timeSet w.x s else s
  | 0x200058 => timeAdjWrite w.origin w.x s
  | 0x200060 => (s.plainWrite w).pmMark false
  | 0x2000B0 => servoInputWrite w.x s
  | 0x200108 => hoCoeffWrite (Fin.ofNat 5 (inst w.at_ 0)) (w.merged (s.reg w.a)) s
  | 0x200128 => hoCoeffWrite 4 (w.merged (s.reg w.a)) s
  | 0x200418 => if w.lowHit then trigCancel w.x s else s
  | _ => s.plainWrite w

/-- Which endpoint's host a register access of an origin comes from. [log 19 DESIGN CHOICE] -/
def endpointOf : Origin → Ep
  | .host e => e
  | _ => 0

/-- CRU (R272, R276, R278, R308, R749). [log 19 DESIGN CHOICE] -/
def Chip.cruWrite (s : Chip) (w : RegWrite) : Chip :=
  let c := Fin.ofNat 33 (inst w.at_ 0)
  match w.row.lo with
  | 0x1C00008 => s.goWrite w (cruQueueGo c)
  | 0x1C00028 => cruMemDataWrite c w.lanes w.v s
  | 0x1C00038 =>
    let t := Fin.ofNat 256 (s.get (Reg.CRU_THREAD_SEL c) 7 0)
    (s.plainWrite w).threadCtrlWrite c t w.x
  | 0x1C00078 =>
    let k := s.get (Reg.CRU_CTR_SEL c) 7 5
    let e := s.get (Reg.CRU_CTR_SEL c) 4 0
    s.ctrSet c e k (w.merged (s.reg (Cell.ctrData c e k)))
  | 0x1C00400 =>
    let source := if w.lowHit then fld w.x 2 1 else s.get Reg.CRU_LOAD_CTRL 2 1
    if w.has 0 then loadGo (endpointOf w.origin) (Fin.ofNat 4 source) s else s.plainWrite w
  | _ => s.plainWrite w

/-- HIF_SRC_VECk: a vector that does not belong to the endpoint of a mailbox's source is reserved and keeps its value (R25, R630, R647). -/
def Chip.sourceVecWrite (s : Chip) (k : Nat) (w : RegWrite) : Chip :=
  let s1 := s.plainWrite w
  if k < 18 || s.vectorEp (s1.get w.a 10 0) = k - 18 then s1 else s1.setReg w.a (setFld (s1.reg w.a) 10 0 (s.get w.a 10 0))

/-- ETH, HIF and SBY (R635, R637, R649, R650, R710). [log 17 DEDUCED] -/
def Chip.hostWrite (s : Chip) (w : RegWrite) : Chip :=
  let i := inst w.at_ 0
  match w.row.lo with
  | 0x1200000 => s.goWrite w (ethGo (Fin.ofNat 8 i))
  | 0x1400028 => ringCfgWrite true (w.merged (s.ringReg s.selRing 0)) s
  | 0x1400030 => ringCfgWrite false (w.merged (s.ringReg s.selRing 1)) s
  | 0x1400100 => s.sourceVecWrite i w
  | 0x1400200 =>
    if w.has 16 then s.mbGo (Fin.ofNat 2 i) (fld w.x 7 0) (BitVec.ofNat 8 (fld w.x 15 8)) else s.plainWrite w
  | 0x1410000 => if w.lowHit then vecArm (Fin.ofNat 2048 i) s else s
  | 0x1500000 => if w.lowHit then rxTailWrite (Fin.ofNat 4096 i) (BitVec.ofNat 16 (fld w.x 15 0)) [] s else s
  | 0x1508000 => if w.lowHit then txTailWrite (Fin.ofNat 4096 i) (BitVec.ofNat 16 (fld w.x 15 0)) [] s else s
  | 0x2800028 => if w.has 5 then sbAppSend (Fin.ofNat 32 (fld w.x 4 0)) s else s.plainWrite w
  | 0x2800030 => s.keepWrite w
  | _ => s.plainWrite w

/-- A write of the register at an 8-byte aligned offset of BAR0. [log 16 DESIGN CHOICE] -/
def Chip.busWrite (s : Chip) (origin : Origin) (a : Nat) (lanes : Lanes) (v : W64) : Chip :=
  match findRow a with
  | none => s
  | some (r, i) =>
    let w : RegWrite := { row := r, at_ := i, a := a, origin := origin, lanes := lanes, x := placed lanes v, v := v }
    if a < 0x100000 then s.plainWrite w
    else if a < 0x400000 then s.timeWrite w
    else if a < 0xA00000 then s.ponWrite w
    else if a < 0x1000000 then s.pktWrite w
    else if a < 0x1200000 then s.devWrite w
    else if a < 0x1600000 then s.hostWrite w
    else if a < 0x1C00000 then s.devWrite w
    else if a < 0x2800000 then s.cruWrite w
    else s.hostWrite w

/-- The half of a register that an access of a size at a byte offset reaches: none where the access is narrower than 4 bytes, crosses an 8-byte
boundary or is not aligned to a half (R15, R634). [log 15 DESIGN CHOICE] -/
def lanesOf (a : Nat) : AccessSize → Option Lanes
  | .eight => if a % 8 = 0 then some .full else none
  | .four => if a % 8 = 0 then some .low else if a % 8 = 4 then some .high else none
  | _ => none

/-- REGISTER_WRITE: a write at an offset of BAR0; one that R634 discards sets ACCESS_ERR. [log 15 DESIGN CHOICE] -/
def registerWrite (origin : Origin) (a : Nat) (size : AccessSize) (v : W64) (s : Chip) : Chip :=
  match lanesOf a size with
  | none => s.raise Reg.HIF_EVENT 0
  | some l => s.busWrite origin (a / 8 * 8) l v

/-! ### The side-band's accesses (R692, R698) -/

/-- A 64-bit read at a byte offset of BAR0; one that crosses an 8-byte boundary returns 0 and sets ACCESS_ERR (R634). [log 22 DESIGN CHOICE] -/
def Chip.registerRead (s : Chip) (a : Nat) : W64 × Chip := if a % 8 = 0 then s.busRead a else (0, s.raise Reg.HIF_EVENT 0)

/-- SB_REG_READ: DENIED while the core is not running, FAILED where the access does not end within 1 ms (R692, R693). [log 23 DESIGN CHOICE, 24 DESIGN CHOICE] -/
def sbRegRead (node : Fin 32) (seq : BitVec 16) (a : BitVec 26) (slow : Bool) (s : Chip) : Chip :=
  s.sbRequest node seq.toNat 0x11 fun u =>
    if u.isl.core ≠ 3 then (5, [], u)
    else if slow then (6, [], u)
    else
      let r := u.registerRead a.toNat
      (0, wordBytes r.1, r.2)

/-- SB_REG_WRITE. [log 23 DESIGN CHOICE, 24 DESIGN CHOICE] -/
def sbRegWrite (node : Fin 32) (seq : BitVec 16) (a : BitVec 26) (v : W64) (slow : Bool) (s : Chip) : Chip :=
  s.sbRequest node seq.toNat 0x12 fun u =>
    if u.isl.core ≠ 3 then (5, [], u)
    else if slow then (6, [], u)
    else (0, [], registerWrite .sideBand a.toNat .eight v u)

end Sys2Proof.Machine
end

