-- ==== Sys2Proof/Machine/Jarril.lean ====
section
/-! DEFINITION. Issue of Jarril instructions, and those that touch registers only: arithmetic, branches, special registers, counters and traps (R218 to
R245, R272). A command names the thread that issues and the instruction's fields; it has no effect while the thread cannot issue. -/
namespace Sys2Proof.Machine

/-! ### Issue (R219, R221, R222, R275) -/

/-- The word of instruction RAM at a thread's IP (R226, R234). -/
def Chip.fetched (s : Chip) (c t : Nat) : BitVec 32 :=
  BitVec.ofNat 32 (numBE ((List.range 4).map fun i => s.iramByte c ((s.thread c t).ip + i)))

/-- Whether a word is CTR.RD. -/
def isCtrRd (w : BitVec 32) : Bool := wordOp w = 0x3E && wordFn w = 0

/-- What issue counts: instructions, the slot's own, thread changes, and short or long ones (R275). An instruction of another thread than the one whose
CTR.RD was issued last counts between it and its neighbour (R274). -/
def Chip.countIssue (s : Chip) (c t : Nat) (long : Bool) : Chip :=
  let e := t / 8
  let sup := (s.thread c t).super
  let last := s.cru.lastIssued.get (c * 32 + e)
  let s1 := (s.countEvent c e sup 0x02).countEvent c e sup (0x30 + t % 8)
  let s2 := if last ≠ 0 && last ≠ t % 8 + 1 then s1.countEvent c e sup 0x04 else s1
  let s3 := s2.countEvent c e sup (if long then 0x06 else 0x05)
  let run := (s.cru.ctrRuns.get (c * 32 + e)).map fun p => if p.thread = t then p else { p with others := p.others + 1 }
  { s3 with cru := { s3.cru with lastIssued := s3.cru.lastIssued.set (c * 32 + e) (t % 8 + 1), ctrRuns := s3.cru.ctrRuns.set (c * 32 + e) run } }

/-- The READY threads of an engine in the order in which the choice rotates, starting after the thread that issued last. [log 31 DEDUCED] -/
def Chip.readyOrder (s : Chip) (c e : Nat) : List Nat :=
  ((List.range 8).map fun i => e * 8 + (s.cru.lastIssued.get (c * 32 + e) + i) % 8).filter fun t => (s.thread c t).state = stReady

/-- The thread whose second of two adjacent CTR.RD must issue now, since three instructions of other threads have been issued between them (R274). -/
def Chip.ctrTurn (s : Chip) (c e : Nat) : Option Nat :=
  match s.cru.ctrRuns.get (c * 32 + e) with
  | some p =>
    if 3 ≤ p.others && (s.thread c p.thread).state = stReady && (s.thread c p.thread).ip = p.next && isCtrRd (s.fetched c p.thread) then some p.thread
    else none
  | none => none

/-- The thread that an engine chooses to issue from: one between two CTR.RD whose turn it is, then a thread marked HIGH before any other, in rotation
(R221, R274). [log 31 DEDUCED] -/
def Chip.chosen (s : Chip) (c e : Nat) : Option Nat :=
  match s.ctrTurn c e with
  | some t => some t
  | none => match (s.readyOrder c e).find? fun t => s.flag (Cell.threadCtrl c t) 5 with
    | some t => some t
    | none => (s.readyOrder c e).head?

/-- A thread stopped by a word that W20 could not correct: FAULTED, as after a double trap (see the log). [log 37 DESIGN CHOICE] -/
def Chip.faultThread (s : Chip) (c t : Nat) : Chip :=
  ((s.unreserve (s.thread c t).reserved).updThread c t fun x => { x with state := stFaulted, wait := .none }).raise (Reg.CRU_EVENT c) 0

/-- Whether a thread issues next: its engine runs and chooses it. [log 31 DEDUCED] -/
def Chip.canIssue (s : Chip) (c t : Nat) : Bool := s.engineRuns c (t / 8) && decide (s.chosen c (t / 8) = some t)

/-- The word of an instruction issued by the thread that its engine chooses: the word that the thread fetches; no other word has an effect (R234, R236).
[log 5 DESIGN CHOICE, 37 DESIGN CHOICE] -/
def Chip.issue (s : Chip) (c t : Nat) (w : BitVec 32) (long : Bool) (act : Chip → Chip) : Chip :=
  if !s.canIssue c t then s
  else if s.mem.badIram.contains (c * 16384 + (s.thread c t).ip / 16) then s.faultThread c t
  else if s.fetched c t ≠ w then s
  else act (s.countIssue c t long)

/-- The address after the instruction at an address of instruction RAM. [log 30 DESIGN CHOICE] -/
def nextIp (ip : Nat) : Nat := (ip + 4) % iramSize

/-- A thread's registers changed, and its IP moved to the next instruction. -/
def Chip.next (s : Chip) (c t : Nat) (f : Thread → Thread) : Chip := s.updThread c t fun x => { f x with ip := nextIp x.ip }

/-- A result written to rd. -/
def Chip.result (s : Chip) (c t rd : Nat) (v : W64) : Chip := s.next c t fun x => x.setG rd v

/-- A thread that leaves READY for a wait (R222). [log 40 DESIGN CHOICE] -/
def Chip.pause (s : Chip) (c t : Nat) (w : Wait) : Chip := s.updThread c t fun x => { x with state := stWaiting, wait := w }

/-- A thread READY again; the count of R244 restarts. -/
def Chip.ready (s : Chip) (c t : Nat) : Chip :=
  s.updThread c t fun x => { x with state := stReady, wait := .none, readyFrom := s.frc }

/-- A trap that leaves EPC at the instruction itself. -/
def Chip.trapHere (s : Chip) (c t cause : Nat) (einfo : W64) : Chip := s.trap c t cause (s.thread c t).ip einfo

/-- ILLEGAL: EINFO is the instruction word (R236, R243). -/
def Chip.illegal (s : Chip) (c t : Nat) (w : BitVec 32) : Chip := s.trapHere c t 1 (w.setWidth 64)

/-- PRIV: EINFO is the instruction word (R243). -/
def Chip.priv (s : Chip) (c t : Nat) (w : BitVec 32) : Chip := s.trapHere c t 2 (w.setWidth 64)

/-- A supervisor instruction traps with PRIV in program mode. -/
def Chip.super (s : Chip) (c t : Nat) (w : BitVec 32) (act : Chip → Chip) : Chip :=
  if (s.thread c t).super then act s else s.priv c t w

/-! ### Arithmetic (R237) -/

/-- A short instruction of OP 0 that computes rd from ra and rb. -/
def Chip.aluR (s : Chip) (c t fn rd ra rb : Nat) (f : W64 → W64 → W64) : Chip :=
  s.issue c t (wordR 0 rd ra rb fn) false fun u => u.result c t rd (f ((u.thread c t).g ra) ((u.thread c t).g rb))

/-- A short instruction that computes rd from ra and an immediate. -/
def Chip.aluI (s : Chip) (c t op rd ra : Nat) (imm : BitVec 16) (f : W64 → W64) : Chip :=
  s.issue c t (wordI op rd ra imm) false fun u => u.result c t rd (f ((u.thread c t).g ra))

/-- An instruction of OP 0 with one source, whose rb must be g0. -/
def Chip.alu1 (s : Chip) (c t fn rd ra rb : Nat) (f : W64 → W64) : Chip :=
  s.issue c t (wordR 0 rd ra rb fn) false fun u =>
    if rb ≠ 0 then u.illegal c t (wordR 0 rd ra rb fn) else u.result c t rd (f ((u.thread c t).g ra))

/-- 1 or 0 for the outcome of a comparison. -/
def truth (b : Bool) : W64 := if b then 1 else 0

/-- Leading zeros among the n low bits of a word. -/
def leadZeros (v : W64) : Nat → Nat
  | 0 => 0
  | n + 1 => if v.getLsbD n then 0 else leadZeros v n + 1

/-- The count of a shift: bits [5:0] of a register (R237). -/
def shiftBy (b : W64) : Nat := b.toNat % 64

/-- The CRC-32C of the 8 bytes of b, most significant first, continued from a[31:0]. -/
def crcStep (a b : W64) : W64 := (crc32c (a.setWidth 32) (wordBytes b)).setWidth 64

def jAdd (c : Cru) (t : Fin 256) (rd ra rb : Fin 32) (s : Chip) : Chip := s.aluR c t 0x000 rd ra rb fun a b => a + b
def jSub (c : Cru) (t : Fin 256) (rd ra rb : Fin 32) (s : Chip) : Chip := s.aluR c t 0x001 rd ra rb fun a b => a - b
def jAnd (c : Cru) (t : Fin 256) (rd ra rb : Fin 32) (s : Chip) : Chip := s.aluR c t 0x002 rd ra rb fun a b => a &&& b
def jOr (c : Cru) (t : Fin 256) (rd ra rb : Fin 32) (s : Chip) : Chip := s.aluR c t 0x003 rd ra rb fun a b => a ||| b
def jXor (c : Cru) (t : Fin 256) (rd ra rb : Fin 32) (s : Chip) : Chip := s.aluR c t 0x004 rd ra rb fun a b => a ^^^ b
def jShl (c : Cru) (t : Fin 256) (rd ra rb : Fin 32) (s : Chip) : Chip := s.aluR c t 0x005 rd ra rb fun a b => a <<< shiftBy b
def jShr (c : Cru) (t : Fin 256) (rd ra rb : Fin 32) (s : Chip) : Chip := s.aluR c t 0x006 rd ra rb fun a b => a >>> shiftBy b
def jSra (c : Cru) (t : Fin 256) (rd ra rb : Fin 32) (s : Chip) : Chip := s.aluR c t 0x007 rd ra rb fun a b => a.sshiftRight (shiftBy b)
def jRor (c : Cru) (t : Fin 256) (rd ra rb : Fin 32) (s : Chip) : Chip := s.aluR c t 0x008 rd ra rb fun a b => a.rotateRight (shiftBy b)
def jCmpeq (c : Cru) (t : Fin 256) (rd ra rb : Fin 32) (s : Chip) : Chip := s.aluR c t 0x009 rd ra rb fun a b => truth (decide (a = b))
def jCmplt (c : Cru) (t : Fin 256) (rd ra rb : Fin 32) (s : Chip) : Chip := s.aluR c t 0x00A rd ra rb fun a b => truth (a.slt b)
def jCmpltu (c : Cru) (t : Fin 256) (rd ra rb : Fin 32) (s : Chip) : Chip := s.aluR c t 0x00B rd ra rb fun a b => truth (a.ult b)
def jClz (c : Cru) (t : Fin 256) (rd ra rb : Fin 32) (s : Chip) : Chip := s.alu1 c t 0x00C rd ra rb fun a => w64 (leadZeros a 64)
def jPopc (c : Cru) (t : Fin 256) (rd ra rb : Fin 32) (s : Chip) : Chip := s.alu1 c t 0x00D rd ra rb fun a => w64 (ones a 64)
def jBswap (c : Cru) (t : Fin 256) (rd ra rb : Fin 32) (s : Chip) : Chip :=
  s.alu1 c t 0x00E rd ra rb fun a => w64 (numBE (wordBytes a).reverse)
def jCrc (c : Cru) (t : Fin 256) (rd ra rb : Fin 32) (s : Chip) : Chip := s.aluR c t 0x00F rd ra rb crcStep
def jMul (c : Cru) (t : Fin 256) (rd ra rb : Fin 32) (s : Chip) : Chip := s.aluR c t 0x010 rd ra rb fun a b => a * b
def jMulhu (c : Cru) (t : Fin 256) (rd ra rb : Fin 32) (s : Chip) : Chip :=
  s.aluR c t 0x011 rd ra rb fun a b => w64 (a.toNat * b.toNat / 18446744073709551616)

/-- A divide: the result is written, and the thread waits until the divide is done (R222, R237). -/
def Chip.divide (s : Chip) (c t fn rd ra rb : Nat) (f : W64 → W64 → W64) : Chip :=
  s.issue c t (wordR 0 rd ra rb fn) false fun u => (u.result c t rd (f ((u.thread c t).g ra) ((u.thread c t).g rb))).pause c t .short

/-- DIVU: all ones when rb is 0 (R237). -/
def jDivu (c : Cru) (t : Fin 256) (rd ra rb : Fin 32) (s : Chip) : Chip :=
  s.divide c t 0x012 rd ra rb fun a b => if b = 0 then BitVec.allOnes 64 else a / b

/-- REMU: ra when rb is 0 (R237). -/
def jRemu (c : Cru) (t : Fin 256) (rd ra rb : Fin 32) (s : Chip) : Chip :=
  s.divide c t 0x013 rd ra rb fun a b => if b = 0 then a else a % b

/-- A 16-bit immediate, sign-extended (R235). -/
def sext (imm : BitVec 16) : W64 := imm.signExtend 64

/-- A 16-bit immediate, zero-extended. -/
def zext (imm : BitVec 16) : W64 := imm.setWidth 64

def jAddi (c : Cru) (t : Fin 256) (rd ra : Fin 32) (imm : BitVec 16) (s : Chip) : Chip := s.aluI c t 0x01 rd ra imm fun a => a + sext imm
def jAndi (c : Cru) (t : Fin 256) (rd ra : Fin 32) (imm : BitVec 16) (s : Chip) : Chip := s.aluI c t 0x02 rd ra imm fun a => a &&& zext imm
def jOri (c : Cru) (t : Fin 256) (rd ra : Fin 32) (imm : BitVec 16) (s : Chip) : Chip := s.aluI c t 0x03 rd ra imm fun a => a ||| zext imm
def jXori (c : Cru) (t : Fin 256) (rd ra : Fin 32) (imm : BitVec 16) (s : Chip) : Chip := s.aluI c t 0x04 rd ra imm fun a => a ^^^ zext imm

/-- A shift by imm[5:0]; imm[15:6] must be 0 (R237). -/
def Chip.shiftI (s : Chip) (c t op rd ra : Nat) (imm : BitVec 16) (f : W64 → Nat → W64) : Chip :=
  s.issue c t (wordI op rd ra imm) false fun u =>
    if 64 ≤ imm.toNat then u.illegal c t (wordI op rd ra imm) else u.result c t rd (f ((u.thread c t).g ra) imm.toNat)

def jShli (c : Cru) (t : Fin 256) (rd ra : Fin 32) (imm : BitVec 16) (s : Chip) : Chip := s.shiftI c t 0x05 rd ra imm fun a n => a <<< n
def jShri (c : Cru) (t : Fin 256) (rd ra : Fin 32) (imm : BitVec 16) (s : Chip) : Chip := s.shiftI c t 0x06 rd ra imm fun a n => a >>> n
def jSrai (c : Cru) (t : Fin 256) (rd ra : Fin 32) (imm : BitVec 16) (s : Chip) : Chip :=
  s.shiftI c t 0x07 rd ra imm fun a n => a.sshiftRight n
def jCmplti (c : Cru) (t : Fin 256) (rd ra : Fin 32) (imm : BitVec 16) (s : Chip) : Chip :=
  s.aluI c t 0x08 rd ra imm fun a => truth (a.slt (sext imm))

/-- MOVZ: the ra field's bits [17:16] give the halfword h, and its other bits must be 0 (R237). -/
def jMovz (c : Cru) (t : Fin 256) (rd ra : Fin 32) (imm : BitVec 16) (s : Chip) : Chip :=
  s.issue c t (wordI 0x09 rd ra imm) false fun u =>
    if 4 ≤ ra.val then u.illegal c t (wordI 0x09 rd ra imm) else u.result c t rd (zext imm <<< (16 * ra.val))

/-- MOVK. -/
def jMovk (c : Cru) (t : Fin 256) (rd ra : Fin 32) (imm : BitVec 16) (s : Chip) : Chip :=
  s.issue c t (wordI 0x0A rd ra imm) false fun u =>
    if 4 ≤ ra.val then u.illegal c t (wordI 0x0A rd ra imm)
    else u.result c t rd (setFld ((u.thread c t).g rd) (16 * ra.val + 15) (16 * ra.val) imm.toNat)

/-- EXT; imm[15:12] are reserved (R236, R237). [log 33 DEDUCED] -/
def jExt (c : Cru) (t : Fin 256) (rd ra : Fin 32) (imm : BitVec 16) (s : Chip) : Chip :=
  s.issue c t (wordI 0x0B rd ra imm) false fun u =>
    if 4096 ≤ imm.toNat then u.illegal c t (wordI 0x0B rd ra imm)
    else u.result c t rd (w64 (((u.thread c t).g ra).toNat >>> (imm.toNat % 64) % 2 ^ (imm.toNat / 64 + 1)))

/-- INS; a field that reaches beyond bit 63 traps with ILLEGAL, as do bits in imm[15:12], which are reserved (R236, R237). [log 33 DEDUCED] -/
def jIns (c : Cru) (t : Fin 256) (rd ra : Fin 32) (imm : BitVec 16) (s : Chip) : Chip :=
  s.issue c t (wordI 0x0C rd ra imm) false fun u =>
    let lo := imm.toNat % 64
    let hi := lo + imm.toNat / 64
    if 63 < hi then u.illegal c t (wordI 0x0C rd ra imm)
    else u.result c t rd (setFld ((u.thread c t).g rd) hi lo ((u.thread c t).g ra).toNat)

/-! ### Branches and jumps (R235, R237) -/

/-- An address of instruction RAM: IP's low two bits are 0. [log 30 DESIGN CHOICE] -/
def ipOf (a : Nat) : Nat := a % iramSize / 4 * 4

/-- The target of a branch at an address: its own address + 4 × disp. [log 30 DESIGN CHOICE] -/
def target {w : Nat} (ip : Nat) (disp : BitVec w) : Nat := wrapInt 18 ((ip : Int) + 4 * disp.toInt)

/-- A branch taken when ra compares to rb as named. [log 57 DESIGN CHOICE] -/
def Chip.branch (s : Chip) (c t op ra rb : Nat) (disp : BitVec 16) (f : W64 → W64 → Bool) : Chip :=
  s.issue c t (wordB op ra rb disp) false fun u =>
    let x := u.thread c t
    if f (x.g ra) (x.g rb) then (u.updThread c t fun y => { y with ip := target y.ip disp }).countEvent c (t / 8) x.super 0x09
    else u.next c t fun y => y

def jBeq (c : Cru) (t : Fin 256) (ra rb : Fin 32) (disp : BitVec 16) (s : Chip) : Chip := s.branch c t 0x20 ra rb disp fun a b => decide (a = b)
def jBne (c : Cru) (t : Fin 256) (ra rb : Fin 32) (disp : BitVec 16) (s : Chip) : Chip := s.branch c t 0x21 ra rb disp fun a b => decide (a ≠ b)
def jBlt (c : Cru) (t : Fin 256) (ra rb : Fin 32) (disp : BitVec 16) (s : Chip) : Chip := s.branch c t 0x22 ra rb disp fun a b => a.slt b
def jBge (c : Cru) (t : Fin 256) (ra rb : Fin 32) (disp : BitVec 16) (s : Chip) : Chip := s.branch c t 0x23 ra rb disp fun a b => !a.slt b
def jBltu (c : Cru) (t : Fin 256) (ra rb : Fin 32) (disp : BitVec 16) (s : Chip) : Chip := s.branch c t 0x24 ra rb disp fun a b => a.ult b
def jBgeu (c : Cru) (t : Fin 256) (ra rb : Fin 32) (disp : BitVec 16) (s : Chip) : Chip := s.branch c t 0x25 ra rb disp fun a b => !a.ult b

/-- JMP. -/
def jJmp (c : Cru) (t : Fin 256) (disp : BitVec 26) (s : Chip) : Chip :=
  s.issue c t (wordJ 0x26 disp) false fun u => u.updThread c t fun x => { x with ip := target x.ip disp }

/-- CALL: IP + 4 goes to g31. -/
def jCall (c : Cru) (t : Fin 256) (disp : BitVec 26) (s : Chip) : Chip :=
  s.issue c t (wordJ 0x27 disp) false fun u => u.updThread c t fun x => { x.setG 31 (w64 (nextIp x.ip)) with ip := target x.ip disp }

/-- JR: the target's bits beyond instruction RAM and below 4 are not looked at (see the log). -/
def jJr (c : Cru) (t : Fin 256) (ra : Fin 32) (s : Chip) : Chip :=
  s.issue c t (wordR 0x28 0 ra 0 0) false fun u => u.updThread c t fun x => { x with ip := ipOf (x.g ra).toNat }

/-- CALLR. -/
def jCallr (c : Cru) (t : Fin 256) (ra : Fin 32) (s : Chip) : Chip :=
  s.issue c t (wordR 0x28 0 ra 0 1) false fun u => u.updThread c t fun x => { x.setG 31 (w64 (nextIp x.ip)) with ip := ipOf (x.g ra).toNat }

/-! ### Counters and special registers (R224, R272) -/

/-- A counter as CTR.RD captures it: where the thread's last instruction was a CTR.RD too, a count of cycles as it stood at most 4 cycles later (R274).
[log 245 DESIGN CHOICE] -/
def Chip.capture (s : Chip) (c t k : Nat) : Nat :=
  let now := (s.ctrValue c (t / 8) k).toNat
  match s.cru.ctrRuns.get (c * 32 + t / 8) with
  | some p =>
    let old := nth p.held k
    if p.thread = t && p.next = (s.thread c t).ip && s.countsCycles c (t / 8) k && old ≤ now then min now (old + 4) else now
  | none => now

/-- CTR.RD: in program mode only while CRU_CTRL.PCU is 1, else CTR_DENIED; counters 7 to 31 do not exist (R272, R236). What it captures bounds the capture
of a CTR.RD next to it (R274). [log 34 DESIGN CHOICE] -/
def jCtrRd (c : Cru) (t : Fin 256) (rd rb : Fin 32) (s : Chip) : Chip :=
  s.issue c t (wordR 0x3E rd 0 rb 0) false fun u =>
    if 6 < rb.val then u.illegal c t (wordR 0x3E rd 0 rb 0)
    else if !(u.thread c t).super && !u.flag (Reg.CRU_CTRL c) 0 then u.trapHere c t 5 (w64 rb)
    else
      let run : CtrRun := { thread := t, next := nextIp (u.thread c t).ip, held := (List.range 7).map fun k => u.capture c t k }
      let v := { u with cru := { u.cru with ctrRuns := u.cru.ctrRuns.set (c * 32 + t / 8) (some run) } }
      v.result c t rd (w64 (u.capture c t rb))

/-- What a special register reads as; none where its mode may not read it (R224). -/
def Chip.sprRead (s : Chip) (c t n : Nat) : Option W64 :=
  let x := s.thread c t
  if 10 ≤ n then some 0
  else match n with
    | 0 => some x.mode
    | 4 => some x.prog
    | 5 => some (w64 (t + c <<< 8))
    | 9 => some (s.reg (Reg.CRU_VBASE c))
    | _ =>
      if !x.super then none
      else match n with
        | 1 => some x.epc
        | 2 => some x.ecause
        | 3 => some x.einfo
        | 6 => some x.imask
        | 7 => some x.scratch0
        | _ => some x.scratch1

/-- A thread with a special register written; none where its mode may not write it (R224). [log 35 DESIGN CHOICE] -/
def Thread.sprWrite (x : Thread) (n : Nat) (v : W64) : Option Thread :=
  if 10 ≤ n then some x
  else if n = 4 then some { x with prog := v }
  else if !x.super then none
  else match n with
    | 0 => some { x with ie := bit v 1 }
    | 1 => some { x with epc := v }
    | 6 => some { x with imask := v }
    | 7 => some { x with scratch0 := v }
    | 8 => some { x with scratch1 := v }
    | _ => none

/-- SPR.RD. -/
def jSprRd (c : Cru) (t : Fin 256) (rd rb : Fin 32) (s : Chip) : Chip :=
  s.issue c t (wordR 0x3E rd 0 rb 1) false fun u =>
    match u.sprRead c t rb with
    | some v => u.result c t rd v
    | none => u.priv c t (wordR 0x3E rd 0 rb 1)

/-- SPR.WR. [log 35 DESIGN CHOICE] -/
def jSprWr (c : Cru) (t : Fin 256) (ra rb : Fin 32) (s : Chip) : Chip :=
  s.issue c t (wordR 0x3E 0 ra rb 2) false fun u =>
    match (u.thread c t).sprWrite rb ((u.thread c t).g ra) with
    | some y => u.next c t fun _ => y
    | none => u.priv c t (wordR 0x3E 0 ra rb 2)

/-- CTR.WR. [log 34 DESIGN CHOICE] -/
def jCtrWr (c : Cru) (t : Fin 256) (ra rb : Fin 32) (s : Chip) : Chip :=
  s.issue c t (wordR 0x3E 0 ra rb 3) false fun u => u.super c t (wordR 0x3E 0 ra rb 3) fun v =>
    if 6 < rb.val then v.illegal c t (wordR 0x3E 0 ra rb 3)
    else (v.ctrSet c (t / 8) rb ((v.thread c t).g ra)).next c t fun x => x

/-! ### TRAP, ERET, HALT, YIELD, FENCE (R232, R237, R241, R262) -/

/-- TRAP: EPC is the next instruction, TRAP_CODE the rb field (R243). -/
def jTrap (c : Cru) (t : Fin 256) (rb : Fin 32) (s : Chip) : Chip :=
  s.issue c t (wordR 0x3F 0 0 rb 0) false fun u => u.trap c t 8 (nextIp (u.thread c t).ip) 0 rb

/-- ERET. -/
def jEret (c : Cru) (t : Fin 256) (s : Chip) : Chip :=
  s.issue c t (wordR 0x3F 0 0 0 1) false fun u => u.super c t (wordR 0x3F 0 0 0 1) fun v => v.trapReturn c t

/-- HALT: held messages are released, and the thread is IDLE (R262). -/
def jHalt (c : Cru) (t : Fin 256) (s : Chip) : Chip :=
  s.issue c t (wordR 0x3F 0 0 0 2) false fun u =>
    (u.releaseHeld c t).next c t fun x => { x.endHandler with state := stIdle, wait := .none, stopReq := false }

/-- YIELD: the choice moves on to the next READY thread of equal priority, as it does after every instruction (R221). -/
def jYield (c : Cru) (t : Fin 256) (s : Chip) : Chip := s.issue c t (wordR 0x3F 0 0 0 3) false fun u => u.next c t fun x => x

/-- FENCE: stores and messages are visible when they are made, so the thread only waits (R232). -/
def jFence (c : Cru) (t : Fin 256) (s : Chip) : Chip := s.issue c t (wordR 0x3F 0 0 0 4) false fun u => (u.next c t fun x => x).pause c t .short

/-- SHORT_WAIT_DONE: a waiting short instruction completes (R222). -/
def shortWaitDone (c : Cru) (t : Fin 256) (s : Chip) : Chip :=
  if (s.thread c t).state = stWaiting ∧ (s.thread c t).wait = .short ∧ s.engineRuns c (t / 8) then s.ready c t else s

/-! ### Words that the list does not define (R236) -/

/-- ILLEGAL_INSTRUCTION: issue of a word that the list does not define (R236). [log 54 DEDUCED] -/
def illegalInstruction (c : Cru) (t : Fin 256) (word : BitVec 32) (s : Chip) : Chip :=
  if definedWord word then s else s.issue c t word false fun u => u.illegal c t word

end Sys2Proof.Machine
end

