-- ==== Sys2Proof/Machine/JarrilMem.lean ====
section
/-! DEFINITION. The engine address space, and the instructions that load, store and operate on memory (R225 to R233). -/
namespace Sys2Proof.Machine

/-- A place in the engine address space (R227): local data, instruction RAM, a crucible's store (through its own window or as a remote one), the ALLOC
window, a PLOAM post window, a device register. -/
inductive Region where
  | data (off : Nat)
  | iram (off : Nat)
  | own (off : Nat)
  | remote (c off : Nat)
  | alloc (off : Nat)
  | ploam (off : Nat)
  | device (off : Nat)
  deriving DecidableEq, Repr

/-- Whether an address lies in n bytes from a base, and where. -/
def within (base n a : Nat) : Option Nat := if base ≤ a && a < base + n then some (a - base) else none

/-- The region in which an address lies, with its offset and the bytes from it to the region's end (R227). -/
def regionOf (a : Nat) : Option (Region × Nat) :=
  match within 0 0x8000 a with
  | some o => some (.data o, 0x8000 - o)
  | none => match within 0x1000000 0x40000 a with
    | some o => some (.iram o, 0x40000 - o)
    | none => match within 0x2000000 0x400000 a with
      | some o => some (.own o, 0x400000 - o)
      | none => match within 0x100000000 0x21000000 a with
        | some o => if o % 0x1000000 < 0x400000 then some (.remote (o / 0x1000000) (o % 0x1000000), 0x400000 - o % 0x1000000) else none
        | none => match within 0x200000000 0x400000 a with
          | some o => some (.alloc o, 0x400000 - o)
          | none => match within 0x201000000 0x1000 a with
            | some o => some (.ploam o, 0x1000 - o)
            | none => (within 0x300000000 0x4000000 a).map fun o => (.device o, 0x4000000 - o)

/-- Whether a region may be accessed with a width, for a write or a read, in a mode; `rw` is CRU_CTRL.REMOTE_WR (R227). -/
def Region.permits (super rw write : Bool) (width : Nat) : Region → Bool
  | .data _ => true
  | .iram _ => (width = 4 || width = 8) && (super || !write)
  | .own _ => true
  | .remote _ _ => super || rw || !write
  | .alloc _ => width = 8 && (super || !write)
  | .ploam _ => false
  | .device _ => width = 8 && super

/-- Where an aligned access of a thread goes; none where it traps with ACCESS (R227). -/
def Chip.place (s : Chip) (c t a width : Nat) (write : Bool) : Option Region :=
  match regionOf a with
  | none => none
  | some (r, _) => if r.permits (s.thread c t).super (s.flag (Reg.CRU_CTRL c) 1) write width then some r else none

/-- The record of the ALLOC window at an offset: tree, wavelength, kind and index; none beyond the records (R228). [log 38 DESIGN CHOICE] -/
def allocPlace (off : Nat) : Option (Tree × Wl × Fin 4 × Fin 4096) :=
  let k := off / 0x8000 % 4
  let j := off % 0x8000 / 8
  let t := Fin.ofNat 32 (off / 0x20000)
  if k ≠ 1 then some (t, 0, Fin.ofNat 4 k, Fin.ofNat 4096 j)
  else if j < 2048 then some (t, Fin.ofNat 2 (j / 1024), 1, Fin.ofNat 4096 (j % 1024))
  else none

/-- What a record of the ALLOC window reads as; terminal records 1,020 to 1,023 read 0 (R228). [log 38 DESIGN CHOICE] -/
def Chip.allocRead (s : Chip) (off : Nat) : W64 :=
  match allocPlace off with
  | none => 0
  | some (t, w, k, i) => if k.val = 1 && 1019 < i.val then 0 else s.recValue t w k i

/-- The word of a region that W20 cannot correct where an access at its offset touches it. [log 37 DESIGN CHOICE, 166 DESIGN CHOICE] -/
def Chip.badPlace (s : Chip) (c : Nat) : Region → Bool
  | .iram o => s.mem.badIram.contains (c * 16384 + o / 16)
  | .own o => s.mem.badStore.contains (c * 262144 + o / 16)
  | .remote d o => s.mem.badStore.contains (d * 262144 + o / 16)
  | _ => false

/-- What a load of a thread reads, and the state after: a read of a device register has that read's effect (R226, R230). -/
def Chip.readPlace (s : Chip) (c t width : Nat) : Region → W64 × Chip
  | .data o => (w64 (numBE ((List.range width).map fun i => s.localByte c (t / 8) (o + i))), s)
  | .iram o => (w64 (numBE ((List.range width).map fun i => s.iramByte c (o + i))), s)
  | .own o => (w64 (numBE (s.readStore c o width)), s)
  | .remote d o => (w64 (numBE (s.readStore d o width)), s)
  | .alloc o => (s.allocRead o, s)
  | .ploam _ => (0, s)
  | .device o => s.busRead o

/-- A store of a thread (R226, R228, R230, R544). -/
def Chip.writePlace (s : Chip) (c : Cru) (t width : Nat) (v : W64) : Region → Chip
  | .data o => s.writeLocal c t o (bytesBE width v.toNat)
  | .iram o => s.writeIram c o (bytesBE width v.toNat)
  | .own o => s.storeBytes c o (bytesBE width v.toNat)
  | .remote d o => s.storeBytes d o (bytesBE width v.toNat)
  | .alloc o => match allocPlace o with
    | none => s
    | some (tr, w, k, i) => allocRecWrite tr w k i v s
  | .ploam _ => s
  | .device o => s.busWrite (.engine c) o .full v

/-- The events that an access counts: `atData` for local data (R275). -/
def Region.event (atData : Nat) : Region → Nat
  | .data _ => atData
  | .iram _ => 0
  | .own _ => 0x0E
  | .remote _ _ => 0x0F
  | .alloc _ => 0x10
  | .ploam _ => 0
  | .device _ => 0x10

/-- Whether a region is local data, whose loads take 3 cycles and whose stores pass no gate. -/
def Region.isData : Region → Bool
  | .data _ => true
  | _ => false

/-- An event counted in the thread's mode; code 0 counts nothing. -/
def Chip.count (s : Chip) (c t code : Nat) (n : Nat := 1) : Chip :=
  if code = 0 then s else s.countEvent c (t / 8) (s.thread c t).super code n

/-- The address of a load or store: ra + imm. -/
def Chip.addr (s : Chip) (c t ra : Nat) (imm : BitVec 16) : Nat := ((s.thread c t).g ra + sext imm).toNat

/-- An access at an address: ALIGN, then ACCESS, then the access itself (R227, R231). -/
def Chip.access (s : Chip) (c t a width : Nat) (write : Bool) (act : Region → Chip) : Chip :=
  if a % width ≠ 0 then s.trapHere c t 3 (w64 a)
  else match s.place c t a width write with
    | none => s.trapHere c t 4 (w64 a)
    | some r => act r

/-- A loaded value, extended to 64 bits. -/
def extended (width : Nat) (sign : Bool) (v : W64) : W64 := if sign then w64 (wrapInt 64 (signed (8 * width) v.toNat)) else v

/-- A load: from local data its result is there at once, from any other region the thread waits (R222, R227). [log 36 DEDUCED] -/
def Chip.load (s : Chip) (c t op rd ra : Nat) (imm : BitVec 16) (width : Nat) (sign : Bool) : Chip :=
  s.issue c t (wordI op rd ra imm) false fun u =>
    let a := u.addr c t ra imm
    u.access c t a width false fun r =>
      let v := u.count c t (r.event 0x0C)
      if r.isData then v.result c t rd (extended width sign (v.readPlace c t width r).1)
      else (v.next c t fun x => x).pause c t (.load rd a width sign)

/-- LOAD_DATA_RETURN: the data of a waiting load arrives; a word that W20 cannot correct leaves the thread FAULTED (see the log). [log 36 DEDUCED] -/
def loadDataReturn (c : Cru) (t : Fin 256) (s : Chip) : Chip :=
  let x := s.thread c t
  match x.wait with
  | .load rd a width sign =>
    if x.state ≠ stWaiting || !s.engineRuns c (t / 8) then s
    else match regionOf a with
      | none => s
      | some (r, _) =>
        if s.badPlace c r then s.faultThread c t
        else
          let q := s.readPlace c t width r
          (q.2.updThread c t fun y => y.setG rd (extended width sign q.1)).ready c t
  | _ => s

/-- A store of the low bytes of the rd-field register; all but those to local data pass the gate (R233, R237). -/
def Chip.storeInsn (s : Chip) (c : Cru) (t op rd ra : Nat) (imm : BitVec 16) (width : Nat) : Chip :=
  s.issue c t (wordI op rd ra imm) false fun u =>
    u.access c t (u.addr c t ra imm) width true fun r =>
      let v := u.count c t (r.event 0x0D)
      let v1 := if r.isData then v else v.count c t 0x38
      (v1.writePlace c t width ((u.thread c t).g rd) r).next c t fun x => x

def ldB (c : Cru) (t : Fin 256) (rd ra : Fin 32) (imm : BitVec 16) (s : Chip) : Chip := s.load c t 0x10 rd ra imm 1 false
def ldH (c : Cru) (t : Fin 256) (rd ra : Fin 32) (imm : BitVec 16) (s : Chip) : Chip := s.load c t 0x11 rd ra imm 2 false
def ldW (c : Cru) (t : Fin 256) (rd ra : Fin 32) (imm : BitVec 16) (s : Chip) : Chip := s.load c t 0x12 rd ra imm 4 false
def ldD (c : Cru) (t : Fin 256) (rd ra : Fin 32) (imm : BitVec 16) (s : Chip) : Chip := s.load c t 0x13 rd ra imm 8 false
def ldsB (c : Cru) (t : Fin 256) (rd ra : Fin 32) (imm : BitVec 16) (s : Chip) : Chip := s.load c t 0x14 rd ra imm 1 true
def ldsH (c : Cru) (t : Fin 256) (rd ra : Fin 32) (imm : BitVec 16) (s : Chip) : Chip := s.load c t 0x15 rd ra imm 2 true
def ldsW (c : Cru) (t : Fin 256) (rd ra : Fin 32) (imm : BitVec 16) (s : Chip) : Chip := s.load c t 0x16 rd ra imm 4 true
def stB (c : Cru) (t : Fin 256) (rd ra : Fin 32) (imm : BitVec 16) (s : Chip) : Chip := s.storeInsn c t 0x18 rd ra imm 1
def stH (c : Cru) (t : Fin 256) (rd ra : Fin 32) (imm : BitVec 16) (s : Chip) : Chip := s.storeInsn c t 0x19 rd ra imm 2
def stW (c : Cru) (t : Fin 256) (rd ra : Fin 32) (imm : BitVec 16) (s : Chip) : Chip := s.storeInsn c t 0x1A rd ra imm 4
def stD (c : Cru) (t : Fin 256) (rd ra : Fin 32) (imm : BitVec 16) (s : Chip) : Chip := s.storeInsn c t 0x1B rd ra imm 8

/-! ### AMO instructions (R233, R237) -/

/-- The crucible and offset of a place in a crucible store. -/
def Region.storePlace (c : Nat) : Region → Option (Nat × Nat)
  | .own o => some (c, o)
  | .remote d o => some (d, o)
  | _ => none

/-- An AMO instruction: the 8-byte word at ra becomes `f` of the old word, rb and rd, where f gives one, and rd receives the old word. Its output passes
the gate, and the thread waits for the answer. [log 39 DEDUCED] -/
def Chip.amo (s : Chip) (c : Cru) (t : Nat) (rd ra rb : Nat) (fn : Nat) (f : W64 → W64 → W64 → Option W64) : Chip :=
  s.issue c t (wordR 0x1C rd ra rb fn) false fun u =>
    let x := u.thread c t
    let a := (x.g ra).toNat
    u.access c t a 8 true fun r =>
      match r.storePlace c with
      | none => u.trapHere c t 4 (w64 a)
      | some (d, o) =>
        if u.badPlace c r then u.faultThread c t
        else
          let v := ((u.count c t (r.event 0)).count c t 0x11).count c t 0x38
          let out := BitVec.ofNat 8 (0x1C + fn <<< 6) :: (wordBytes (w64 a) ++ wordBytes (x.g rb) ++ wordBytes (x.g rd))
          let q := v.gatePass c t out fun z =>
            let old := w64 (numBE (z.readStore d o 8))
            (old, match f old (x.g rb) (x.g rd) with
              | some new => z.storeBytes d o (wordBytes new)
              | none => z)
          (q.2.result c t rd q.1).pause c t .short

/-- AMO.ADD. -/
def amoAdd (c : Cru) (t : Fin 256) (rd ra rb : Fin 32) (s : Chip) : Chip := s.amo c t rd ra rb 0 fun old b _ => some (old + b)
/-- AMO.SWAP. -/
def amoSwap (c : Cru) (t : Fin 256) (rd ra rb : Fin 32) (s : Chip) : Chip := s.amo c t rd ra rb 1 fun _ b _ => some b
/-- AMO.CAS. -/
def amoCas (c : Cru) (t : Fin 256) (rd ra rb : Fin 32) (s : Chip) : Chip :=
  s.amo c t rd ra rb 2 fun old b d => if old = d then some b else none

end Sys2Proof.Machine
end

