-- ==== Sys2Proof/Machine/JarrilLong.lean ====
section
/-! DEFINITION. What the long instructions on tables, messages, grant lists, TIME and keys do when their routines end (R237, R257 to R266, R270, R386, R470);
and TIME.READ, which is not microcoded. -/
namespace Sys2Proof.Machine

/-! ### Routines, blocks and statuses -/

/-- The tick at which the cycles of the words that a routine has run are over, two cycles to a tick (R58, R287). -/
def Routine.due (r : Routine) : Nat := r.since + ceilDiv r.cycles 2

/-- A long instruction complete but for the cycles of its last words (R287). -/
def Chip.done (s : Chip) (c t : Nat) (r : Routine) : Chip := s.pause c t (.last r.due)

/-- A status written to rd[7:0]; the register's other bits stay (see the log). [log 32 DESIGN CHOICE] -/
def Thread.setStatus (x : Thread) (rd st : Nat) : Thread := x.setG rd (setFld (x.g rd) 7 0 st)

/-- A long instruction complete with a status. -/
def Chip.answered (s : Chip) (c t : Nat) (r : Routine) (st : Nat) : Chip := (s.next c t fun x => x.setStatus r.rd st).done c t r

/-- The local-data offset of a 32-byte block at an address, or its trap: ALIGN, ACCESS (R243, R265, R386, R470). -/
def Chip.localBlock (s : Chip) (c t ra n : Nat) (act : Nat → Chip) : Chip :=
  let a := ((s.thread c t).g ra).toNat
  if a % 8 ≠ 0 then s.trapHere c t 3 (w64 a)
  else if 0x8000 < a + n then s.trapHere c t 4 (w64 a)
  else act a

/-- Word i of a block in local data. -/
def Chip.localWord (s : Chip) (c t off i : Nat) : W64 :=
  w64 (numBE ((List.range 8).map fun k => s.localByte c (t / 8) (off + 8 * i + k)))

/-- Word i of a block in local data written. -/
def Chip.setLocalWord (s : Chip) (c t off i : Nat) (v : W64) : Chip := s.writeLocal c t (off + 8 * i) (wordBytes v)

/-- Where n bytes from an address lie, if wholly in local data or the thread's own crucible store; the flag tells the store. -/
def bodyPlace (a n : Nat) : Option (Bool × Nat) :=
  match regionOf a with
  | some (.data o, room) => if n ≤ room then some (false, o) else none
  | some (.own o, room) => if n ≤ room then some (true, o) else none
  | _ => none

/-- Bytes of local data or the own store. -/
def Chip.bodyRead (s : Chip) (c t n : Nat) (at_ : Bool × Nat) : List Byte :=
  if at_.1 then s.readStore c at_.2 n else (List.range n).map fun i => s.localByte c (t / 8) (at_.2 + i)

/-- Bytes written to local data or the own store. -/
def Chip.bodyWrite (s : Chip) (c t : Nat) (at_ : Bool × Nat) (l : List Byte) : Chip :=
  if l.isEmpty then s else if at_.1 then s.storeBytes c at_.2 l else s.writeLocal c t at_.2 l

/-- Whether n bytes of the own store from an offset touch a word that W20 cannot correct. -/
def Chip.badBody (s : Chip) (c n : Nat) (at_ : Bool × Nat) : Bool :=
  at_.1 && n ≠ 0 && s.mem.badStore.any fun w =>
    decide (c * 262144 + at_.2 / 16 ≤ w) && decide (w ≤ c * 262144 + (at_.2 + n - 1) / 16)

/-! ### TBL instructions (R386, R387, R545) -/

/-- The table operation that FN selects. -/
def Chip.tblOp (s : Chip) (fn : Nat) (flags : Nat) (e : Entry) (fault : Bool) : TblAnswer :=
  match fn with
  | 0 => s.tblFind flags e fault
  | 1 => s.tblInsert flags e fault
  | 2 => s.tblDelete flags e fault
  | _ => s.tblAge flags e fault

/-- TBL.FIND, TBL.INS, TBL.DEL or TBL.AGE at its request block: BAD_REQ for a reserved encoding; word 3 of the block receives the entry's location, 0 where
there is none. An operation that writes passes the gate (R386, R387, R545). -/
def Chip.tblEnd (s : Chip) (c t : Nat) (r : Routine) : Chip :=
  s.localBlock c t r.ra 32 fun off =>
    let w0 := s.localWord c t off 0
    let w1 := s.localWord c t off 1
    let w2 := s.localWord c t off 2
    let e : Entry := BitVec.ofNat 128 (w1.toNat <<< 64 + w2.toNat)
    let q : Nat × Nat × Chip :=
      if fld w0 63 5 ≠ 0 then (5, 0, s)
      else if r.fn = 0 then
        let a := s.tblOp 0 (fld w0 4 0) e r.fault
        let s1 := match a.entry with
          | some x => (a.chip.setLocalWord c t off 1 (w64 (efld x 127 64))).setLocalWord c t off 2 (w64 (efld x 63 0))
          | none => a.chip
        (a.status, a.loc, if a.status = 0 then s1.count c t 0x15 else s1)
      else
        let out := BitVec.ofNat 8 r.fn :: wordsBytes [w0, w1, w2]
        let p := (s.count c t 0x3A).gatePass c t out fun u =>
          let a := u.tblOp r.fn (fld w0 4 0) e r.fault
          (w64 (a.status + a.loc <<< 8), a.chip)
        (fld p.1 7 0, fld p.1 63 8, p.2)
    let s2 := q.2.2.setLocalWord c t off 3 (w64 q.2.1)
    (if r.fn = 1 && q.1 ≠ 0 then s2.count c t 0x17 else s2).answered c t r q.1

/-- The place that a TBL.INS reserves for its entry: the free slot in which its insert would end, where its key is absent (R291). -/
def Chip.tblSpace (s : Chip) (c t : Nat) (r : Routine) : Option Nat :=
  let off := ((s.thread c t).g r.ra).toNat
  let w0 := s.localWord c t off 0
  let e : Entry := BitVec.ofNat 128 ((s.localWord c t off 1).toNat <<< 64 + (s.localWord c t off 2).toNat)
  let table := tblTable (fld w0 4 0)
  if off % 8 ≠ 0 || 0x8000 < off + 32 || (s.found table (entryKey table e) (tblExt (fld w0 4 0))).isSome then none
  else match s.insertSpace table 0 e with
    | some i => some (entryPlace table 0 i)
    | none => if tblExt (fld w0 4 0) && bit (s.tableCfg table) 36 then (s.insertSpace table 1 e).map (entryPlace table 1 ·) else none

/-! ### MSG.SEND (R257, R258, R264) -/

/-- The pipe that a crucible's injections enter: the one that serves its owned tree, or for the spare crucible and one that owns no tree the one named
(R45). Crucible 32 that owns a tree after a takeover keeps to the one named. [log 46 DEDUCED, 229 DESIGN CHOICE] -/
def Chip.injPipe (s : Chip) (c pipe : Nat) : Nat :=
  match (List.finRange 32).find? fun (t : Tree) => c ≠ 32 && s.owner t (s.pon.pond.get t).fc = c with
  | some t => t.val / 8
  | none => pipe

/-- A descriptor of length 0: the held slow-path frame it names is released, by any crucible, or by the owner alone where it lies in an injection region;
one that names neither such a frame nor a frame of the sender's region is counted (R434, R436). -/
def Chip.disposeFrame (s : Chip) (c addr : Nat) : Chip :=
  match s.tm.held.find? fun h => h.addr = addr && !h.disposed with
  | some h =>
    if (match h.frame.buf with | .region d => decide (d = c) | _ => true) = true then s.dropHeld addr true
    else (s.bump Reg.TM_BAD_RELEASE).raise Reg.TM_EVENT 3
  | none => if (s.tm.outstanding.get c).any (·.1 = addr) then s else (s.bump Reg.TM_BAD_RELEASE).raise Reg.TM_EVENT 3

/-- The frame that a descriptor injects: PRS begins it with the metadata of word 1 (R264, R321). -/
def Chip.injected (s : Chip) (addr len : Nat) (start : W64) (buf : BufKind) : PipeFrame :=
  { frameOf start (s.bufferRead addr len) (stampOf s.logical) with addr := addr, buf := buf }

/-- An injection: a held slow-path frame again, or a frame of the crucible's own region (R264, R433, R434). A descriptor that names any other address
puts nothing into a pipe (see the log). [log 44 DESIGN CHOICE, 45 DEDUCED] -/
def Chip.inject (s : Chip) (c : Nat) (w0 w1 : W64) : Chip :=
  let addr := fld w0 26 0
  let len := fld w0 45 32
  let half := 2 * s.injPipe c (fld w0 49 48)
  if len = 0 then s.disposeFrame c addr
  else if s.tm.held.any fun h => h.addr = addr && !h.disposed then
    (s.updTm fun t => { t with held := t.held.map fun h => if h.addr = addr then { h with disposed := true } else h }).enterPipe half
      (s.injected addr len w1 .held)
  else if s.inRegion c addr len then
    (s.updTm fun t => { t with outstanding := t.outstanding.upd c (· ++ [(addr, len)]) }).enterPipe half (s.injected addr len w1 (.region c))
  else s

/-- The status that a send would have, with no effect yet (R258); the queue's crucible is the one that serves. [log 43 DESIGN CHOICE] -/
def Chip.sendStatus (s : Chip) (ctl : W64) : Nat :=
  let len := fld ctl 45 32
  let dest := fld ctl 31 0
  let bad := len % 8 ≠ 0 || len = 0 || 8192 < len
  match bitsOf dest 31 30 with
  | 0 =>
    if 32 < bitsOf dest 5 0 then 3
    else match s.queueTry (s.redirect (bitsOf dest 5 0)) (bitsOf dest 15 6) len with
      | .closed => 4
      | st => if bad then 2 else st.code
  | 1 => if bad then 2 else if s.ringAccepts (bitsOf dest 11 0) len then 0 else 1
  | 2 => if len ≠ 16 then 2 else 0
  | _ => 3

/-- A message on its way once it has passed the gate. [log 42 DESIGN CHOICE] -/
def Chip.sendNow (s : Chip) (c t : Nat) (ctl : W64) (body : List Byte) : Chip :=
  let dest := fld ctl 31 0
  let source := c <<< 8 + t
  match bitsOf dest 31 30 with
  | 0 => s.queuePut (s.redirect (bitsOf dest 5 0)) (bitsOf dest 15 6) source body
  | 1 => s.ringPut (bitsOf dest 11 0) { kind := 2, word1 := w64 source, stamp := stampOf s.logical, data := body, length := body.length }
  | 2 => s.inject c (nth (bytesWords body) 0) (nth (bytesWords body) 1)
  | _ => s

/-- A refusal at a queue is counted there (R254, R258). -/
def Chip.countRefused (s : Chip) (ctl : W64) (status : Nat) : Chip :=
  let len := fld ctl 45 32
  let dest := fld ctl 31 0
  let bad := len % 8 ≠ 0 || len = 0 || 8192 < len
  if bitsOf dest 31 30 = 0 && (status = 1 || status = 4 || (status = 2 && !bad)) then
    s.queueDrop (s.redirect (bitsOf dest 5 0)) (bitsOf dest 15 6)
  else s

/-- The message that a MSG.SEND sends: where its body lies, and its control word; none where it traps (R257). -/
def Chip.sendBody (s : Chip) (c t : Nat) (r : Routine) : Option ((Bool × Nat) × W64) :=
  let a := ((s.thread c t).g r.ra).toNat
  let ctl := (s.thread c t).g r.rb
  if a % 8 ≠ 0 then none else (bodyPlace a (fld ctl 45 32)).map fun p => (p, ctl)

/-- The bytes by which the gate knows a message. -/
def Chip.sendOut (s : Chip) (c t : Nat) (p : Bool × Nat) (ctl : W64) : List Byte :=
  BitVec.ofNat 8 0x31 :: (wordBytes ctl ++ s.bodyRead c t (fld ctl 45 32) p)

/-- Whether a message is the output that the thread's replay expects next (R547). -/
def Chip.sendExpected (s : Chip) (c t : Nat) (p : Bool × Nat) (ctl : W64) : Bool :=
  match (s.thread c t).expected with
  | some e => decide (e.crc = crc32c 0xFFFFFFFF#32 (s.sendOut c t p ctl))
  | none => false

/-- Whether a MSG.SEND need not wait for space: it has reserved it, has a status other than FULL, has WAIT clear, traps, or is suppressed in a replay (R258,
R288, R547). -/
def Chip.sendReady (s : Chip) (c t : Nat) (r : Routine) : Bool :=
  match s.sendBody c t r with
  | none => true
  | some (p, ctl) => r.reserved != .none || s.sendStatus ctl ≠ 1 || !bit ctl 48 || s.sendExpected c t p ctl

/-- The slot that a MSG.SEND reserves at the queue that it names, where one is free (R291). -/
def Chip.sendSlot (s : Chip) (c t : Nat) (r : Routine) : Option (Nat × Nat × Nat) :=
  match s.sendBody c t r with
  | none => none
  | some (_, ctl) =>
    let dest := fld ctl 31 0
    let d := s.redirect (bitsOf dest 5 0)
    let q := bitsOf dest 15 6
    if bitsOf dest 31 30 ≠ 0 || s.sendStatus ctl ≠ 0 then none
    else (freeSlot (slotCount (s.queueCfg d q)) (s.msgs.queues.get (d * 1024 + q)).busy (s.msgs.queues.get (d * 1024 + q)).next).map fun k => (d, q, k)

/-- MSG.SEND: its message passes the gate, or it ends with the status for which nothing is sent; in a replay the output that the record expects next is
suppressed whatever the queue holds (R257, R258, R545, R547). -/
def Chip.sendEnd (s : Chip) (c t : Nat) (r : Routine) : Chip :=
  let a := ((s.thread c t).g r.ra).toNat
  match s.sendBody c t r with
  | none => s.trapHere c t (if a % 8 ≠ 0 then 3 else 4) (w64 a)
  | some (p, ctl) =>
    if s.badBody c (fld ctl 45 32) p then s.faultThread c t
    else
      let status := s.sendStatus ctl
      if status = 0 || s.sendExpected c t p ctl then
        let q := (s.count c t 0x39).gatePass c t (s.sendOut c t p ctl) fun u => (0, u.sendNow c t ctl (s.bodyRead c t (fld ctl 45 32) p))
        q.2.answered c t r (fld q.1 7 0)
      else ((s.countRefused ctl status).count c t 0x1C).answered c t r status

/-! ### MSG.WAIT, MSG.POLL, MSG.DONE (R259 to R263, R543) -/

/-- The queues of a crucible that hold messages, with what they hold. -/
def Chip.waitingQueues (s : Chip) (c : Nat) : List (Nat × MsgQueue) :=
  (List.range 1024).filterMap fun q =>
    let mq := s.msgs.queues.get (c * 1024 + q)
    if mq.items.isEmpty then none else some (q, mq)

/-- Whether a selector names a queue, or the group that it belongs to (R253, R259). [log 264 DESIGN CHOICE] -/
def Chip.selects (s : Chip) (c : Nat) (sel : W64) (q : Nat) : Bool :=
  if bit sel 15 then fld sel 5 0 = fld (s.queueCfg c q) 28 23 else fld sel 9 0 = q

/-- The queue among those a selector names that holds the oldest message, with that message; of each queue the first `taken` messages belong to others. -/
def Chip.oldestFor (s : Chip) (c : Nat) (sel : W64) (taken : Nat → Nat) : Option (Nat × QMsg) :=
  (s.waitingQueues c).foldl (fun (best : Option (Nat × QMsg)) e =>
    if !s.selects c sel e.1 then best
    else match (e.2.items.drop (taken e.1)).head?, best with
      | some m, some b => if m.seq < b.2.seq then some (e.1, m) else some b
      | some m, none => some (e.1, m)
      | none, b => b) none

/-- The selector of the MSG.WAIT in which a thread waits. -/
def Thread.waitsFor (x : Thread) : Option W64 :=
  match x.wait with
  | .routine r => if x.state = stWaiting && r.op = 0x31 && r.fn = 1 then some (x.g r.ra) else none
  | _ => none

/-- The threads of a crucible that wait in MSG.WAIT, those that have waited longest first. -/
def Chip.waiters (s : Chip) (c : Nat) : List Nat :=
  ((List.range 256).filter fun t => (s.thread c t).waitsFor.isSome).foldr (fun t l =>
    let before := fun u => decide ((s.thread c u).waitSeq < (s.thread c t).waitSeq)
    l.takeWhile before ++ t :: l.dropWhile before) []

/-- The messages that waiting threads are due, each with its thread and queue: every message goes to the thread that has waited longest for its queue or a
group that contains it (R260). -/
def Chip.claims (s : Chip) (c : Nat) : List (Nat × Nat × QMsg) :=
  (s.waiters c).foldl (fun l t =>
    match (s.thread c t).waitsFor with
    | none => l
    | some sel => match s.oldestFor c sel fun q => l.countP fun e => e.2.1 = q with
      | some m => l ++ [(t, m)]
      | none => l) []

/-- The message that a waiting thread is due. -/
def Chip.claim (s : Chip) (c t : Nat) : Option (Nat × QMsg) := ((s.claims c).find? fun e => e.1 = t).map (·.2)

/-- The descriptor of a delivered message (R261). -/
def Chip.descriptor (s : Chip) (c q : Nat) (m : QMsg) : W64 :=
  w64 (slotOffset (s.queueCfg c q) m.slot % 4194304 + m.len <<< 22 + q <<< 36 + m.source <<< 48)

/-- A message delivered to a thread: its slot stays occupied while the thread holds it, and rd describes it (R261, R262). -/
def Chip.deliver (s : Chip) (c t rd q : Nat) (m : QMsg) : Chip :=
  let k := c * 1024 + q
  let d := s.descriptor c q m
  let mq := s.msgs.queues.get k
  let s1 : Chip :=
    { s with msgs := { s.msgs with queues := s.msgs.queues.set k { mq with items := mq.items.eraseP (·.seq = m.seq), held := mq.held ++ [m.slot] } } }
  (s1.count c t 0x1D).next c t fun x => { x.setG rd d with held := x.held ++ [{ queue := q, msg := m }] }

/-- MSG.WAIT begins: held messages are released in a commit of its own, before the thread waits (R251, R262). -/
def Chip.waitBegin (s : Chip) (c t : Nat) : Chip :=
  let (n, v) := (s.releaseHeld c t).nextSeq
  v.updThread c t fun x => { x.endHandler with waitSeq := n }

/-- MSG.WAIT takes the message that it is due, which begins a handler (R259, R260, R543). -/
def Chip.waitEnd (s : Chip) (c t : Nat) (r : Routine) (m : Nat × QMsg) : Chip :=
  ((s.deliver c t r.rd m.1 m.2).updThread c t Thread.beginHandler).done c t r

/-- MSG.POLL: a message if one is there that no waiting thread is due; a thread that holds four takes none (R259, R260, R263). -/
def Chip.pollEnd (s : Chip) (c t : Nat) (r : Routine) : Chip :=
  let x := s.thread c t
  let m := if 4 ≤ x.held.length then none else s.oldestFor c (x.g r.ra) fun q => (s.claims c).countP fun e => e.2.1 = q
  match m with
  | none => (s.result c t r.rd 0).done c t r
  | some (q, m) => (s.deliver c t r.rd q m).done c t r

/-- MSG.DONE: held messages are released, and a new handler begins (R262, R543). -/
def Chip.doneEnd (s : Chip) (c t : Nat) (r : Routine) : Chip :=
  (((s.releaseHeld c t).next c t fun x => x).updThread c t Thread.beginHandler).done c t r

/-! ### GRANT.FILL (R270, R271) -/

/-- A GRANT.FILL: the list's offset in the own crucible store, the control word of R270, and the number of entries. -/
structure FillCall where
  off : Nat
  ctl : W64

def FillCall.n (x : FillCall) : Nat := fld x.ctl 26 16
def FillCall.tree (x : FillCall) : Tree := Fin.ofNat 32 (fld x.ctl 4 0)
def FillCall.wl (x : FillCall) : Wl := Fin.ofNat 2 (fld x.ctl 5 5)
def FillCall.shadow (x : FillCall) : Bool := bit x.ctl 6
def FillCall.frame (x : FillCall) : Nat := fld x.ctl 63 32

/-- Bytes of the list; a list that ALLOC refuses for its length is looked at no further than its first word. -/
def FillCall.size (x : FillCall) : Nat := if x.n = 0 || 1024 < x.n then 8 else 8 * x.n

/-- The GRANT.FILL of a routine, or the trap with which it ends: ALIGN or ACCESS (R243, R270). -/
def Chip.fillCall (s : Chip) (c t : Nat) (r : Routine) : Except Nat FillCall :=
  let a := ((s.thread c t).g r.ra).toNat
  let ctl := (s.thread c t).g r.rb
  if a % 8 ≠ 0 then .error 3
  else match regionOf a with
    | some (.own o, room) => if ({ off := o, ctl := ctl } : FillCall).size ≤ room then .ok { off := o, ctl := ctl } else .error 4
    | _ => .error 4

/-- The entries that ALLOC has accepted before: PROG counts them above 64 entries (R249, R271). -/
def Chip.fillProg (s : Chip) (c t : Nat) (x : FillCall) : Nat := if 64 < x.n then (s.thread c t).prog.toNat else 0

/-- Entries from place i to place j of the list accepted by ALLOC; the first begins the map (R271, R547). -/
def Chip.fillAccept (s : Chip) (c t : Nat) (x : FillCall) (i j : Nat) : Chip :=
  let n := (s.fillStatus c x.tree x.shadow x.frame x.n).2
  let list := ((List.range j).drop i).map fun k => w64 (numBE (s.readStore c (x.off + 8 * k) 8))
  ((s.fillEntries x.tree x.wl x.shadow n (i = 0) list).count c t 0x25 (j - i)).count c t 0x3B (j - i)

/-- One unit of a GRANT.FILL of more than 64 entries: ALLOC accepts the next entry, which PROG then counts. One that ALLOC refuses makes none (R147, R271). -/
def Chip.fillUnit (s : Chip) (c t : Nat) (r : Routine) : Chip :=
  match s.fillCall c t r with
  | .error _ => s
  | .ok x =>
    let p := s.fillProg c t x
    if x.n ≤ 64 || x.n ≤ p || s.badBody c x.size (true, x.off) || (s.fillStatus c x.tree x.shadow x.frame x.n).1 ≠ fillOk then s
    else (s.fillAccept c t x p (p + 1)).updThread c t fun y => { y with prog := w64 (p + 1) }

/-- GRANT.FILL ends: the entries that are left are accepted and the map is complete, or ALLOC's status tells why not (R147, R270, R271). -/
def Chip.fillEnd (s : Chip) (c t : Nat) (r : Routine) : Chip :=
  match s.fillCall c t r with
  | .error k => s.trapHere c t k ((s.thread c t).g r.ra)
  | .ok x =>
    if s.badBody c x.size (true, x.off) then s.faultThread c t
    else
      let st := s.fillStatus c x.tree x.shadow x.frame x.n
      let u := if st.1 = fillOk then s.fillAccept c t x (s.fillProg c t x) x.n else s
      let q := grantFill x.tree x.wl x.shadow st u
      let v := if st.1 = fillOk then q else q.count c t 0x26
      (if 64 < x.n then v.updThread c t fun y => { y with prog := 0 } else v).answered c t r st.1

/-! ### TIME (R237, R265, R266, R505 to R507) -/

/-- TIME.READ: rd must be even and not g0 (R237). It uses no control store (R284). [log 32 DESIGN CHOICE, 57 DESIGN CHOICE] -/
def jTimeRead (c : Cru) (t : Fin 256) (rd : Fin 32) (s : Chip) : Chip :=
  s.issue c t (wordR 0x34 rd 0 0 0) false fun u0 =>
    if rd.val = 0 || rd.val % 2 = 1 then u0.illegal c t (wordR 0x34 rd 0 0 0)
    else
      let u := u0.count c t 0x27
      let l := u.logical
      (u.next c t fun x => (x.setG rd (w64 (nsOf l))).setG (rd + 1) (setFld (x.g (rd + 1)) 15 0 (fracOf l))).pause c t .short

/-- TIME.READ.FRC. -/
def jTimeReadFrc (c : Cru) (t : Fin 256) (rd : Fin 32) (s : Chip) : Chip :=
  s.issue c t (wordR 0x34 rd 0 0 1) false fun u => (u.result c t rd (w64 u.frc)).pause c t .short

/-- Whether a trigger request is BAD_TARGET: a crucible above 32, or a reserved encoding in word 3 (R266, R506). -/
def badTarget (w2 w3 : W64) : Bool :=
  32 < fld w2 5 0 || fld w3 63 56 ≠ 0 || (fld w3 39 0 ≠ 0 && fld w3 39 0 < 1000)

/-- The trigger that a request arms, in a slot of a generation (R265, R506). -/
def armedTrigger (gen : Nat) (w0 w1 w2 w3 : W64) : Trigger :=
  { armed := true, gen := gen, crucible := fld w2 5 0, thread := fld w2 13 6, entry := fld w2 31 16, tag := w1.toNat, next := w0.toNat,
    period := fld w3 39 0, remaining := if fld w3 39 0 = 0 then 1 else fld w3 55 40 }

/-- TIME.ARM: BAD_TARGET, PAST, NO_SLOT in that order, else the trigger is armed and its handle is in rd[47:32] (R266, R505, R507).
[log 32 DESIGN CHOICE, 52 DESIGN CHOICE] -/
def Chip.armEnd (s : Chip) (c t : Nat) (r : Routine) : Chip :=
  s.localBlock c t r.ra 32 fun off =>
    let w0 := s.localWord c t off 0
    let w2 := s.localWord c t off 2
    let w3 := s.localWord c t off 3
    let free := s.freeTriggers
    if badTarget w2 w3 then s.answered c t r 3
    else if w0.toNat * ns1 ≤ s.logical then s.answered c t r 2
    else if free.isEmpty then s.answered c t r 1
    else
      let (i, v) := s.tick
      let k := nth free (Config.triggerSlot i % free.length)
      let g := (v.time.trig.get k).gen
      ((v.setTrigger k (armedTrigger g w0 (s.localWord c t off 1) w2 w3)).updThread c t fun x =>
        x.setG r.rd (setFld (x.g r.rd) 47 32 (k + g <<< 8))).answered c t r 0

/-! ### The key service (R470 to R472) -/

/-- The operation that a request block names, as CRYPT.KD (OP 0 to 3) or CRYPT.WRAP (4 to 8) carries it out; an OP of the other instruction or of
neither is BAD_REQ (R471). [log 53 DEDUCED] -/
def Chip.keyOp (s : Chip) (wrap : Bool) (w0 w1 : W64) (data : List Nat) : KeyAnswer :=
  match wrap, fld w0 3 0 with
  | false, 0 => opDerive w0 w1 s
  | false, 1 => opCmacDerive w0 w1 data s
  | false, 2 => opMic w0 data s
  | false, 3 => opErase w0 s
  | true, 4 => opUnwrap w0 w1 data s
  | true, 5 => opEcbImport w0 w1 data s
  | true, 6 => opWrapOut w0 s
  | true, 7 => opStateSave w0 s
  | true, 8 => opStateRestore w0 data s
  | _, _ => (1, [], s)

/-- Whether an operation reads DATA (R471). -/
def readsData (op : Nat) : Bool := op = 1 || op = 2 || op = 4 || op = 5 || op = 8

/-- CRYPT.KD or CRYPT.WRAP: DATA and OUT lie in local data or the own crucible store; the length of what is written to OUT goes to word 3. The block's OP
decides, whatever command issues the instruction (R470, R471). [log 53 DEDUCED] -/
def Chip.cryptEnd (s : Chip) (c t : Nat) (r : Routine) : Chip :=
  s.localBlock c t r.ra 32 fun off =>
    let w0 := s.localWord c t off 0
    let w2 := s.localWord c t off 2
    let w3 := s.localWord c t off 3
    let n := if readsData (fld w0 3 0) then fld w2 47 32 else 0
    match bodyPlace (fld w2 31 0) n with
    | none => if n = 0 then run off w0 w3 [] else s.trapHere c t 4 (w64 (fld w2 31 0))
    | some p => if s.badBody c n p then s.faultThread c t else run off w0 w3 (natsOf (s.bodyRead c t n p))
where
  /-- The operation on its data, and what it writes. -/
  run (off : Nat) (w0 w3 : W64) (data : List Nat) : Chip :=
    let q := s.keyOp (r.fn = 1) w0 (s.localWord c t off 1) data
    if q.2.1.isEmpty then q.2.2.answered c t r q.1
    else match bodyPlace (fld w3 31 0) q.2.1.length with
      | none => s.trapHere c t 4 (w64 (fld w3 31 0))
      | some p =>
        ((q.2.2.bodyWrite c t p (bytesOf q.2.1)).setLocalWord c t off 3 (setFld w3 47 32 q.2.1.length)).answered c t r q.1

end Sys2Proof.Machine
end

