-- ==== Sys2Proof/Machine/JarrilBlk.lean ====
section
/-! DEFINITION. BLK.COPY and BLK.FILL (R229, R237 to R239, R249). -/
namespace Sys2Proof.Machine

/-- Where a block begins: a place of the engine address space, DDR5, or the packet buffer (R238). -/
inductive Spot where
  | engine (r : Region)
  | ddr (off : Nat)
  | buffer (off : Nat)
  deriving DecidableEq, Repr

/-- What the checks before the first unit find of a block: its place, ACCESS, or BLK_FAULT (R227, R229, R238). -/
inductive BlockCheck where
  | at_ (p : Spot)
  | access
  | fault
  deriving DecidableEq, Repr

/-- A region's place n bytes further on. -/
def Region.plus (n : Nat) : Region → Region
  | .data o => .data (o + n)
  | .iram o => .iram (o + n)
  | .own o => .own (o + n)
  | .remote c o => .remote c (o + n)
  | .alloc o => .alloc (o + n)
  | .ploam o => .ploam (o + n)
  | .device o => .device (o + n)

/-- A place n bytes further on. -/
def Spot.plus (n : Nat) : Spot → Spot
  | .engine r => .engine (r.plus n)
  | .ddr o => .ddr (o + n)
  | .buffer o => .buffer (o + n)

/-- Whether BLK may address a region in a mode, with places and lengths that are multiples of `unit`: instruction RAM takes accesses of 4 bytes, the ALLOC
window and device registers of 8, and a PLOAM post window is only BLK.COPY's destination in supervisor mode with its rules (R227, R229). [log 48 DEDUCED] -/
def Region.blockOk (super rw write post : Bool) (unit : Nat) : Region → Bool
  | .ploam o => post && super && o % 64 = 0
  | .iram o => unit % 4 = 0 && o % 4 = 0 && (Region.iram o).permits super rw write 8
  | .alloc o => unit % 8 = 0 && o % 8 = 0 && (Region.alloc o).permits super rw write 8
  | .device o => unit % 8 = 0 && o % 8 = 0 && (Region.device o).permits super rw write 8
  | r => r.permits super rw write 8

/-- The check of a block of n bytes; `post` allows a PLOAM post window, and `unit` divides every place and length of the transfer beside the block's own place. A
block that leaves its space is a BLK_FAULT, one that the mode or the widths of its region do not permit ACCESS (R227, R229, R238). [log 48 DEDUCED] -/
def Chip.blockCheck (s : Chip) (c t : Nat) (addr : W64) (n : Nat) (write post : Bool) (unit : Nat) : BlockCheck :=
  let off := fld addr 59 0
  match fld addr 63 60 with
  | 0 => match regionOf off with
    | none => .fault
    | some (r, room) =>
      if room < n then .fault
      else if r.blockOk (s.thread c t).super (s.flag (Reg.CRU_CTRL c) 1) write post unit then .at_ (.engine r)
      else .access
  | 1 => if s.ddrHas off n then .at_ (.ddr off) else .fault
  | 2 => if off + n ≤ 134217728 then .at_ (.buffer off) else .fault
  | _ => .fault

/-- The 8-byte words of n bytes of device registers, each read with its effect (R226, R227). -/
def Chip.deviceRead (s : Chip) (o : Nat) : Nat → List Byte × Chip
  | 0 => ([], s)
  | k + 1 =>
    let r := s.busRead o
    let q := r.2.deviceRead (o + 8) k
    (wordBytes r.1 ++ q.1, q.2)

/-- n bytes at a place, and the state after they are read. -/
def Chip.spotRead (s : Chip) (c t n : Nat) : Spot → List Byte × Chip
  | .engine (.data o) => ((List.range n).map fun i => s.localByte c (t / 8) (o + i), s)
  | .engine (.iram o) => ((List.range n).map fun i => s.iramByte c (o + i), s)
  | .engine (.own o) => (s.readStore c o n, s)
  | .engine (.remote d o) => (s.readStore d o n, s)
  | .engine (.alloc o) => (wordsBytes ((List.range (n / 8)).map fun i => s.allocRead (o + 8 * i)), s)
  | .engine (.device o) => s.deviceRead o (n / 8)
  | .engine (.ploam _) => (List.replicate n 0, s)
  | .ddr o => (s.ddrRead o n, s)
  | .buffer o => (s.bufferRead o n, s)

/-- Whether n bytes at a place cannot be corrected (R239, R572). -/
def Chip.spotBad (s : Chip) (c n : Nat) : Spot → Bool
  | .engine (.iram o) => meets s.mem.badIram (c * 16384) o
  | .engine (.own o) => meets s.mem.badStore (c * 262144) o
  | .engine (.remote d o) => meets s.mem.badStore (d * 262144) o
  | .engine _ => false
  | .ddr o => s.poisoned o n
  | .buffer _ => false
where
  /-- Whether one of a list of 16-byte words lies in the n bytes. -/
  meets (l : List Nat) (base o : Nat) : Bool := l.any fun w => decide (base + o / 16 ≤ w) && decide (w ≤ base + (o + n - 1) / 16)

/-- A unit written at a place, word by word where the region takes 8-byte accesses alone; one to a PLOAM post window posts an entry (R227 to R229). -/
def Chip.spotWrite (s : Chip) (c : Cru) (t : Nat) (l : List Byte) : Spot → Chip
  | .engine (.data o) => s.writeLocal c t o l
  | .engine (.iram o) => s.writeIram c o l
  | .engine (.own o) => s.storeBytes c o l
  | .engine (.remote d o) => s.storeBytes d o l
  | .engine (.ploam o) => s.ploamPost (Fin.ofNat 32 (o / 128)) (Fin.ofNat 2 (o / 64)) l
  | .engine r =>
    ((bytesWords l).zip (List.range (l.length / 8))).foldl (fun u (p : W64 × Nat) => u.writePlace c t 8 p.1 (r.plus (8 * p.2))) s
  | .ddr o => s.ddrWrite o l
  | .buffer o => s.bufferWrite o l

/-- What a unit counts: a unit, one to DDR5, one from DDR5, one in the packet buffer (R275). -/
def Chip.countUnit (s : Chip) (c t code : Nat) (src : Option Spot) (dst : Spot) : Chip :=
  let isDdr := fun (p : Spot) => match p with | .ddr _ => true | _ => false
  let isBuf := fun (p : Spot) => match p with | .buffer _ => true | _ => false
  let s1 := s.count c t code
  let s2 := if isDdr dst then s1.count c t 0x21 else s1
  let s3 := if src.any isDdr then s2.count c t 0x22 else s2
  if isBuf dst || src.any isBuf then s3.count c t 0x23 else s3

/-- A block transfer: the event of its units, its source (none: a fill) with its block address, the fill value, the destination with its block offset, and the
length. -/
structure Transfer where
  code : Nat
  src : Option Spot
  srcAddr : W64
  fill : W64
  dst : Spot
  dstOff : Nat
  len : Nat

/-- The transfer of a BLK.COPY (FN 0: rd is the destination, ra the source, rb the length) or BLK.FILL (ra is the fill value), or the trap that comes before its
first unit. A copy to a PLOAM post window has length 64 and a 64-byte-aligned source (R229, R237, R238). [log 47 DESIGN CHOICE] -/
def Chip.transfer (s : Chip) (c t : Nat) (r : Routine) : Except (Nat × W64) Transfer :=
  let x := s.thread c t
  let len := (x.g r.rb).toNat
  let off := fun n => fld (x.g n) 59 0
  let dst : Bool → Nat → Except (Nat × W64) Spot := fun post unit => match s.blockCheck c t (x.g r.rd) len true post unit with
    | .fault => .error (6, x.g r.rd)
    | .access => .error (4, w64 (off r.rd))
    | .at_ q => .ok q
  if r.fn = 1 then
    (dst false len).map fun q => { code := 0x20, src := none, srcAddr := 0, fill := x.g r.ra, dst := q, dstOff := off r.rd, len := len }
  else match s.blockCheck c t (x.g r.ra) len false false (Nat.gcd len (off r.rd)) with
    | .fault => .error (6, x.g r.ra)
    | .access => .error (4, w64 (off r.ra))
    | .at_ p => (dst (len = 64 && off r.ra % 64 = 0) (Nat.gcd len (off r.ra))).map fun q =>
      { code := 0x1F, src := some p, srcAddr := x.g r.ra, fill := 0, dst := q, dstOff := off r.rd, len := len }

/-- The bytes of the unit of n bytes at byte p: the source's, or the fill value's, which repeats from the start of the destination. [log 47 DESIGN CHOICE] -/
def Chip.unitBytes (s : Chip) (c t : Nat) (x : Transfer) (p n : Nat) : List Byte × Chip :=
  match x.src with
  | some a => s.spotRead c t n (a.plus p)
  | none => ((List.range n).map fun i => nth (wordBytes x.fill) ((p + i) % 8), s)

/-- The length of the unit at byte p: the longest run that crosses no 64-byte boundary of the destination (R238). -/
def Transfer.unit (x : Transfer) (p : Nat) : Nat := min (64 - (x.dstOff + p) % 64) (x.len - p)

/-- One unit of a transfer, from the byte to which PROG counts: PROG counts it in; where its source cannot be corrected it traps with BLK_FAULT and is not written,
and the answer is false (R238, R239, R249). -/
def Chip.blkUnit (s : Chip) (c : Cru) (t : Nat) (x : Transfer) (bad : Bool) : Bool × Chip :=
  let p := (s.thread c t).prog.toNat
  let n := x.unit p
  if x.src.isSome && (bad || x.src.any fun a => s.spotBad c n (a.plus p)) then (false, s.trapHere c t 6 (w64 (x.srcAddr.toNat + p)))
  else
    let q := s.unitBytes c t x p n
    (true, ((q.2.spotWrite c t q.1 (x.dst.plus p)).countUnit c t x.code x.src x.dst).updThread c t fun y => { y with prog := w64 (p + n) })

/-- At most so many units, up to the transfer's end; false where one traps. -/
def Chip.blkUnits (s : Chip) (c : Cru) (t : Nat) (x : Transfer) : (units : Nat) → (bad : Option Nat) → Bool × Chip
  | 0, _ => (true, s)
  | k + 1, bad =>
    if x.len ≤ (s.thread c t).prog.toNat then (true, s)
    else
      let u := s.blkUnit c t x (bad = some 0)
      if u.1 then u.2.blkUnits c t x k (bad.bind fun b => if b = 0 then none else some (b - 1)) else u

/-- A BLK instruction ends: the units that are left are made, and PROG is 0 (R249). -/
def Chip.blkEnd (s : Chip) (c : Cru) (t : Nat) (r : Routine) : Chip :=
  match s.transfer c t r with
  | .error e => s.trapHere c t e.1 e.2
  | .ok x =>
    let u := s.blkUnits c t x x.len r.badUnit
    if u.1 then (u.2.next c t fun y => { y with prog := 0 }).done c t r else u.2

end Sys2Proof.Machine
end

