-- ==== Sys2Proof/Machine/JarrilRun.lean ====
section
/-! DEFINITION. The routines of the long instructions: the control-store words that carry one out, its prepare and commit phases, what it waits for and what it
reserves (R282 to R294); the long instructions, and the commands that end their waits. -/
namespace Sys2Proof.Machine

/-! ### What a routine does (R237, R290, R293) -/

/-- The control-store word at which a long instruction's routine begins (R284). -/
def dispatchWord (op fn : Nat) : Nat := (op - 0x30) * 32 + fn

/-- Whether a long instruction traps with PRIV in program mode, before its routine begins (R237). -/
def longSuper (op fn : Nat) : Bool := (op = 0x30 && fn ≠ 0) || op = 0x35

/-- Whether a long instruction is restartable: the block transfers, and GRANT.FILL above 64 entries (R237, R271). -/
def Chip.restartable (s : Chip) (c t : Nat) (r : Routine) : Bool :=
  r.op = 0x32 || (r.op = 0x33 && decide (64 < fld ((s.thread c t).g r.rb) 26 16))

/-- The event that a long instruction counts as it begins (R275). -/
def longEvent (op fn : Nat) : Nat :=
  match op, fn with
  | 0x30, 0 => 0x14
  | 0x30, 1 => 0x16
  | 0x30, 2 => 0x18
  | 0x30, 3 => 0x19
  | 0x31, 0 => 0x1B
  | 0x34, 2 => 0x28
  | 0x35, 0 => 0x2B
  | 0x35, 1 => 0x2C
  | _, _ => 0

/-- Whether a long instruction need not wait before its commit phase: a MSG.SEND has space, a MSG.WAIT is due a message (R251, R258, R259). -/
def Chip.longReady (s : Chip) (c t : Nat) (r : Routine) : Bool :=
  match r.op, r.fn with
  | 0x31, 0 => s.sendReady c t r
  | 0x31, 1 => (s.claim c t).isSome
  | _, _ => true

/-- A reservation made as a WAIT ends: a MSG.SEND's queue slot, a TBL.INS's table entry (R288, R291). [log 248 DESIGN CHOICE] -/
def Chip.reserve (s : Chip) (c t code : Nat) (r : Routine) : Routine × Chip :=
  if r.reserved ≠ .none then (r, s)
  else match code, r.op, r.fn with
    | 4, 0x31, 0 => match s.sendSlot c t r with
      | some (d, q, k) => ({ r with reserved := .slot d q k },
          { s with msgs := { s.msgs with queues := s.msgs.queues.upd (d * 1024 + q) fun x => { x with reserved := k :: x.reserved } } })
      | none => (r, s)
    | 3, 0x30, 1 => match s.tblSpace c t r with
      | some p => ({ r with reserved := .entry p }, s.updFwd fun f => { f with reserved := p :: f.reserved })
      | none => (r, s)
    | _, _, _ => (r, s)

/-- A unit of a restartable instruction; none where it traps, which ends the routine (R239, R249, R271, R293). -/
def Chip.longUnit (s : Chip) (c : Cru) (t : Nat) (r : Routine) : Option Routine × Chip :=
  match r.op with
  | 0x32 => match s.transfer c t r with
    | .error e => (none, s.trapHere c t e.1 e.2)
    | .ok x =>
      let u := s.blkUnits c t x 1 r.badUnit
      (if u.1 then some { r with badUnit := r.badUnit.map (· - 1) } else none, u.2)
  | 0x33 => (some r, s.fillUnit c t r)
  | _ => (some r, s)

/-- A routine ends: the instruction completes, or traps for what it meets at its operands. Its reservations are used (R237, R291, R293). [log 40 DESIGN CHOICE] -/
def Chip.longFinish (s0 : Chip) (c : Cru) (t : Nat) (r : Routine) : Chip :=
  let s := s0.unreserve r.reserved
  match r.op, r.fn with
  | 0x30, _ => s.tblEnd c t r
  | 0x31, 0 => s.sendEnd c t r
  | 0x31, 1 => match s.claim c t with
    | some m => s.waitEnd c t r m
    | none => s
  | 0x31, 2 => s.doneEnd c t r
  | 0x31, _ => s.pollEnd c t r
  | 0x32, _ => s.blkEnd c t r
  | 0x33, _ => s.fillEnd c t r
  | 0x34, _ => s.armEnd c t r
  | _, _ => s.cryptEnd c t r

/-! ### Words (R286 to R289, R293) -/

/-- A thread held at a word of its routine; other threads issue in the meantime (R289). -/
def Chip.hold (s : Chip) (c t : Nat) (r : Routine) : Chip := s.pause c t (.routine r)

/-- A word's WAIT: none where it holds the thread, else the waits that may still end at once and the routine with what it has reserved. A wait for a queue's
slot or for a message ends where there is one, any other where the command says so; a word that begins a commit phase, or ends the instruction without one, waits
in the same way (R287, R288, R290). [log 40 DESIGN CHOICE] -/
def Chip.microWait (s : Chip) (c t : Nat) (w : BitVec 128) (pass : Nat) (r : Routine) : Option (Nat × Routine × Chip) :=
  let code := uf w 42 37
  let go := fun (n : Nat) => let q := s.reserve c t code r; some (n, { q.1 with waiting := false }, q.2)
  if code = 0 then if (uf w 45 45 = 1 || uf w 15 14 = 2) && !s.longReady c t r then none else go pass
  else if code = 4 || code = 5 then if s.longReady c t r then go pass else none
  else if pass = 0 then none else go (pass - 1)

/-- What a word does in its last cycle, and the word that follows: none where the routine is over (R286, R287, R293). [log 244 DESIGN CHOICE] -/
def Chip.microAct (s : Chip) (c : Cru) (t : Nat) (w : BitVec 128) (r0 : Routine) : Option Routine × Chip :=
  let r := { r0 with commit := r0.commit || uf w 45 45 = 1 }
  let u := if uf w 46 46 = 1 then s.longUnit c t { r with commit := false } else (some r, s)
  match u.1 with
  | none => (none, u.2)
  | some r1 =>
    match uf w 15 14 with
    | 2 => (none, u.2.longFinish c t r1)
    | 1 =>
      let (i, v) := u.2.tick
      let holds := (uf w 35 30 = 0 || Config.microCond i) != (uf w 36 36 = 1)
      (some { r1 with word := if holds then uf w 29 16 else uf w 13 0 }, v)
    | _ => (some { r1 with word := uf w 13 0 }, u.2)

/-- A routine run from a word on, until it is over or held; `pass` waits of it end at once. A routine that runs so many words as `fuel` says without a wait goes on
with WAIT_CONDITION_TRUE. [log 40 DESIGN CHOICE, 41 DESIGN CHOICE] -/
def Chip.microRun (s : Chip) (c : Cru) (t : Nat) : (fuel pass : Nat) → Routine → Chip
  | 0, _, r => s.hold c t r
  | n + 1, pass, r =>
    match s.csFetch c (t / 8) r.word with
    | (none, u) => u.hold c t r
    | (some w, u) =>
      let r1 := { r with cycles := if r.waiting then r.cycles else r.cycles + uf w 44 43 + 1 }
      match u.microWait c t w pass r1 with
      | none => u.hold c t { r1 with waiting := true }
      | some (p, r2, v) =>
        match v.microAct c t w r2 with
        | (none, x) => x
        | (some r3, x) => x.microRun c t n p r3

/-- Words that a routine runs at most in one command: as many as a control store has. -/
def microFuel : Nat := 16384

/-- Whether a crucible holds the dispatch of microcoded instructions, as its control store is written (R305). -/
def Chip.holdsDispatch (s : Chip) (c : Nat) : Bool := (s.gate.crus.get c).held s.frc

/-- A long instruction begins: its events are counted, one of a restartable instruction resumed among them, and MSG.WAIT releases what its thread holds (R251,
R262, R275). -/
def Chip.longBegin (s : Chip) (c t : Nat) (r : Routine) : Chip :=
  let s1 := s.count c t (longEvent r.op r.fn)
  let s2 := if s1.restartable c t r && (s1.thread c t).prog ≠ 0 then s1.count c t 0x08 else s1
  if r.op = 0x31 && r.fn = 1 then s2.waitBegin c t else s2

/-- A long instruction issued: its words run from its dispatch word on, of which some bits turn wrong first (R284, R313, R314); a crucible under a hold begins it
when the hold is over (R305). `pass` waits end at once. [log 40 DESIGN CHOICE] -/
def Chip.issueLong (s : Chip) (c : Cru) (t : Nat) (w : BitVec 32) (fetch : CsFetch) (pass : Nat) (r : Routine) : Chip :=
  s.issue c t w true fun u =>
    if longSuper r.op r.fn && !(u.thread c t).super then u.priv c t w
    else
      let r0 := { r with word := dispatchWord r.op r.fn, since := u.frc }
      let v := (u.csStrike c fetch).longBegin c t r
      if v.holdsDispatch c then v.hold c t r0 else v.microRun c t microFuel pass r0

/-- A waiting thread's routine goes on from the word at which it is held, once the cycles of the words before are over. -/
def Chip.resume (s : Chip) (c : Cru) (t pass : Nat) (ok : Routine → Bool) : Chip :=
  match (s.thread c t).wait with
  | .routine r =>
    if (s.thread c t).state = stWaiting && s.engineRuns c (t / 8) && !s.holdsDispatch c && decide (r.due ≤ s.frc) && ok r then
      s.microRun c t microFuel pass { r with since := s.frc, cycles := 0 }
    else s
  | _ => s

/-! ### The commands -/

/-- TBL.FIND; `fault`: the entry's word fails its check (R382). -/
def jTblFind (c : Cru) (t : Fin 256) (rd ra : Fin 32) (fetch : CsFetch) (fault : Bool) (s : Chip) : Chip :=
  s.issueLong c t (wordR 0x30 rd ra 0 0) fetch 0 { op := 0x30, fn := 0, rd := rd, ra := ra, fault := fault }
/-- TBL.INS. -/
def jTblIns (c : Cru) (t : Fin 256) (rd ra : Fin 32) (fetch : CsFetch) (fault : Bool) (s : Chip) : Chip :=
  s.issueLong c t (wordR 0x30 rd ra 0 1) fetch 0 { op := 0x30, fn := 1, rd := rd, ra := ra, fault := fault }
/-- TBL.DEL. -/
def jTblDel (c : Cru) (t : Fin 256) (rd ra : Fin 32) (fetch : CsFetch) (fault : Bool) (s : Chip) : Chip :=
  s.issueLong c t (wordR 0x30 rd ra 0 2) fetch 0 { op := 0x30, fn := 2, rd := rd, ra := ra, fault := fault }
/-- TBL.AGE. -/
def jTblAge (c : Cru) (t : Fin 256) (rd ra : Fin 32) (fetch : CsFetch) (fault : Bool) (s : Chip) : Chip :=
  s.issueLong c t (wordR 0x30 rd ra 0 3) fetch 0 { op := 0x30, fn := 3, rd := rd, ra := ra, fault := fault }

/-- MSG.SEND: with WAIT set it waits for space where it would return FULL (R257, R258). -/
def jMsgSend (c : Cru) (t : Fin 256) (rd ra rb : Fin 32) (fetch : CsFetch) (s : Chip) : Chip :=
  s.issueLong c t (wordR 0x31 rd ra rb 0) fetch 0 { op := 0x31, fn := 0, rd := rd, ra := ra, rb := rb }
/-- MSG.WAIT (R251, R259, R262). -/
def jMsgWait (c : Cru) (t : Fin 256) (rd ra : Fin 32) (fetch : CsFetch) (s : Chip) : Chip :=
  s.issueLong c t (wordR 0x31 rd ra 0 1) fetch 0 { op := 0x31, fn := 1, rd := rd, ra := ra }
/-- MSG.DONE (R262, R543). -/
def jMsgDone (c : Cru) (t : Fin 256) (fetch : CsFetch) (s : Chip) : Chip :=
  s.issueLong c t (wordR 0x31 0 0 0 2) fetch 0 { op := 0x31, fn := 2 }
/-- MSG.POLL (R259, R263). -/
def jMsgPoll (c : Cru) (t : Fin 256) (rd ra : Fin 32) (fetch : CsFetch) (s : Chip) : Chip :=
  s.issueLong c t (wordR 0x31 rd ra 0 3) fetch 0 { op := 0x31, fn := 3, rd := rd, ra := ra }

/-- BLK.COPY: `now` waits for its data end at once, and so many units come before one whose source cannot be corrected, where `bad` (R238, R239, R249). -/
def jBlkCopy (c : Cru) (t : Fin 256) (rd ra rb : Fin 32) (fetch : CsFetch) (now : Fin 1048576) (bad : Bool) (s : Chip) : Chip :=
  s.issueLong c t (wordR 0x32 rd ra rb 0) fetch now
    { op := 0x32, fn := 0, rd := rd, ra := ra, rb := rb, badUnit := if bad then some now.val else none }
/-- BLK.FILL. -/
def jBlkFill (c : Cru) (t : Fin 256) (rd ra rb : Fin 32) (fetch : CsFetch) (now : Fin 1048576) (s : Chip) : Chip :=
  s.issueLong c t (wordR 0x32 rd ra rb 1) fetch now { op := 0x32, fn := 1, rd := rd, ra := ra, rb := rb }
/-- GRANT.FILL: `now` entries are accepted at once (R270, R271). -/
def jGrantFill (c : Cru) (t : Fin 256) (rd ra rb : Fin 32) (fetch : CsFetch) (now : Fin 1024) (s : Chip) : Chip :=
  s.issueLong c t (wordR 0x33 rd ra rb 0) fetch now { op := 0x33, fn := 0, rd := rd, ra := ra, rb := rb }
/-- TIME.ARM (R265, R266). -/
def jTimeArm (c : Cru) (t : Fin 256) (rd ra : Fin 32) (fetch : CsFetch) (s : Chip) : Chip :=
  s.issueLong c t (wordR 0x34 rd ra 0 2) fetch 0 { op := 0x34, fn := 2, rd := rd, ra := ra }

/-- CRYPT.KD (FN 0) or CRYPT.WRAP (FN 1) issued (R470). -/
def Chip.crypt (s : Chip) (c : Cru) (t : Nat) (rd ra : Fin 32) (fn : Nat) (fetch : CsFetch) : Chip :=
  s.issueLong c t (wordR 0x35 rd ra 0 fn) fetch 0 { op := 0x35, fn := fn, rd := rd, ra := ra }

/-- DERIVE: CRYPT.KD with OP 0. The block's OP decides (R471). -/
def jDerive (c : Cru) (t : Fin 256) (rd ra : Fin 32) (fetch : CsFetch) (s : Chip) : Chip := s.crypt c t rd ra 0 fetch
/-- CMAC_DERIVE: CRYPT.KD with OP 1. -/
def jCmacDerive (c : Cru) (t : Fin 256) (rd ra : Fin 32) (fetch : CsFetch) (s : Chip) : Chip := s.crypt c t rd ra 0 fetch
/-- MIC: CRYPT.KD with OP 2. -/
def jMic (c : Cru) (t : Fin 256) (rd ra : Fin 32) (fetch : CsFetch) (s : Chip) : Chip := s.crypt c t rd ra 0 fetch
/-- ERASE: CRYPT.KD with OP 3. -/
def jKdErase (c : Cru) (t : Fin 256) (rd ra : Fin 32) (fetch : CsFetch) (s : Chip) : Chip := s.crypt c t rd ra 0 fetch
/-- UNWRAP: CRYPT.WRAP with OP 4. -/
def jUnwrap (c : Cru) (t : Fin 256) (rd ra : Fin 32) (fetch : CsFetch) (s : Chip) : Chip := s.crypt c t rd ra 1 fetch
/-- ECB_IMPORT: CRYPT.WRAP with OP 5. -/
def jEcbImport (c : Cru) (t : Fin 256) (rd ra : Fin 32) (fetch : CsFetch) (s : Chip) : Chip := s.crypt c t rd ra 1 fetch
/-- WRAP_OUT: CRYPT.WRAP with OP 6. -/
def jWrapOut (c : Cru) (t : Fin 256) (rd ra : Fin 32) (fetch : CsFetch) (s : Chip) : Chip := s.crypt c t rd ra 1 fetch
/-- STATE_SAVE: CRYPT.WRAP with OP 7. -/
def jStateSave (c : Cru) (t : Fin 256) (rd ra : Fin 32) (fetch : CsFetch) (s : Chip) : Chip := s.crypt c t rd ra 1 fetch
/-- STATE_RESTORE: CRYPT.WRAP with OP 8. -/
def jStateRestore (c : Cru) (t : Fin 256) (rd ra : Fin 32) (fetch : CsFetch) (s : Chip) : Chip := s.crypt c t rd ra 1 fetch

/-- WAIT_CONDITION_TRUE: the condition for which a thread's routine is held is true, and the routine goes on; or the cycles of a complete long instruction are over,
and its thread is READY (R287 to R289). A wait for space or for a message ends only where there is one. -/
def waitConditionTrue (c : Cru) (t : Fin 256) (s : Chip) : Chip :=
  match (s.thread c t).wait with
  | .last due => if (s.thread c t).state = stWaiting && s.engineRuns c (t / 8) && decide (due ≤ s.frc) then s.ready c t else s
  | _ => s.resume c t 1 fun _ => true

/-- SEND_RESUME: a MSG.SEND that waits goes on once its queue or ring has space, or no longer takes messages (R258). -/
def sendResume (c : Cru) (t : Fin 256) (s : Chip) : Chip := s.resume c t 0 fun r => r.op = 0x31 && r.fn = 0 && s.sendReady c t r

/-- MESSAGE_DELIVER: a message in a queue goes to the thread that has waited longest for it, whose MSG.WAIT goes on (R259, R260). -/
def messageDeliver (c : Cru) (q : Fin 1024) (s : Chip) : Chip :=
  match (s.claims c).find? fun e => e.2.1 = q.val with
  | some e => s.resume c e.1 0 fun r => r.op = 0x31 && r.fn = 1
  | none => s

end Sys2Proof.Machine
end

