-- ==== Sys2Proof/Machine/Cycles.lean ====
section
/-! DEFINITION. The cycles of the engine clock, and the counters that count them (R58, R60, R272 to R275). -/
namespace Sys2Proof.Machine

/-- Whether a counter counts what is done in a mode. -/
def counts (cfg : W64) (super : Bool) : Bool := bit cfg (if super then 9 else 8)

/-- The threads of an engine, in the modes that a counter selects, for which f holds. -/
def Chip.threadsWhere (s : Chip) (c e : Nat) (cfg : W64) (f : Thread → Bool) : Nat :=
  ((List.range 8).filter fun i => let x := s.thread c (e * 8 + i); counts cfg x.super && x.state = stWaiting && f x).length

/-- Whether a thread waits for a load from its own crucible store, or from another one (R275). -/
def Thread.loads (own : Bool) (x : Thread) : Bool :=
  match x.wait with
  | .load _ a _ _ => match regionOf a with
    | some (.own _, _) => own
    | some (.remote _ _, _) => !own
    | _ => false
  | _ => false

/-- Whether a thread waits in a long instruction of an OP (R275). -/
def Thread.inRoutine (op : Nat) (x : Thread) : Bool := match x.wait with | .routine r => r.op = op | _ => false

/-- What a counter that counts cycles gains in a span of n engine cycles; what threads wait for counts once for each (R275). [log 25 DESIGN CHOICE] -/
def Chip.cycleGain (s : Chip) (c e : Nat) (cfg : W64) (n i : Nat) : Nat :=
  let any := bit cfg 8 || bit cfg 9
  match fld cfg 7 0 with
  | 0x01 => if any then n else 0
  | 0x03 => if any && (s.readyOrder c e).isEmpty then n else 0
  | 0x12 => n * s.threadsWhere c e cfg (Thread.loads true)
  | 0x13 => n * s.threadsWhere c e cfg (Thread.loads false)
  | 0x1A => n * s.threadsWhere c e cfg (Thread.inRoutine 0x30)
  | 0x1E => n * s.threadsWhere c e cfg fun x => x.waitsFor.isSome
  | 0x24 => n * s.threadsWhere c e cfg (Thread.inRoutine 0x32)
  | 0x2D => n * s.threadsWhere c e cfg (Thread.inRoutine 0x35)
  | _ => if any then Config.conflicts i % (n + 1) else 0

/-- The counters that select an event of cycles: crucible, engine, number. -/
def Chip.cycleCounters (s : Chip) : List (Nat × Nat × Nat) :=
  (s.regs.filter fun e => Cell.ctrCfg 0 0 0 ≤ e.1 && e.1 < Cell.ctrCfg 33 0 0 && cycleCodes.contains (fld e.2 7 0)).map fun e =>
    let i := e.1 - Cell.ctrCfg 0 0 0
    (i / 256, i / 8 % 32, i % 8)

/-- CYC of every engine wraps (R273). -/
def Chip.cyclesWrap (s : Chip) : Chip :=
  (List.range 33).foldl (fun u c => ((List.range 32).foldl (fun v e => v.setFlag (Cell.ctrCfg c e 0) 10 true) u).raise (Reg.CRU_EVENT c) 4) s

/-- The engine cycles of n ticks, two to a tick but for those that the spread clock leaves out (R58, R60). [log 25 DESIGN CHOICE] -/
def cycleTick (n : Nat) (s : Chip) : Chip :=
  let (i, s1) := s.tick
  let spread := bit (s.act Reg.CLK_SPREAD) 0 || !s.rampOver
  let k := 2 * n - (if spread then Config.spreadLoss i % (n / 100 + 1) else 0)
  let old := s1.cru.cycles
  let s2 : Chip := { s1 with cru := { s1.cru with cycles := (old + k) % 281474976710656 } }
  let s3 := if old + k < 281474976710656 then s2 else s2.cyclesWrap
  s3.cycleCounters.foldl (fun u p =>
    let (j, v) := u.tick
    let g := v.cycleGain p.1 p.2.1 (v.reg (Cell.ctrCfg p.1 p.2.1 p.2.2)) k j
    if p.2.2 = 0 || 6 < p.2.2 || g = 0 then v else v.ctrAdd p.1 p.2.1 p.2.2 g) s3

end Sys2Proof.Machine
end

