-- ==== Sys2Proof/Machine/State.lean ====
section
/-! DEFINITION. The state of the machine: the waiting commands, first in, first out, and the part. -/
namespace Sys2Proof.Machine

/-- The queue of waiting commands, and everything the part holds. -/
structure State where
  pending : List Instr := []
  chip : Chip := {}
  deriving DecidableEq, Repr, Inhabited

/-- Why the machine stops. [log 7 DESIGN CHOICE] -/
inductive Fault where
  /-- REGISTER_WRITE, RC_HIGH_READ and COUNTER_LOW_READ: the offset lies beyond the 64 MiB of BAR0, where the part has no address (R14). Safe: the part is
  not addressed by such an access. -/
  | outsideBar0 (offset : Nat)
  deriving DecidableEq, Repr

/-- Why a command has no meaning. -/
inductive Refusal where
  /-- Raised by no command: every row of the table has its meaning. Safe. -/
  | notModelled (mnemonic : String)
  deriving DecidableEq, Repr

/-- The machine right after reset: no command waits, every register reads its reset value, every table, queue and FIFO is empty, and what the spec gives no
value for is 0 (see the log). [log 2 DESIGN CHOICE, 12 DESIGN CHOICE, 217 DESIGN CHOICE] -/
def State.reset : State := {}

end Sys2Proof.Machine
end

