-- ==== Sys2Proof/Machine/Run.lean ====
section
/-! DEFINITION. How a command acts on the state: the island's always, the core's while it runs. -/
namespace Sys2Proof.Machine

/-- Whether the core runs: out of reset and with its supplies (R688). [log 6 DEDUCED] -/
def Chip.running (s : Chip) : Bool := s.isl.core = 3

/-- Whether a wavelength's TXDIS ball is released, its laser off: unless the core runs, the laser gate and the role let light out, and POND is sending
(R594, R731). -/
def Chip.txDisabled (s : Chip) (t : Tree) (w : Wl) : Bool := !(s.running && s.lasers && (s.pon.framers.get (wkey t w)).sending)

/-- The state with another part and the same queue. -/
def State.withChip (s : State) (x : Chip) : State := { s with chip := x }

/-- A command of the island, or an event outside the core. [log 5 DESIGN CHOICE] -/
def State.act (s : State) (f : Chip → Chip) : Host.Outcome State Fault Refusal := .next (s.withChip (f s.chip))

/-- A command of the core; it does nothing while the core is held in reset or has no power. [log 5 DESIGN CHOICE, 6 DEDUCED] -/
def State.core (s : State) (f : Chip → Chip) : Host.Outcome State Fault Refusal := s.act fun x => if x.running then f x else x

/-- An access at an offset of BAR0, which is 64 MiB (R14). [log 7 DESIGN CHOICE] -/
def State.bar0 (s : State) (a : BitVec 32) (f : Chip → Chip) : Host.Outcome State Fault Refusal :=
  if a.toNat < 67108864 then s.core f else .fault (.outsideBar0 a.toNat)

/-- n ticks of 622.08 MHz: the island's crystal counts always, FRC and the engine cycles while the core runs with its clock locked (R58, R60, R489, R708); a receiver's GO given
while its timing does not run is applied (R119). [log 4 DESIGN CHOICE] -/
def tick (n : Nat) (s : Chip) : Chip :=
  let s1 := { s with isl := { s.isl with clock := s.isl.clock + n } }
  if s1.running && s1.flag Reg.CLK_STATUS 0 then (List.finRange 32).foldl Chip.ponuApplyIdle (timeTick n (cycleTick n s1)) else s1

end Sys2Proof.Machine
end

