-- ==== Sys2Proof/Machine/ExecEth.lean ====
section
/-! DEFINITION. The commands of the uplinks, as they act on the whole state: each answers the next state. -/
namespace Sys2Proof.Machine

/-- ETH_GO: A write of GO to ETH_COMMIT checks the staged values and sets PENDING, or sets STAGE_ERR. (R678) -/
def execEthGo (p : Fin 8) (s : State) : Host.Outcome State Fault Refusal := s.core (ethGo p)

/-- ETH_APPLY: ETH applies the port's staged values on each subport between two frames. (R678) -/
def execEthApply (p : Fin 8) (s : State) : Host.Outcome State Fault Refusal := s.core (ethApply p)

/-- ETH_RX_FRAME: A frame received on a subport is counted, checked for length and FCS, and passed to its pipe. (R656) -/
def execEthRxFrame (k : Fin 32) (x : EthLight) (s : State) : Host.Outcome State Fault Refusal := s.core (ethRxFrame k x)

/-- ETH_TX_FRAME: ETH sends a frame from TM, padding, dropping oversize or stomping as required. (R659) -/
def execEthTxFrame (k : Fin 32) (s : State) : Host.Outcome State Fault Refusal := s.core (ethTxFrame k)

/-- PFC_RECEIVE: A received PFC frame pauses the classes it names for their quanta. (R660) -/
def execPfcReceive (k : Fin 32) (classes : BitVec 8) (quanta : List (BitVec 16)) (s : State) : Host.Outcome State Fault Refusal :=
  s.core (pfcReceive k classes quanta)

/-- PAUSE_EXPIRE: A class's pause quanta run out and the class may be offered again. (R660) -/
def execPauseExpire (k : Fin 32) (c : Fin 8) (s : State) : Host.Outcome State Fault Refusal := s.core (pauseExpire k c)

/-- PFC_XOFF: FREE falling below XOFF_CELLS makes ETH send a PFC frame with QUANTA. (R661) -/
def execPfcXoff (p : Fin 8) (s : State) : Host.Outcome State Fault Refusal := s.core (pfcXoff p)

/-- PFC_REFRESH: Every QUANTA / 2 while FREE stays below XON_CELLS, ETH resends the PFC frame. (R661) -/
def execPfcRefresh (p : Fin 8) (s : State) : Host.Outcome State Fault Refusal := s.core (pfcRefresh p)

/-- PFC_XON: FREE reaching XON_CELLS makes ETH send a PFC frame with quanta 0. (R661) -/
def execPfcXon (p : Fin 8) (s : State) : Host.Outcome State Fault Refusal := s.core (pfcXon p)

/-- GCL_STEP: A gate control list entry's DURATION ends and the next entry's gates take effect. (R662) -/
def execGclStep (k : Fin 32) (s : State) : Host.Outcome State Fault Refusal := s.core (gclStep k)

/-- GCL_APPLIED: A staged gate list takes effect at its first cycle start at least 10 µs after GO. (R663) -/
def execGclApplied (k : Fin 32) (s : State) : Host.Outcome State Fault Refusal := s.core (gclApplied k)

/-- MM_VERIFY: MAC merge verification succeeds or times out and sets VERIFY_FAIL. (R665) -/
def execMmVerify (k : Fin 32) (ok : Bool) (s : State) : Host.Outcome State Fault Refusal := s.core (mmVerify k ok)

/-- TS_FIFO_READ: A 64-bit read of ETH_TS_FIFO0 takes the oldest stamp and latches its second word. (R669) -/
def execTsFifoRead (k : Fin 32) (lanes : Lanes) (s : State) : Host.Outcome State Fault Refusal := s.core (tsFifoRead k lanes)

/-- LINK_CHANGE: A subport's PCS lock, link or fault state changes. (R680) -/
def execLinkChange (k : Fin 32) (lock link localFault remoteFault : Bool) (s : State) : Host.Outcome State Fault Refusal :=
  s.core (linkChange k lock link localFault remoteFault)

end Sys2Proof.Machine
end

