-- ==== Sys2Proof/Machine/ExecGate.lean ====
section
/-! DEFINITION. The commands of GATE, as they act on the whole state: each answers the next state. -/
namespace Sys2Proof.Machine

/-- GATE_GO: A write of GO to GATE_COMMIT checks the staged values and sets PENDING, or sets STAGE_ERR. (R582) -/
def execGateGo (s : State) : Host.Outcome State Fault Refusal := s.core gateGo

/-- GATE_APPLY: GATE applies GATE_CFG and GATE_TAKEOVER_DEST within 2 µs. (R582) -/
def execGateApply (s : State) : Host.Outcome State Fault Refusal := s.core gateApply

/-- GATE_COMPARE: A flask output reaches its gate, which passes the higher heat number's copy or handles a split. (R532) -/
def execGateCompare (c : Cru) (f : Fin 33) (differ : Bool) (s : State) : Host.Outcome State Fault Refusal := s.core (gateCompare c f differ)

/-- HALF_ERROR: A half reports its own error, takes SUSPECT, loses HEALTH and starts resynchronisation. (R537) -/
def execHalfError (c : Cru) (f : Fin 33) (drag : Bool) (s : State) : Host.Outcome State Fault Refusal := s.core (halfErrorCmd c f drag)

/-- RESYNC_DONE: A suspect half finishes resynchronisation and takes ROLE STANDBY. (R540) -/
def execResyncDone (c : Cru) (f : Fin 33) (s : State) : Host.Outcome State Fault Refusal := s.core (resyncDone c f)

/-- FLASK_RETIRE: A held flask is retired and its rolled-back engine resumes on the spare flask. (R546) -/
def execFlaskRetire (c : Cru) (f : Fin 33) (s : State) : Host.Outcome State Fault Refusal := s.core (flaskRetire c f)

/-- STEP_COUNTER_POLL: Every 2 µs both paths read each half's step counter. (R551) -/
def execStepCounterPoll (c : Cru) (f : Fin 33) (cope1 cope2 drag1 drag2 : BitVec 32) (s : State) : Host.Outcome State Fault Refusal :=
  s.core (stepCounterPoll c f cope1.toNat cope2.toNat drag1.toNat drag2.toNat)

/-- CRUCIBLE_HEARTBEAT: A crucible monitor heartbeat or a supervisor probe arrives. (R553) -/
def execCrucibleHeartbeat (c : Cru) (probe : Bool) (s : State) : Host.Outcome State Fault Refusal := s.core (crucibleHeartbeat c probe)

/-- CRUCIBLE_LOST: Heartbeats and probes missing for 12 µs declare a crucible lost. (R553) -/
def execCrucibleLost (c : Cru) (s : State) : Host.Outcome State Fault Refusal := s.core (crucibleLost c)

/-- RETIRE_FLASK: The RETIRE_FLASK command retires the selected flask by plan. (R563) -/
def execRetireFlask (s : State) : Host.Outcome State Fault Refusal := s.core retireFlask

/-- RESTORE_FLASK: The RESTORE_FLASK command makes a retired flask the crucible's spare, or is refused. (R564) -/
def execRestoreFlask (s : State) : Host.Outcome State Fault Refusal := s.core restoreFlaskCmd

/-- RETIRE_CRUCIBLE: The RETIRE_CRUCIBLE command closes an idle crucible's gates and starts its self-test. (R565) -/
def execRetireCrucible (s : State) : Host.Outcome State Fault Refusal := s.core retireCrucible

/-- RESTORE_CRUCIBLE: The RESTORE_CRUCIBLE command returns a tested crucible to service owning nothing. (R565) -/
def execRestoreCrucible (s : State) : Host.Outcome State Fault Refusal := s.core restoreCrucible

/-- GATE_TEST: The TEST command of GATE_RETIRE_CMD runs self-test on the selection. (R584) -/
def execGateTest (s : State) : Host.Outcome State Fault Refusal := s.core gateTest

/-- GATE_CMD_DONE: A GATE_RETIRE_CMD command completes with its STATUS and clears RUNNING. (R582) -/
def execGateCmdDone (s : State) : Host.Outcome State Fault Refusal := s.core gateCmdDone

/-- BIST_DONE: A retired flask's self-test ends with BIST_OK or BIST_FAIL. (R549) -/
def execBistDone (c : Cru) (f : Fin 33) (pass : Bool) (s : State) : Host.Outcome State Fault Refusal := s.core (bistDone c f pass)

/-- FLASK_TURNOVER: Every 2^TURN_LOG2 frames, each working flask exchanges ACTIVE and STANDBY unless skipped. (R566) -/
def execFlaskTurnover (c : Cru) (s : State) : Host.Outcome State Fault Refusal := s.core (flaskTurnover c)

/-- FAULT_LOG_READ: A read of GATE_FAULT_LOG takes its oldest entry. (R581) -/
def execFaultLogRead (e : Ep) (lanes : Lanes) (s : State) : Host.Outcome State Fault Refusal := s.core (faultLogRead e lanes)

/-- CRUCIBLE_SELFTEST_DONE: The self-test of a retired crucible ends, passing or failing, and allows or refuses its restoration. (R565) -/
def execCrucibleSelftestDone (c : Cru) (pass : Bool) (s : State) : Host.Outcome State Fault Refusal := s.core (crucibleSelftestDone c pass)

end Sys2Proof.Machine
end

