-- ==== Sys2Proof/Machine/ExecGlk.lean ====
section
/-! DEFINITION. The commands of the Gulrov link, as they act on the whole state: each answers the next state. -/
namespace Sys2Proof.Machine

/-- GLK_GO: A write of GO to GLK_COMMIT checks the staged values and sets PENDING, or sets STAGE_ERR. (R626) -/
def execGlkGo (s : State) : Host.Outcome State Fault Refusal := s.core glkGo

/-- GLK_APPLY: GLK applies its staged values within 2 µs, restarting alignment when LANES, N or M change. (R626) -/
def execGlkApply (s : State) : Host.Outcome State Fault Refusal := s.core glkApply

/-- MIRROR_HEARTBEAT_SEND: Every 100 µs a part sends a HEARTBEAT record in its mirror stream. (R591) -/
def execMirrorHeartbeatSend (s : State) : Host.Outcome State Fault Refusal := s.core mirrorHeartbeatSend

/-- HEARTBEAT_RECORD: A valid HEARTBEAT record from the mate is received on path one. (R592) -/
def execHeartbeatRecord (s : State) : Host.Outcome State Fault Refusal := s.core heartbeatRecord

/-- PATH_LOSS: No valid heartbeat on a path for 300 µs makes that path not seen. (R592) -/
def execPathLoss (p : Fin 2) (s : State) : Host.Outcome State Fault Refusal := s.core (pathLoss p)

/-- ROW_RECEIVE: A Gulrov row's segment is checked and accepted, or dropped and a resend requested. (R598) -/
def execRowReceive (x : RowLight) (s : State) : Host.Outcome State Fault Refusal := s.core (rowReceive x)

/-- MAP_RECORD: A received MAP record is used for shadow reception and its digest is compared. (R604) -/
def execMapRecord (s : State) : Host.Outcome State Fault Refusal := s.core mapRecord

/-- SLOT_RECORD: A received SLOT record writes report and monitor slots on the standby. (R602) -/
def execSlotRecord (s : State) : Host.Outcome State Fault Refusal := s.core slotRecord

/-- PROGRAM_RECORD: A received PROGRAM record is delivered to GLK_PROG_DEST, or discarded and sets GAP. (R600) -/
def execProgramRecord (s : State) : Host.Outcome State Fault Refusal := s.core programRecord

/-- PROGRAM_RECORD_SEND: GLK takes a message from GLK_PROG_SRC and sends it as a PROGRAM record. (R599) -/
def execProgramRecordSend (s : State) : Host.Outcome State Fault Refusal := s.core programRecordSend

/-- RESEND_RECORD: A received RESEND record makes the sender send the requested segment again. (R617) -/
def execResendRecord (s : State) : Host.Outcome State Fault Refusal := s.core resendRecord

/-- TURN_GO: A write of GO to GLK_TURN schedules a mate turnover at frame S, or is refused. (R608) -/
def execTurnGo (frame : BitVec 32) (s : State) : Host.Outcome State Fault Refusal := s.core (turnGo frame)

/-- BLOCK_LOCK: A Gulrov lane gains or loses block lock from its sync headers. (R611) -/
def execBlockLock (lane : Fin 8) (headers : List (BitVec 2)) (s : State) : Host.Outcome State Fault Refusal := s.core (blockLock lane headers)

/-- LANE_ALIGN: A lane's marker search gains or loses alignment, and the link deskews. (R613) -/
def execLaneAlign (lane : Fin 8) (header : BitVec 2) (block : W64) (place : Fin 1024) (s : State) : Host.Outcome State Fault Refusal :=
  s.core (laneAlign lane header block place)

/-- ROW_SLIP: The slip buffer repeats or drops a whole row and counts it. (R617) -/
def execRowSlip (s : State) : Host.Outcome State Fault Refusal := s.core rowSlip

/-- PM_SECOND: 10 s after a second ends, GLK counts it into its performance bins. (R621) -/
def execPmSecond (s : State) : Host.Outcome State Fault Refusal := s.core pmSecond

/-- PM_SEL_WRITE: A write of GLK_PM_SEL latches the selected bin as one snapshot. (R626) -/
def execPmSelWrite (v : W64) (s : State) : Host.Outcome State Fault Refusal := s.core (pmSelWrite v)

/-- HIER_SEND: GLK takes a message from GLK_HIER_SRC, encrypts it and sends it to its peer. (R623) -/
def execHierSend (s : State) : Host.Outcome State Fault Refusal := s.core hierSend

/-- HIER_RECEIVE: A received hierarchy frame is checked and delivered to GLK_HIER_DEST, or dropped. (R623) -/
def execHierReceive (s : State) : Host.Outcome State Fault Refusal := s.core hierReceive

/-- LANE_FRAME_SEND: Every 1.2015 µs each Gulrov lane sends its marker and the next row's GCM segment, or all-ones, or keeps counting frames while
quiet. (R610) -/
def execLaneFrameSend (s : State) : Host.Outcome State Fault Refusal := s.core laneFrameSend

end Sys2Proof.Machine
end

