-- ==== Sys2Proof/Machine/ExecHif.lean ====
section
/-! DEFINITION. The commands of the host interface, as they act on the whole state: each answers the next state. -/
namespace Sys2Proof.Machine

/-- RX_TAIL_WRITE: A write of a receive ring's TAIL posts descriptors, or is discarded and sets TAIL_ERR. (R635) -/
def execRxTailWrite (ring : Fin 4096) (tail : BitVec 16) (descs : List Desc) (s : State) : Host.Outcome State Fault Refusal :=
  s.core (rxTailWrite ring tail descs)

/-- TX_TAIL_WRITE: A write of a transmit ring's TAIL posts descriptors, or is discarded and sets TAIL_ERR. (R635) -/
def execTxTailWrite (ring : Fin 4096) (tail : BitVec 16) (descs : List Desc) (s : State) : Host.Outcome State Fault Refusal :=
  s.core (txTailWrite ring tail descs)

/-- RING_CFG_WRITE: A write of a ring's settings applies, enables or disables the ring, or is discarded and sets CFG_ERR. (R637) -/
def execRingCfgWrite (base : Bool) (v : W64) (s : State) : Host.Outcome State Fault Refusal := s.core (ringCfgWrite base v)

/-- RX_DELIVER: A frame or message reaching a receive ring fills buffers and its descriptors are written back. (R639) -/
def execRxDeliver (ring : Fin 4096) (s : State) : Host.Outcome State Fault Refusal := s.core (rxDeliver ring)

/-- TX_FETCH: HIF fetches a posted transmit frame into the packet buffer and injects it. (R645) -/
def execTxFetch (ring : Fin 4096) (data : Option (List Byte)) (s : State) : Host.Outcome State Fault Refusal := s.core (txFetch ring data)

/-- TX_WRITEBACK: A transmit frame is written back with its STATUS in ring order. (R646) -/
def execTxWriteback (ring : Fin 4096) (s : State) : Host.Outcome State Fault Refusal := s.core (txWriteback ring)

/-- MOD_TIMEOUT: The oldest unsignalled write-back waiting MOD_USEC makes its ring source active. (R648) -/
def execModTimeout (transmit : Bool) (ring : Fin 4096) (s : State) : Host.Outcome State Fault Refusal := s.core (modTimeout transmit ring)

/-- VECTOR_SEND: HIF sends an MSI-X message for an armed, unmasked vector with an active source. (R649) -/
def execVectorSend (v : Fin 2048) (s : State) : Host.Outcome State Fault Refusal := s.core (vectorSend v)

/-- VEC_ARM: A write to HIF_VEC_ARMv arms the vector and sends at once if a source is active. (R649) -/
def execVecArm (v : Fin 2048) (s : State) : Host.Outcome State Fault Refusal := s.core (vecArm v)

/-- MSIX_UNMASK: Unmasking a vector with its pending bit set sends its message. (R649) -/
def execMsixUnmask (v : Fin 2048) (s : State) : Host.Outcome State Fault Refusal := s.core (msixUnmask v)

/-- FLR: A function-level reset disables the endpoint's rings, arms its vectors and discards its mailbox answer. (R632) -/
def execFlr (e : Ep) (s : State) : Host.Outcome State Fault Refusal := s.core (functionReset e)

/-- BME_CLEAR: Clearing Bus Master Enable pauses the endpoint's DMA and its rings. (R631) -/
def execBmeClear (e : Ep) (s : State) : Host.Outcome State Fault Refusal := s.core (busMasterOff e)

/-- PERST_RELEASE: Release of a PERST_N starts link training, or holds the link in Detect until READY. (R739) -/
def execPerstRelease (e : Ep) (speed : Fin 6) (width : Fin 17) (s : State) : Host.Outcome State Fault Refusal := s.core (perstRelease e speed width)

/-- MB_NOP: The NOP mailbox command answers OK. (R653) -/
def execMbNop (e : Ep) (seq : Byte) (s : State) : Host.Outcome State Fault Refusal := s.core (mbNop e seq)

/-- MB_IDENTIFY: The IDENTIFY mailbox command returns firmware, node and slot versions. (R653) -/
def execMbIdentify (e : Ep) (seq : Byte) (s : State) : Host.Outcome State Fault Refusal := s.core (mbIdentify e seq)

/-- MB_SENSORS: The SENSORS mailbox command returns die temperatures, VCORE and ageing. (R653) -/
def execMbSensors (e : Ep) (seq : Byte) (s : State) : Host.Outcome State Fault Refusal := s.core (mbSensors e seq)

/-- MB_LOG_READ: The LOG_READ mailbox command writes log entries to host memory. (R653) -/
def execMbLogRead (e : Ep) (seq : Byte) (dmaOk : Bool) (s : State) : Host.Outcome State Fault Refusal := s.core (mbLogRead e seq dmaOk)

/-- MB_FLASH_WRITE: The FLASH_WRITE mailbox command checks and writes an image to a flash slot, or is denied. (R654) -/
def execMbFlashWrite (e : Ep) (seq : Byte) (data : Option (List Byte)) (s : State) : Host.Outcome State Fault Refusal :=
  s.core (mbFlashWrite e seq data)

/-- MB_FLASH_CHECK: The FLASH_CHECK mailbox command checks the images in a flash slot. (R653) -/
def execMbFlashCheck (e : Ep) (seq : Byte) (s : State) : Host.Outcome State Fault Refusal := s.core (mbFlashCheck e seq)

/-- MB_CORE_RESET: The CORE_RESET mailbox command resets the core 10 ms after its answer. (R653) -/
def execMbCoreReset (e : Ep) (seq : Byte) (s : State) : Host.Outcome State Fault Refusal := s.core (mbCoreReset e seq)

/-- MB_ABORT: The ABORT mailbox command ends the long operation it started with FAILED. (R696) -/
def execMbAbort (e : Ep) (seq : Byte) (s : State) : Host.Outcome State Fault Refusal := s.core (mbAbort e seq)

/-- MB_RSP_READ: A read of HIF_MB_RSP returns the answer and clears NOTIFY. (R650) -/
def execMbRspRead (e : Ep) (lanes : Lanes) (s : State) : Host.Outcome State Fault Refusal := s.core (mbRspRead e lanes)

/-- LONG_OP_DONE: A long operation ends, writes LONG_RESULT and sets NOTIFY and LONG_DONE. (R652) -/
def execLongOpDone (progress : Fin 1001) (s : State) : Host.Outcome State Fault Refusal := s.act (longOpDone progress)

/-- BME_SET: Setting an endpoint's Bus Master Enable lets its paused rings and DMA resume. (R631) -/
def execBmeSet (e : Ep) (s : State) : Host.Outcome State Fault Refusal := s.core (bmeSet e)

end Sys2Proof.Machine
end

