-- ==== Sys2Proof/Machine/ExecIsland.lean ====
section
/-! DEFINITION. The commands of the standby island, power, clocks and start-up, as they act on the whole state: each answers the next state. -/
namespace Sys2Proof.Machine

/-- SB_HEARTBEAT_SEND: At its scheduled instant, the island sends a HEARTBEAT to the mate node. (R687) -/
def execSbHeartbeatSend (busy : Bool) (s : State) : Host.Outcome State Fault Refusal := s.act (sbHeartbeatSend busy)

/-- SB_HEARTBEAT_ABANDON: A heartbeat that collides, or would start more than 88 µs late, is abandoned and counted. (R690) -/
def execSbHeartbeatAbandon (collided : Bool) (s : State) : Host.Outcome State Fault Refusal := s.act (sbHeartbeatAbandon collided)

/-- SB_HEARTBEAT_RECEIVE: A received side-band heartbeat reaches the mate's GLK as path two. (R691) -/
def execSbHeartbeatReceive (heat : BitVec 16) (word : W64) (late : Byte) (s : State) : Host.Outcome State Fault Refusal :=
  s.act (sbHeartbeatReceive heat word late)

/-- HEARTBEAT_REFRESH: GLK refreshes HEAT, READY and TURN in the island every 100 µs. (R688) -/
def execHeartbeatRefresh (s : State) : Host.Outcome State Fault Refusal := s.core heartbeatRefresh

/-- SB_FRAME_RETRY: After back-off, the island retries a non-heartbeat frame, abandoning it at 16 attempts. (R684) -/
def execSbFrameRetry (s : State) : Host.Outcome State Fault Refusal := s.act sbFrameRetry

/-- SB_RX_DISCARD: A received frame of the wrong type, destination, length or FCS is discarded and counted. (R685) -/
def execSbRxDiscard (s : State) : Host.Outcome State Fault Refusal := s.act sbRxDiscard

/-- SB_NOP: The NOP side-band request answers OK. (R692) -/
def execSbNop (node : Fin 32) (seq : BitVec 16) (s : State) : Host.Outcome State Fault Refusal := s.act (sbNop node seq)

/-- SB_IDENTIFY: The IDENTIFY side-band request returns the identity data. (R692) -/
def execSbIdentify (node : Fin 32) (seq : BitVec 16) (s : State) : Host.Outcome State Fault Refusal := s.act (sbIdentify node seq)

/-- SB_SENSORS: The SENSORS side-band request returns sensor data. (R692) -/
def execSbSensors (node : Fin 32) (seq : BitVec 16) (s : State) : Host.Outcome State Fault Refusal := s.act (sbSensors node seq)

/-- SB_LOG_READ: The LOG_READ side-band request returns one log entry by sequence number. (R692) -/
def execSbLogRead (node : Fin 32) (seq : BitVec 16) (entry : BitVec 32) (s : State) : Host.Outcome State Fault Refusal :=
  s.act (sbLogRead node seq entry)

/-- SB_FLASH_CHECK: The FLASH_CHECK side-band request checks a flash slot. (R692) -/
def execSbFlashCheck (node : Fin 32) (seq : BitVec 16) (slot : Byte) (s : State) : Host.Outcome State Fault Refusal :=
  s.act (sbFlashCheck node seq slot)

/-- SB_CORE_RESET: The CORE_RESET side-band request resets the core, or is denied during a flash write. (R697) -/
def execSbCoreReset (node : Fin 32) (seq : BitVec 16) (key : W64) (s : State) : Host.Outcome State Fault Refusal := s.act (sbCoreReset node seq key)

/-- SB_ABORT: The ABORT side-band request ends the long operation its node started. (R696) -/
def execSbAbort (node : Fin 32) (seq : BitVec 16) (s : State) : Host.Outcome State Fault Refusal := s.act (sbAbort node seq)

/-- SB_PROGRESS: The PROGRESS side-band request returns the long operation's state. (R692) -/
def execSbProgress (node : Fin 32) (seq : BitVec 16) (s : State) : Host.Outcome State Fault Refusal := s.act (sbProgress node seq)

/-- SB_REG_READ: The REG_READ side-band request reads a BAR0 register, or answers DENIED or FAILED. (R693) -/
def execSbRegRead (node : Fin 32) (seq : BitVec 16) (a : BitVec 26) (slow : Bool) (s : State) : Host.Outcome State Fault Refusal :=
  s.act (sbRegRead node seq a slow)

/-- SB_REG_WRITE: The REG_WRITE side-band request writes a BAR0 register. (R698) -/
def execSbRegWrite (node : Fin 32) (seq : BitVec 16) (a : BitVec 26) (v : W64) (slow : Bool) (s : State) : Host.Outcome State Fault Refusal :=
  s.act (sbRegWrite node seq a v slow)

/-- SB_PATTERN_LOAD: The PATTERN_LOAD side-band request starts the loader from a flash slot. (R695) -/
def execSbPatternLoad (node : Fin 32) (seq : BitVec 16) (slot : Byte) (s : State) : Host.Outcome State Fault Refusal :=
  s.act (sbPatternLoad node seq slot)

/-- SB_CORE_OFF: The CORE_OFF power action disables the core rails in reverse order. (R702) -/
def execSbCoreOff (node : Fin 32) (seq : BitVec 16) (s : State) : Host.Outcome State Fault Refusal := s.act (sbCoreOff node seq)

/-- SB_CORE_ON: The CORE_ON power action sequences the core rails on and releases reset. (R701) -/
def execSbCoreOn (node : Fin 32) (seq : BitVec 16) (s : State) : Host.Outcome State Fault Refusal := s.act (sbCoreOn node seq)

/-- SB_DIMM_OFF: The DIMM_OFF power action removes a DIMM slot's supply, or is denied. (R704) -/
def execSbDimmOff (node : Fin 32) (seq : BitVec 16) (c : Byte) (s : State) : Host.Outcome State Fault Refusal := s.act (sbDimmOff node seq c)

/-- SB_DIMM_ON: The DIMM_ON power action restores a DIMM slot's supply, or is denied. (R704) -/
def execSbDimmOn (node : Fin 32) (seq : BitVec 16) (c : Byte) (s : State) : Host.Outcome State Fault Refusal := s.act (sbDimmOn node seq c)

/-- FLASH_BEGIN: FLASH_BEGIN erases a flash slot for writing, or is denied. (R706) -/
def execFlashBegin (node : Fin 32) (seq : BitVec 16) (slot : Byte) (length : BitVec 32) (s : State) : Host.Outcome State Fault Refusal :=
  s.act (flashBegin node seq slot length)

/-- FLASH_DATA: FLASH_DATA writes 32 bytes at its offset. (R706) -/
def execFlashData (node : Fin 32) (seq : BitVec 16) (offset : BitVec 32) (data : List Byte) (s : State) : Host.Outcome State Fault Refusal :=
  s.act (flashData node seq offset data)

/-- FLASH_END: FLASH_END checks the written slot and erases it on failure. (R706) -/
def execFlashEnd (node : Fin 32) (seq : BitVec 16) (s : State) : Host.Outcome State Fault Refusal := s.act (flashEnd node seq)

/-- SB_APP_SEND: A write of GO to SBY_APP_CTRL sends an APP frame, or is discarded while BUSY. (R710) -/
def execSbAppSend (dest : Fin 32) (s : State) : Host.Outcome State Fault Refusal := s.core (sbAppSend dest)

/-- SB_APP_RECEIVE: A received APP frame is delivered to SBY_APP_DEST, or is discarded and sets APP_DROP. (R710) -/
def execSbAppReceive (node : Fin 32) (data : List Byte) (s : State) : Host.Outcome State Fault Refusal := s.act (sbAppReceive node data)

/-- LOG_WRITE: A buffered log entry is written to flash if the bucket allows, or is suppressed and counted. (R709) -/
def execLogWrite (s : State) : Host.Outcome State Fault Refusal := s.act logWrite

/-- ISLAND_TIME_READ: Once per second the island reads logical time from TIME, or free-runs it. (R708) -/
def execIslandTimeRead (s : State) : Host.Outcome State Fault Refusal := s.act islandTimeRead

/-- RAIL_POWER_GOOD: A rail's power-good asserts and the island enables the next rail or releases reset. (R701) -/
def execRailPowerGood (r : Fin 6) (s : State) : Host.Outcome State Fault Refusal := s.act (railPowerGood r)

/-- RAIL_TIMEOUT: A power-good that does not assert within 10 ms shuts the rails down and sets POWER_FAULT. (R702) -/
def execRailTimeout (s : State) : Host.Outcome State Fault Refusal := s.act railTimeout

/-- PG_FALL: A power-good falling while its rail is enabled shuts the rails down and sets POWER_FAULT. (R702) -/
def execPgFall (r : Fin 6) (s : State) : Host.Outcome State Fault Refusal := s.act (pgFall r)

/-- CORE_RESET_HOLD: 10 ms after a CORE_RESET answer, the island holds the core in reset for 1 ms. (R703) -/
def execCoreResetHold (s : State) : Host.Outcome State Fault Refusal := s.act coreResetHold

/-- DIMM_SUPPLY_OFF: The island deasserts DIMM_PWRENc within 1 ms of channel c reading OFFLINE. (R704) -/
def execDimmSupplyOff (c : Fin 8) (s : State) : Host.Outcome State Fault Refusal := s.act (dimmSupplyOff c)

/-- ISLAND_RESET: VSTBY below 2.6 V holds the island in reset, and its return releases it. (R681) -/
def execIslandReset (low : Bool) (node : Fin 32) (seq : Bool) (s : State) : Host.Outcome State Fault Refusal := s.act (islandReset low node seq)

/-- PORST_ASSERT: The core enters reset on PORST_N low, an island hold or a low PG ball. (R717) -/
def execPorstAssert (s : State) : Host.Outcome State Fault Refusal := s.act porstAssert

/-- PORST_RELEASE: The end of every reset condition starts the core's start-up. (R717) -/
def execPorstRelease (pinHigh split mirror : Bool) (s : State) : Host.Outcome State Fault Refusal := s.act (porstRelease pinHigh split mirror)

/-- ROOT_LOCK: The root synthesizer locks and every domain runs. (R725) -/
def execRootLock (s : State) : Host.Outcome State Fault Refusal := s.core rootLock

/-- STARTUP_DONE: Start-up completes with READY and STARTUP_DONE. (R736) -/
def execStartupDone (flasks : List (Cru × Fin 33)) (crucibles : List Cru) (units : List (Fin 36)) (s : State) : Host.Outcome State Fault Refusal :=
  s.core (startupDone flasks crucibles units)

/-- STARTUP_FAIL: Start-up ends with FAIL and its cause. (R738) -/
def execStartupFail (code : Fin 4) (s : State) : Host.Outcome State Fault Refusal := s.core (startupFail code)

/-- LOCK_LOSS: Loss of synthesizer lock sets LOCK_LOSS and resets the core for 1 ms. (R725) -/
def execLockLoss (s : State) : Host.Outcome State Fault Refusal := s.core lockLoss

/-- REFCLK_LOSS: REFCLK stopping or drifting beyond 100 ppm puts the synthesizer in HOLD. (R726) -/
def execRefclkLoss (s : State) : Host.Outcome State Fault Refusal := s.core refclkLoss

/-- REFCLK_BACK: REFCLK returns and the synthesizer relocks, slewing, and sets REFCLK_BACK. (R726) -/
def execRefclkBack (s : State) : Host.Outcome State Fault Refusal := s.core refclkBack

/-- CLK_GO: A write of GO to CLK_COMMIT checks the staged values and sets PENDING, or sets STAGE_ERR. (R727) -/
def execClkGo (s : State) : Host.Outcome State Fault Refusal := s.core clkGo

/-- CLK_APPLY: CLK applies spreading and edge settings, ramping the spread over 1 ms. (R727) -/
def execClkApply (s : State) : Host.Outcome State Fault Refusal := s.core clkApply

/-- THERM_WARN: A die sensor reading above WARN_C sets THERM_WARN. (R723) -/
def execThermWarn (core lineA lineB : BitVec 16) (s : State) : Host.Outcome State Fault Refusal := s.core (thermWarn core lineA lineB)

/-- THERMTRIP: A sensor above 125 °C asserts THERMTRIP_N and removes or requires removal of the core rails. (R723) -/
def execThermtrip (core lineA lineB : BitVec 16) (s : State) : Host.Outcome State Fault Refusal := s.act (thermtrip core lineA lineB)

/-- AVS_STEP: The island moves the VCORE VID code by one step toward the lowest code with margin. (R718) -/
def execAvsStep (lowest : Fin 32) (age : BitVec 16) (s : State) : Host.Outcome State Fault Refusal := s.core (avsStep lowest age)

/-- DEFERENCE_END: The side-band bus falls idle and the interframe gap ends, so a deferred frame or heartbeat starts with its LATE value. (R684) -/
def execDeferenceEnd (s : State) : Host.Outcome State Fault Refusal := s.act deferenceEnd

/-- COLLISION: A collision during a side-band transmission makes the island send its jam and begin back-off. (R684) -/
def execCollision (s : State) : Host.Outcome State Fault Refusal := s.act collision

end Sys2Proof.Machine
end

