-- ==== Sys2Proof/Machine/JarrilEvent.lean ====
section
/-! DEFINITION. Interrupts, stops and the run limit (R243 to R252). -/
namespace Sys2Proof.Machine

/-- Whether a thread meets its own conditions for an interrupt by a queue (R245). -/
def Chip.mayInterrupt (s : Chip) (c t q : Nat) : Bool :=
  let x := s.thread c t
  bit x.imask (fld (s.queueCfg c q) 28 23) && x.ie && !x.exl && (x.state = stReady || x.state = stWaiting)

/-- The first message of a queue that has not interrupted a thread: its place (R245). -/
def MsgQueue.urgent (x : MsgQueue) : Option Nat := x.items.findIdx? fun m => !m.interrupted

/-- A message marked as having interrupted a thread. -/
def Chip.markUrgent (s : Chip) (c q i : Nat) : Chip :=
  let k := c * 1024 + q
  let x := s.msgs.queues.get k
  { s with msgs := { s.msgs with queues := s.msgs.queues.set k { x with items := x.items.modify i fun m => { m with interrupted := true } } } }

/-- Whether a thread is at a boundary at which an interrupt or a STOP is taken: it is READY, or its routine is in its prepare phase (R246 to R249, R251, R294). -/
def Thread.atBoundary (x : Thread) : Bool :=
  x.state = stReady || (x.state = stWaiting && (match x.wait with | .routine r => !r.commit | _ => false))

/-- A thread at a boundary: a long instruction in its prepare phase is abandoned, which is counted where it is atomic (R248, R249, R275). -/
def Chip.toBoundary (s : Chip) (c t : Nat) : Chip :=
  match (s.thread c t).wait with
  | .routine r =>
    if (s.thread c t).state = stWaiting then (if s.restartable c t r then s else s.count c t 0x07).abandon c t else s
  | _ => s

/-- INTERRUPT_TAKE: a message in a queue with URGENT set that no thread waits for interrupts the lowest-numbered thread that meets the conditions, at its
next boundary (R245 to R251). [log 55 DESIGN CHOICE] -/
def interruptTake (c : Cru) (q : Fin 1024) (s : Chip) : Chip :=
  match (s.msgs.queues.get (c * 1024 + q)).urgent, (List.range 256).find? fun t => s.mayInterrupt c t q with
  | some i, some t =>
    let x := s.thread c t
    let waited := (s.waiters c).any fun u => (s.thread c u).waitsFor.any fun sel => s.selects c sel q
    if !bit (s.queueCfg c q) 29 || waited || !x.atBoundary || !s.engineRuns c (t / 8) then s
    else (((s.markUrgent c q i).count c t 0x0B).toBoundary c t).trap c t 9 x.ip (w64 q)
  | _, _ => s

/-- STOP_TAKE: a STOP request is taken, and IP stays where an interrupt would have left EPC (R246). -/
def stopTake (c : Cru) (t : Fin 256) (s : Chip) : Chip :=
  let x := s.thread c t
  if x.stopReq && x.atBoundary && s.engineRuns c (t / 8) then
    ((s.toBoundary c t).dropCtrRun c t).updThread c t fun y => { y with state := stStopped, wait := .none, stopReq := false }
  else s

/-- RUNAWAY: a thread READY for more than CRU_RUN_LIMIT engine cycles, two to a tick of FRC, without a wait traps before its next instruction (R58,
R243, R244). [log 56 DESIGN CHOICE] -/
def runaway (c : Cru) (t : Fin 256) (s : Chip) : Chip :=
  let x := s.thread c t
  let limit := s.get (Reg.CRU_RUN_LIMIT c) 31 0
  if limit ≠ 0 && x.state = stReady && s.engineRuns c (t / 8) && limit < 2 * (s.frc - x.readyFrom) then
    let s1 := s.trap c t 10 x.ip 0
    if x.exl then s1 else s1.raise (Reg.CRU_EVENT c) 5
  else s

end Sys2Proof.Machine
end

