-- ==== Sys2Proof/Machine/ExecJarril.lean ====
section
/-! DEFINITION. The commands of the Jarril engines, their threads and control stores, as they act on the whole state: each answers the next state. -/
namespace Sys2Proof.Machine

/-- ADD: ADD writes ra + rb modulo 2^64 to rd. (R237) -/
def execAdd (c : Cru) (t : Fin 256) (rd ra rb : Fin 32) (s : State) : Host.Outcome State Fault Refusal := s.core (jAdd c t rd ra rb)

/-- SUB: SUB writes ra − rb modulo 2^64 to rd. (R237) -/
def execSub (c : Cru) (t : Fin 256) (rd ra rb : Fin 32) (s : State) : Host.Outcome State Fault Refusal := s.core (jSub c t rd ra rb)

/-- AND: AND writes the bitwise AND of ra and rb to rd. (R237) -/
def execAnd (c : Cru) (t : Fin 256) (rd ra rb : Fin 32) (s : State) : Host.Outcome State Fault Refusal := s.core (jAnd c t rd ra rb)

/-- OR: OR writes the bitwise OR of ra and rb to rd. (R237) -/
def execOr (c : Cru) (t : Fin 256) (rd ra rb : Fin 32) (s : State) : Host.Outcome State Fault Refusal := s.core (jOr c t rd ra rb)

/-- XOR: XOR writes the bitwise XOR of ra and rb to rd. (R237) -/
def execXor (c : Cru) (t : Fin 256) (rd ra rb : Fin 32) (s : State) : Host.Outcome State Fault Refusal := s.core (jXor c t rd ra rb)

/-- SHL: SHL shifts ra left by rb[5:0]. (R237) -/
def execShl (c : Cru) (t : Fin 256) (rd ra rb : Fin 32) (s : State) : Host.Outcome State Fault Refusal := s.core (jShl c t rd ra rb)

/-- SHR: SHR shifts ra logically right by rb[5:0]. (R237) -/
def execShr (c : Cru) (t : Fin 256) (rd ra rb : Fin 32) (s : State) : Host.Outcome State Fault Refusal := s.core (jShr c t rd ra rb)

/-- SRA: SRA shifts ra arithmetically right by rb[5:0]. (R237) -/
def execSra (c : Cru) (t : Fin 256) (rd ra rb : Fin 32) (s : State) : Host.Outcome State Fault Refusal := s.core (jSra c t rd ra rb)

/-- ROR: ROR rotates ra right by rb[5:0]. (R237) -/
def execRor (c : Cru) (t : Fin 256) (rd ra rb : Fin 32) (s : State) : Host.Outcome State Fault Refusal := s.core (jRor c t rd ra rb)

/-- CMPEQ: CMPEQ sets rd to 1 when ra equals rb, else 0. (R237) -/
def execCmpeq (c : Cru) (t : Fin 256) (rd ra rb : Fin 32) (s : State) : Host.Outcome State Fault Refusal := s.core (jCmpeq c t rd ra rb)

/-- CMPLT: CMPLT sets rd to 1 when ra < rb signed, else 0. (R237) -/
def execCmplt (c : Cru) (t : Fin 256) (rd ra rb : Fin 32) (s : State) : Host.Outcome State Fault Refusal := s.core (jCmplt c t rd ra rb)

/-- CMPLTU: CMPLTU sets rd to 1 when ra < rb unsigned, else 0. (R237) -/
def execCmpltu (c : Cru) (t : Fin 256) (rd ra rb : Fin 32) (s : State) : Host.Outcome State Fault Refusal := s.core (jCmpltu c t rd ra rb)

/-- CLZ: CLZ writes the number of leading zeros of ra to rd. (R237) -/
def execClz (c : Cru) (t : Fin 256) (rd ra rb : Fin 32) (s : State) : Host.Outcome State Fault Refusal := s.core (jClz c t rd ra rb)

/-- POPC: POPC writes the number of ones in ra to rd. (R237) -/
def execPopc (c : Cru) (t : Fin 256) (rd ra rb : Fin 32) (s : State) : Host.Outcome State Fault Refusal := s.core (jPopc c t rd ra rb)

/-- BSWAP: BSWAP writes the bytes of ra, reversed, to rd. (R237) -/
def execBswap (c : Cru) (t : Fin 256) (rd ra rb : Fin 32) (s : State) : Host.Outcome State Fault Refusal := s.core (jBswap c t rd ra rb)

/-- CRC: CRC continues a CRC-32C from ra over the 8 bytes of rb. (R237) -/
def execCrc (c : Cru) (t : Fin 256) (rd ra rb : Fin 32) (s : State) : Host.Outcome State Fault Refusal := s.core (jCrc c t rd ra rb)

/-- MUL: MUL writes the low 64 bits of ra × rb to rd. (R237) -/
def execMul (c : Cru) (t : Fin 256) (rd ra rb : Fin 32) (s : State) : Host.Outcome State Fault Refusal := s.core (jMul c t rd ra rb)

/-- MULHU: MULHU writes the high 64 bits of the unsigned product to rd. (R237) -/
def execMulhu (c : Cru) (t : Fin 256) (rd ra rb : Fin 32) (s : State) : Host.Outcome State Fault Refusal := s.core (jMulhu c t rd ra rb)

/-- DIVU: DIVU writes the unsigned quotient, or all ones when rb is 0. (R237) -/
def execDivu (c : Cru) (t : Fin 256) (rd ra rb : Fin 32) (s : State) : Host.Outcome State Fault Refusal := s.core (jDivu c t rd ra rb)

/-- REMU: REMU writes the unsigned remainder, or ra when rb is 0. (R237) -/
def execRemu (c : Cru) (t : Fin 256) (rd ra rb : Fin 32) (s : State) : Host.Outcome State Fault Refusal := s.core (jRemu c t rd ra rb)

/-- ADDI: ADDI writes ra plus the sign-extended immediate to rd. (R237) -/
def execAddi (c : Cru) (t : Fin 256) (rd ra : Fin 32) (imm : BitVec 16) (s : State) : Host.Outcome State Fault Refusal :=
  s.core (jAddi c t rd ra imm)

/-- ANDI: ANDI writes ra AND the zero-extended immediate to rd. (R237) -/
def execAndi (c : Cru) (t : Fin 256) (rd ra : Fin 32) (imm : BitVec 16) (s : State) : Host.Outcome State Fault Refusal :=
  s.core (jAndi c t rd ra imm)

/-- ORI: ORI writes ra OR the zero-extended immediate to rd. (R237) -/
def execOri (c : Cru) (t : Fin 256) (rd ra : Fin 32) (imm : BitVec 16) (s : State) : Host.Outcome State Fault Refusal := s.core (jOri c t rd ra imm)

/-- XORI: XORI writes ra XOR the zero-extended immediate to rd. (R237) -/
def execXori (c : Cru) (t : Fin 256) (rd ra : Fin 32) (imm : BitVec 16) (s : State) : Host.Outcome State Fault Refusal :=
  s.core (jXori c t rd ra imm)

/-- SHLI: SHLI shifts ra left by imm[5:0]. (R237) -/
def execShli (c : Cru) (t : Fin 256) (rd ra : Fin 32) (imm : BitVec 16) (s : State) : Host.Outcome State Fault Refusal :=
  s.core (jShli c t rd ra imm)

/-- SHRI: SHRI shifts ra logically right by imm[5:0]. (R237) -/
def execShri (c : Cru) (t : Fin 256) (rd ra : Fin 32) (imm : BitVec 16) (s : State) : Host.Outcome State Fault Refusal :=
  s.core (jShri c t rd ra imm)

/-- SRAI: SRAI shifts ra arithmetically right by imm[5:0]. (R237) -/
def execSrai (c : Cru) (t : Fin 256) (rd ra : Fin 32) (imm : BitVec 16) (s : State) : Host.Outcome State Fault Refusal :=
  s.core (jSrai c t rd ra imm)

/-- CMPLTI: CMPLTI sets rd to 1 when ra < imm signed, else 0. (R237) -/
def execCmplti (c : Cru) (t : Fin 256) (rd ra : Fin 32) (imm : BitVec 16) (s : State) : Host.Outcome State Fault Refusal :=
  s.core (jCmplti c t rd ra imm)

/-- MOVZ: MOVZ writes imm shifted into halfword h, with zeros elsewhere, to rd. (R237) -/
def execMovz (c : Cru) (t : Fin 256) (rd ra : Fin 32) (imm : BitVec 16) (s : State) : Host.Outcome State Fault Refusal :=
  s.core (jMovz c t rd ra imm)

/-- MOVK: MOVK replaces halfword h of rd with imm and keeps the other halfwords. (R237) -/
def execMovk (c : Cru) (t : Fin 256) (rd ra : Fin 32) (imm : BitVec 16) (s : State) : Host.Outcome State Fault Refusal :=
  s.core (jMovk c t rd ra imm)

/-- EXT: EXT extracts a bit field of ra into rd. (R237) -/
def execExt (c : Cru) (t : Fin 256) (rd ra : Fin 32) (imm : BitVec 16) (s : State) : Host.Outcome State Fault Refusal := s.core (jExt c t rd ra imm)

/-- INS: INS inserts the low bits of ra into a field of rd, trapping with ILLEGAL beyond bit 63. (R237) -/
def execIns (c : Cru) (t : Fin 256) (rd ra : Fin 32) (imm : BitVec 16) (s : State) : Host.Outcome State Fault Refusal := s.core (jIns c t rd ra imm)

/-- LD_B: LD.B loads one byte from ra + imm, zero-extended. (R237) -/
def execLdB (c : Cru) (t : Fin 256) (rd ra : Fin 32) (imm : BitVec 16) (s : State) : Host.Outcome State Fault Refusal := s.core (ldB c t rd ra imm)

/-- LD_H: LD.H loads two bytes from ra + imm, zero-extended. (R237) -/
def execLdH (c : Cru) (t : Fin 256) (rd ra : Fin 32) (imm : BitVec 16) (s : State) : Host.Outcome State Fault Refusal := s.core (ldH c t rd ra imm)

/-- LD_W: LD.W loads four bytes from ra + imm, zero-extended. (R237) -/
def execLdW (c : Cru) (t : Fin 256) (rd ra : Fin 32) (imm : BitVec 16) (s : State) : Host.Outcome State Fault Refusal := s.core (ldW c t rd ra imm)

/-- LD_D: LD.D loads eight bytes from ra + imm. (R237) -/
def execLdD (c : Cru) (t : Fin 256) (rd ra : Fin 32) (imm : BitVec 16) (s : State) : Host.Outcome State Fault Refusal := s.core (ldD c t rd ra imm)

/-- LDS_B: LDS.B loads one byte from ra + imm, sign-extended. (R237) -/
def execLdsB (c : Cru) (t : Fin 256) (rd ra : Fin 32) (imm : BitVec 16) (s : State) : Host.Outcome State Fault Refusal := s.core (ldsB c t rd ra imm)

/-- LDS_H: LDS.H loads two bytes from ra + imm, sign-extended. (R237) -/
def execLdsH (c : Cru) (t : Fin 256) (rd ra : Fin 32) (imm : BitVec 16) (s : State) : Host.Outcome State Fault Refusal := s.core (ldsH c t rd ra imm)

/-- LDS_W: LDS.W loads four bytes from ra + imm, sign-extended. (R237) -/
def execLdsW (c : Cru) (t : Fin 256) (rd ra : Fin 32) (imm : BitVec 16) (s : State) : Host.Outcome State Fault Refusal := s.core (ldsW c t rd ra imm)

/-- LOAD_DATA_RETURN: Load data returns from its region, and the waiting thread's load completes. (R227) -/
def execLoadDataReturn (c : Cru) (t : Fin 256) (s : State) : Host.Outcome State Fault Refusal := s.core (loadDataReturn c t)

/-- ST_B: ST.B stores the low byte of the rd-field register to ra + imm. (R237) -/
def execStB (c : Cru) (t : Fin 256) (rd ra : Fin 32) (imm : BitVec 16) (s : State) : Host.Outcome State Fault Refusal := s.core (stB c t rd ra imm)

/-- ST_H: ST.H stores two bytes to ra + imm. (R237) -/
def execStH (c : Cru) (t : Fin 256) (rd ra : Fin 32) (imm : BitVec 16) (s : State) : Host.Outcome State Fault Refusal := s.core (stH c t rd ra imm)

/-- ST_W: ST.W stores four bytes to ra + imm. (R237) -/
def execStW (c : Cru) (t : Fin 256) (rd ra : Fin 32) (imm : BitVec 16) (s : State) : Host.Outcome State Fault Refusal := s.core (stW c t rd ra imm)

/-- ST_D: ST.D stores eight bytes to ra + imm. (R237) -/
def execStD (c : Cru) (t : Fin 256) (rd ra : Fin 32) (imm : BitVec 16) (s : State) : Host.Outcome State Fault Refusal := s.core (stD c t rd ra imm)

/-- AMO_ADD: AMO.ADD adds rb to a crucible-store word atomically and returns the old word. (R233) -/
def execAmoAdd (c : Cru) (t : Fin 256) (rd ra rb : Fin 32) (s : State) : Host.Outcome State Fault Refusal := s.core (amoAdd c t rd ra rb)

/-- AMO_SWAP: AMO.SWAP swaps a crucible-store word with rb atomically and returns the old word. (R233) -/
def execAmoSwap (c : Cru) (t : Fin 256) (rd ra rb : Fin 32) (s : State) : Host.Outcome State Fault Refusal := s.core (amoSwap c t rd ra rb)

/-- AMO_CAS: AMO.CAS writes rb when the word equals rd and returns the old word. (R233) -/
def execAmoCas (c : Cru) (t : Fin 256) (rd ra rb : Fin 32) (s : State) : Host.Outcome State Fault Refusal := s.core (amoCas c t rd ra rb)

/-- BEQ: BEQ branches when ra equals rb. (R237) -/
def execBeq (c : Cru) (t : Fin 256) (ra rb : Fin 32) (disp : BitVec 16) (s : State) : Host.Outcome State Fault Refusal :=
  s.core (jBeq c t ra rb disp)

/-- BNE: BNE branches when ra differs from rb. (R237) -/
def execBne (c : Cru) (t : Fin 256) (ra rb : Fin 32) (disp : BitVec 16) (s : State) : Host.Outcome State Fault Refusal :=
  s.core (jBne c t ra rb disp)

/-- BLT: BLT branches when ra < rb signed. (R237) -/
def execBlt (c : Cru) (t : Fin 256) (ra rb : Fin 32) (disp : BitVec 16) (s : State) : Host.Outcome State Fault Refusal :=
  s.core (jBlt c t ra rb disp)

/-- BGE: BGE branches when ra ≥ rb signed. (R237) -/
def execBge (c : Cru) (t : Fin 256) (ra rb : Fin 32) (disp : BitVec 16) (s : State) : Host.Outcome State Fault Refusal :=
  s.core (jBge c t ra rb disp)

/-- BLTU: BLTU branches when ra < rb unsigned. (R237) -/
def execBltu (c : Cru) (t : Fin 256) (ra rb : Fin 32) (disp : BitVec 16) (s : State) : Host.Outcome State Fault Refusal :=
  s.core (jBltu c t ra rb disp)

/-- BGEU: BGEU branches when ra ≥ rb unsigned. (R237) -/
def execBgeu (c : Cru) (t : Fin 256) (ra rb : Fin 32) (disp : BitVec 16) (s : State) : Host.Outcome State Fault Refusal :=
  s.core (jBgeu c t ra rb disp)

/-- JMP: JMP jumps to IP + 4 × disp. (R237) -/
def execJmp (c : Cru) (t : Fin 256) (disp : BitVec 26) (s : State) : Host.Outcome State Fault Refusal := s.core (jJmp c t disp)

/-- CALL: CALL jumps to IP + 4 × disp and writes IP + 4 to g31. (R237) -/
def execCall (c : Cru) (t : Fin 256) (disp : BitVec 26) (s : State) : Host.Outcome State Fault Refusal := s.core (jCall c t disp)

/-- JR: JR jumps to ra. (R237) -/
def execJr (c : Cru) (t : Fin 256) (ra : Fin 32) (s : State) : Host.Outcome State Fault Refusal := s.core (jJr c t ra)

/-- CALLR: CALLR jumps to ra and writes IP + 4 to g31. (R237) -/
def execCallr (c : Cru) (t : Fin 256) (ra : Fin 32) (s : State) : Host.Outcome State Fault Refusal := s.core (jCallr c t ra)

/-- CTR_RD: CTR.RD reads an engine counter, or traps with CTR_DENIED in program mode without PCU. (R272) -/
def execCtrRd (c : Cru) (t : Fin 256) (rd rb : Fin 32) (s : State) : Host.Outcome State Fault Refusal := s.core (jCtrRd c t rd rb)

/-- SPR_RD: SPR.RD reads a special register, as the mode permits. (R224) -/
def execSprRd (c : Cru) (t : Fin 256) (rd rb : Fin 32) (s : State) : Host.Outcome State Fault Refusal := s.core (jSprRd c t rd rb)

/-- SPR_WR: SPR.WR writes a special register, as the mode permits. (R224) -/
def execSprWr (c : Cru) (t : Fin 256) (ra rb : Fin 32) (s : State) : Host.Outcome State Fault Refusal := s.core (jSprWr c t ra rb)

/-- CTR_WR: CTR.WR sets a PCn counter of this engine in supervisor mode; writes to CYC are ignored. (R237) -/
def execCtrWr (c : Cru) (t : Fin 256) (ra rb : Fin 32) (s : State) : Host.Outcome State Fault Refusal := s.core (jCtrWr c t ra rb)

/-- TRAP: TRAP takes a trap with cause TRAP and the given TRAP_CODE. (R243) -/
def execTrap (c : Cru) (t : Fin 256) (rb : Fin 32) (s : State) : Host.Outcome State Fault Refusal := s.core (jTrap c t rb)

/-- ERET: ERET restores SUPER and IE, clears EXL and continues at EPC. (R241) -/
def execEret (c : Cru) (t : Fin 256) (s : State) : Host.Outcome State Fault Refusal := s.core (jEret c t)

/-- HALT: HALT releases held messages and puts the thread in IDLE. (R237) -/
def execHalt (c : Cru) (t : Fin 256) (s : State) : Host.Outcome State Fault Refusal := s.core (jHalt c t)

/-- YIELD: YIELD passes the issue slot to the next READY thread of equal priority. (R237) -/
def execYield (c : Cru) (t : Fin 256) (s : State) : Host.Outcome State Fault Refusal := s.core (jYield c t)

/-- FENCE: FENCE waits until every earlier store, message and transfer of the thread is visible. (R232) -/
def execFence (c : Cru) (t : Fin 256) (s : State) : Host.Outcome State Fault Refusal := s.core (jFence c t)

/-- TBL_FIND: TBL.FIND looks a key up and returns the entry found, or MISS. (R386) -/
def execTblFind (c : Cru) (t : Fin 256) (rd ra : Fin 32) (fetch : CsFetch) (fault : Bool) (s : State) : Host.Outcome State Fault Refusal :=
  s.core (jTblFind c t rd ra fetch fault)

/-- TBL_INS: TBL.INS inserts an entry, or rewrites it with REPLACE, relocating occupants as needed. (R388) -/
def execTblIns (c : Cru) (t : Fin 256) (rd ra : Fin 32) (fetch : CsFetch) (fault : Bool) (s : State) : Host.Outcome State Fault Refusal :=
  s.core (jTblIns c t rd ra fetch fault)

/-- TBL_DEL: TBL.DEL removes an entry. (R386) -/
def execTblDel (c : Cru) (t : Fin 256) (rd ra : Fin 32) (fetch : CsFetch) (fault : Bool) (s : State) : Host.Outcome State Fault Refusal :=
  s.core (jTblDel c t rd ra fetch fault)

/-- TBL_AGE: TBL.AGE applies one ageing step to an entry and reports the action taken. (R400) -/
def execTblAge (c : Cru) (t : Fin 256) (rd ra : Fin 32) (fetch : CsFetch) (fault : Bool) (s : State) : Host.Outcome State Fault Refusal :=
  s.core (jTblAge c t rd ra fetch fault)

/-- MSG_SEND: MSG.SEND sends a message to a crucible queue or host ring, or injects a frame, and returns a status. (R257) -/
def execMsgSend (c : Cru) (t : Fin 256) (rd ra rb : Fin 32) (fetch : CsFetch) (s : State) : Host.Outcome State Fault Refusal :=
  s.core (jMsgSend c t rd ra rb fetch)

/-- SEND_RESUME: A MSG.SEND with WAIT that met a full queue completes when space frees. (R258) -/
def execSendResume (c : Cru) (t : Fin 256) (s : State) : Host.Outcome State Fault Refusal := s.core (sendResume c t)

/-- MSG_WAIT: MSG.WAIT releases held messages and waits for a message on a queue or group. (R259) -/
def execMsgWait (c : Cru) (t : Fin 256) (rd ra : Fin 32) (fetch : CsFetch) (s : State) : Host.Outcome State Fault Refusal :=
  s.core (jMsgWait c t rd ra fetch)

/-- MESSAGE_DELIVER: An arriving message is delivered to the thread that has waited longest on its queue or group. (R260) -/
def execMessageDeliver (c : Cru) (q : Fin 1024) (s : State) : Host.Outcome State Fault Refusal := s.core (messageDeliver c q)

/-- MSG_DONE: MSG.DONE releases every message the thread holds and begins a new handler. (R262) -/
def execMsgDone (c : Cru) (t : Fin 256) (fetch : CsFetch) (s : State) : Host.Outcome State Fault Refusal := s.core (jMsgDone c t fetch)

/-- MSG_POLL: MSG.POLL takes a message if one is present, or returns 0. (R259) -/
def execMsgPoll (c : Cru) (t : Fin 256) (rd ra : Fin 32) (fetch : CsFetch) (s : State) : Host.Outcome State Fault Refusal :=
  s.core (jMsgPoll c t rd ra fetch)

/-- BLK_COPY: BLK.COPY copies a block unit by unit, restartably, between spaces. (R238) -/
def execBlkCopy (c : Cru) (t : Fin 256) (rd ra rb : Fin 32) (fetch : CsFetch) (now : Fin 1048576) (bad : Bool) (s : State) : Host.Outcome State Fault Refusal :=
  s.core (jBlkCopy c t rd ra rb fetch now bad)

/-- BLK_FILL: BLK.FILL fills a block with an 8-byte value unit by unit. (R238) -/
def execBlkFill (c : Cru) (t : Fin 256) (rd ra rb : Fin 32) (fetch : CsFetch) (now : Fin 1048576) (s : State) : Host.Outcome State Fault Refusal :=
  s.core (jBlkFill c t rd ra rb fetch now)

/-- GRANT_FILL: GRANT.FILL sends a grant list to ALLOC as a map for one tree, wavelength and frame, and returns a status. (R270) -/
def execGrantFill (c : Cru) (t : Fin 256) (rd ra rb : Fin 32) (fetch : CsFetch) (now : Fin 1024) (s : State) : Host.Outcome State Fault Refusal :=
  s.core (jGrantFill c t rd ra rb fetch now)

/-- TIME_READ: TIME.READ returns logical time in whole ns and fraction. (R237) -/
def execTimeRead (c : Cru) (t : Fin 256) (rd : Fin 32) (s : State) : Host.Outcome State Fault Refusal := s.core (jTimeRead c t rd)

/-- TIME_READ_FRC: TIME.READ.FRC returns FRC. (R237) -/
def execTimeReadFrc (c : Cru) (t : Fin 256) (rd : Fin 32) (s : State) : Host.Outcome State Fault Refusal := s.core (jTimeReadFrc c t rd)

/-- TIME_ARM: TIME.ARM arms a trigger slot for a thread start at a logical time, or returns NO_SLOT, PAST or BAD_TARGET. (R266) -/
def execTimeArm (c : Cru) (t : Fin 256) (rd ra : Fin 32) (fetch : CsFetch) (s : State) : Host.Outcome State Fault Refusal :=
  s.core (jTimeArm c t rd ra fetch)

/-- DERIVE: DERIVE loads a slot with a key derived from the root key and LABEL. (R468) -/
def execDerive (c : Cru) (t : Fin 256) (rd ra : Fin 32) (fetch : CsFetch) (s : State) : Host.Outcome State Fault Refusal :=
  s.core (jDerive c t rd ra fetch)

/-- CMAC_DERIVE: CMAC_DERIVE loads a slot with AES-CMAC of DATA under KEY_SLOT. (R471) -/
def execCmacDerive (c : Cru) (t : Fin 256) (rd ra : Fin 32) (fetch : CsFetch) (s : State) : Host.Outcome State Fault Refusal :=
  s.core (jCmacDerive c t rd ra fetch)

/-- MIC: MIC writes AES-CMAC of DATA under KEY_SLOT to OUT. (R471) -/
def execMic (c : Cru) (t : Fin 256) (rd ra : Fin 32) (fetch : CsFetch) (s : State) : Host.Outcome State Fault Refusal :=
  s.core (jMic c t rd ra fetch)

/-- KD_ERASE: The ERASE operation of CRYPT.KD sets a slot EMPTY. (R471) -/
def execKdErase (c : Cru) (t : Fin 256) (rd ra : Fin 32) (fetch : CsFetch) (s : State) : Host.Outcome State Fault Refusal :=
  s.core (jKdErase c t rd ra fetch)

/-- UNWRAP: UNWRAP loads a slot with the KW unwrap of DATA, or returns UNWRAP_FAIL. (R471) -/
def execUnwrap (c : Cru) (t : Fin 256) (rd ra : Fin 32) (fetch : CsFetch) (s : State) : Host.Outcome State Fault Refusal :=
  s.core (jUnwrap c t rd ra fetch)

/-- ECB_IMPORT: ECB_IMPORT loads a slot with the AES-128 decryption of DATA under KEY_SLOT. (R471) -/
def execEcbImport (c : Cru) (t : Fin 256) (rd ra : Fin 32) (fetch : CsFetch) (s : State) : Host.Outcome State Fault Refusal :=
  s.core (jEcbImport c t rd ra fetch)

/-- WRAP_OUT: WRAP_OUT writes the KW wrap of a slot's key under KEY_SLOT to OUT. (R471) -/
def execWrapOut (c : Cru) (t : Fin 256) (rd ra : Fin 32) (fetch : CsFetch) (s : State) : Host.Outcome State Fault Refusal :=
  s.core (jWrapOut c t rd ra fetch)

/-- STATE_SAVE: STATE_SAVE writes a slot's state, wrapped or in the clear where allowed. (R482) -/
def execStateSave (c : Cru) (t : Fin 256) (rd ra : Fin 32) (fetch : CsFetch) (s : State) : Host.Outcome State Fault Refusal :=
  s.core (jStateSave c t rd ra fetch)

/-- STATE_RESTORE: STATE_RESTORE raises a matching slot's USES from a saved state, or returns STALE_STATE. (R484) -/
def execStateRestore (c : Cru) (t : Fin 256) (rd ra : Fin 32) (fetch : CsFetch) (s : State) : Host.Outcome State Fault Refusal :=
  s.core (jStateRestore c t rd ra fetch)

/-- INTERRUPT_TAKE: An urgent message with no waiter interrupts the lowest-numbered eligible thread. (R245) -/
def execInterruptTake (c : Cru) (q : Fin 1024) (s : State) : Host.Outcome State Fault Refusal := s.core (interruptTake c q)

/-- STOP_TAKE: A host STOP request is taken at an interrupt boundary and the thread enters STOPPED. (R246) -/
def execStopTake (c : Cru) (t : Fin 256) (s : State) : Host.Outcome State Fault Refusal := s.core (stopTake c t)

/-- RUNAWAY: A thread READY beyond CRU_RUN_LIMIT cycles without waiting takes a RUNAWAY trap. (R244) -/
def execRunaway (c : Cru) (t : Fin 256) (s : State) : Host.Outcome State Fault Refusal := s.core (runaway c t)

/-- TRIGGER_FIRE: When logical time reaches an armed time, the trigger starts its target thread at ENTRY, or pends the start. (R507) -/
def execTriggerFire (k : Fin 256) (s : State) : Host.Outcome State Fault Refusal := s.core (triggerFire k)

/-- PENDING_START: A pending start begins when its target thread next becomes IDLE. (R268) -/
def execPendingStart (c : Cru) (t : Fin 256) (s : State) : Host.Outcome State Fault Refusal := s.core (pendingStart c t)

/-- THREAD_START: The START bit of CRU_THREAD_CTRL starts an IDLE thread at ENTRY, or sets START_ERR. (R278) -/
def execThreadStart (c : Cru) (t : Fin 256) (s : State) : Host.Outcome State Fault Refusal := s.core (threadStart c t)

/-- THREAD_STOP: The STOP bit of CRU_THREAD_CTRL requests that the selected thread stop. (R278) -/
def execThreadStop (c : Cru) (t : Fin 256) (s : State) : Host.Outcome State Fault Refusal := s.core (threadStop c t)

/-- THREAD_RESUME: The RESUME bit of CRU_THREAD_CTRL continues a STOPPED thread at its IP. (R278) -/
def execThreadResume (c : Cru) (t : Fin 256) (s : State) : Host.Outcome State Fault Refusal := s.core (threadResume c t)

/-- THREAD_RESET: The RESET bit of CRU_THREAD_CTRL puts the thread in IDLE, releases its messages and cancels its pending start. (R278) -/
def execThreadReset (c : Cru) (t : Fin 256) (s : State) : Host.Outcome State Fault Refusal := s.core (threadReset c t)

/-- CRU_MEM_DATA_READ: A read of CRU_MEM_DATA returns the addressed word and advances OFFSET under AUTOINC. (R749) -/
def execCruMemDataRead (c : Cru) (lanes : Lanes) (s : State) : Host.Outcome State Fault Refusal := s.core (cruMemDataRead c lanes)

/-- CRU_MEM_DATA_WRITE: A write of CRU_MEM_DATA writes the addressed memory and advances OFFSET under AUTOINC. (R749) -/
def execCruMemDataWrite (c : Cru) (lanes : Lanes) (v : W64) (s : State) : Host.Outcome State Fault Refusal := s.core (cruMemDataWrite c lanes v)

/-- CRU_QUEUE_GO: A write of GO to CRU_COMMIT checks the staged queue configuration and sets PENDING, or sets STAGE_ERR. (R277) -/
def execCruQueueGo (c : Cru) (s : State) : Host.Outcome State Fault Refusal := s.core (cruQueueGo c)

/-- CRU_QUEUE_APPLY: The crucible applies its staged queue configuration within 2 µs, in a cycle that places no message. (R276) -/
def execCruQueueApply (c : Cru) (s : State) : Host.Outcome State Fault Refusal := s.core (cruQueueApply c)

/-- TRIG_LOG_READ: A read of CRU_TRIG_LOG takes the oldest trigger log entry. (R269) -/
def execTrigLogRead (c : Cru) (e : Ep) (lanes : Lanes) (s : State) : Host.Outcome State Fault Refusal := s.core (trigLogRead c e lanes)

/-- LOAD_GO: A write of GO to CRU_LOAD_CTRL starts a pattern or patch load, or is refused while BUSY. (R308) -/
def execLoadGo (e : Ep) (source : Fin 4) (s : State) : Host.Outcome State Fault Refusal := s.core (loadGo e source)

/-- LOAD_CHECKED: The fetched image passes or fails every check, and a passing load writes the spare reserve bank. (R302) -/
def execLoadChecked (img : Option (List Byte)) (s : State) : Host.Outcome State Fault Refusal := s.core (loadChecked img)

/-- CRUCIBLE_HOLD: At its application point, a crucible holds microcoded dispatch, writes the load's words and ends the hold. (R305) -/
def execCrucibleHold (c : Cru) (s : State) : Host.Outcome State Fault Refusal := s.core (crucibleHold c)

/-- BOOT_LOAD: At start-up the loader loads flash slot A, or slot B if A is refused. (R309) -/
def execBootLoad (readA readB : Bool) (s : State) : Host.Outcome State Fault Refusal := s.core (startupLoad readA readB)

/-- CS_REPAIR: The crucible rewrites an uncorrectable word from the reserve bank it is running, or sets REPAIR_FAIL. (R315) -/
def execCsRepair (c : Cru) (word : Fin 16384) (reserveBad : Bool) (s : State) : Host.Outcome State Fault Refusal :=
  s.core (csRepair c word reserveBad)

/-- CS_SCRUB: The control-store scrubber finds an uncorrectable word and repairs it without stopping a flask. (R318) -/
def execCsScrub (c : Cru) (word : Fin 16384) (reserveBad : Bool) (s : State) : Host.Outcome State Fault Refusal := s.core (csScrub c word reserveBad)

/-- ILLEGAL_INSTRUCTION: Issue of an instruction word with an undefined OP or FN, or a non-zero reserved field, traps with ILLEGAL. (R236) -/
def execIllegalInstruction (c : Cru) (t : Fin 256) (word : BitVec 32) (s : State) : Host.Outcome State Fault Refusal :=
  s.core (illegalInstruction c t word)

/-- WAIT_CONDITION_TRUE: The condition a held microword waits on (table answer, block data, cipher answer, ALLOC acceptance, TIME answer, reserved
space or slot) becomes true and the long instruction goes on. (R288) -/
def execWaitConditionTrue (c : Cru) (t : Fin 256) (s : State) : Host.Outcome State Fault Refusal := s.core (waitConditionTrue c t)

/-- SHORT_WAIT_DONE: A waiting short instruction such as a divide, TIME.READ or FENCE completes and its thread becomes READY again. (R222) -/
def execShortWaitDone (c : Cru) (t : Fin 256) (s : State) : Host.Outcome State Fault Refusal := s.core (shortWaitDone c t)

end Sys2Proof.Machine
end

