-- ==== Sys2Proof/Machine/ExecMem.lean ====
section
/-! DEFINITION. The commands of MEM, as they act on the whole state: each answers the next state. -/
namespace Sys2Proof.Machine

/-- SRAM_SCRUB: The scrubber reads an on-die word, writes back a corrected one and handles an uncorrectable one. (R572) -/
def execSramScrub (w : SramWord) (wrong : BitVec 160) (last : Bool) (s : State) : Host.Outcome State Fault Refusal := s.core (sramScrub w wrong last)

/-- DDR_SCRUB: The scrubber reads a DDR5 line in idle bandwidth and handles its errors. (R572) -/
def execDdrScrub (line : BitVec 34) (first second : BitVec 640) (differ last : Bool) (s : State) : Host.Outcome State Fault Refusal :=
  s.core (ddrScrub line.toNat first second differ last)

/-- MISMATCH_LOG_READ: A read of MEM_MISMATCH_LOG takes its oldest entry. (R576) -/
def execMismatchLogRead (e : Ep) (lanes : Lanes) (s : State) : Host.Outcome State Fault Refusal := s.core (mismatchLogRead e lanes)

/-- MEM_GO: A write of GO to MEM_COMMIT checks the staged MEM_CFG and sets PENDING, or sets STAGE_ERR. (R585) -/
def execMemGo (s : State) : Host.Outcome State Fault Refusal := s.core memGo

/-- MEM_APPLY: MEM applies MEM_CFG within 2 µs. (R585) -/
def execMemApply (s : State) : Host.Outcome State Fault Refusal := s.core memApply

/-- CHAN_OFFLINE: The OFFLINE command takes a channel out of service, or is refused. (R578) -/
def execChanOffline (s : State) : Host.Outcome State Fault Refusal := s.core chanOffline

/-- CHAN_ONLINE: The ONLINE command trains the channel, checks its SPD and starts resilvering. (R579) -/
def execChanOnline (s : State) : Host.Outcome State Fault Refusal := s.core chanOnline

/-- MAKE_PRIMARY: The MAKE_PRIMARY command exchanges the pair's primary and secondary roles. (R574) -/
def execMakePrimary (s : State) : Host.Outcome State Fault Refusal := s.core Sys2Proof.Machine.makePrimary

/-- CLEAR_SUSPECT: The CLEAR_SUSPECT command clears a channel's SUSPECT state. (R587) -/
def execClearSuspect (s : State) : Host.Outcome State Fault Refusal := s.core clearSuspect

/-- TRAINING_DONE: Channel training completes or fails within 2 s. (R580) -/
def execTrainingDone (c : Fin 8) (trained suits : Bool) (capacity : Fin 256) (s : State) : Host.Outcome State Fault Refusal :=
  s.core (startupTraining c trained suits capacity)

/-- RESILVER_DONE: Resilvering completes and the channel becomes ONLINE as secondary. (R579) -/
def execResilverDone (c : Fin 8) (progress : Fin 1001) (s : State) : Host.Outcome State Fault Refusal := s.core (resilverDone c progress)

end Sys2Proof.Machine
end

