-- ==== Sys2Proof/Machine/ExecPkt.lean ====
section
/-! DEFINITION. The commands of the packet pipes: PRS, FWD, TM and CIPH, as they act on the whole state: each answers the next state. -/
namespace Sys2Proof.Machine

/-- PRS_GO: A write of GO to PRS_COMMIT checks the staged copy and sets PENDING, or sets STAGE_ERR. (R345) -/
def execPrsGo (s : State) : Host.Outcome State Fault Refusal := s.core prsGo

/-- PRS_APPLY: The staged copy becomes active under a new EPOCH at a fabric clock with no pass starting. (R344) -/
def execPrsApply (s : State) : Host.Outcome State Fault Refusal := s.core prsApply

/-- EPOCH_DRAINED: When the old epoch's in-flight count reaches 0, PRS copies active to staged, clears PENDING and sets DRAINED. (R344) -/
def execEpochDrained (s : State) : Host.Outcome State Fault Refusal := s.core epochDrained

/-- PIPE_ENTRY: A frame enters a pipe half and its first pass parses, classifies and forwards it. (R321) -/
def execPipeEntry (half : Fin 8) (faults : LookupFaults) (s : State) : Host.Outcome State Fault Refusal := s.core (pipeEntry half.val faults)

/-- RECIRC_PASS: An admitted recirculated pass parses the frame again from the RECIRC result. (R347) -/
def execRecircPass (half : Fin 8) (faults : LookupFaults) (s : State) : Host.Outcome State Fault Refusal := s.core (recircPass half.val faults)

/-- RECIRC_SHED: A recirculation that finds no admission for 64 fabric clocks sends the frame to class SHED. (R349) -/
def execRecircShed (half : Fin 8) (s : State) : Host.Outcome State Fault Refusal := s.core (recircShed half.val)

/-- RS_FIND: The FIND command of PRS_RS_CMD looks a rule up and writes its result. (R338) -/
def execRsFind (bank dst : Fin 8) (s : State) : Host.Outcome State Fault Refusal := s.core (rsFind bank.val dst.val)

/-- RS_INSERT: The INSERT command of PRS_RS_CMD adds a rule, with relocation. (R338) -/
def execRsInsert (bank dst : Fin 8) (s : State) : Host.Outcome State Fault Refusal := s.core (rsInsert bank.val dst.val)

/-- RS_DELETE: The DELETE command of PRS_RS_CMD removes a rule. (R338) -/
def execRsDelete (bank dst : Fin 8) (s : State) : Host.Outcome State Fault Refusal := s.core (rsDelete bank.val dst.val)

/-- RS_CLEAR: The CLEAR command of PRS_RS_CMD empties a bank that is not in use. (R338) -/
def execRsClear (bank dst : Fin 8) (s : State) : Host.Outcome State Fault Refusal := s.core (rsClear bank.val dst.val)

/-- RS_COPY: The COPY command of PRS_RS_CMD replaces bank DST with bank BANK. (R339) -/
def execRsCopy (bank dst : Fin 8) (s : State) : Host.Outcome State Fault Refusal := s.core (rsCopy bank.val dst.val)

/-- RS_CMD_DONE: A rule-bank command completes, writes STATUS and clears RUNNING. (R339) -/
def execRsCmdDone (s : State) : Host.Outcome State Fault Refusal := s.core rsCmdDone

/-- FWD_GO: A write of GO to FWD_COMMIT checks the staged values and sets PENDING, or sets STAGE_ERR. (R401) -/
def execFwdGo (s : State) : Host.Outcome State Fault Refusal := s.core fwdGo

/-- FWD_APPLY: FWD applies its staged values at a fabric clock with no lookup starting, after re-testing table occupancy. (R401) -/
def execFwdApply (s : State) : Host.Outcome State Fault Refusal := s.core fwdApply

/-- EXT_LOOKUP: A lookup that missed on-die is repeated in the DDR5 extension. (R383) -/
def execExtLookup (half : Fin 8) (faults : LookupFaults) (s : State) : Host.Outcome State Fault Refusal := s.core (extLookup half.val faults)

/-- LEARN_EVENT: A partition's learning agent takes the next queued learn event and installs, moves or ignores the entry. (R392) -/
def execLearnEvent (part : Fin 16) (s : State) : Host.Outcome State Fault Refusal := s.core (learnEvent part.val)

/-- SWEEP_VISIT: The sweeper visits an entry and clears HIT, sets AGED or removes it. (R398) -/
def execSweepVisit (table : Fin 2) (s : State) : Host.Outcome State Fault Refusal := s.core (sweepVisit table.val)

/-- SWEEP_PERIOD_WRITE: A write of PERIOD stops, restarts or reschedules the sweeper. (R752) -/
def execSweepPeriodWrite (table : Fin 2) (v : W64) (s : State) : Host.Outcome State Fault Refusal := s.core (sweepPeriodWrite table.val v)

/-- FWD_TBL_FIND: The FIND command of FWD_TBL_CMD looks an entry up for the host. (R402) -/
def execFwdTblFind (flags : Fin 32) (fault : Bool) (s : State) : Host.Outcome State Fault Refusal := s.core (fwdTblFind flags.val fault)

/-- FWD_TBL_INSERT: The INSERT command of FWD_TBL_CMD inserts or replaces an entry for the host. (R402) -/
def execFwdTblInsert (flags : Fin 32) (fault : Bool) (s : State) : Host.Outcome State Fault Refusal := s.core (fwdTblInsert flags.val fault)

/-- FWD_TBL_DELETE: The DELETE command of FWD_TBL_CMD removes an entry for the host. (R402) -/
def execFwdTblDelete (flags : Fin 32) (fault : Bool) (s : State) : Host.Outcome State Fault Refusal := s.core (fwdTblDelete flags.val fault)

/-- FWD_TBL_AGE: The AGE command of FWD_TBL_CMD applies an ageing step for the host. (R402) -/
def execFwdTblAge (flags : Fin 32) (fault : Bool) (s : State) : Host.Outcome State Fault Refusal := s.core (fwdTblAge flags.val fault)

/-- FWD_CMD_DONE: A host table command completes, writes STATUS and FWD_TBL_LOC, and clears RUNNING. (R402) -/
def execFwdCmdDone (s : State) : Host.Outcome State Fault Refusal := s.core fwdCmdDone

/-- TM_GO: A write of GO to TM_COMMIT checks the staged list and registers and sets PENDING, or sets STAGE_ERR. (R445) -/
def execTmGo (s : State) : Host.Outcome State Fault Refusal := s.core tmGo

/-- TM_APPLY: TM applies the whole staged list at one fabric clock and empties it. (R444) -/
def execTmApply (s : State) : Host.Outcome State Fault Refusal := s.core tmApply

/-- REC_PUSH: A write to TM_REC_PUSH appends the selection and three words to the staged list, or sets STAGE_ERR. (R443) -/
def execRecPush (s : State) : Host.Outcome State Fault Refusal := s.core recPush

/-- TM_ADMIT: TM maps a forwarded frame to a queue and admits it or drops it at the first failing step. (R416) -/
def execTmAdmit (half : Fin 8) (ovfBusy : Bool) (s : State) : Host.Outcome State Fault Refusal := s.core (tmAdmit half.val ovfBusy)

/-- TM_SELECT: An egress asks its channel for a frame, and TM chooses one through the hierarchy. (R424) -/
def execTmSelect (ch : Fin 104) (s : State) : Host.Outcome State Fault Refusal := s.core (tmSelect ch)

/-- OVF_RETURN: Overflowed frames are brought back to the packet buffer in queue order. (R430) -/
def execOvfReturn (q : Fin 1048576) (s : State) : Host.Outcome State Fault Refusal := s.core (ovfReturn q.val)

/-- RELEASE_RETRY: A release message that its queue refused is sent again at least every 1 µs. (R433) -/
def execReleaseRetry (s : State) : Host.Outcome State Fault Refusal := s.core releaseRetry

/-- DRAIN_GO: A write of GO to TM_DRAIN_CMD clears the queue's ACCEPT and starts a drain, or starts none. (R437) -/
def execDrainGo (v : W64) (s : State) : Host.Outcome State Fault Refusal := s.core (drainGo v)

/-- DRAIN_DONE: A draining queue becomes empty, RUNNING clears and DRAIN_DONE sets. (R437) -/
def execDrainDone (s : State) : Host.Outcome State Fault Refusal := s.core drainDone

/-- DRAIN_TIMEOUT: When TIMEOUT expires, the frames still queued are dropped and DRAIN_TIMEOUT sets. (R438) -/
def execDrainTimeout (s : State) : Host.Outcome State Fault Refusal := s.core drainTimeout

/-- QUEUE_SAMPLE: TM samples an enabled queue into its sample ring, or discards the sample when the ring is full. (R440) -/
def execQueueSample (q : Fin 1048576) (s : State) : Host.Outcome State Fault Refusal := s.core (queueSample q.val)

/-- CIPH_GO: A write of GO to CIPH_COMMIT checks the staged values and sets PENDING, or sets STAGE_ERR. (R485) -/
def execCiphGo (s : State) : Host.Outcome State Fault Refusal := s.core ciphGo

/-- CIPH_APPLY: CIPH applies CIPH_CFG, the key-store base and the notice destination within 2 µs. (R485) -/
def execCiphApply (s : State) : Host.Outcome State Fault Refusal := s.core ciphApply

/-- SPARE_JOIN: A spare unit passes self-test and joins the idle partner as a pair. (R457) -/
def execSpareJoin (s : State) : Host.Outcome State Fault Refusal := s.core (fun y => y.demotions (spareJoin y))

/-- DRBG_RESEED: Every 1 ms the mask DRBG is reseeded from the entropy source. (R452) -/
def execDrbgReseed (s : State) : Host.Outcome State Fault Refusal := s.core drbgReseed

/-- FAIL_WINDOW_CLOSE: A failure window closes without retirement and FAILS returns to 0. (R481) -/
def execFailWindowClose (k : Fin 40960) (s : State) : Host.Outcome State Fault Refusal := s.core (failWindowClose k.val)

/-- KEYSTORE_REWRITE: CIPH rewrites a slot's key-store record with USES_RESERVED raised. (R474) -/
def execKeystoreRewrite (k : Fin 40960) (s : State) : Host.Outcome State Fault Refusal := s.core (keystoreRewrite k.val)

/-- SLOT_RELOAD: A slot with an uncorrectable error is reloaded from its record, or becomes RETIRED. (R475) -/
def execSlotReload (k : Fin 40960) (s : State) : Host.Outcome State Fault Refusal := s.core (slotReload k.val)

/-- SLOT_IMPORT: The IMPORT command of CIPH_SLOT_CMD loads a key from CIPH_IMPORT0 to CIPH_IMPORT3. (R486) -/
def execSlotImport (slot : Fin 65536) (s : State) : Host.Outcome State Fault Refusal := s.core (slotImport slot.val)

/-- SLOT_ERASE: The ERASE command of CIPH_SLOT_CMD sets a slot EMPTY. (R486) -/
def execSlotErase (slot : Fin 65536) (s : State) : Host.Outcome State Fault Refusal := s.core (slotErase slot.val)

/-- SLOT_RETIRE: The RETIRE command of CIPH_SLOT_CMD sets a slot RETIRED. (R486) -/
def execSlotRetire (slot : Fin 65536) (s : State) : Host.Outcome State Fault Refusal := s.core (slotRetire slot.val)

/-- SLOT_CMD_DONE: A host slot command completes with its STATUS, and CIPH_IMPORT0 to CIPH_IMPORT3 are cleared. (R486) -/
def execSlotCmdDone (s : State) : Host.Outcome State Fault Refusal := s.core slotCmdDone

/-- NOTICE_FIFO_READ: A read of CIPH_NOTICE_FIFO takes the oldest notice entry. (R478) -/
def execNoticeFifoRead (e : Ep) (lanes : Lanes) (s : State) : Host.Outcome State Fault Refusal := s.core (noticeFifoRead e lanes)

/-- HEALTH_TEST_FAIL: A continuous entropy health test fails, setting ENTROPY_FAIL, withholding reseeding and restarting the source. (R453) -/
def execHealthTestFail (s : State) : Host.Outcome State Fault Refusal := s.core healthTestFail

/-- SHAPER_ELIGIBLE: A shaper's tokens refill above 0 and its queue or node becomes eligible within 25.72 ns, so an idle channel can choose a frame.
(R425) -/
def execShaperEligible (kind : Fin 8) (place : Fin 1048576) (s : State) : Host.Outcome State Fault Refusal :=
  s.core (shaperEligible kind.val place.val)

end Sys2Proof.Machine
end

