-- ==== Sys2Proof/Machine/ExecPon.lean ====
section
/-! DEFINITION. The commands of trees: receivers, bandwidth maps and framers, as they act on the whole state: each answers the next state. -/
namespace Sys2Proof.Machine

/-- REGISTER_WRITE: A host, engine or side-band write to a register that has no row of its own acts as its access type defines. (R17) -/
def execRegisterWrite (origin : Origin) (a : BitVec 32) (size : AccessSize) (v : W64) (s : State) : Host.Outcome State Fault Refusal :=
  s.bar0 a (registerWrite origin a.toNat size v)

/-- RC_HIGH_READ: A 32-bit read at offset + 4 of an RC register returns the latched high half, or 0 with no effect. (R20) -/
def execRcHighRead (e : Ep) (a : BitVec 32) (s : State) : Host.Outcome State Fault Refusal := s.bar0 a (highRead e a.toNat)

/-- COUNTER_LOW_READ: A 32-bit read of a counter's low half latches bits [47:32] for the next high-half read by the same endpoint. (R673) -/
def execCounterLowRead (e : Ep) (a : BitVec 32) (s : State) : Host.Outcome State Fault Refusal := s.bar0 a (counterLowRead e a.toNat)

/-- PONU_GO: A write of GO to PONU_COMMIT checks the staged values and sets PENDING, or sets STAGE_ERR. (R122) -/
def execPonuGo (t : Tree) (s : State) : Host.Outcome State Fault Refusal := s.core (ponuGo t)

/-- BURST_END: A granted burst reaches its granted end and ends in exactly one outcome, which is counted. (R92) -/
def execBurstEnd (t : Tree) (w : Wl) (n : BitVec 51) (start : BitVec 16) (x : BurstLight) (s : State) : Host.Outcome State Fault Refusal :=
  s.core (burstEnd t w n.toNat start.toNat x)

/-- QUIET_WINDOW_CLOSE: A ranging grant's quiet window closes and the granted burst ends with the outcome of the first burst decoded in it. (R114) -/
def execQuietWindowClose (t : Tree) (w : Wl) (n : BitVec 51) (start : BitVec 16) (lights : List BurstLight) (s : State) : Host.Outcome State Fault Refusal :=
  s.core (quietWindowClose t w n.toNat start.toNat lights)

/-- UPSTREAM_FRAME_END: An upstream frame ends at the receiver and its LOS run and dark-light total are judged. (R95) -/
def execUpstreamFrameEnd (t : Tree) (w : Wl) (n : BitVec 51) (light : Bool) (spans : List DarkSpan) (s : State) : Host.Outcome State Fault Refusal :=
  s.core (upstreamFrameEnd t w n.toNat light spans)

/-- BURST_SUMMARY: Once every burst granted in a frame's map has ended, the receiver sends that frame's summary message. (R98) -/
def execBurstSummary (t : Tree) (w : Wl) (n : BitVec 51) (spans : List DarkSpan) (s : State) : Host.Outcome State Fault Refusal :=
  s.core (burstSummary t w n.toNat spans)

/-- XGEM_DEFRAME: An XGEM frame leaves the deframer and is passed to CIPH and the pipe if its port binds to the burst's ONU-ID. (R86) -/
def execXgemDeframe (t : Tree) (w : Wl) (n : BitVec 51) (start : BitVec 16) (a : Fin 1024) (x : XgemLight) (unit : UnitReport) (s : State) : Host.Outcome State Fault Refusal :=
  s.core (fun y => y.demotions (xgemDeframe t w n.toNat start.toNat a.val x unit y))

/-- FRAG_TIMEOUT: A partial frame is discarded after eight upstream frames pass without a burst of its Alloc-ID. (R90) -/
def execFragTimeout (t : Tree) (w : Wl) (alloc : Fin 16384) (s : State) : Host.Outcome State Fault Refusal := s.core (fragTimeout t w alloc)

/-- ALLOC_GO: A write of GO to ALLOC_COMMIT checks the staged values and sets PENDING, or sets STAGE_ERR. (R163) -/
def execAllocGo (s : State) : Host.Outcome State Fault Refusal := s.core allocGo

/-- ALLOC_REC_WRITE: A write of an Alloc or terminal record through ALLOC_REC_DATA or the ALLOC window applies, or is refused as a duplicate or over
the terminal limit. (R130) -/
def execAllocRecWrite (t : Tree) (w : Wl) (kind : Fin 4) (idx : Fin 4096) (v : W64) (s : State) : Host.Outcome State Fault Refusal :=
  s.core (allocRecWrite t w kind idx v)

/-- ALLOC_OWNER_WRITE: A 64-bit write to ALLOC_OWNER sets OLD, NEW and FROM_FRAME, or is discarded and sets OWNER_ERR. (R166) -/
def execAllocOwnerWrite (t : Tree) (lanes : Lanes) (v : W64) (s : State) : Host.Outcome State Fault Refusal := s.core (allocOwnerWrite t lanes v)

/-- MAP_VERDICT: The grant checker applies every rule to a complete map and gives its verdict. (R153) -/
def execMapVerdict (t : Tree) (w : Wl) (n : BitVec 51) (s : State) : Host.Outcome State Fault Refusal := s.core (mapVerdict t w n.toNat)

/-- CHECKER_DEADLINE: At t0(n) − 6 µs, any map for frame n that is not complete is LATE and the frame is treated as refused. (R136) -/
def execCheckerDeadline (t : Tree) (w : Wl) (s : State) : Host.Outcome State Fault Refusal := s.core (checkerDeadline t w)

/-- MAP_TAKE: At t0(n) − 3 µs, POND takes the passed map, or the repeat, together with the PLOAMd entries queued by then. (R138) -/
def execMapTake (t : Tree) (w : Wl) (s : State) : Host.Outcome State Fault Refusal := s.core (mapTake t w)

/-- POND_GO: A write of GO to POND_COMMIT checks the staged values and sets PENDING, or sets STAGE_ERR. (R215) -/
def execPondGo (t : Tree) (s : State) : Host.Outcome State Fault Refusal := s.core (pondGo t)

/-- TIMING_ARM: A write of ARM, accepted only while the tree's transmitters and receivers are disabled, stops any running timing and starts frame
FC_START at START_TIME. (R174) -/
def execTimingArm (t : Tree) (s : State) : Host.Outcome State Fault Refusal := s.core (timingArm t)

/-- FRAME_START: Every 19,440 REFCLK periods a tree's next downstream frame begins and its frame count advances. (R176) -/
def execFrameStart (t : Tree) (s : State) : Host.Outcome State Fault Refusal := s.core (frameStart t)

/-- TX_ENABLE_WRITE: A write of a transmitter enable in POND_CTRL starts or stops the wavelength's transmitter at a frame boundary. (R178) -/
def execTxEnableWrite (t : Tree) (en0 en1 : Bool) (s : State) : Host.Outcome State Fault Refusal := s.core (txEnableWrite t en0 en1)

/-- PLOAM_FLUSH: A write of a FLUSH bit empties the wavelength's PLOAM queue without sending its entries. (R187) -/
def execPloamFlush (t : Tree) (w : Wl) (s : State) : Host.Outcome State Fault Refusal := s.core (ploamFlush t w)

/-- PLOAM_HOST_POST: A write to POND_PLOAM_HOST7 posts the eight host registers as one PLOAM entry, or discards it when the queue is full. (R184) -/
def execPloamHostPost (t : Tree) (w : Wl) (lanes : Lanes) (v : W64) (s : State) : Host.Outcome State Fault Refusal :=
  s.core (ploamHostPost t w lanes v)

/-- SDU_PLACE: POND takes an SDU from TM and wraps it, or a fragment of it, in an XGEM frame of the downstream frame. (R189) -/
def execSduPlace (t : Tree) (w : Wl) (unit : UnitReport) (s : State) : Host.Outcome State Fault Refusal :=
  s.core (fun y => y.demotions (sduPlace t w unit y))

/-- TOD_ARM: A write of a frame count with ARMED 1 to POND_TOD_ARM arms a time-of-day capture. (R205) -/
def execTodArm (t : Tree) (v : W64) (s : State) : Host.Outcome State Fault Refusal := s.core (todArm t v)

/-- STAT_SEL_WRITE: A write of POND_STAT_SEL sets BUSY and starts a copy of the selected context's counters. (R209) -/
def execStatSelWrite (t : Tree) (v : W64) (s : State) : Host.Outcome State Fault Refusal := s.core (statSelWrite t v)

/-- STAT_COPY_DONE: Within 2 µs, the selected context's three counters reach the POND_STAT registers and BUSY clears. (R209) -/
def execStatCopyDone (t : Tree) (s : State) : Host.Outcome State Fault Refusal := s.core (statCopyDone t)

/-- STAT_WRITE: A write to a POND_STAT counter register while BUSY is 0 sets both the context counter and the copy. (R210) -/
def execStatWrite (t : Tree) (k : Fin 3) (x : LaneWrite) (s : State) : Host.Outcome State Fault Refusal := s.core (statWrite t k x)

/-- STAT_FOLD: The device folds on-die per-context accumulators into DDR5 before any of them can overflow. (R208) -/
def execStatFold (t : Tree) (ctx : Fin 32768) (dir : Fin 2) (s : State) : Host.Outcome State Fault Refusal := s.core (statFold t ctx dir)

/-- STAT_HALF_FIFO_READ: A read of POND_STAT_HALF_FIFO takes its oldest entry. (R20) -/
def execStatHalfFifoRead (t : Tree) (e : Ep) (lanes : Lanes) (s : State) : Host.Outcome State Fault Refusal := s.core (statHalfFifoRead t e lanes)

end Sys2Proof.Machine
end

