-- ==== Sys2Proof/Machine/ExecTime.lean ====
section
/-! DEFINITION. The commands of TIME, as they act on the whole state: each answers the next state. -/
namespace Sys2Proof.Machine

/-- TIME_GO: A write of GO to TIME_COMMIT checks the staged values and sets PENDING, or sets STAGE_ERR. (R528) -/
def execTimeGo (s : State) : Host.Outcome State Fault Refusal := s.core timeGo

/-- TIME_APPLY: TIME applies its staged values between servo updates. (R528) -/
def execTimeApply (s : State) : Host.Outcome State Fault Refusal := s.core timeApply

/-- TIME_TICK: FRC increments by one each time-domain tick. (R489) -/
def execTimeTick (n : BitVec 32) (s : State) : Host.Outcome State Fault Refusal := s.act (tick n.toNat)

/-- TIME_NOW_READ: A read of TIME_NOW_NS captures logical time and FRC at one tick and latches them. (R494) -/
def execTimeNowRead (lanes : Lanes) (s : State) : Host.Outcome State Fault Refusal := s.core (timeNowRead lanes)

/-- TIME_SET: The SET bit of TIME_SET_CTRL steps logical time to TIME_SET_NS at the next tick. (R492) -/
def execTimeSet (v : W64) (s : State) : Host.Outcome State Fault Refusal := s.core (timeSet v)

/-- TIME_ADJ_WRITE: A write to TIME_ADJ adds to OFFSET at the next tick as a step. (R492) -/
def execTimeAdjWrite (o : Origin) (v : W64) (s : State) : Host.Outcome State Fault Refusal := s.core (timeAdjWrite o v)

/-- TIME_RATE_WRITE: A write to TIME_RATE changes RATE, or is discarded and sets WRITE_DENIED. (R512) -/
def execTimeRateWrite (v : W64) (s : State) : Host.Outcome State Fault Refusal := s.core (timeRateWrite v)

/-- TIN_CAPTURE: An enabled input captures an edge into its FIFO and passes it to the phase detector. (R499) -/
def execTinCapture (n : Fin 4) (rising : Bool) (k : Fin 8) (s : State) : Host.Outcome State Fault Refusal := s.core (tinCapture n rising k)

/-- TIN_FIFO_READ: A read of a TIME_TINn_FIFO takes its oldest capture. (R20) -/
def execTinFifoRead (e : Ep) (lanes : Lanes) (n : Fin 4) (s : State) : Host.Outcome State Fault Refusal := s.core (tinFifoRead e lanes n)

/-- SERVO_INPUT_WRITE: A write of TIME_SERVO_INPUT supplies a measurement when SRC is 5, or is discarded. (R510) -/
def execServoInputWrite (v : W64) (s : State) : Host.Outcome State Fault Refusal := s.core (servoInputWrite v)

/-- SERVO_LOSS: No accepted measurement for LOSS_MS takes the servo to HOLDOVER or FREE. (R513) -/
def execServoLoss (s : State) : Host.Outcome State Fault Refusal := s.core servoLoss

/-- FIT_SAMPLE: Each second in LOCKED, TIME takes a sample and refits the holdover model. (R518) -/
def execFitSample (s : State) : Host.Outcome State Fault Refusal := s.core fitSample

/-- HOLDOVER_UPDATE: Each second in HOLDOVER, y is set from the model plus D0 or held. (R519) -/
def execHoldoverUpdate (s : State) : Host.Outcome State Fault Refusal := s.core holdoverUpdate

/-- HO_COEFF_WRITE: A write of a model coefficient or TIME_HO_REF applies while FIT_EN is 0, or sets WRITE_DENIED. (R520) -/
def execHoCoeffWrite (k : Fin 5) (v : W64) (s : State) : Host.Outcome State Fault Refusal := s.core (hoCoeffWrite k v)

/-- TOUT_EDGE: An enabled output drives edge k at START + k × PERIOD. (R502) -/
def execToutEdge (n : Fin 8) (s : State) : Host.Outcome State Fault Refusal := s.core (toutEdge n)

/-- TRIG_CANCEL: A write of a handle to TIME_TRIG_CANCEL frees the slot when the generation matches. (R509) -/
def execTrigCancel (v : W64) (s : State) : Host.Outcome State Fault Refusal := s.core (trigCancel v)

/-- STEER_WRITE: The steering port sends a steering word for a new y when the bus is free. (R524) -/
def execSteerWrite (s : State) : Host.Outcome State Fault Refusal := s.core steerWrite

/-- TEMP_READ: Once per second TIME reads the oscillator temperature sensor and accepts or discards the reading. (R525) -/
def execTempRead (raw : BitVec 32) (s : State) : Host.Outcome State Fault Refusal := s.core (tempRead raw)

/-- RCLK_SQUELCH: A recovered clock output is held low when its lane loses lock, and resumes at relock. (R526) -/
def execRclkSquelch (r : Fin 2) (locked : Bool) (s : State) : Host.Outcome State Fault Refusal := s.core (rclkSquelch r locked)

end Sys2Proof.Machine
end

