-- ==== Sys2Proof/Machine/Dispatch.lean ====
section
/-! DEFINITION. The meaning of each command. -/
namespace Sys2Proof.Machine

def exec (i : Instr) (s : State) : Host.Outcome State Fault Refusal :=
  match i with
  | .registerWrite origin a size v => Sys2Proof.Machine.execRegisterWrite origin a size v s
  | .rcHighRead e a => Sys2Proof.Machine.execRcHighRead e a s
  | .counterLowRead e a => Sys2Proof.Machine.execCounterLowRead e a s
  | .ponuGo t => Sys2Proof.Machine.execPonuGo t s
  | .burstEnd t w n start x => Sys2Proof.Machine.execBurstEnd t w n start x s
  | .quietWindowClose t w n start lights => Sys2Proof.Machine.execQuietWindowClose t w n start lights s
  | .upstreamFrameEnd t w n light spans => Sys2Proof.Machine.execUpstreamFrameEnd t w n light spans s
  | .burstSummary t w n spans => Sys2Proof.Machine.execBurstSummary t w n spans s
  | .xgemDeframe t w n start a x unit => Sys2Proof.Machine.execXgemDeframe t w n start a x unit s
  | .fragTimeout t w alloc => Sys2Proof.Machine.execFragTimeout t w alloc s
  | .allocGo => Sys2Proof.Machine.execAllocGo s
  | .allocRecWrite t w kind idx v => Sys2Proof.Machine.execAllocRecWrite t w kind idx v s
  | .allocOwnerWrite t lanes v => Sys2Proof.Machine.execAllocOwnerWrite t lanes v s
  | .mapVerdict t w n => Sys2Proof.Machine.execMapVerdict t w n s
  | .checkerDeadline t w => Sys2Proof.Machine.execCheckerDeadline t w s
  | .mapTake t w => Sys2Proof.Machine.execMapTake t w s
  | .pondGo t => Sys2Proof.Machine.execPondGo t s
  | .timingArm t => Sys2Proof.Machine.execTimingArm t s
  | .frameStart t => Sys2Proof.Machine.execFrameStart t s
  | .txEnableWrite t en0 en1 => Sys2Proof.Machine.execTxEnableWrite t en0 en1 s
  | .ploamFlush t w => Sys2Proof.Machine.execPloamFlush t w s
  | .ploamHostPost t w lanes v => Sys2Proof.Machine.execPloamHostPost t w lanes v s
  | .sduPlace t w unit => Sys2Proof.Machine.execSduPlace t w unit s
  | .todArm t v => Sys2Proof.Machine.execTodArm t v s
  | .statSelWrite t v => Sys2Proof.Machine.execStatSelWrite t v s
  | .statCopyDone t => Sys2Proof.Machine.execStatCopyDone t s
  | .statWrite t k x => Sys2Proof.Machine.execStatWrite t k x s
  | .statFold t ctx dir => Sys2Proof.Machine.execStatFold t ctx dir s
  | .statHalfFifoRead t e lanes => Sys2Proof.Machine.execStatHalfFifoRead t e lanes s
  | .add c t rd ra rb => Sys2Proof.Machine.execAdd c t rd ra rb s
  | .sub c t rd ra rb => Sys2Proof.Machine.execSub c t rd ra rb s
  | .and c t rd ra rb => Sys2Proof.Machine.execAnd c t rd ra rb s
  | .or c t rd ra rb => Sys2Proof.Machine.execOr c t rd ra rb s
  | .xor c t rd ra rb => Sys2Proof.Machine.execXor c t rd ra rb s
  | .shl c t rd ra rb => Sys2Proof.Machine.execShl c t rd ra rb s
  | .shr c t rd ra rb => Sys2Proof.Machine.execShr c t rd ra rb s
  | .sra c t rd ra rb => Sys2Proof.Machine.execSra c t rd ra rb s
  | .ror c t rd ra rb => Sys2Proof.Machine.execRor c t rd ra rb s
  | .cmpeq c t rd ra rb => Sys2Proof.Machine.execCmpeq c t rd ra rb s
  | .cmplt c t rd ra rb => Sys2Proof.Machine.execCmplt c t rd ra rb s
  | .cmpltu c t rd ra rb => Sys2Proof.Machine.execCmpltu c t rd ra rb s
  | .clz c t rd ra rb => Sys2Proof.Machine.execClz c t rd ra rb s
  | .popc c t rd ra rb => Sys2Proof.Machine.execPopc c t rd ra rb s
  | .bswap c t rd ra rb => Sys2Proof.Machine.execBswap c t rd ra rb s
  | .crc c t rd ra rb => Sys2Proof.Machine.execCrc c t rd ra rb s
  | .mul c t rd ra rb => Sys2Proof.Machine.execMul c t rd ra rb s
  | .mulhu c t rd ra rb => Sys2Proof.Machine.execMulhu c t rd ra rb s
  | .divu c t rd ra rb => Sys2Proof.Machine.execDivu c t rd ra rb s
  | .remu c t rd ra rb => Sys2Proof.Machine.execRemu c t rd ra rb s
  | .addi c t rd ra imm => Sys2Proof.Machine.execAddi c t rd ra imm s
  | .andi c t rd ra imm => Sys2Proof.Machine.execAndi c t rd ra imm s
  | .ori c t rd ra imm => Sys2Proof.Machine.execOri c t rd ra imm s
  | .xori c t rd ra imm => Sys2Proof.Machine.execXori c t rd ra imm s
  | .shli c t rd ra imm => Sys2Proof.Machine.execShli c t rd ra imm s
  | .shri c t rd ra imm => Sys2Proof.Machine.execShri c t rd ra imm s
  | .srai c t rd ra imm => Sys2Proof.Machine.execSrai c t rd ra imm s
  | .cmplti c t rd ra imm => Sys2Proof.Machine.execCmplti c t rd ra imm s
  | .movz c t rd ra imm => Sys2Proof.Machine.execMovz c t rd ra imm s
  | .movk c t rd ra imm => Sys2Proof.Machine.execMovk c t rd ra imm s
  | .ext c t rd ra imm => Sys2Proof.Machine.execExt c t rd ra imm s
  | .ins c t rd ra imm => Sys2Proof.Machine.execIns c t rd ra imm s
  | .ldB c t rd ra imm => Sys2Proof.Machine.execLdB c t rd ra imm s
  | .ldH c t rd ra imm => Sys2Proof.Machine.execLdH c t rd ra imm s
  | .ldW c t rd ra imm => Sys2Proof.Machine.execLdW c t rd ra imm s
  | .ldD c t rd ra imm => Sys2Proof.Machine.execLdD c t rd ra imm s
  | .ldsB c t rd ra imm => Sys2Proof.Machine.execLdsB c t rd ra imm s
  | .ldsH c t rd ra imm => Sys2Proof.Machine.execLdsH c t rd ra imm s
  | .ldsW c t rd ra imm => Sys2Proof.Machine.execLdsW c t rd ra imm s
  | .loadDataReturn c t => Sys2Proof.Machine.execLoadDataReturn c t s
  | .stB c t rd ra imm => Sys2Proof.Machine.execStB c t rd ra imm s
  | .stH c t rd ra imm => Sys2Proof.Machine.execStH c t rd ra imm s
  | .stW c t rd ra imm => Sys2Proof.Machine.execStW c t rd ra imm s
  | .stD c t rd ra imm => Sys2Proof.Machine.execStD c t rd ra imm s
  | .amoAdd c t rd ra rb => Sys2Proof.Machine.execAmoAdd c t rd ra rb s
  | .amoSwap c t rd ra rb => Sys2Proof.Machine.execAmoSwap c t rd ra rb s
  | .amoCas c t rd ra rb => Sys2Proof.Machine.execAmoCas c t rd ra rb s
  | .beq c t ra rb disp => Sys2Proof.Machine.execBeq c t ra rb disp s
  | .bne c t ra rb disp => Sys2Proof.Machine.execBne c t ra rb disp s
  | .blt c t ra rb disp => Sys2Proof.Machine.execBlt c t ra rb disp s
  | .bge c t ra rb disp => Sys2Proof.Machine.execBge c t ra rb disp s
  | .bltu c t ra rb disp => Sys2Proof.Machine.execBltu c t ra rb disp s
  | .bgeu c t ra rb disp => Sys2Proof.Machine.execBgeu c t ra rb disp s
  | .jmp c t disp => Sys2Proof.Machine.execJmp c t disp s
  | .call c t disp => Sys2Proof.Machine.execCall c t disp s
  | .jr c t ra => Sys2Proof.Machine.execJr c t ra s
  | .callr c t ra => Sys2Proof.Machine.execCallr c t ra s
  | .ctrRd c t rd rb => Sys2Proof.Machine.execCtrRd c t rd rb s
  | .sprRd c t rd rb => Sys2Proof.Machine.execSprRd c t rd rb s
  | .sprWr c t ra rb => Sys2Proof.Machine.execSprWr c t ra rb s
  | .ctrWr c t ra rb => Sys2Proof.Machine.execCtrWr c t ra rb s
  | .trap c t rb => Sys2Proof.Machine.execTrap c t rb s
  | .eret c t => Sys2Proof.Machine.execEret c t s
  | .halt c t => Sys2Proof.Machine.execHalt c t s
  | .yield c t => Sys2Proof.Machine.execYield c t s
  | .fence c t => Sys2Proof.Machine.execFence c t s
  | .tblFind c t rd ra fetch fault => Sys2Proof.Machine.execTblFind c t rd ra fetch fault s
  | .tblIns c t rd ra fetch fault => Sys2Proof.Machine.execTblIns c t rd ra fetch fault s
  | .tblDel c t rd ra fetch fault => Sys2Proof.Machine.execTblDel c t rd ra fetch fault s
  | .tblAge c t rd ra fetch fault => Sys2Proof.Machine.execTblAge c t rd ra fetch fault s
  | .msgSend c t rd ra rb fetch => Sys2Proof.Machine.execMsgSend c t rd ra rb fetch s
  | .sendResume c t => Sys2Proof.Machine.execSendResume c t s
  | .msgWait c t rd ra fetch => Sys2Proof.Machine.execMsgWait c t rd ra fetch s
  | .messageDeliver c q => Sys2Proof.Machine.execMessageDeliver c q s
  | .msgDone c t fetch => Sys2Proof.Machine.execMsgDone c t fetch s
  | .msgPoll c t rd ra fetch => Sys2Proof.Machine.execMsgPoll c t rd ra fetch s
  | .blkCopy c t rd ra rb fetch now bad => Sys2Proof.Machine.execBlkCopy c t rd ra rb fetch now bad s
  | .blkFill c t rd ra rb fetch now => Sys2Proof.Machine.execBlkFill c t rd ra rb fetch now s
  | .grantFill c t rd ra rb fetch now => Sys2Proof.Machine.execGrantFill c t rd ra rb fetch now s
  | .timeRead c t rd => Sys2Proof.Machine.execTimeRead c t rd s
  | .timeReadFrc c t rd => Sys2Proof.Machine.execTimeReadFrc c t rd s
  | .timeArm c t rd ra fetch => Sys2Proof.Machine.execTimeArm c t rd ra fetch s
  | .derive c t rd ra fetch => Sys2Proof.Machine.execDerive c t rd ra fetch s
  | .cmacDerive c t rd ra fetch => Sys2Proof.Machine.execCmacDerive c t rd ra fetch s
  | .mic c t rd ra fetch => Sys2Proof.Machine.execMic c t rd ra fetch s
  | .kdErase c t rd ra fetch => Sys2Proof.Machine.execKdErase c t rd ra fetch s
  | .unwrap c t rd ra fetch => Sys2Proof.Machine.execUnwrap c t rd ra fetch s
  | .ecbImport c t rd ra fetch => Sys2Proof.Machine.execEcbImport c t rd ra fetch s
  | .wrapOut c t rd ra fetch => Sys2Proof.Machine.execWrapOut c t rd ra fetch s
  | .stateSave c t rd ra fetch => Sys2Proof.Machine.execStateSave c t rd ra fetch s
  | .stateRestore c t rd ra fetch => Sys2Proof.Machine.execStateRestore c t rd ra fetch s
  | .interruptTake c q => Sys2Proof.Machine.execInterruptTake c q s
  | .stopTake c t => Sys2Proof.Machine.execStopTake c t s
  | .runaway c t => Sys2Proof.Machine.execRunaway c t s
  | .triggerFire k => Sys2Proof.Machine.execTriggerFire k s
  | .pendingStart c t => Sys2Proof.Machine.execPendingStart c t s
  | .threadStart c t => Sys2Proof.Machine.execThreadStart c t s
  | .threadStop c t => Sys2Proof.Machine.execThreadStop c t s
  | .threadResume c t => Sys2Proof.Machine.execThreadResume c t s
  | .threadReset c t => Sys2Proof.Machine.execThreadReset c t s
  | .cruMemDataRead c lanes => Sys2Proof.Machine.execCruMemDataRead c lanes s
  | .cruMemDataWrite c lanes v => Sys2Proof.Machine.execCruMemDataWrite c lanes v s
  | .cruQueueGo c => Sys2Proof.Machine.execCruQueueGo c s
  | .cruQueueApply c => Sys2Proof.Machine.execCruQueueApply c s
  | .trigLogRead c e lanes => Sys2Proof.Machine.execTrigLogRead c e lanes s
  | .loadGo e source => Sys2Proof.Machine.execLoadGo e source s
  | .loadChecked img => Sys2Proof.Machine.execLoadChecked img s
  | .crucibleHold c => Sys2Proof.Machine.execCrucibleHold c s
  | .bootLoad readA readB => Sys2Proof.Machine.execBootLoad readA readB s
  | .csRepair c word reserveBad => Sys2Proof.Machine.execCsRepair c word reserveBad s
  | .csScrub c word reserveBad => Sys2Proof.Machine.execCsScrub c word reserveBad s
  | .prsGo => Sys2Proof.Machine.execPrsGo s
  | .prsApply => Sys2Proof.Machine.execPrsApply s
  | .epochDrained => Sys2Proof.Machine.execEpochDrained s
  | .pipeEntry half faults => Sys2Proof.Machine.execPipeEntry half faults s
  | .recircPass half faults => Sys2Proof.Machine.execRecircPass half faults s
  | .recircShed half => Sys2Proof.Machine.execRecircShed half s
  | .rsFind bank dst => Sys2Proof.Machine.execRsFind bank dst s
  | .rsInsert bank dst => Sys2Proof.Machine.execRsInsert bank dst s
  | .rsDelete bank dst => Sys2Proof.Machine.execRsDelete bank dst s
  | .rsClear bank dst => Sys2Proof.Machine.execRsClear bank dst s
  | .rsCopy bank dst => Sys2Proof.Machine.execRsCopy bank dst s
  | .rsCmdDone => Sys2Proof.Machine.execRsCmdDone s
  | .fwdGo => Sys2Proof.Machine.execFwdGo s
  | .fwdApply => Sys2Proof.Machine.execFwdApply s
  | .extLookup half faults => Sys2Proof.Machine.execExtLookup half faults s
  | .learnEvent part => Sys2Proof.Machine.execLearnEvent part s
  | .sweepVisit table => Sys2Proof.Machine.execSweepVisit table s
  | .sweepPeriodWrite table v => Sys2Proof.Machine.execSweepPeriodWrite table v s
  | .fwdTblFind flags fault => Sys2Proof.Machine.execFwdTblFind flags fault s
  | .fwdTblInsert flags fault => Sys2Proof.Machine.execFwdTblInsert flags fault s
  | .fwdTblDelete flags fault => Sys2Proof.Machine.execFwdTblDelete flags fault s
  | .fwdTblAge flags fault => Sys2Proof.Machine.execFwdTblAge flags fault s
  | .fwdCmdDone => Sys2Proof.Machine.execFwdCmdDone s
  | .tmGo => Sys2Proof.Machine.execTmGo s
  | .tmApply => Sys2Proof.Machine.execTmApply s
  | .recPush => Sys2Proof.Machine.execRecPush s
  | .tmAdmit half ovfBusy => Sys2Proof.Machine.execTmAdmit half ovfBusy s
  | .tmSelect ch => Sys2Proof.Machine.execTmSelect ch s
  | .ovfReturn q => Sys2Proof.Machine.execOvfReturn q s
  | .releaseRetry => Sys2Proof.Machine.execReleaseRetry s
  | .drainGo v => Sys2Proof.Machine.execDrainGo v s
  | .drainDone => Sys2Proof.Machine.execDrainDone s
  | .drainTimeout => Sys2Proof.Machine.execDrainTimeout s
  | .queueSample q => Sys2Proof.Machine.execQueueSample q s
  | .ciphGo => Sys2Proof.Machine.execCiphGo s
  | .ciphApply => Sys2Proof.Machine.execCiphApply s
  | .spareJoin => Sys2Proof.Machine.execSpareJoin s
  | .drbgReseed => Sys2Proof.Machine.execDrbgReseed s
  | .failWindowClose k => Sys2Proof.Machine.execFailWindowClose k s
  | .keystoreRewrite k => Sys2Proof.Machine.execKeystoreRewrite k s
  | .slotReload k => Sys2Proof.Machine.execSlotReload k s
  | .slotImport slot => Sys2Proof.Machine.execSlotImport slot s
  | .slotErase slot => Sys2Proof.Machine.execSlotErase slot s
  | .slotRetire slot => Sys2Proof.Machine.execSlotRetire slot s
  | .slotCmdDone => Sys2Proof.Machine.execSlotCmdDone s
  | .noticeFifoRead e lanes => Sys2Proof.Machine.execNoticeFifoRead e lanes s
  | .timeGo => Sys2Proof.Machine.execTimeGo s
  | .timeApply => Sys2Proof.Machine.execTimeApply s
  | .timeTick n => Sys2Proof.Machine.execTimeTick n s
  | .timeNowRead lanes => Sys2Proof.Machine.execTimeNowRead lanes s
  | .timeSet v => Sys2Proof.Machine.execTimeSet v s
  | .timeAdjWrite o v => Sys2Proof.Machine.execTimeAdjWrite o v s
  | .timeRateWrite v => Sys2Proof.Machine.execTimeRateWrite v s
  | .tinCapture n rising k => Sys2Proof.Machine.execTinCapture n rising k s
  | .tinFifoRead e lanes n => Sys2Proof.Machine.execTinFifoRead e lanes n s
  | .servoInputWrite v => Sys2Proof.Machine.execServoInputWrite v s
  | .servoLoss => Sys2Proof.Machine.execServoLoss s
  | .fitSample => Sys2Proof.Machine.execFitSample s
  | .holdoverUpdate => Sys2Proof.Machine.execHoldoverUpdate s
  | .hoCoeffWrite k v => Sys2Proof.Machine.execHoCoeffWrite k v s
  | .toutEdge n => Sys2Proof.Machine.execToutEdge n s
  | .trigCancel v => Sys2Proof.Machine.execTrigCancel v s
  | .steerWrite => Sys2Proof.Machine.execSteerWrite s
  | .tempRead raw => Sys2Proof.Machine.execTempRead raw s
  | .rclkSquelch r locked => Sys2Proof.Machine.execRclkSquelch r locked s
  | .gateGo => Sys2Proof.Machine.execGateGo s
  | .gateApply => Sys2Proof.Machine.execGateApply s
  | .gateCompare c f differ => Sys2Proof.Machine.execGateCompare c f differ s
  | .halfError c f drag => Sys2Proof.Machine.execHalfError c f drag s
  | .resyncDone c f => Sys2Proof.Machine.execResyncDone c f s
  | .flaskRetire c f => Sys2Proof.Machine.execFlaskRetire c f s
  | .stepCounterPoll c f cope1 cope2 drag1 drag2 => Sys2Proof.Machine.execStepCounterPoll c f cope1 cope2 drag1 drag2 s
  | .crucibleHeartbeat c probe => Sys2Proof.Machine.execCrucibleHeartbeat c probe s
  | .crucibleLost c => Sys2Proof.Machine.execCrucibleLost c s
  | .retireFlask => Sys2Proof.Machine.execRetireFlask s
  | .restoreFlask => Sys2Proof.Machine.execRestoreFlask s
  | .retireCrucible => Sys2Proof.Machine.execRetireCrucible s
  | .restoreCrucible => Sys2Proof.Machine.execRestoreCrucible s
  | .gateTest => Sys2Proof.Machine.execGateTest s
  | .gateCmdDone => Sys2Proof.Machine.execGateCmdDone s
  | .bistDone c f pass => Sys2Proof.Machine.execBistDone c f pass s
  | .flaskTurnover c => Sys2Proof.Machine.execFlaskTurnover c s
  | .faultLogRead e lanes => Sys2Proof.Machine.execFaultLogRead e lanes s
  | .sramScrub w wrong last => Sys2Proof.Machine.execSramScrub w wrong last s
  | .ddrScrub line first second differ last => Sys2Proof.Machine.execDdrScrub line first second differ last s
  | .mismatchLogRead e lanes => Sys2Proof.Machine.execMismatchLogRead e lanes s
  | .memGo => Sys2Proof.Machine.execMemGo s
  | .memApply => Sys2Proof.Machine.execMemApply s
  | .chanOffline => Sys2Proof.Machine.execChanOffline s
  | .chanOnline => Sys2Proof.Machine.execChanOnline s
  | .makePrimary => Sys2Proof.Machine.execMakePrimary s
  | .clearSuspect => Sys2Proof.Machine.execClearSuspect s
  | .trainingDone c trained suits capacity => Sys2Proof.Machine.execTrainingDone c trained suits capacity s
  | .resilverDone c progress => Sys2Proof.Machine.execResilverDone c progress s
  | .glkGo => Sys2Proof.Machine.execGlkGo s
  | .glkApply => Sys2Proof.Machine.execGlkApply s
  | .mirrorHeartbeatSend => Sys2Proof.Machine.execMirrorHeartbeatSend s
  | .heartbeatRecord => Sys2Proof.Machine.execHeartbeatRecord s
  | .pathLoss p => Sys2Proof.Machine.execPathLoss p s
  | .rowReceive x => Sys2Proof.Machine.execRowReceive x s
  | .mapRecord => Sys2Proof.Machine.execMapRecord s
  | .slotRecord => Sys2Proof.Machine.execSlotRecord s
  | .programRecord => Sys2Proof.Machine.execProgramRecord s
  | .programRecordSend => Sys2Proof.Machine.execProgramRecordSend s
  | .resendRecord => Sys2Proof.Machine.execResendRecord s
  | .turnGo frame => Sys2Proof.Machine.execTurnGo frame s
  | .blockLock lane headers => Sys2Proof.Machine.execBlockLock lane headers s
  | .laneAlign lane header block place => Sys2Proof.Machine.execLaneAlign lane header block place s
  | .rowSlip => Sys2Proof.Machine.execRowSlip s
  | .pmSecond => Sys2Proof.Machine.execPmSecond s
  | .pmSelWrite v => Sys2Proof.Machine.execPmSelWrite v s
  | .hierSend => Sys2Proof.Machine.execHierSend s
  | .hierReceive => Sys2Proof.Machine.execHierReceive s
  | .rxTailWrite ring tail descs => Sys2Proof.Machine.execRxTailWrite ring tail descs s
  | .txTailWrite ring tail descs => Sys2Proof.Machine.execTxTailWrite ring tail descs s
  | .ringCfgWrite base v => Sys2Proof.Machine.execRingCfgWrite base v s
  | .rxDeliver ring => Sys2Proof.Machine.execRxDeliver ring s
  | .txFetch ring data => Sys2Proof.Machine.execTxFetch ring data s
  | .txWriteback ring => Sys2Proof.Machine.execTxWriteback ring s
  | .modTimeout transmit ring => Sys2Proof.Machine.execModTimeout transmit ring s
  | .vectorSend v => Sys2Proof.Machine.execVectorSend v s
  | .vecArm v => Sys2Proof.Machine.execVecArm v s
  | .msixUnmask v => Sys2Proof.Machine.execMsixUnmask v s
  | .flr e => Sys2Proof.Machine.execFlr e s
  | .bmeClear e => Sys2Proof.Machine.execBmeClear e s
  | .perstRelease e speed width => Sys2Proof.Machine.execPerstRelease e speed width s
  | .mbNop e seq => Sys2Proof.Machine.execMbNop e seq s
  | .mbIdentify e seq => Sys2Proof.Machine.execMbIdentify e seq s
  | .mbSensors e seq => Sys2Proof.Machine.execMbSensors e seq s
  | .mbLogRead e seq dmaOk => Sys2Proof.Machine.execMbLogRead e seq dmaOk s
  | .mbFlashWrite e seq data => Sys2Proof.Machine.execMbFlashWrite e seq data s
  | .mbFlashCheck e seq => Sys2Proof.Machine.execMbFlashCheck e seq s
  | .mbCoreReset e seq => Sys2Proof.Machine.execMbCoreReset e seq s
  | .mbAbort e seq => Sys2Proof.Machine.execMbAbort e seq s
  | .mbRspRead e lanes => Sys2Proof.Machine.execMbRspRead e lanes s
  | .longOpDone progress => Sys2Proof.Machine.execLongOpDone progress s
  | .ethGo p => Sys2Proof.Machine.execEthGo p s
  | .ethApply p => Sys2Proof.Machine.execEthApply p s
  | .ethRxFrame k x => Sys2Proof.Machine.execEthRxFrame k x s
  | .ethTxFrame k => Sys2Proof.Machine.execEthTxFrame k s
  | .pfcReceive k classes quanta => Sys2Proof.Machine.execPfcReceive k classes quanta s
  | .pauseExpire k c => Sys2Proof.Machine.execPauseExpire k c s
  | .pfcXoff p => Sys2Proof.Machine.execPfcXoff p s
  | .pfcRefresh p => Sys2Proof.Machine.execPfcRefresh p s
  | .pfcXon p => Sys2Proof.Machine.execPfcXon p s
  | .gclStep k => Sys2Proof.Machine.execGclStep k s
  | .gclApplied k => Sys2Proof.Machine.execGclApplied k s
  | .mmVerify k ok => Sys2Proof.Machine.execMmVerify k ok s
  | .tsFifoRead k lanes => Sys2Proof.Machine.execTsFifoRead k lanes s
  | .linkChange k lock link localFault remoteFault => Sys2Proof.Machine.execLinkChange k lock link localFault remoteFault s
  | .sbHeartbeatSend busy => Sys2Proof.Machine.execSbHeartbeatSend busy s
  | .sbHeartbeatAbandon collided => Sys2Proof.Machine.execSbHeartbeatAbandon collided s
  | .sbHeartbeatReceive heat word late => Sys2Proof.Machine.execSbHeartbeatReceive heat word late s
  | .heartbeatRefresh => Sys2Proof.Machine.execHeartbeatRefresh s
  | .sbFrameRetry => Sys2Proof.Machine.execSbFrameRetry s
  | .sbRxDiscard => Sys2Proof.Machine.execSbRxDiscard s
  | .sbNop node seq => Sys2Proof.Machine.execSbNop node seq s
  | .sbIdentify node seq => Sys2Proof.Machine.execSbIdentify node seq s
  | .sbSensors node seq => Sys2Proof.Machine.execSbSensors node seq s
  | .sbLogRead node seq entry => Sys2Proof.Machine.execSbLogRead node seq entry s
  | .sbFlashCheck node seq slot => Sys2Proof.Machine.execSbFlashCheck node seq slot s
  | .sbCoreReset node seq key => Sys2Proof.Machine.execSbCoreReset node seq key s
  | .sbAbort node seq => Sys2Proof.Machine.execSbAbort node seq s
  | .sbProgress node seq => Sys2Proof.Machine.execSbProgress node seq s
  | .sbRegRead node seq a slow => Sys2Proof.Machine.execSbRegRead node seq a slow s
  | .sbRegWrite node seq a v slow => Sys2Proof.Machine.execSbRegWrite node seq a v slow s
  | .sbPatternLoad node seq slot => Sys2Proof.Machine.execSbPatternLoad node seq slot s
  | .sbCoreOff node seq => Sys2Proof.Machine.execSbCoreOff node seq s
  | .sbCoreOn node seq => Sys2Proof.Machine.execSbCoreOn node seq s
  | .sbDimmOff node seq c => Sys2Proof.Machine.execSbDimmOff node seq c s
  | .sbDimmOn node seq c => Sys2Proof.Machine.execSbDimmOn node seq c s
  | .flashBegin node seq slot length => Sys2Proof.Machine.execFlashBegin node seq slot length s
  | .flashData node seq offset data => Sys2Proof.Machine.execFlashData node seq offset data s
  | .flashEnd node seq => Sys2Proof.Machine.execFlashEnd node seq s
  | .sbAppSend dest => Sys2Proof.Machine.execSbAppSend dest s
  | .sbAppReceive node data => Sys2Proof.Machine.execSbAppReceive node data s
  | .logWrite => Sys2Proof.Machine.execLogWrite s
  | .islandTimeRead => Sys2Proof.Machine.execIslandTimeRead s
  | .railPowerGood r => Sys2Proof.Machine.execRailPowerGood r s
  | .railTimeout => Sys2Proof.Machine.execRailTimeout s
  | .pgFall r => Sys2Proof.Machine.execPgFall r s
  | .coreResetHold => Sys2Proof.Machine.execCoreResetHold s
  | .dimmSupplyOff c => Sys2Proof.Machine.execDimmSupplyOff c s
  | .islandReset low node seq => Sys2Proof.Machine.execIslandReset low node seq s
  | .porstAssert => Sys2Proof.Machine.execPorstAssert s
  | .porstRelease pinHigh split mirror => Sys2Proof.Machine.execPorstRelease pinHigh split mirror s
  | .rootLock => Sys2Proof.Machine.execRootLock s
  | .startupDone flasks crucibles units => Sys2Proof.Machine.execStartupDone flasks crucibles units s
  | .startupFail code => Sys2Proof.Machine.execStartupFail code s
  | .lockLoss => Sys2Proof.Machine.execLockLoss s
  | .refclkLoss => Sys2Proof.Machine.execRefclkLoss s
  | .refclkBack => Sys2Proof.Machine.execRefclkBack s
  | .clkGo => Sys2Proof.Machine.execClkGo s
  | .clkApply => Sys2Proof.Machine.execClkApply s
  | .thermWarn core lineA lineB => Sys2Proof.Machine.execThermWarn core lineA lineB s
  | .thermtrip core lineA lineB => Sys2Proof.Machine.execThermtrip core lineA lineB s
  | .avsStep lowest age => Sys2Proof.Machine.execAvsStep lowest age s
  | .illegalInstruction c t word => Sys2Proof.Machine.execIllegalInstruction c t word s
  | .waitConditionTrue c t => Sys2Proof.Machine.execWaitConditionTrue c t s
  | .shortWaitDone c t => Sys2Proof.Machine.execShortWaitDone c t s
  | .crucibleSelftestDone c pass => Sys2Proof.Machine.execCrucibleSelftestDone c pass s
  | .laneFrameSend => Sys2Proof.Machine.execLaneFrameSend s
  | .bmeSet e => Sys2Proof.Machine.execBmeSet e s
  | .healthTestFail => Sys2Proof.Machine.execHealthTestFail s
  | .deferenceEnd => Sys2Proof.Machine.execDeferenceEnd s
  | .collision => Sys2Proof.Machine.execCollision s
  | .shaperEligible kind place => Sys2Proof.Machine.execShaperEligible kind place s

end Sys2Proof.Machine
end

