-- ==== Sys2Proof/WellFormed.lean ====
section
/-! DEFINITION. What a command's operands must meet beyond their types: an offset inside BAR0 (R14), at a register for a read of one half (R20, R673), a
payload that PLI can name (R84), a terminal record of a wavelength (R129), the bytes that a side-band frame carries (R686, R706, R710), the eight times of a
PFC frame (R660), a slot that exists (R460), a frame no longer than a length field holds (R645, R656), a flash image's size (R653). -/
namespace Sys2Proof

/-- Whether a command is well formed. -/
def Instr.wellFormed : Instr → Bool
  | .registerWrite _ a _ _ => a.toNat < 67108864
  | .rcHighRead _ a => a.toNat < 67108864 && a.toNat % 8 = 0
  | .counterLowRead _ a => a.toNat < 67108864 && a.toNat % 8 = 0
  | .ponuGo _ => true
  | .burstEnd _ _ _ _ _ => true
  | .quietWindowClose _ _ _ _ _ => true
  | .upstreamFrameEnd _ _ _ _ _ => true
  | .burstSummary _ _ _ _ => true
  | .xgemDeframe _ _ _ _ _ x _ => x.pli < 16384 && x.payload.length ≤ 16384
  | .fragTimeout _ _ _ => true
  | .allocGo => true
  | .allocRecWrite _ _ kind idx _ => kind.val ≠ 1 || idx.val < 1024
  | .allocOwnerWrite _ _ _ => true
  | .mapVerdict _ _ _ => true
  | .checkerDeadline _ _ => true
  | .mapTake _ _ => true
  | .pondGo _ => true
  | .timingArm _ => true
  | .frameStart _ => true
  | .txEnableWrite _ _ _ => true
  | .ploamFlush _ _ => true
  | .ploamHostPost _ _ _ _ => true
  | .sduPlace _ _ _ => true
  | .todArm _ _ => true
  | .statSelWrite _ _ => true
  | .statCopyDone _ => true
  | .statWrite _ _ _ => true
  | .statFold _ _ _ => true
  | .statHalfFifoRead _ _ _ => true
  | .add _ _ _ _ _ => true
  | .sub _ _ _ _ _ => true
  | .and _ _ _ _ _ => true
  | .or _ _ _ _ _ => true
  | .xor _ _ _ _ _ => true
  | .shl _ _ _ _ _ => true
  | .shr _ _ _ _ _ => true
  | .sra _ _ _ _ _ => true
  | .ror _ _ _ _ _ => true
  | .cmpeq _ _ _ _ _ => true
  | .cmplt _ _ _ _ _ => true
  | .cmpltu _ _ _ _ _ => true
  | .clz _ _ _ _ _ => true
  | .popc _ _ _ _ _ => true
  | .bswap _ _ _ _ _ => true
  | .crc _ _ _ _ _ => true
  | .mul _ _ _ _ _ => true
  | .mulhu _ _ _ _ _ => true
  | .divu _ _ _ _ _ => true
  | .remu _ _ _ _ _ => true
  | .addi _ _ _ _ _ => true
  | .andi _ _ _ _ _ => true
  | .ori _ _ _ _ _ => true
  | .xori _ _ _ _ _ => true
  | .shli _ _ _ _ _ => true
  | .shri _ _ _ _ _ => true
  | .srai _ _ _ _ _ => true
  | .cmplti _ _ _ _ _ => true
  | .movz _ _ _ _ _ => true
  | .movk _ _ _ _ _ => true
  | .ext _ _ _ _ _ => true
  | .ins _ _ _ _ _ => true
  | .ldB _ _ _ _ _ => true
  | .ldH _ _ _ _ _ => true
  | .ldW _ _ _ _ _ => true
  | .ldD _ _ _ _ _ => true
  | .ldsB _ _ _ _ _ => true
  | .ldsH _ _ _ _ _ => true
  | .ldsW _ _ _ _ _ => true
  | .loadDataReturn _ _ => true
  | .stB _ _ _ _ _ => true
  | .stH _ _ _ _ _ => true
  | .stW _ _ _ _ _ => true
  | .stD _ _ _ _ _ => true
  | .amoAdd _ _ _ _ _ => true
  | .amoSwap _ _ _ _ _ => true
  | .amoCas _ _ _ _ _ => true
  | .beq _ _ _ _ _ => true
  | .bne _ _ _ _ _ => true
  | .blt _ _ _ _ _ => true
  | .bge _ _ _ _ _ => true
  | .bltu _ _ _ _ _ => true
  | .bgeu _ _ _ _ _ => true
  | .jmp _ _ _ => true
  | .call _ _ _ => true
  | .jr _ _ _ => true
  | .callr _ _ _ => true
  | .ctrRd _ _ _ _ => true
  | .sprRd _ _ _ _ => true
  | .sprWr _ _ _ _ => true
  | .ctrWr _ _ _ _ => true
  | .trap _ _ _ => true
  | .eret _ _ => true
  | .halt _ _ => true
  | .yield _ _ => true
  | .fence _ _ => true
  | .tblFind _ _ _ _ _ _ => true
  | .tblIns _ _ _ _ _ _ => true
  | .tblDel _ _ _ _ _ _ => true
  | .tblAge _ _ _ _ _ _ => true
  | .msgSend _ _ _ _ _ _ => true
  | .sendResume _ _ => true
  | .msgWait _ _ _ _ _ => true
  | .messageDeliver _ _ => true
  | .msgDone _ _ _ => true
  | .msgPoll _ _ _ _ _ => true
  | .blkCopy _ _ _ _ _ _ _ _ => true
  | .blkFill _ _ _ _ _ _ _ => true
  | .grantFill _ _ _ _ _ _ _ => true
  | .timeRead _ _ _ => true
  | .timeReadFrc _ _ _ => true
  | .timeArm _ _ _ _ _ => true
  | .derive _ _ _ _ _ => true
  | .cmacDerive _ _ _ _ _ => true
  | .mic _ _ _ _ _ => true
  | .kdErase _ _ _ _ _ => true
  | .unwrap _ _ _ _ _ => true
  | .ecbImport _ _ _ _ _ => true
  | .wrapOut _ _ _ _ _ => true
  | .stateSave _ _ _ _ _ => true
  | .stateRestore _ _ _ _ _ => true
  | .interruptTake _ _ => true
  | .stopTake _ _ => true
  | .runaway _ _ => true
  | .triggerFire _ => true
  | .pendingStart _ _ => true
  | .threadStart _ _ => true
  | .threadStop _ _ => true
  | .threadResume _ _ => true
  | .threadReset _ _ => true
  | .cruMemDataRead _ _ => true
  | .cruMemDataWrite _ _ _ => true
  | .cruQueueGo _ => true
  | .cruQueueApply _ => true
  | .trigLogRead _ _ _ => true
  | .loadGo _ _ => true
  | .loadChecked _ => true
  | .crucibleHold _ => true
  | .bootLoad _ _ => true
  | .csRepair _ _ _ => true
  | .csScrub _ _ _ => true
  | .prsGo => true
  | .prsApply => true
  | .epochDrained => true
  | .pipeEntry _ _ => true
  | .recircPass _ _ => true
  | .recircShed _ => true
  | .rsFind _ _ => true
  | .rsInsert _ _ => true
  | .rsDelete _ _ => true
  | .rsClear _ _ => true
  | .rsCopy _ _ => true
  | .rsCmdDone => true
  | .fwdGo => true
  | .fwdApply => true
  | .extLookup _ _ => true
  | .learnEvent _ => true
  | .sweepVisit _ => true
  | .sweepPeriodWrite _ _ => true
  | .fwdTblFind _ _ => true
  | .fwdTblInsert _ _ => true
  | .fwdTblDelete _ _ => true
  | .fwdTblAge _ _ => true
  | .fwdCmdDone => true
  | .tmGo => true
  | .tmApply => true
  | .recPush => true
  | .tmAdmit _ _ => true
  | .tmSelect _ => true
  | .ovfReturn _ => true
  | .releaseRetry => true
  | .drainGo _ => true
  | .drainDone => true
  | .drainTimeout => true
  | .queueSample _ => true
  | .ciphGo => true
  | .ciphApply => true
  | .spareJoin => true
  | .drbgReseed => true
  | .failWindowClose _ => true
  | .keystoreRewrite _ => true
  | .slotReload _ => true
  | .slotImport slot => slot.val < 40960
  | .slotErase slot => slot.val < 40960
  | .slotRetire slot => slot.val < 40960
  | .slotCmdDone => true
  | .noticeFifoRead _ _ => true
  | .timeGo => true
  | .timeApply => true
  | .timeTick n => n ≠ 0
  | .timeNowRead _ => true
  | .timeSet _ => true
  | .timeAdjWrite _ _ => true
  | .timeRateWrite _ => true
  | .tinCapture _ _ _ => true
  | .tinFifoRead _ _ _ => true
  | .servoInputWrite _ => true
  | .servoLoss => true
  | .fitSample => true
  | .holdoverUpdate => true
  | .hoCoeffWrite _ _ => true
  | .toutEdge _ => true
  | .trigCancel _ => true
  | .steerWrite => true
  | .tempRead _ => true
  | .rclkSquelch _ _ => true
  | .gateGo => true
  | .gateApply => true
  | .gateCompare _ _ _ => true
  | .halfError _ _ _ => true
  | .resyncDone _ _ => true
  | .flaskRetire _ _ => true
  | .stepCounterPoll _ _ _ _ _ _ => true
  | .crucibleHeartbeat _ _ => true
  | .crucibleLost _ => true
  | .retireFlask => true
  | .restoreFlask => true
  | .retireCrucible => true
  | .restoreCrucible => true
  | .gateTest => true
  | .gateCmdDone => true
  | .bistDone _ _ _ => true
  | .flaskTurnover _ => true
  | .faultLogRead _ _ => true
  | .sramScrub _ _ _ => true
  | .ddrScrub _ _ _ _ _ => true
  | .mismatchLogRead _ _ => true
  | .memGo => true
  | .memApply => true
  | .chanOffline => true
  | .chanOnline => true
  | .makePrimary => true
  | .clearSuspect => true
  | .trainingDone _ _ _ _ => true
  | .resilverDone _ _ => true
  | .glkGo => true
  | .glkApply => true
  | .mirrorHeartbeatSend => true
  | .heartbeatRecord => true
  | .pathLoss _ => true
  | .rowReceive _ => true
  | .mapRecord => true
  | .slotRecord => true
  | .programRecord => true
  | .programRecordSend => true
  | .resendRecord => true
  | .turnGo _ => true
  | .blockLock _ _ => true
  | .laneAlign _ _ _ _ => true
  | .rowSlip => true
  | .pmSecond => true
  | .pmSelWrite _ => true
  | .hierSend => true
  | .hierReceive => true
  | .rxTailWrite _ _ descs => descs.length < 65536
  | .txTailWrite _ _ descs => descs.length < 65536
  | .ringCfgWrite _ _ => true
  | .rxDeliver _ => true
  | .txFetch _ data => data.all fun l => l.length ≤ 16384
  | .txWriteback _ => true
  | .modTimeout _ _ => true
  | .vectorSend _ => true
  | .vecArm _ => true
  | .msixUnmask _ => true
  | .flr _ => true
  | .bmeClear _ => true
  | .perstRelease _ _ _ => true
  | .mbNop _ _ => true
  | .mbIdentify _ _ => true
  | .mbSensors _ _ => true
  | .mbLogRead _ _ _ => true
  | .mbFlashWrite _ _ data => data.all fun l => l.length ≤ 2097152
  | .mbFlashCheck _ _ => true
  | .mbCoreReset _ _ => true
  | .mbAbort _ _ => true
  | .mbRspRead _ _ => true
  | .longOpDone _ => true
  | .ethGo _ => true
  | .ethApply _ => true
  | .ethRxFrame _ x => x.bytes.length ≤ 16384
  | .ethTxFrame _ => true
  | .pfcReceive _ _ quanta => quanta.length = 8
  | .pauseExpire _ _ => true
  | .pfcXoff _ => true
  | .pfcRefresh _ => true
  | .pfcXon _ => true
  | .gclStep _ => true
  | .gclApplied _ => true
  | .mmVerify _ _ => true
  | .tsFifoRead _ _ => true
  | .linkChange _ _ _ _ _ => true
  | .sbHeartbeatSend _ => true
  | .sbHeartbeatAbandon _ => true
  | .sbHeartbeatReceive _ _ _ => true
  | .heartbeatRefresh => true
  | .sbFrameRetry => true
  | .sbRxDiscard => true
  | .sbNop _ _ => true
  | .sbIdentify _ _ => true
  | .sbSensors _ _ => true
  | .sbLogRead _ _ _ => true
  | .sbFlashCheck _ _ _ => true
  | .sbCoreReset _ _ _ => true
  | .sbAbort _ _ => true
  | .sbProgress _ _ => true
  | .sbRegRead _ _ _ _ => true
  | .sbRegWrite _ _ _ _ _ => true
  | .sbPatternLoad _ _ _ => true
  | .sbCoreOff _ _ => true
  | .sbCoreOn _ _ => true
  | .sbDimmOff _ _ _ => true
  | .sbDimmOn _ _ _ => true
  | .flashBegin _ _ _ _ => true
  | .flashData _ _ _ data => data.length = 32
  | .flashEnd _ _ => true
  | .sbAppSend _ => true
  | .sbAppReceive _ data => data.length = 40
  | .logWrite => true
  | .islandTimeRead => true
  | .railPowerGood _ => true
  | .railTimeout => true
  | .pgFall _ => true
  | .coreResetHold => true
  | .dimmSupplyOff _ => true
  | .islandReset _ _ _ => true
  | .porstAssert => true
  | .porstRelease _ _ _ => true
  | .rootLock => true
  | .startupDone _ _ _ => true
  | .startupFail _ => true
  | .lockLoss => true
  | .refclkLoss => true
  | .refclkBack => true
  | .clkGo => true
  | .clkApply => true
  | .thermWarn _ _ _ => true
  | .thermtrip _ _ _ => true
  | .avsStep _ _ => true
  | .illegalInstruction _ _ _ => true
  | .waitConditionTrue _ _ => true
  | .shortWaitDone _ _ => true
  | .crucibleSelftestDone _ _ => true
  | .laneFrameSend => true
  | .bmeSet _ => true
  | .healthTestFail => true
  | .deferenceEnd => true
  | .collision => true
  | .shaperEligible _ _ => true

end Sys2Proof
end

