-- ==== Sys2Proof/Safety.lean ====
section
/-! DEFINITION. What counts as a safe run, and the terms in which claims are stated: what a command completes with, which part of the state an
instruction of a thread may change, and how a request of the side band or of a mailbox is answered. -/
namespace Sys2Proof

/-- The commands that act whatever the core does: those of the standby island, of the supplies and resets, and the passing of time (R681, R682). -/
def Instr.ofIsland : Instr → Bool
  | .timeTick _ | .longOpDone _ | .sbHeartbeatSend _ | .sbHeartbeatAbandon _ | .sbHeartbeatReceive _ _ _ | .sbFrameRetry | .sbRxDiscard
  | .sbNop _ _ | .sbIdentify _ _ | .sbSensors _ _ | .sbLogRead _ _ _ | .sbFlashCheck _ _ _ | .sbCoreReset _ _ _ | .sbAbort _ _ | .sbProgress _ _
  | .sbRegRead _ _ _ _ | .sbRegWrite _ _ _ _ _ | .sbPatternLoad _ _ _ | .sbCoreOff _ _ | .sbCoreOn _ _ | .sbDimmOff _ _ _ | .sbDimmOn _ _ _
  | .flashBegin _ _ _ _ | .flashData _ _ _ _ | .flashEnd _ _ | .sbAppReceive _ _ | .logWrite | .islandTimeRead | .railPowerGood _ | .railTimeout
  | .pgFall _ | .coreResetHold | .dimmSupplyOff _ | .islandReset _ _ _ | .porstAssert | .porstRelease _ _ _ | .thermtrip _ _ _ | .deferenceEnd
  | .collision => true
  | _ => false

/-- The BAR0 offset that a command names. -/
def Instr.offset : Instr → Option Nat
  | .registerWrite _ a _ _ => some a.toNat
  | .rcHighRead _ a => some a.toNat
  | .counterLowRead _ a => some a.toNat
  | _ => none

namespace Machine

/-- A step answers a next state. -/
def State.goesOn (s : State) : Prop := ∃ s', step s = .next s'

/-- The command at the front of the queue, if any, is well formed. -/
def State.frontWellFormed (s : State) : Prop := ∀ c rest, s.pending = c :: rest → c.wellFormed = true

end Machine

namespace Claim
open Sys2Proof.Machine

/-- A command completes at a state, leaving the queue and the part x. -/
def Runs (i : Instr) (s : State) (x : Chip) : Prop := exec i s = .next (s.withChip x)

/-- The state after a number of steps; none where one of them stops. -/
def stepMany : Nat → State → Option State
  | 0, s => some s
  | n + 1, s => match step s with
    | .next s' => stepMany n s'
    | _ => none

/-! ### The side band (R692, R694) -/

/-- The answer that the island has kept for a node's SEQ for less than a second (R694). -/
def keptAnswer (s : Chip) (node seq : Nat) : Option (List Byte) :=
  match s.isl.answers.get node with
  | some a => if a.seq = seq ∧ s.isl.clock < a.at_ + 622080000 then some a.frame else none
  | none => none

/-- The island can take a new request of a node (R694). -/
def takesRequest (s : State) (node : Fin 32) (seq : BitVec 16) : Prop :=
  s.chip.isl.inReset = false ∧ keptAnswer s.chip node.val seq.toNat = none

/-- The part with a request counted as received. -/
def received (s : Chip) : Chip := s.bump Reg.SBY_RX_FRAMES

/-- The part after an answer to a request: the frame joins the queue for the bus, and is kept for a repetition (R692, R694). -/
def answered (s : Chip) (node : Fin 32) (seq : BitVec 16) (op status : Nat) (data : List Byte) : Chip :=
  let frame := s.sbBytes node.val 2 seq.toNat op status data
  { s with isl := { s.isl with answers := s.isl.answers.set node.val (some { seq := seq.toNat, frame := frame, at_ := s.isl.clock })
                               queue := s.isl.queue ++ [{ dest := node.val, bytes := frame }] } }

/-- A long operation of a node under way (R652, R696). -/
def longStarted (s : Chip) (node : Fin 32) (op arg : Nat) : Chip :=
  let token := (s.hif.token + 1) % 4294967296
  { s with hif := { s.hif with long := some { by_ := .node node.val, op := op, arg := arg, token := token }, token := token
                               results := s.hif.results.set node.val (token * 256) } }

/-- Every block of the core is as at reset, and so is every register but the island's and GLB_RESET_CAUSE (R682, R717). -/
def CoreAsAtReset (x : Chip) : Prop :=
  x.active = [] ∧ x.goAt = [] ∧ x.rcLatch = [] ∧ x.ctrLatch = [] ∧ x.frc = 0 ∧ x.offset = 0 ∧ x.msgs = {} ∧ x.pon = {} ∧ x.prs = {} ∧ x.fwd = {} ∧
  x.tm = {} ∧ x.ddr = [] ∧ x.mem = {} ∧ x.ciph = {} ∧ x.rings = [] ∧ x.time = {} ∧ x.cru = {} ∧ x.patterns = {} ∧ x.gate = {} ∧ x.glk = {} ∧
  x.subs = [] ∧ x.hif.eps = [] ∧ x.rampFrom = none ∧ x.role = 0 ∧ x.tookActive = none ∧ x.permit = false ∧ x.glkOut = [] ∧
  ∀ a, ¬(0x2800000 ≤ a ∧ a < 0x2900000) → a ≠ Reg.GLB_RESET_CAUSE → x.reg a = resetW a

/-! ### Staged values and FIFO registers (R20 to R23) -/

/-- The offsets, of their first instance, of the registers to which a write has a rule of its own: the command registers, COMMIT registers and the like. -/
def ownRule : List Nat := [
  0x100000, 0x200000, 0x200030, 0x200050, 0x200058, 0x200060, 0x2000B0, 0x200108, 0x200128, 0x200418, 0x400008, 0x600000, 0x600008, 0x600020, 0x600058,
  0x600070, 0x600078, 0x600080, 0x600088, 0x601200, 0x800000, 0x800030, 0x810000, 0xA00000, 0xA000C0, 0xC00000, 0xC00040, 0xC000B8, 0xE00000, 0xE00050,
  0xE000B8, 0x1000000, 0x1000068, 0x1000080, 0x1200000, 0x1400028, 0x1400030, 0x1400100, 0x1400200, 0x1410000, 0x1500000, 0x1508000, 0x1600000,
  0x1600028, 0x1600090, 0x1800000, 0x1800040, 0x1A00000, 0x1A00030, 0x1C00008, 0x1C00028, 0x1C00038, 0x1C00078, 0x1C00400, 0x2800028, 0x2800030]

/-- What a GO does (R22, R23): while the block's PENDING is set, or while its staged values are refused, STAGE_ERR sets and nothing else changes; else
PENDING sets, the time of the GO is kept, and no value is applied yet. -/
def GoRule (i : Instr) (s : State) (commit : Nat) (ok : Bool) : Prop :=
  (s.chip.goPending commit = true ∨ ok = false → Runs i s (s.chip.raise commit 2)) ∧
  (s.chip.goPending commit = false → ok = true → ∃ y, Runs i s y ∧ y.flag commit 1 = true ∧ y.goAt.get commit = some s.chip.frc ∧
    y.active = s.chip.active ∧ (∀ a, a ≠ commit → y.reg a = s.chip.reg a) ∧ y = { s.chip with regs := y.regs, goAt := y.goAt })

/-- What the application of staged values does (R22): nothing unless the block's PENDING is set; else PENDING clears, every staged register in [lo, hi)
takes its staged value, and no other applied value changes. -/
def ApplyRule (i : Instr) (s : State) (commit lo hi : Nat) : Prop :=
  (s.chip.goPending commit = false → Runs i s s.chip) ∧
  (s.chip.goPending commit = true → ∃ y, Runs i s y ∧ y.flag commit 1 = false ∧
    ∀ a, y.act a = if lo ≤ a ∧ a < hi ∧ stagedBits a ≠ 0 then s.chip.reg a else s.chip.act a)

/-- What a read of a FIFO's register does (R20): an empty one returns 0; a 64-bit read returns the oldest entry and takes it out; a read of the low half
takes it out, returns its low half, and keeps its high half for the same endpoint's next read of the high half, other endpoints' kept halves staying; a
read of the high half takes nothing out, and returns the half that the same endpoint's last 32-bit read kept of this register, or else 0. -/
def FifoRule (i : Ep → Lanes → Instr) (s : State) (a : Nat) (fifo : Chip → List W64) : Prop :=
  ∀ e : Ep,
    (fifo s.chip = [] → ∃ y, Runs (i e .full) s y ∧ y.readData = 0 ∧ fifo y = [] ∧ y.regs = s.chip.regs) ∧
    (∀ v l, fifo s.chip = v :: l →
      (∃ y, Runs (i e .full) s y ∧ y.readData = v ∧ fifo y = l ∧ y.regs = s.chip.regs ∧ y.rcLatch = s.chip.rcLatch) ∧
      (∃ y, Runs (i e .low) s y ∧ y.readData = w64 (fld v 31 0) ∧ fifo y = l ∧ y.regs = s.chip.regs ∧
        y.rcLatch.get e = some (a, fld v 63 32) ∧ ∀ d : Ep, d ≠ e → y.rcLatch.get d = s.chip.rcLatch.get d)) ∧
    (∃ y, Runs (i e .high) s y ∧ y.rcLatch.get e = none ∧ (∀ d : Ep, d ≠ e → y.rcLatch.get d = s.chip.rcLatch.get d) ∧ fifo y = fifo s.chip ∧
      y.regs = s.chip.regs ∧ (∀ h, s.chip.rcLatch.get e = some (a, h) → y.readData = w64 h) ∧
      ((∀ h, s.chip.rcLatch.get e ≠ some (a, h)) → y.readData = 0))

/-! ### Instructions of threads (R218 to R222, R275) -/

/-- The thread of a crucible issues an instruction of a word: the core runs, the thread's engine runs and chooses it, the 16 bytes of instruction RAM in which its
IP lies are sound, and the four bytes there are the instruction's word. -/
def Issues (s : State) (c t : Nat) (w : BitVec 32) : Prop :=
  s.chip.running = true ∧ s.chip.canIssue c t = true ∧ s.chip.mem.badIram.contains (c * 16384 + (s.chip.thread c t).ip / 16) = false ∧
  s.chip.fetched c t = w

/-- The engine cycles of a routine that runs straight through from a word: every word is sound, waits for nothing and makes no unit, each goes on at its NEXT,
and the last one ends the instruction; none for any other routine. At most n words are looked at (R286, R287). -/
def straightCycles (st : ControlStore) : (n word : Nat) → Option Nat
  | 0, _ => none
  | n + 1, a =>
    let w := st.contents.words.get a
    if st.broken.contains a || st.wrong.get a ≠ 0 || uf w 42 37 ≠ 0 || uf w 46 46 ≠ 0 then none
    else match uf w 15 14 with
      | 0 => (straightCycles st n (uf w 13 0)).map fun k => uf w 44 43 + 1 + k
      | 2 => some (uf w 44 43 + 1)
      | _ => none

/-- A thread issues a long instruction of a word, OP and FN at a crucible that has a pattern and is not held for a load; its routine runs straight through in k
engine cycles (R283, R284, R305). -/
def IssuesLong (s : State) (c t : Nat) (w : BitVec 32) (op fn k : Nat) : Prop :=
  Issues s c t w ∧ s.chip.holdsDispatch c = false ∧ (s.chip.store c).contents.version.isSome = true ∧
  straightCycles (s.chip.store c) microFuel (dispatchWord op fn) = some k

/-- The tick at which k engine cycles that begin now are over (R58). -/
def after (s : State) (k : Nat) : Nat := s.chip.frc + ceilDiv k 2

/-- The registers that the issue of an instruction may change: the counters of the thread's engine and the crucible's event register (R273, R275). -/
def counterRegister (c e a : Nat) : Prop := a = Reg.CRU_EVENT c ∨ ∃ k, a = Cell.ctrData c e k ∨ a = Cell.ctrCfg c e k

/-- y is x but for one thread, the counters of its engine, the engine's last issue and its run of CTR.RD: every other thread, every other register and every
byte of memory is as it was. -/
def OnlyThread (x y : Chip) (c t : Nat) : Prop :=
  (∀ a, ¬counterRegister c (t / 8) a → y.reg a = x.reg a) ∧
  (∀ d u, tkey d u ≠ tkey c t → y.thread d u = x.thread d u) ∧
  (∀ k, k ≠ c * 32 + t / 8 → y.cru.lastIssued.get k = x.cru.lastIssued.get k ∧ y.cru.ctrRuns.get k = x.cru.ctrRuns.get k) ∧
  y = { x with regs := y.regs, cru := { x.cru with threads := y.cru.threads, lastIssued := y.cru.lastIssued, ctrRuns := y.cru.ctrRuns } }

/-- An instruction issues and leaves its thread as x; nothing else changes but what issue counts. -/
def Leaves (i : Instr) (s : State) (c t : Nat) (x : Thread) : Prop :=
  ∃ y, Runs i s y ∧ OnlyThread s.chip y c t ∧ y.thread c t = x ∧ y.cru.lastIssued.get (c * 32 + t / 8) = t % 8 + 1

/-- An instruction issues, writes v to rd, and goes on at the next instruction. -/
def Computes (i : Instr) (s : State) (c t rd : Nat) (v : W64) : Prop :=
  Leaves i s c t { (s.chip.thread c t).setG rd v with ip := nextIp (s.chip.thread c t).ip }

/-- The part with the issue of a short instruction of a thread counted. -/
def issued (s : State) (c t : Nat) : Chip := s.chip.countIssue c t false

/-- The part with the issue of a long instruction of a thread counted. -/
def issuedLong (s : State) (c t : Nat) : Chip := s.chip.countIssue c t true

/-- The part with a long instruction begun: its issue is counted, and the event of its OP and FN (R275). -/
def begun (s : State) (c t op fn : Nat) : Chip := (issuedLong s c t).count c t (longEvent op fn)

/-- The routine of a long instruction as its last word ends it, after k engine cycles. -/
def ended (s : State) (op fn rd ra rb k : Nat) : Routine := { op := op, fn := fn, rd := rd, ra := ra, rb := rb, since := s.chip.frc, cycles := k }

/-- The thread as a trap leaves it when EXL was 0 (R241): EPC, ECAUSE and EINFO written, SUPER and IE saved, supervisor mode with EXL set and IE clear, at
VBASE + CAUSE × 0x40. -/
def trapped (s : Chip) (c t cause epc : Nat) (einfo : W64) (code : Nat) : Thread :=
  let x := s.thread c t
  { x with state := stReady, wait := .none, epc := w64 epc, cause := cause, einfo := einfo, trapCode := code, prevSuper := x.super, prevIe := x.ie
           super := true, exl := true, ie := false, ip := ((s.reg (Reg.CRU_VBASE c)).toNat + cause * 64) % iramSize, readyFrom := s.frc }

end Claim
end Sys2Proof
end

