-- ==== Sys2Proof/Certificates/Slice0/Obligations.lean ====
section
/-! DEFINITION. What the provers are to prove of the model. -/
open Sys2Proof Sys2Proof.Machine Sys2Proof.Claim

/-! ### The block -/

/-- A step runs the command at the front of the queue on the state with the queue's rest; with nothing waiting the part idles (the model's choice: see log entry 1). -/
def Obligations.FrontCommandRuns : Prop :=
  ∀ (i : Instr) (s : State), step { s with pending := i :: s.pending } = exec i s ∧ step { s with pending := [] } = .next { s with pending := [] }

/-- Every command answers a next state and leaves the queue alone, but for an access beyond the 64 MiB of BAR0 (R14), which stops: no command is refused, and ordinary data ends no run.
The model's own choices in it: log entries 5, 7. -/
def Obligations.CommandsLeaveTheQueue : Prop :=
  ∀ (i : Instr) (s : State),
    (i.offset.all (· < 67108864) = true → ∃ x, Runs i s x) ∧
    (∀ a, i.offset = some a → 67108864 ≤ a → exec i s = .fault (.outsideBar0 a))

/-- A queue of well-formed commands drains: each step goes on, the commands that wait stay well formed, and after as many steps as commands wait none is left. It holds from every state.
The model's own choices in it: log entries 1, 7. -/
def Obligations.WellFormedQueuesDrain : Prop :=
  ∀ s : State, (∀ i ∈ s.pending, i.wellFormed = true) →
    (∃ s', step s = .next s') ∧
    (∀ s', step s = .next s' → ∀ i ∈ s'.pending, i.wellFormed = true) ∧
    (∃ s', stepMany s.pending.length s = some s' ∧ s'.pending = [])

/-- While the core is held in reset or has no power, commands of the core change nothing (R688, R717): of a queue of such commands each step leaves the part as it is and the core held, and
the commands that wait are still the core's.
The model's own choices in it: log entry 6. -/
def Obligations.HeldCoreKeepsThePart : Prop :=
  ∀ (x : Chip) (s : State),
    let Inv := fun (u : State) => u.chip = x ∧ x.running = false ∧ ∀ i ∈ u.pending, i.ofIsland = false ∧ i.wellFormed = true
    Inv s → (∃ s', step s = .next s') ∧ ∀ s', step s = .next s' → Inv s'

/-- The part right after reset: every register reads its reset value, no command waits, every table, queue and FIFO is empty, FRC and logical time are 0, and all threads, slots and channels
are as their rules say (R17, R60, R460, R489). The values of registers that the rules give none are 0, the model's choice (see log entry 2). -/
def Obligations.ResetState : Prop :=
  State.reset.pending = [] ∧ (∀ a, State.reset.chip.reg a = resetW a) ∧ (∀ a, State.reset.chip.act a = resetW a) ∧
  State.reset.chip.frc = 0 ∧ State.reset.chip.offset = 0 ∧ State.reset.chip.out = [] ∧
  (∀ c t, State.reset.chip.thread c t = {}) ∧ (∀ k, (State.reset.chip.slot k).state = 0) ∧ (∀ ch, (State.reset.chip.chan ch).state = 0) ∧
  (∀ q, (State.reset.chip.tmQueue q).frames = []) ∧ (∀ c q, (State.reset.chip.msgs.queues.get (c * 1024 + q)).items = []) ∧
  State.reset.chip.ciph.units.pairs.length = 16 ∧ State.reset.chip.running = true
/-! ### Jarril: registers, branches and jumps -/

/-- The instructions of two sources (R223, R237): each writes its result to rd, a write to g0 being discarded, goes on at the next instruction, and changes nothing
else but what issue counts.
The model's own choices in it: log entry 31. -/
def Obligations.RegisterArithmetic : Prop :=
  ∀ (s : State) (c : Cru) (t : Fin 256) (rd ra rb : Fin 32),
    let a := (s.chip.thread c t).g ra
    let b := (s.chip.thread c t).g rb
    let n := b.toNat % 64
    let gives := fun (i : Instr) (fn : Nat) (v : W64) => Issues s c t (wordR 0 rd ra rb fn) → Computes i s c t rd v
    gives (.add c t rd ra rb) 0x000 (a + b) ∧
    gives (.sub c t rd ra rb) 0x001 (a - b) ∧
    gives (.and c t rd ra rb) 0x002 (a &&& b) ∧
    gives (.or c t rd ra rb) 0x003 (a ||| b) ∧
    gives (.xor c t rd ra rb) 0x004 (a ^^^ b) ∧
    gives (.shl c t rd ra rb) 0x005 (a <<< n) ∧
    gives (.shr c t rd ra rb) 0x006 (a >>> n) ∧
    gives (.sra c t rd ra rb) 0x007 (BitVec.ofInt 64 (a.toInt / 2 ^ n)) ∧
    gives (.ror c t rd ra rb) 0x008 ((a >>> n) ||| (a <<< (64 - n))) ∧
    gives (.cmpeq c t rd ra rb) 0x009 (if a = b then 1 else 0) ∧
    gives (.cmplt c t rd ra rb) 0x00A (if a.toInt < b.toInt then 1 else 0) ∧
    gives (.cmpltu c t rd ra rb) 0x00B (if a.toNat < b.toNat then 1 else 0) ∧
    gives (.crc c t rd ra rb) 0x00F ((crc32c (a.setWidth 32) (wordBytes b)).setWidth 64) ∧
    gives (.mul c t rd ra rb) 0x010 (a * b) ∧
    gives (.mulhu c t rd ra rb) 0x011 (BitVec.ofNat 64 (a.toNat * b.toNat / 2 ^ 64))

/-- The instructions of one source (R237): CLZ counts the zeros above the highest one, POPC the ones, BSWAP reverses the bytes; with an rb field other than 0 each
traps with ILLEGAL.
The instructions with an immediate (R235, R237): sign-extended for ADDI and CMPLTI, zero-extended for the logic; a shift count above 63 and a halfword number
above 3 are ILLEGAL.
The model's own choices in it: log entries 31, 33. -/
def Obligations.OneSourceAndImmediateArithmetic : Prop :=
  (∀ (s : State) (c : Cru) (t : Fin 256) (rd ra : Fin 32),
     let a := (s.chip.thread c t).g ra
     let issues := fun (fn rb : Nat) => Issues s c t (wordR 0 rd ra rb fn)
     (issues 0x00C 0 → ∃ n ≤ 64, Computes (.clz c t rd ra 0) s c t rd (BitVec.ofNat 64 n) ∧ a.toNat < 2 ^ (64 - n) ∧
       (n < 64 → 2 ^ (63 - n) ≤ a.toNat)) ∧
     (issues 0x00D 0 → Computes (.popc c t rd ra 0) s c t rd (BitVec.ofNat 64 ((List.range 64).countP fun k => a.getLsbD k))) ∧
     (issues 0x00E 0 → ∃ v, Computes (.bswap c t rd ra 0) s c t rd v ∧ ∀ k < 64, v.getLsbD k = a.getLsbD (8 * (7 - k / 8) + k % 8)) ∧
     (∀ rb : Fin 32, rb ≠ 0 →
       (issues 0x00C rb → Runs (.clz c t rd ra rb) s ((issued s c t).illegal c t (wordR 0 rd ra rb 0x00C))) ∧
       (issues 0x00D rb → Runs (.popc c t rd ra rb) s ((issued s c t).illegal c t (wordR 0 rd ra rb 0x00D))) ∧
       (issues 0x00E rb → Runs (.bswap c t rd ra rb) s ((issued s c t).illegal c t (wordR 0 rd ra rb 0x00E))))) ∧
  (∀ (s : State) (c : Cru) (t : Fin 256) (rd ra : Fin 32) (imm : BitVec 16),
     let a := (s.chip.thread c t).g ra
     let n := imm.toNat
     let issues := fun (op : Nat) => Issues s c t (wordI op rd ra imm)
     (issues 0x01 → Computes (.addi c t rd ra imm) s c t rd (a + imm.signExtend 64)) ∧
     (issues 0x02 → Computes (.andi c t rd ra imm) s c t rd (a &&& imm.zeroExtend 64)) ∧
     (issues 0x03 → Computes (.ori c t rd ra imm) s c t rd (a ||| imm.zeroExtend 64)) ∧
     (issues 0x04 → Computes (.xori c t rd ra imm) s c t rd (a ^^^ imm.zeroExtend 64)) ∧
     (issues 0x08 → Computes (.cmplti c t rd ra imm) s c t rd (if a.toInt < imm.toInt then 1 else 0)) ∧
     (n < 64 →
       (issues 0x05 → Computes (.shli c t rd ra imm) s c t rd (a <<< n)) ∧
       (issues 0x06 → Computes (.shri c t rd ra imm) s c t rd (a >>> n)) ∧
       (issues 0x07 → Computes (.srai c t rd ra imm) s c t rd (BitVec.ofInt 64 (a.toInt / 2 ^ n)))) ∧
     (64 ≤ n →
       (issues 0x05 → Runs (.shli c t rd ra imm) s ((issued s c t).illegal c t (wordI 0x05 rd ra imm))) ∧
       (issues 0x06 → Runs (.shri c t rd ra imm) s ((issued s c t).illegal c t (wordI 0x06 rd ra imm))) ∧
       (issues 0x07 → Runs (.srai c t rd ra imm) s ((issued s c t).illegal c t (wordI 0x07 rd ra imm)))))

/-- Division (R222, R237): DIVU gives the quotient, or all ones for a divisor of 0, REMU the remainder, or the dividend; the thread waits until SHORT_WAIT_DONE,
which makes it READY. A long instruction that is complete holds its thread until its last cycles are over, when WAIT_CONDITION_TRUE makes it READY (R287).
The model's own choices in it: log entries 31, 40. -/
def Obligations.DivisionWaits : Prop :=
  ∀ (s : State) (c : Cru) (t : Fin 256) (rd ra rb : Fin 32), s.chip.running = true →
    let x := s.chip.thread c t
    let a := x.g ra
    let b := x.g rb
    let waits := fun (v : W64) => { x.setG rd v with ip := nextIp x.ip, state := stWaiting, wait := .short }
    (Issues s c t (wordR 0 rd ra rb 0x012) →
      Leaves (.divu c t rd ra rb) s c t (waits (BitVec.ofNat 64 (if b = 0 then 2 ^ 64 - 1 else a.toNat / b.toNat)))) ∧
    (Issues s c t (wordR 0 rd ra rb 0x013) →
      Leaves (.remu c t rd ra rb) s c t (waits (BitVec.ofNat 64 (if b = 0 then a.toNat else a.toNat % b.toNat)))) ∧
    (x.state = stWaiting → s.chip.engineRuns c (t / 8) = true →
      let ready := s.chip.setThread c t { x with state := stReady, wait := .none, readyFrom := s.chip.frc }
      (x.wait = .short → Runs (.shortWaitDone c t) s ready) ∧
      (∀ due, x.wait = .last due → due ≤ s.chip.frc → Runs (.waitConditionTrue c t) s ready))

/-- Halfwords and bit fields (R237): MOVZ and MOVK set halfword h of rd, MOVZ clearing the others; EXT takes WIDTH + 1 bits of ra from bit LO up; INS puts the low
bits of ra there in rd, and is ILLEGAL beyond bit 63. A bit set in imm[15:12], which EXT and INS reserve, is ILLEGAL (R236).
The model's own choices in it: log entries 31, 33. -/
def Obligations.HalfwordsAndBitFields : Prop :=
  ∀ (s : State) (c : Cru) (t : Fin 256) (rd ra : Fin 32) (imm : BitVec 16),
    let a := (s.chip.thread c t).g ra
    let d := (s.chip.thread c t).g rd
    let lo := imm.toNat % 64
    let width := imm.toNat / 64 % 64 + 1
    let illegal := fun (i : Instr) (op : Nat) => Runs i s ((issued s c t).illegal c t (wordI op rd ra imm))
    (Issues s c t (wordI 0x09 rd ra imm) →
      (ra.val < 4 → ∃ v, Computes (.movz c t rd ra imm) s c t rd v ∧
        ∀ k < 64, v.getLsbD k = (decide (k / 16 = ra.val) && imm.getLsbD (k % 16))) ∧
      (4 ≤ ra.val → illegal (.movz c t rd ra imm) 0x09)) ∧
    (Issues s c t (wordI 0x0A rd ra imm) →
      (ra.val < 4 → ∃ v, Computes (.movk c t rd ra imm) s c t rd v ∧
        ∀ k < 64, v.getLsbD k = if k / 16 = ra.val then imm.getLsbD (k % 16) else d.getLsbD k) ∧
      (4 ≤ ra.val → illegal (.movk c t rd ra imm) 0x0A)) ∧
    (Issues s c t (wordI 0x0B rd ra imm) →
      (imm.toNat < 4096 → ∃ v, Computes (.ext c t rd ra imm) s c t rd v ∧
        ∀ k < 64, v.getLsbD k = (decide (k < width) && a.getLsbD (lo + k))) ∧
      (4096 ≤ imm.toNat → illegal (.ext c t rd ra imm) 0x0B)) ∧
    (Issues s c t (wordI 0x0C rd ra imm) →
      (imm.toNat < 4096 → lo + width ≤ 64 → ∃ v, Computes (.ins c t rd ra imm) s c t rd v ∧
        ∀ k < 64, v.getLsbD k = if lo ≤ k ∧ k < lo + width then a.getLsbD (k - lo) else d.getLsbD k) ∧
      (4096 ≤ imm.toNat ∨ 64 < lo + width → illegal (.ins c t rd ra imm) 0x0C))

/-- Branches and jumps (R235, R237): a branch taken goes to its own address + 4 × disp, one not taken to the next instruction; CALL and CALLR leave IP + 4 in g31.
Addresses wrap within instruction RAM (the model's reading: see log entry 30). Of a thread's general registers g0 reads 0 and discards what is written, and each other one keeps it (R223).
The model's own choices in it: log entry 31. -/
def Obligations.BranchesAndJumps : Prop :=
  ∀ (s : State) (c : Cru) (t : Fin 256) (ra rb : Fin 32) (disp : BitVec 16) (far : BitVec 26),
    let x := s.chip.thread c t
    let a := x.g ra
    let b := x.g rb
    let at_ := fun (n : Int) => { x with ip := (n % 262144).toNat }
    let goes := fun (i : Instr) (op : Nat) (taken : Bool) => Issues s c t (wordB op ra rb disp) →
      Leaves i s c t (if taken then at_ (x.ip + 4 * disp.toInt) else at_ (x.ip + 4))
    goes (.beq c t ra rb disp) 0x20 (decide (a = b)) ∧
    goes (.bne c t ra rb disp) 0x21 (decide (a ≠ b)) ∧
    goes (.blt c t ra rb disp) 0x22 (decide (a.toInt < b.toInt)) ∧
    goes (.bge c t ra rb disp) 0x23 (decide (b.toInt ≤ a.toInt)) ∧
    goes (.bltu c t ra rb disp) 0x24 (decide (a.toNat < b.toNat)) ∧
    goes (.bgeu c t ra rb disp) 0x25 (decide (b.toNat ≤ a.toNat)) ∧
    (Issues s c t (wordJ 0x26 far) → Leaves (.jmp c t far) s c t (at_ (x.ip + 4 * far.toInt))) ∧
    (Issues s c t (wordJ 0x27 far) → Leaves (.call c t far) s c t
      { x.setG 31 (w64 (nextIp x.ip)) with ip := ((x.ip + 4 * far.toInt) % 262144).toNat }) ∧
    (Issues s c t (wordR 0x28 0 ra 0 0) → Leaves (.jr c t ra) s c t { x with ip := a.toNat % 262144 / 4 * 4 }) ∧
    (Issues s c t (wordR 0x28 0 ra 0 1) → Leaves (.callr c t ra) s c t
      { x.setG 31 (w64 (nextIp x.ip)) with ip := a.toNat % 262144 / 4 * 4 }) ∧
    (∀ y : Thread, y.g 0 = 0 ∧ (∀ v, y.setG 0 v = y) ∧
      ∀ (r : Fin 32) v, r ≠ 0 → (y.setG r v).g r = v ∧ ∀ q : Fin 32, q ≠ r → (y.setG r v).g q = y.g q)

/-! ### Jarril: memory -/

/-- Loads (R222, R226, R227, R231): from local data the value is in rd at once, extended as the instruction says; from any other region that permits it the thread
waits, and LOAD_DATA_RETURN brings the data. A misaligned address traps with ALIGN, one that no region permits with ACCESS.
The model's own choices in it: log entries 31, 36, 37. -/
def Obligations.LoadsReachTheirRegion : Prop :=
  ∀ (s : State) (c : Cru) (t : Fin 256) (rd ra : Fin 32) (imm : BitVec 16),
    let x := s.chip.thread c t
    let a := (x.g ra + imm.signExtend 64).toNat
    let u := issued s c t
    let loads := fun (i : Instr) (op width : Nat) (sign : Bool) => Issues s c t (wordI op rd ra imm) →
      (a % width = 0 → a + width ≤ 0x8000 →
        ∃ y, Runs i s y ∧ OnlyThread s.chip y c t ∧
          y.thread c t = { x.setG rd (extended width sign (w64 (numBE ((List.range width).map fun k => s.chip.localByte c (t / 8) (a + k))))) with
                           ip := nextIp x.ip }) ∧
      (∀ r, a % width = 0 → s.chip.place c t a width false = some r → r.isData = false →
        ∃ y, Runs i s y ∧ OnlyThread s.chip y c t ∧
          y.thread c t = { x with ip := nextIp x.ip, state := stWaiting, wait := .load rd a width sign }) ∧
      (a % width ≠ 0 → Runs i s (u.trapHere c t 3 (w64 a))) ∧
      (a % width = 0 → s.chip.place c t a width false = none → Runs i s (u.trapHere c t 4 (w64 a)))
    loads (.ldB c t rd ra imm) 0x10 1 false ∧ loads (.ldH c t rd ra imm) 0x11 2 false ∧ loads (.ldW c t rd ra imm) 0x12 4 false ∧
    loads (.ldD c t rd ra imm) 0x13 8 false ∧ loads (.ldsB c t rd ra imm) 0x14 1 true ∧ loads (.ldsH c t rd ra imm) 0x15 2 true ∧
    loads (.ldsW c t rd ra imm) 0x16 4 true ∧
    (∀ addr width sign r room, s.chip.running = true → x.state = stWaiting → x.wait = .load rd.val addr width sign →
      s.chip.engineRuns c (t / 8) = true → regionOf addr = some (r, room) → s.chip.badPlace c r = false →
      let q := s.chip.readPlace c t width r
      Runs (.loadDataReturn c t) s
        (q.2.setThread c t { (q.2.thread c t).setG rd (extended width sign q.1) with state := stReady, wait := .none, readyFrom := q.2.frc }))

/-- Stores (R226, R227, R231, R233): the low bytes of the rd-field register are written, most significant first, at ra + imm, in local data, in a crucible store that
the mode may write, or in instruction RAM, and every other byte of those memories reads as before; the thread goes on at the next instruction. A misaligned or
forbidden address traps and stores nothing.
The model's own choices in it: log entry 31. -/
def Obligations.StoresWriteOnlyTheirBytes : Prop :=
  ∀ (s : State) (c : Cru) (t : Fin 256) (rd ra : Fin 32) (imm : BitVec 16),
    let x := s.chip.thread c t
    let a := (x.g ra + imm.signExtend 64).toNat
    let u := issued s c t
    let stores := fun (i : Instr) (op width : Nat) => Issues s c t (wordI op rd ra imm) →
      let byte := fun (k : Nat) => BitVec.ofNat 8 ((x.g rd).toNat >>> (8 * (width - 1 - k)))
      let counts := fun (y : Chip) => ∀ r, ¬counterRegister c (t / 8) r → y.reg r = s.chip.reg r
      (a % width = 0 → a + width ≤ 0x8000 → x.handler = none →
        ∃ y, Runs i s y ∧ y.thread c t = { x with ip := nextIp x.ip } ∧
          (∀ k, k < width → y.localByte c (t / 8) (a + k) = byte k) ∧
          (∀ d e o, e < 32 → o < 0x8000 → (d ≠ c.val ∨ e ≠ t.val / 8 ∨ o < a ∨ a + width ≤ o) → y.localByte d e o = s.chip.localByte d e o) ∧
          y.msgs = s.chip.msgs ∧ y.cru.iram = s.chip.cru.iram ∧ y.ddr = s.chip.ddr ∧ y.mem = s.chip.mem ∧ counts y) ∧
      (∀ d o, a % width = 0 → o + width ≤ 0x400000 →
        (a = 0x2000000 + o ∧ d = c.val ∨ a = 0x100000000 + d * 0x1000000 + o ∧ d < 33 ∧ (x.super = true ∨ s.chip.flag (Reg.CRU_CTRL c) 1 = true)) →
        ∃ y, Runs i s y ∧ y.thread c t = { x with ip := nextIp x.ip } ∧
          (∀ k, k < width → y.storeByte d (o + k) = byte k) ∧
          (∀ d' p, p < 0x400000 → (d' ≠ d ∨ p < o ∨ o + width ≤ p) → y.storeByte d' p = s.chip.storeByte d' p) ∧
          y.msgs.queues = s.chip.msgs.queues ∧ y.cru.localData = s.chip.cru.localData ∧ y.cru.iram = s.chip.cru.iram ∧ y.ddr = s.chip.ddr ∧ counts y) ∧
      (a % width = 0 → 4 ≤ width → 0x1000000 ≤ a → a + width ≤ 0x1040000 → x.super = true →
        ∃ y, Runs i s y ∧ y.thread c t = { x with ip := nextIp x.ip } ∧
          (∀ k, k < width → y.iramByte c (a - 0x1000000 + k) = byte k) ∧
          (∀ d o, o < 0x40000 → (d ≠ c.val ∨ o + 0x1000000 < a ∨ a + width ≤ o + 0x1000000) → y.iramByte d o = s.chip.iramByte d o) ∧
          y.msgs = s.chip.msgs ∧ y.cru.localData = s.chip.cru.localData ∧ y.ddr = s.chip.ddr ∧ counts y) ∧
      (∀ r, a % width = 0 → s.chip.place c t a width true = some r → r.isData = false →
        Runs i s ((((u.count c t (r.event 0x0D)).count c t 0x38).writePlace c t width (x.g rd) r).next c t fun y => y)) ∧
      (a % width ≠ 0 → Runs i s (u.trapHere c t 3 (w64 a))) ∧
      (a % width = 0 → s.chip.place c t a width true = none → Runs i s (u.trapHere c t 4 (w64 a)))
    stores (.stB c t rd ra imm) 0x18 1 ∧ stores (.stH c t rd ra imm) 0x19 2 ∧ stores (.stW c t rd ra imm) 0x1A 4 ∧
    stores (.stD c t rd ra imm) 0x1B 8

/-- AMO instructions (R233, R237): the 8-byte word of the crucible store at ra becomes the sum, rb, or, where it equals rd, rb; rd receives the old word, and the
thread waits for it. Every other byte of the stores reads as before. In local data they trap with ACCESS, and at an address
that 8 does not divide with ALIGN.
The model's own choices in it: log entries 31, 39. -/
def Obligations.AtomicsReturnTheOldWord : Prop :=
  ∀ (s : State) (c : Cru) (t : Fin 256) (rd ra rb : Fin 32),
    let x := s.chip.thread c t
    let a := (x.g ra).toNat
    let issues := fun (fn : Nat) => Issues s c t (wordR 0x1C rd ra rb fn)
    (∀ d o, a % 8 = 0 → o < 0x400000 →
      (a = 0x2000000 + o ∧ d = c.val ∨ a = 0x100000000 + d * 0x1000000 + o ∧ d < 33 ∧ (x.super = true ∨ s.chip.flag (Reg.CRU_CTRL c) 1 = true)) →
      x.expected = none → s.chip.mem.badStore.contains (d * 262144 + o / 16) = false →
      let old := w64 (numBE (s.chip.readStore d o 8))
      let swaps := fun (i : Instr) (fn : Nat) (new : W64) => issues fn →
        ∃ y, Runs i s y ∧ (y.thread c t).g rd = (if rd = 0 then 0 else old) ∧ (y.thread c t).state = stWaiting ∧ (y.thread c t).wait = .short ∧
          (y.thread c t).ip = nextIp x.ip ∧ y.readStore d o 8 = wordBytes new ∧
          (∀ d' p, p < 0x400000 → (d' ≠ d ∨ p < o ∨ o + 8 ≤ p) → y.storeByte d' p = s.chip.storeByte d' p) ∧
          (∀ d' u, tkey d' u ≠ tkey c t → y.thread d' u = s.chip.thread d' u) ∧
          y.cru.localData = s.chip.cru.localData ∧ y.cru.iram = s.chip.cru.iram ∧
          (∀ r, ¬counterRegister c (t / 8) r → y.reg r = s.chip.reg r)
      swaps (.amoAdd c t rd ra rb) 0 (old + x.g rb) ∧
      swaps (.amoSwap c t rd ra rb) 1 (x.g rb) ∧
      swaps (.amoCas c t rd ra rb) 2 (if old = x.g rd then x.g rb else old)) ∧
    (∀ cause, a % 8 ≠ 0 ∧ cause = 3 ∨ a % 8 = 0 ∧ a < 0x8000 ∧ cause = 4 →
      (issues 0 → Runs (.amoAdd c t rd ra rb) s ((issued s c t).trapHere c t cause (w64 a))) ∧
      (issues 1 → Runs (.amoSwap c t rd ra rb) s ((issued s c t).trapHere c t cause (w64 a))) ∧
      (issues 2 → Runs (.amoCas c t rd ra rb) s ((issued s c t).trapHere c t cause (w64 a))))

/-! ### Jarril: modes, traps and waits -/

/-- Special registers and counters (R224, R272, R281): MODE, PROG, TID and VBASE read in both modes, the others in supervisor mode only; PROG may be written in both
modes; a read or write that the mode does not permit traps with PRIV. CTR.RD needs supervisor mode or PCU, CTR.WR supervisor mode.
A supervisor instruction in program mode takes PRIV and nothing of its effect happens (R237, R243).
The model's own choices in it: log entries 31, 34, 35. -/
def Obligations.RegistersAndServicesByMode : Prop :=
  (∀ (s : State) (c : Cru) (t : Fin 256) (rd ra rb : Fin 32),
     let x := s.chip.thread c t
     let v := x.g ra
     let u := issued s c t
     let reads := fun (r : W64) => Computes (.sprRd c t rd rb) s c t rd r
     let sets := fun (y : Thread) => Leaves (.sprWr c t ra rb) s c t { y with ip := nextIp x.ip }
     (Issues s c t (wordR 0x3E rd 0 rb 1) →
       (rb = 0 → reads x.mode) ∧ (rb = 4 → reads x.prog) ∧ (rb = 5 → reads (w64 (t.val + c.val * 256))) ∧
       (rb = 9 → reads (s.chip.reg (Reg.CRU_VBASE c))) ∧ (10 ≤ rb.val → reads 0) ∧
       (x.super = true → (rb = 1 → reads x.epc) ∧ (rb = 2 → reads x.ecause) ∧ (rb = 3 → reads x.einfo) ∧ (rb = 6 → reads x.imask) ∧
         (rb = 7 → reads x.scratch0) ∧ (rb = 8 → reads x.scratch1)) ∧
       (x.super = false → rb.val ∈ [1, 2, 3, 6, 7, 8] → Runs (.sprRd c t rd rb) s (u.priv c t (wordR 0x3E rd 0 rb 1)))) ∧
     (Issues s c t (wordR 0x3E 0 ra rb 2) →
       (rb = 4 → sets { x with prog := v }) ∧ (10 ≤ rb.val → sets x) ∧
       (x.super = true → (rb = 0 → sets { x with ie := bit v 1 }) ∧ (rb = 1 → sets { x with epc := v }) ∧ (rb = 6 → sets { x with imask := v }) ∧
         (rb = 7 → sets { x with scratch0 := v }) ∧ (rb = 8 → sets { x with scratch1 := v }) ∧
         (rb.val ∈ [2, 3, 5, 9] → Runs (.sprWr c t ra rb) s (u.priv c t (wordR 0x3E 0 ra rb 2)))) ∧
       (x.super = false → rb.val < 10 → rb ≠ 4 → Runs (.sprWr c t ra rb) s (u.priv c t (wordR 0x3E 0 ra rb 2)))) ∧
     (Issues s c t (wordR 0x3E rd 0 rb 0) →
       (6 < rb.val → Runs (.ctrRd c t rd rb) s (u.illegal c t (wordR 0x3E rd 0 rb 0))) ∧
       (rb.val ≤ 6 → x.super = true ∨ s.chip.flag (Reg.CRU_CTRL c) 0 = true →
         (rb = 0 → s.chip.cru.ctrRuns.get (c * 32 + t / 8) = none → Computes (.ctrRd c t rd rb) s c t rd (w64 s.chip.cru.cycles)) ∧
         (rb ≠ 0 → u.countsCycles c (t / 8) rb = false →
           Computes (.ctrRd c t rd rb) s c t rd (w64 (fld (u.reg (Cell.ctrData c (t / 8) rb)) 47 0)))) ∧
       (rb.val ≤ 6 → x.super = false → s.chip.flag (Reg.CRU_CTRL c) 0 = false → Runs (.ctrRd c t rd rb) s (u.trapHere c t 5 (w64 rb)))) ∧
     (Issues s c t (wordR 0x3E 0 ra rb 3) →
       (x.super = true →
         (rb = 0 → Leaves (.ctrWr c t ra rb) s c t { x with ip := nextIp x.ip }) ∧
         (1 ≤ rb.val → rb.val ≤ 6 → ∃ y, Runs (.ctrWr c t ra rb) s y ∧ OnlyThread s.chip y c t ∧ y.thread c t = { x with ip := nextIp x.ip } ∧
           y.reg (Cell.ctrData c (t / 8) rb) = w64 (fld v 47 0)) ∧
         (6 < rb.val → Runs (.ctrWr c t ra rb) s (u.illegal c t (wordR 0x3E 0 ra rb 3)))) ∧
       (x.super = false → Runs (.ctrWr c t ra rb) s (u.priv c t (wordR 0x3E 0 ra rb 3))))) ∧
  (∀ (s : State) (c : Cru) (t : Fin 256) (rd ra : Fin 32) (fetch : CsFetch) (fault : Bool), (s.chip.thread c t).super = false →
     let priv := fun (i : Instr) (word : BitVec 32) => Issues s c t word → Runs i s ((issuedLong s c t).priv c t word)
     priv (.tblIns c t rd ra fetch fault) (wordR 0x30 rd ra 0 1) ∧
     priv (.tblDel c t rd ra fetch fault) (wordR 0x30 rd ra 0 2) ∧
     priv (.tblAge c t rd ra fetch fault) (wordR 0x30 rd ra 0 3) ∧
     (∀ i ∈ ([.derive c t rd ra fetch, .cmacDerive c t rd ra fetch, .mic c t rd ra fetch, .kdErase c t rd ra fetch] : List Instr),
       priv i (wordR 0x35 rd ra 0 0)) ∧
     (∀ i ∈ ([.unwrap c t rd ra fetch, .ecbImport c t rd ra fetch, .wrapOut c t rd ra fetch, .stateSave c t rd ra fetch,
         .stateRestore c t rd ra fetch] : List Instr), priv i (wordR 0x35 rd ra 0 1)))

/-- Taking a trap (R241 to R244): TRAP, a word that the list does not define, the run limit and an urgent message take the thread to its handler in supervisor mode,
with the saved registers written and IP at VBASE + CAUSE × 0x40.
The model's own choices in it: log entries 31, 54. -/
def Obligations.TrapsEnterTheHandler : Prop :=
  ∀ (s : State) (c : Cru) (t : Fin 256), s.chip.running = true →
    let x := s.chip.thread c t
    let takes := fun (i : Instr) (cause epc : Nat) (einfo : W64) (code : Nat) =>
      ∃ y, Runs i s y ∧ OnlyThread s.chip y c t ∧ y.thread c t = trapped s.chip c t cause epc einfo code
    (x.exl = false →
      (∀ rb : Fin 32, Issues s c t (wordR 0x3F 0 0 rb 0) → takes (.trap c t rb) 8 (nextIp x.ip) 0 rb.val) ∧
      (∀ word, Issues s c t word → definedWord word = false → takes (.illegalInstruction c t word) 1 x.ip (word.setWidth 64) 0)) ∧
    (s.chip.get (Reg.CRU_RUN_LIMIT c) 31 0 ≠ 0 → x.state = stReady → s.chip.engineRuns c (t / 8) = true → x.exl = false →
      s.chip.get (Reg.CRU_RUN_LIMIT c) 31 0 < 2 * (s.chip.frc - x.readyFrom) →
      takes (.runaway c t) 10 x.ip 0 0 ∧ ∃ y, Runs (.runaway c t) s y ∧ y.flag (Reg.CRU_EVENT c) 5 = true)

/-- A trap of any cause while EXL is 1 is a double trap (R242): the thread is FAULTED, its registers stay as they are, and THREAD_FAULT sets. A FAULTED thread issues nothing, and
START, STOP and RESUME leave it as it is; RESET makes it IDLE.
The model's own choices in it: log entries 31, 56, 58. -/
def Obligations.DoubleTrapFaultsTheThread : Prop :=
  ∀ (s : State) (c : Cru) (t : Fin 256), (s.chip.thread c t).exl = true →
    let faults := fun (i : Instr) => ∃ y, Runs i s y ∧ OnlyThread s.chip y c t ∧
      y.thread c t = { s.chip.thread c t with state := stFaulted, wait := .none } ∧ y.flag (Reg.CRU_EVENT c) 0 = true
    (∀ rb : Fin 32, Issues s c t (wordR 0x3F 0 0 rb 0) → faults (.trap c t rb)) ∧
    (∀ word, Issues s c t word → definedWord word = false → faults (.illegalInstruction c t word)) ∧
    (∀ (rd ra : Fin 32) (imm : BitVec 16), ((s.chip.thread c t).g ra + imm.signExtend 64).toNat % 8 ≠ 0 →
      (Issues s c t (wordI 0x13 rd ra imm) → faults (.ldD c t rd ra imm)) ∧ (Issues s c t (wordI 0x1B rd ra imm) → faults (.stD c t rd ra imm))) ∧
    (∀ cause epc einfo code, (s.chip.trap c t cause epc einfo code).thread c t = { s.chip.thread c t with state := stFaulted, wait := .none } ∧
      (s.chip.trap c t cause epc einfo code).flag (Reg.CRU_EVENT c) 0 = true) ∧
    (∀ u : State, u.chip.running = true → (u.chip.thread c t).state = stFaulted → u.chip.canIssue c t = false ∧
      (∃ y, Runs (.threadStart c t) u y ∧ y.cru = u.chip.cru) ∧ Runs (.threadStop c t) u u.chip ∧ Runs (.threadResume c t) u u.chip ∧
      ∃ y, Runs (.threadReset c t) u y ∧ (y.thread c t).state = stIdle)

/-- ERET, HALT, YIELD and FENCE (R221, R232, R237, R241, R262): ERET gives SUPER and IE back, clears EXL and goes on at EPC, and is a supervisor instruction; HALT
leaves the thread IDLE with no handler and no held message; YIELD only moves on; FENCE waits. STOP is taken between instructions, and a long instruction in its
prepare phase is abandoned for it (R246, R248, R294).
The model's own choices in it: log entries 30, 31. -/
def Obligations.ReturnsHaltsAndStops : Prop :=
  ∀ (s : State) (c : Cru) (t : Fin 256),
    let x := s.chip.thread c t
    let issues := fun (fn : Nat) => Issues s c t (wordR 0x3F 0 0 0 fn)
    (issues 1 →
      (x.super = true → Leaves (.eret c t) s c t
        { x with super := x.prevSuper, ie := x.prevIe, exl := false, ip := x.epc.toNat % iramSize / 4 * 4 }) ∧
      (x.super = false → Runs (.eret c t) s ((issued s c t).priv c t (wordR 0x3F 0 0 0 1)))) ∧
    (issues 2 →
      (x.held = [] → Leaves (.halt c t) s c t
        { x.endHandler with state := stIdle, wait := .none, stopReq := false, ip := nextIp x.ip }) ∧
      (∀ h, x.held = [h] → ∃ y, Runs (.halt c t) s y ∧ (y.thread c t).state = stIdle ∧ (y.thread c t).held = [] ∧
        (y.msgs.queues.get (c * 1024 + h.queue)).held = (s.chip.msgs.queues.get (c * 1024 + h.queue)).held.erase h.msg.slot)) ∧
    (issues 3 → Leaves (.yield c t) s c t { x with ip := nextIp x.ip }) ∧
    (issues 4 → Leaves (.fence c t) s c t { x with ip := nextIp x.ip, state := stWaiting, wait := .short }) ∧
    (s.chip.running = true → x.stopReq = true → s.chip.engineRuns c (t / 8) = true →
      (x.state = stReady → ∃ y, Runs (.stopTake c t) s y ∧ OnlyThread s.chip y c t ∧
        y.thread c t = { x with state := stStopped, wait := .none, stopReq := false }) ∧
      (∀ r, x.state = stWaiting → x.wait = .routine r → r.commit = false → ∃ y, Runs (.stopTake c t) s y ∧
        y.thread c t = { x with state := stStopped, wait := .none, stopReq := false, readyFrom := s.chip.frc }))

/-- An urgent message that no thread waits for interrupts the lowest-numbered thread that may take it (R245 to R247): trap cause 9 with the queue in EINFO and EPC at
the instruction to go on with, which a long instruction in its prepare phase is itself (R248, R294); the same message does not interrupt again.
The model's own choices in it: log entry 31. -/
def Obligations.UrgentMessageInterrupts : Prop :=
  ∀ (s : State) (c : Cru) (q : Fin 1024) (t : Fin 256) (l rest : List QMsg) (m : QMsg), s.chip.running = true →
    let x := s.chip.thread c t
    let k := c.val * 1024 + q.val
    (s.chip.msgs.queues.get k).items = l ++ m :: rest → (∀ n ∈ l, n.interrupted = true) → m.interrupted = false → bit (s.chip.queueCfg c q) 29 = true →
    (∀ u < 256, ∀ sel, (s.chip.thread c u).waitsFor = some sel → s.chip.selects c sel q = false) →
    s.chip.mayInterrupt c t q = true → (∀ d < t.val, s.chip.mayInterrupt c d q = false) → s.chip.engineRuns c (t / 8) = true →
    (x.state = stReady → ∃ y, Runs (.interruptTake c q) s y ∧ y.thread c t = trapped s.chip c t 9 x.ip (w64 q) 0 ∧
      (y.msgs.queues.get k).items = l ++ { m with interrupted := true } :: rest ∧
      (∀ d u, tkey d u ≠ tkey c t → y.thread d u = s.chip.thread d u) ∧
      (∀ r, ¬counterRegister c (t / 8) r → y.reg r = s.chip.reg r)) ∧
    (∀ r, x.state = stWaiting → x.wait = .routine r → r.commit = false → ∃ y, Runs (.interruptTake c q) s y ∧
      y.thread c t = trapped s.chip c t 9 x.ip (w64 q) 0 ∧ (y.msgs.queues.get k).items = l ++ { m with interrupted := true } :: rest)

/-! ### Jarril: long instructions -/

/-- TBL instructions on a request block in local data (R386 to R388, R400), whose routines run straight through: FIND returns the entry found with its location, INS, DEL
and AGE answer their status in rd[7:0], word 3 receives the location, and the thread waits for the cycles of its words. A request with a reserved bit set answers BAD_REQ,
with 0 in word 3, and touches no table.
The model's own choices in it: log entries 32, 40, 41, 106, 248. -/
def Obligations.TableInstructionsAnswer : Prop :=
  ∀ (s : State) (c : Cru) (t : Fin 256) (rd ra : Fin 32) (fault : Bool) (k : Nat),
    let x := s.chip.thread c t
    let off := (x.g ra).toNat
    let w := fun (k : Nat) => s.chip.localWord c t off k
    let e : Entry := BitVec.ofNat 128 ((w 1).toNat <<< 64 + (w 2).toNat)
    let issues := fun (fn : Nat) => IssuesLong s c t (wordR 0x30 rd ra 0 fn) 0x30 fn k
    let done := fun (y : Chip) (status : Nat) => (y.thread c t).state = stWaiting ∧ (y.thread c t).wait = .last (after s k) ∧
      (y.thread c t).ip = nextIp x.ip ∧ (y.thread c t).g rd = (if rd = 0 then 0 else setFld (x.g rd) 7 0 status)
    off % 8 = 0 → off + 32 ≤ 0x8000 → x.handler = none → x.expected = none →
    (fld (w 0) 63 5 ≠ 0 →
      let refuses := fun (i : Instr) => ∃ y, Runs i s y ∧ done y 5 ∧ y.fwd = s.chip.fwd ∧ y.localWord c t off 3 = 0 ∧
        ∀ o < 0x8000, (o < off + 24 ∨ off + 32 ≤ o) → y.localByte c (t / 8) o = s.chip.localByte c (t / 8) o
      (issues 0 → refuses (.tblFind c t rd ra [] fault)) ∧
      (x.super = true → (issues 1 → refuses (.tblIns c t rd ra [] fault)) ∧ (issues 2 → refuses (.tblDel c t rd ra [] fault)) ∧
        (issues 3 → refuses (.tblAge c t rd ra [] fault)))) ∧
    (fld (w 0) 63 5 = 0 →
      let find := (begun s c t 0x30 0).tblFind (fld (w 0) 4 0) e fault
      let ins := ((begun s c t 0x30 1).count c t 0x3A).tblInsert (fld (w 0) 4 0) e fault
      let del := ((begun s c t 0x30 2).count c t 0x3A).tblDelete (fld (w 0) 4 0) e fault
      let age := ((begun s c t 0x30 3).count c t 0x3A).tblAge (fld (w 0) 4 0) e fault
      let answers := fun (i : Instr) (a : TblAnswer) => ∃ y, Runs i s y ∧ done y (a.status % 256) ∧ y.fwd = a.chip.fwd ∧
        y.localWord c t off 3 = w64 (fld (w64 (a.status + a.loc <<< 8)) 63 8)
      (issues 0 → ∃ y, Runs (.tblFind c t rd ra [] fault) s y ∧ done y find.status ∧ y.fwd = find.chip.fwd ∧ y.localWord c t off 3 = w64 find.loc ∧
        ∀ f, find.entry = some f → y.localWord c t off 1 = w64 (efld f 127 64) ∧ y.localWord c t off 2 = w64 (efld f 63 0)) ∧
      (x.super = true → (issues 1 → answers (.tblIns c t rd ra [] fault) ins) ∧ (issues 2 → answers (.tblDel c t rd ra [] fault) del) ∧
        (issues 3 → answers (.tblAge c t rd ra [] fault) age)))

/-- MSG.SEND and SEND_RESUME (R257, R258): a message to a queue with a free slot is written to it, and the send answers SENT; one refused answers its status and sends nothing;
with WAIT set a full queue holds the thread until SEND_RESUME finds space. A body at an address that 8 does not divide traps with ALIGN, one that does not lie wholly
in local data or the own store with ACCESS.
The model's own choices in it: log entries 32, 40, 41, 43, 248. -/
def Obligations.MessagesAreSent : Prop :=
  ∀ (s : State) (c : Cru) (t : Fin 256) (rd ra rb : Fin 32) (k : Nat),
    let x := s.chip.thread c t
    let a := (x.g ra).toNat
    let ctl := x.g rb
    let len := fld ctl 45 32
    let dest := fld ctl 31 0
    let send : Instr := .msgSend c t rd ra rb []
    let issues := IssuesLong s c t (wordR 0x31 rd ra rb 0) 0x31 0 k
    let done := fun (y : Chip) (status : Nat) => (y.thread c t).state = stWaiting ∧ (y.thread c t).ip = nextIp x.ip ∧
      (y.thread c t).g rd = if rd = 0 then 0 else setFld (x.g rd) 7 0 status
    (∀ p, a % 8 = 0 → bodyPlace a len = some p → s.chip.badBody c len p = false → x.expected = none →
      let bytes := s.chip.bodyRead c t len p
      let d := s.chip.redirect (bitsOf dest 5 0)
      let q := d * 1024 + bitsOf dest 15 6
      let mq := s.chip.msgs.queues.get q
      let cfg := s.chip.queueCfg d (bitsOf dest 15 6)
      (∀ slot, bitsOf dest 31 30 = 0 → bitsOf dest 5 0 ≤ 32 → bit cfg 30 = true → 0 < len → len % 8 = 0 → len ≤ 8192 → len ≤ slotBytes cfg →
        freeSlot (slotCount cfg) mq.busy mq.next = some slot →
        let sent := fun (y : Chip) => done y 0 ∧
          y.msgs.queues.get q = { mq with next := (slot + 1) % slotCount cfg, items := mq.items ++
            [{ slot := slot, len := bytes.length, source := c.val * 256 + t.val, seq := s.chip.msgs.seq }] } ∧
          (∀ r, r ≠ q → y.msgs.queues.get r = s.chip.msgs.queues.get r) ∧ y.msgs.seq = s.chip.msgs.seq + 1 ∧
          y.msgs.store = (s.chip.putStore d (slotOffset cfg slot) bytes).msgs.store ∧ y.rings = s.chip.rings
        (issues → ∃ y, Runs send s y ∧ sent y ∧ (y.thread c t).wait = .last (after s k)) ∧
        (∀ r, s.chip.running = true → x.state = stWaiting → x.wait = .routine r → s.chip.engineRuns c (t / 8) = true → s.chip.holdsDispatch c = false →
          r.op = 0x31 → r.fn = 0 → r.rd = rd.val → r.ra = ra.val → r.rb = rb.val → r.reserved = .none → r.due ≤ s.chip.frc →
          (s.chip.store c).contents.version.isSome = true → straightCycles (s.chip.store c) microFuel r.word = some k →
          ∃ y, Runs (.sendResume c t) s y ∧ sent y ∧ ∃ due, (y.thread c t).wait = .last due)) ∧
      (∀ n, issues → s.chip.sendStatus ctl = n → n ≠ 0 → (n ≠ 1 ∨ bit ctl 48 = false) → ∃ y, Runs send s y ∧ done y n ∧
        (y.thread c t).wait = .last (after s k) ∧ y.msgs = s.chip.msgs ∧ y.rings = s.chip.rings ∧ y.tm = s.chip.tm) ∧
      (issues → s.chip.sendStatus ctl = 1 → bit ctl 48 = true → ∃ y r, Runs send s y ∧
        y.thread c t = { x with state := stWaiting, wait := .routine r } ∧ r.op = 0x31 ∧ r.fn = 0 ∧ r.rd = rd.val ∧ r.ra = ra.val ∧ r.rb = rb.val ∧
        r.reserved = .none ∧ y.msgs = s.chip.msgs ∧ y.rings = s.chip.rings)) ∧
    (issues → a % 8 ≠ 0 → Runs send s ((begun s c t 0x31 0).trapHere c t 3 (w64 a))) ∧
    (issues → a % 8 = 0 → bodyPlace a len = none → Runs send s ((begun s c t 0x31 0).trapHere c t 4 (w64 a)))

/-- MSG.WAIT, MESSAGE_DELIVER, MSG.POLL and MSG.DONE (R259 to R263, R543): a wait ends the handler; a message that comes goes to the thread that has waited longest, with
its descriptor in rd, and its slot stays occupied while the thread holds it; a poll takes a message that is there, or answers 0; MSG.DONE begins a new handler.
The model's own choices in it: log entry 40. -/
def Obligations.MessagesReachTheLongestWaiter : Prop :=
  ∀ (s : State) (c : Cru) (t : Fin 256) (rd ra : Fin 32) (k : Nat),
    let x := s.chip.thread c t
    let fresh := fun (y : Thread) => y.undo = [] ∧ y.record = [] ∧ y.replay = none
    let none_ := fun (_ : Nat) => 0
    let takes := fun (y : Chip) (q : Nat) (m : QMsg) => (y.thread c t).state = stWaiting ∧ (y.thread c t).ip = nextIp x.ip ∧
      (y.thread c t).g rd = (if rd = 0 then 0 else s.chip.descriptor c q m) ∧
      (y.thread c t).held = x.held ++ [{ queue := q, msg := m }] ∧
      (y.msgs.queues.get (c * 1024 + q)).items = (s.chip.msgs.queues.get (c * 1024 + q)).items.drop 1 ∧
      (y.msgs.queues.get (c * 1024 + q)).held = (s.chip.msgs.queues.get (c * 1024 + q)).held ++ [m.slot] ∧
      (∀ r, r ≠ c * 1024 + q → y.msgs.queues.get r = s.chip.msgs.queues.get r) ∧ y.msgs.store = s.chip.msgs.store
    (IssuesLong s c t (wordR 0x31 rd ra 0 1) 0x31 1 k → x.held = [] → ∃ y r, Runs (.msgWait c t rd ra []) s y ∧
      (y.thread c t).state = stWaiting ∧ (y.thread c t).wait = .routine r ∧ r.op = 0x31 ∧ r.fn = 1 ∧ r.rd = rd.val ∧ r.ra = ra.val ∧
      (y.thread c t).handler = none ∧ (y.thread c t).ip = x.ip ∧ (y.thread c t).waitSeq = s.chip.cru.seq ∧ y.cru.seq = s.chip.cru.seq + 1 ∧
      y.msgs = s.chip.msgs) ∧
    (∀ (q : Fin 1024) (r : Routine) (m : QMsg), s.chip.running = true → x.state = stWaiting → x.wait = .routine r → r.op = 0x31 → r.fn = 1 →
      r.rd = rd.val → r.ra = ra.val → r.reserved = .none → r.due ≤ s.chip.frc → s.chip.engineRuns c (t / 8) = true → s.chip.holdsDispatch c = false →
      (s.chip.store c).contents.version.isSome = true → straightCycles (s.chip.store c) microFuel r.word = some k →
      (∀ u < 256, u ≠ t.val → (s.chip.thread c u).waitsFor = none ∨ x.waitSeq < (s.chip.thread c u).waitSeq) →
      s.chip.oldestFor c (x.g ra) none_ = some (q.val, m) →
      ∃ y, Runs (.messageDeliver c q) s y ∧ takes y q m ∧ (∃ due, (y.thread c t).wait = .last due) ∧ (y.thread c t).handler.isSome = true ∧
        fresh (y.thread c t)) ∧
    (IssuesLong s c t (wordR 0x31 rd ra 0 3) 0x31 3 k →
      (s.chip.oldestFor c (x.g ra) none_ = none ∨ 4 ≤ x.held.length → ∃ y, Runs (.msgPoll c t rd ra []) s y ∧ OnlyThread s.chip y c t ∧
        y.thread c t = { x.setG rd 0 with ip := nextIp x.ip, state := stWaiting, wait := .last (after s k) }) ∧
      (∀ q m, s.chip.oldestFor c (x.g ra) none_ = some (q, m) → x.held.length < 4 → (∀ u < 256, (s.chip.thread c u).waitsFor = none) →
        ∃ y, Runs (.msgPoll c t rd ra []) s y ∧ takes y q m ∧ (y.thread c t).wait = .last (after s k))) ∧
    (IssuesLong s c t (wordR 0x31 0 0 0 2) 0x31 2 k → x.held = [] → ∃ y, Runs (.msgDone c t []) s y ∧ OnlyThread s.chip y c t ∧
      (y.thread c t).state = stWaiting ∧ (y.thread c t).wait = .last (after s k) ∧ (y.thread c t).ip = nextIp x.ip ∧ fresh (y.thread c t) ∧
      (y.thread c t).handler = some { regs := x.regs, prog := x.prog, super := x.super, ie := x.ie, exl := x.exl, held := [], ip := nextIp x.ip }) ∧
    (∀ h, IssuesLong s c t (wordR 0x31 0 0 0 2) 0x31 2 k → x.held = [h] → ∃ y, Runs (.msgDone c t []) s y ∧ (y.thread c t).held = [] ∧
      (y.msgs.queues.get (c * 1024 + h.queue)).held = (s.chip.msgs.queues.get (c * 1024 + h.queue)).held.erase h.msg.slot)

/-- BLK.COPY and BLK.FILL (R229, R237 to R239, R249), whose routines run straight through: within local data the bytes from PROG on take the source's bytes or the fill value, which
repeats from the destination's start, every other byte stays, and PROG reads 0 at the end. What needs a trap takes it before its first unit: BLK_FAULT for an address in no
space, ACCESS for a block that the mode may not write. A unit whose source cannot be corrected traps with BLK_FAULT and is not written.
The model's own choices in it: log entries 40, 41, 47, 48, 248. -/
def Obligations.BlockTransfersRestart : Prop :=
  ∀ (s : State) (c : Cru) (t : Fin 256) (rd ra rb : Fin 32) (now : Fin 1048576) (k : Nat),
    let x := s.chip.thread c t
    let len := (x.g rb).toNat
    let src := (x.g ra).toNat
    let dst := (x.g rd).toNat
    let p := x.prog.toNat
    let copies := IssuesLong s c t (wordR 0x32 rd ra rb 0) 0x32 0 k
    let fills := IssuesLong s c t (wordR 0x32 rd ra rb 1) 0x32 1 k
    let traps := fun (i : Instr) (cause : Nat) (einfo : W64) => ∃ u, OnlyThread s.chip u c t ∧ u.thread c t = x ∧ Runs i s (u.trapHere c t cause einfo)
    let ends := fun (y : Chip) => y.thread c t = { x with prog := 0, ip := nextIp x.ip, state := stWaiting, wait := .last (after s k) } ∧
      (∀ o < 0x8000, (o < dst + p ∨ dst + len ≤ o) → y.localByte c (t / 8) o = s.chip.localByte c (t / 8) o) ∧
      y.msgs = s.chip.msgs ∧ y.ddr = s.chip.ddr ∧ y.cru.iram = s.chip.cru.iram ∧ y.tm = s.chip.tm
    (x.handler = none → dst < 0x8000 → dst + len ≤ 0x8000 → p ≤ len →
      (fills → ∃ y, Runs (.blkFill c t rd ra rb [] now) s y ∧ ends y ∧
        ∀ j < len, p ≤ j → y.localByte c (t / 8) (dst + j) = nth (wordBytes (x.g ra)) (j % 8)) ∧
      (copies → src < 0x8000 → src + len ≤ 0x8000 → (src + len ≤ dst ∨ dst + len ≤ src) →
        (∃ y, Runs (.blkCopy c t rd ra rb [] now false) s y ∧ ends y ∧
          ∀ j < len, p ≤ j → y.localByte c (t / 8) (dst + j) = s.chip.localByte c (t / 8) (src + j)) ∧
        (p < len → traps (.blkCopy c t rd ra rb [] 0 true) 6 (w64 (src + p))))) ∧
    (copies → ∀ bad, 3 ≤ fld (x.g ra) 63 60 → traps (.blkCopy c t rd ra rb [] now bad) 6 (x.g ra)) ∧
    (fills → 3 ≤ fld (x.g rd) 63 60 → traps (.blkFill c t rd ra rb [] now) 6 (x.g rd)) ∧
    (fills → x.super = false → 0x1000000 ≤ dst → dst + len ≤ 0x1040000 → dst < 0x1040000 → traps (.blkFill c t rd ra rb [] now) 4 (w64 dst))

/-- GRANT.FILL (R135 to R137, R146, R147, R270): a list of entries in the crucible's store goes to ALLOC, which answers its status; where the status is OK the map is complete, in the
order of the list, and it waits for its verdict; else no map is added, and NOT_OWNER raises its event.
The model's own choices in it: log entries 32, 40, 49, 50, 51, 248, 265. -/
def Obligations.GrantFillGivesAllocTheMap : Prop :=
  ∀ (s : State) (c : Cru) (t : Fin 256) (rd ra rb : Fin 32) (now : Fin 1024) (k : Nat),
    let x := s.chip.thread c t
    let ctl := x.g rb
    let off := (x.g ra).toNat - 0x2000000
    let tree : Tree := Fin.ofNat 32 (fld ctl 4 0)
    let wl : Wl := Fin.ofNat 2 (fld ctl 5 5)
    let n := fld ctl 26 16
    let list := (List.range n).map fun j => w64 (numBE (s.chip.readStore c (off + 8 * j) 8))
    let r := s.chip.fillStatus c tree (bit ctl 6) (fld ctl 63 32) n
    let old := s.chip.pon.checker.get (wkey tree wl)
    IssuesLong s c t (wordR 0x33 rd ra rb 0) 0x33 0 k → 0 < n → n ≤ 1024 → (64 < n → x.prog = 0) → (x.g ra).toNat % 8 = 0 →
    0x2000000 ≤ (x.g ra).toNat → (x.g ra).toNat + 8 * n ≤ 0x2400000 → s.chip.badBody c (8 * n) (true, off) = false →
    ∃ y, Runs (.grantFill c t rd ra rb [] now) s y ∧
      y.thread c t = { x.setStatus rd r.1 with ip := nextIp x.ip, state := stWaiting, wait := .last (after s k) } ∧
      (y.pon.checker.get (wkey tree wl)).maps = (if r.1 = 0 then
        old.maps ++ [{ frame := r.2, shadow := bit ctl 6 || s.chip.standbyAt r.2, entries := list, forced := s.chip.standbyAt r.2 && !bit ctl 6 }]
        else old.maps) ∧
      (y.pon.checker.get (wkey tree wl)).parts = old.parts.filter (fun p => !p.isOf r.2 (bit ctl 6)) ∧
      (∀ j, j ≠ wkey tree wl → y.pon.checker.get j = s.chip.pon.checker.get j) ∧
      (r.1 = 3 → y.flag Reg.ALLOC_EVENT 5 = true) ∧
      y.msgs = s.chip.msgs ∧ y.cru.localData = s.chip.cru.localData

/-- TIME.READ, TIME.READ.FRC and TIME.ARM (R237, R265, R266, R490, R505): logical time in whole ns and, in rd + 1, its fraction; FRC; a trigger armed in a free slot with its
handle in rd[47:32], or NO_SLOT, PAST and BAD_TARGET with no slot taken.
The model's own choices in it: log entries 32, 40, 52, 248. -/
def Obligations.TimeInstructions : Prop :=
  ∀ (s : State) (c : Cru) (t : Fin 256) (rd ra : Fin 32) (k : Nat),
    let x := s.chip.thread c t
    let off := (x.g ra).toNat
    let w := fun (k : Nat) => s.chip.localWord c t off k
    (Issues s c t (wordR 0x34 rd 0 0 0) →
      (rd.val ≠ 0 → rd.val % 2 = 0 → ∃ y, Runs (.timeRead c t rd) s y ∧ OnlyThread s.chip y c t ∧
        (y.thread c t).g rd = w64 (nsOf s.chip.logical) ∧ (y.thread c t).g (rd + 1) = setFld (x.g (rd + 1)) 15 0 (fracOf s.chip.logical) ∧
        (y.thread c t).ip = nextIp x.ip ∧ (y.thread c t).state = stWaiting ∧ (y.thread c t).wait = .short) ∧
      (rd.val = 0 ∨ rd.val % 2 = 1 → Runs (.timeRead c t rd) s ((issued s c t).illegal c t (wordR 0x34 rd 0 0 0)))) ∧
    (Issues s c t (wordR 0x34 rd 0 0 1) → ∃ y, Runs (.timeReadFrc c t rd) s y ∧ OnlyThread s.chip y c t ∧
      y.thread c t = { x.setG rd (w64 s.chip.frc) with ip := nextIp x.ip, state := stWaiting, wait := .short }) ∧
    (IssuesLong s c t (wordR 0x34 rd ra 0 2) 0x34 2 k → off % 8 = 0 → off + 32 ≤ 0x8000 →
      let answers := fun (status : Nat) => ∃ y, Runs (.timeArm c t rd ra []) s y ∧ OnlyThread s.chip y c t ∧
        y.thread c t = { x.setStatus rd status with ip := nextIp x.ip, state := stWaiting, wait := .last (after s k) }
      let bad := 32 < fld (w 2) 5 0 ∨ fld (w 3) 63 56 ≠ 0 ∨ (fld (w 3) 39 0 ≠ 0 ∧ fld (w 3) 39 0 < 1000)
      (bad → answers 3) ∧
      (¬bad → (w 0).toNat * ns1 ≤ s.chip.logical → answers 2) ∧
      (¬bad → s.chip.logical < (w 0).toNat * ns1 → (∀ j < 256, (s.chip.time.trig.get j).armed = true) → answers 1) ∧
      (¬bad → s.chip.logical < (w 0).toNat * ns1 → (∃ j < 256, (s.chip.time.trig.get j).armed = false) →
        ∃ y, ∃ j < 256, Runs (.timeArm c t rd ra []) s y ∧ (s.chip.time.trig.get j).armed = false ∧
          y.time.trig.get j = armedTrigger (s.chip.time.trig.get j).gen (w 0) (w 1) (w 2) (w 3) ∧
          (∀ i, i ≠ j → y.time.trig.get i = s.chip.time.trig.get i) ∧ (y.thread c t).ip = nextIp x.ip ∧
          (rd ≠ 0 → fld ((y.thread c t).g rd) 7 0 = 0 ∧
            fld ((y.thread c t).g rd) 47 32 = (j + (s.chip.time.trig.get j).gen <<< 8) % 65536)))

/-- The key service (R470 to R472, R482, R484): an operation that the request block names is carried out on the slots, its answer in rd[7:0]; what it gives out goes to OUT with its
length in word 3. DERIVE, CMAC_DERIVE, MIC and ERASE are CRYPT.KD with OP 0 to 3; UNWRAP, ECB_IMPORT, WRAP_OUT, STATE_SAVE and STATE_RESTORE CRYPT.WRAP with 4 to 8; an OP of
the other instruction is BAD_REQ and changes no slot.
The model's own choices in it: log entries 32, 40, 53, 124, 248. -/
def Obligations.KeyServiceAnswers : Prop :=
  ∀ (s : State) (c : Cru) (t : Fin 256) (rd ra : Fin 32) (k : Nat),
    let x := s.chip.thread c t
    let off := (x.g ra).toNat
    let w := fun (k : Nat) => s.chip.localWord c t off k
    let n := fld (w 2) 47 32
    let data := natsOf (s.chip.bodyRead c t n (false, fld (w 2) 31 0))
    let done := fun (y : Chip) (status : Nat) => (y.thread c t).ip = nextIp x.ip ∧ (y.thread c t).state = stWaiting ∧
      (y.thread c t).wait = .last (after s k) ∧ (y.thread c t).g rd = (if rd = 0 then 0 else setFld (x.g rd) 7 0 status)
    let answers := fun (i : Instr) (code : Nat) (r : KeyAnswer) => fld (w 0) 3 0 = code → r.2.1.length ≤ 0x8000 - fld (w 3) 31 0 →
      ∃ y, Runs i s y ∧ done y r.1 ∧ y.ciph = r.2.2.ciph ∧ (r.2.1 ≠ [] → y.localWord c t off 3 = setFld (w 3) 47 32 r.2.1.length)
    let refuses := fun (i : Instr) => ∃ y, Runs i s y ∧ done y 1 ∧ y.ciph = s.chip.ciph ∧ OnlyThread s.chip y c t
    off % 8 = 0 → off + 32 ≤ 0x8000 → x.super = true → x.handler = none → fld (w 2) 31 0 < 0x8000 → fld (w 2) 31 0 + n ≤ 0x8000 →
    fld (w 3) 31 0 < 0x8000 →
    (IssuesLong s c t (wordR 0x35 rd ra 0 0) 0x35 0 k →
      let u := begun s c t 0x35 0
      answers (.derive c t rd ra []) 0 (opDerive (w 0) (w 1) u) ∧
      answers (.cmacDerive c t rd ra []) 1 (opCmacDerive (w 0) (w 1) data u) ∧
      answers (.mic c t rd ra []) 2 (opMic (w 0) data u) ∧
      answers (.kdErase c t rd ra []) 3 (opErase (w 0) u) ∧
      (3 < fld (w 0) 3 0 → refuses (.derive c t rd ra []) ∧ refuses (.cmacDerive c t rd ra []) ∧ refuses (.mic c t rd ra []) ∧
        refuses (.kdErase c t rd ra []))) ∧
    (IssuesLong s c t (wordR 0x35 rd ra 0 1) 0x35 1 k →
      let u := begun s c t 0x35 1
      answers (.unwrap c t rd ra []) 4 (opUnwrap (w 0) (w 1) data u) ∧
      answers (.ecbImport c t rd ra []) 5 (opEcbImport (w 0) (w 1) data u) ∧
      answers (.wrapOut c t rd ra []) 6 (opWrapOut (w 0) u) ∧
      answers (.stateSave c t rd ra []) 7 (opStateSave (w 0) u) ∧
      answers (.stateRestore c t rd ra []) 8 (opStateRestore (w 0) data u) ∧
      (fld (w 0) 3 0 < 4 → refuses (.unwrap c t rd ra []) ∧ refuses (.ecbImport c t rd ra []) ∧ refuses (.wrapOut c t rd ra []) ∧
        refuses (.stateSave c t rd ra []) ∧ refuses (.stateRestore c t rd ra [])))

/-! ### Crucibles as the host and time see them -/

/-- Starts, stops and resets of threads (R246, R267 to R269, R278, R310): START begins an IDLE thread at ENTRY in the mode of CRU_THREAD_CTRL, and sets START_ERR for any other thread or
without a pattern; RESUME continues a STOPPED thread; RESET gives IDLE with MODE clear from any state; a trigger that has come starts its thread with TAG in g1 and the armed time in
g2, or pends.
The host's access to a crucible's memories (R13, R279, R749): CRU_MEM_DATA reads and writes the eight bytes at OFFSET in the space that SPACE names, bits [31:0] being the last
four, and OFFSET moves on by 8 under AUTOINC after a 64-bit access or one of the high half; a place beyond its space reads 0.
The model's own choices in it: log entries 26, 58, 59. -/
def Obligations.ThreadsAndMemoriesUnderHostControl : Prop :=
  (∀ (s : State) (c : Cru) (t : Fin 256), s.chip.running = true →
     let x := s.chip.thread c t
     let ctrl := s.chip.reg (Cell.threadCtrl c t)
     let starts := fun (y : Chip) (entry : Nat) (g1 g2 : W64) => (y.thread c t).state = stReady ∧ (y.thread c t).ip = entry * 4 % iramSize ∧
       (y.thread c t).super = bit ctrl 4 ∧ (y.thread c t).g 1 = g1 ∧ (y.thread c t).g 2 = g2 ∧ (y.thread c t).handler.isSome = true ∧
       (∀ n, n ≠ 1 → n ≠ 2 → (y.thread c t).g n = x.g n) ∧ (∀ d u, tkey d u ≠ tkey c t → y.thread d u = s.chip.thread d u)
     (x.state = stIdle → (s.chip.store c).contents.version ≠ none → ∃ y, Runs (.threadStart c t) s y ∧ starts y (fld ctrl 47 32) 0 0 ∧
       y.regs = s.chip.regs) ∧
     ((x.state ≠ stIdle ∨ (s.chip.store c).contents.version = none) → Runs (.threadStart c t) s (s.chip.raise (Reg.CRU_EVENT c) 1)) ∧
     ((x.state = stReady ∨ x.state = stWaiting) → Runs (.threadStop c t) s (s.chip.setThread c t { x with stopReq := true })) ∧
     (x.state ≠ stReady → x.state ≠ stWaiting → Runs (.threadStop c t) s s.chip) ∧
     (x.state = stStopped → Runs (.threadResume c t) s (s.chip.setThread c t { x with state := stReady, readyFrom := s.chip.frc })) ∧
     (x.state ≠ stStopped → Runs (.threadResume c t) s s.chip) ∧
     (x.held = [] → ∃ y, Runs (.threadReset c t) s y ∧ y.regs = s.chip.regs ∧
       y.thread c t = { x.endHandler with state := stIdle, wait := .none, pending := none, super := false, ie := false, exl := false
                                          stopReq := false }) ∧
     ((s.chip.gate.crus.get c).state = 0 →
       (∀ p, x.state = stIdle → x.pending = some p → ∃ y, Runs (.pendingStart c t) s y ∧ starts y p.entry (w64 p.tag) (w64 p.time) ∧
         (y.thread c t).pending = none) ∧
       (∀ k : Fin 256, let g := s.chip.time.trig.get k
         g.armed = true → (g.next : Int) * ns1 ≤ s.chip.logical → s.chip.redirect g.crucible = c → g.thread = t →
         (x.state = stIdle → x.pending = none → ∃ y, Runs (.triggerFire k) s y ∧ starts y g.entry (w64 g.tag) (w64 g.next) ∧
           y.time.trig.get k = (if g.period = 0 ∨ g.remaining = 1 then g.freed
             else { g with next := g.resume.getD (g.next + g.period), resume := none, remaining := g.remaining - 1 })) ∧
         (x.state ≠ stIdle → x.pending = none → ∃ y, Runs (.triggerFire k) s y ∧
           y.thread c t = { x with pending := some { entry := g.entry, tag := g.tag, time := g.next } })))) ∧
  (∀ (s : State) (c : Cru) (v : W64), s.chip.running = true →
     let addr := s.chip.reg (Reg.CRU_MEM_ADDR c)
     let off := fld addr 21 0 / 8 * 8
     let byte_ := fun (y : Chip) (o : Nat) => match fld addr 23 22 with
       | 0 => y.storeByte c o
       | 1 => if iramSize ≤ off then 0 else y.iramByte c o
       | 2 => if 32768 ≤ off then 0 else y.localByte c (fld addr 28 24) o
       | _ => 0
     let word := w64 (numBE ((List.range 8).map fun k => byte_ s.chip (off + k)))
     let moves := fun (y : Chip) => if bit addr 63 then y.setField (Reg.CRU_MEM_ADDR c) 21 0 ((fld addr 21 0 + 8) % 4194304) else y
     let writes := fun (lanes : Lanes) (lo : Nat) (l : List Byte) => ∃ y, Runs (.cruMemDataWrite c lanes v) s y ∧
       (fld addr 23 22 = 0 ∨ fld addr 23 22 = 1 ∧ off < iramSize ∨ fld addr 23 22 = 2 ∧ off < 32768 →
         ∀ k < 8, byte_ y (off + k) = if lo ≤ k ∧ k < lo + l.length then nth l (k - lo) else byte_ s.chip (off + k)) ∧
       (lanes ≠ .low → bit addr 63 = true → y.get (Reg.CRU_MEM_ADDR c) 21 0 = (fld addr 21 0 + 8) % 4194304) ∧
       (lanes = .low ∨ bit addr 63 = false → y.regs = s.chip.regs)
     Runs (.cruMemDataRead c .full) s (moves (s.chip.answer word)) ∧
     Runs (.cruMemDataRead c .low) s (s.chip.answer (w64 (fld word 31 0))) ∧
     Runs (.cruMemDataRead c .high) s (moves (s.chip.answer (w64 (fld word 63 32)))) ∧
     writes .full 0 (wordBytes v) ∧ writes .low 4 (bytesBE 4 (fld v 31 0)) ∧ writes .high 0 (bytesBE 4 (fld v 31 0)))

/-- The loader and the control stores (R302 to R309, R313 to R318): GO starts a load while none is under way; an image that cannot be fetched, or a load that fails a check, writes no
store; one that passes every check writes both copies of the reserve bank not in use; each crucible in order takes the words, its routines in their prepare phases abandoned, the last
one ending the load; the start-up load takes slot A or slot B; a word is repaired from the reserve.
The model's own choices in it: log entries 41, 157, 161, 162, 246, 247. -/
def Obligations.PatternsAreLoaded : Prop :=
  ∀ (s : State), s.chip.running = true →
    let l := s.chip.patterns.loader
    let refused := fun (img : Option (List Byte)) (r : Nat) => ∃ y, Runs (.loadChecked img) s y ∧ y.patterns.stores = s.chip.patterns.stores ∧
      y.ddr = s.chip.ddr ∧ y.patterns.loader = { l with busy := false, phase := 0, result := r } ∧ y.flag (Reg.CRU_UC_EVENT 0) (if r = 0 then 4 else 5) = true
    (∀ (e : Ep) (source : Fin 4),
      let u := if source = 3 then s.chip else s.chip.setField Reg.CRU_LOAD_CTRL 2 1 source.val
      (l.busy = false → Runs (.loadGo e source) s (u.setLoader fun l =>
        { busy := true, phase := 1, source := if source = 3 then s.chip.get Reg.CRU_LOAD_CTRL 2 1 else source.val, sideBand := false, ep := e.val,
          result := l.result, slotB := l.slotB })) ∧
      (l.busy = true → Runs (.loadGo e source) s (u.raise (Reg.CRU_UC_EVENT 0) 5))) ∧
    (l.busy = true → l.phase = 1 →
      refused none 1 ∧
      (∀ img, l.source = 0 → (s.chip.hif.eps.get l.ep).bme = false → refused (some img) 1) ∧
      (∀ img, l.source = 0 → (s.chip.hif.eps.get l.ep).bme = true →
        let n := s.chip.get Reg.CRU_LOAD_LEN 20 0
        let r := checkImage (s.chip.store 32).contents (img.take n)
        (n = 0 ∨ 1048576 < n → refused (some img) 2) ∧
        (0 < n → n ≤ 1048576 →
          (r.1 ≠ 0 → refused (some img) r.1) ∧
          (r.1 = 0 → ∃ y, Runs (.loadChecked (some img)) s y ∧ y.patterns.stores = s.chip.patterns.stores ∧ y.patterns.bank = s.chip.patterns.bank ∧
            y.patterns.loader.new = r.2 ∧ y.patterns.loader.phase = 3 ∧ y.patterns.loader.done = 0 ∧ y.regs = s.chip.regs ∧
            ∀ copy < 2, ∀ a < 16384, y.ddrRead (reserveAt (1 - s.chip.patterns.bank) copy a) 16 = bytesBE 16 (r.2.words.get a).toNat)))) ∧
    (∀ c : Cru, l.phase = 3 → l.done = c.val → ((∀ t : Tree, (s.chip.pon.pond.get t).timing = .stopped) ∨ s.chip.holdDue c = true) →
      ∃ y, Runs (.crucibleHold c) s y ∧ (y.store c).contents = l.new ∧ y.patterns.loader.done = c.val + 1 ∧
        (c.val = 32 → y.patterns.bank = 1 - s.chip.patterns.bank ∧ y.patterns.loader.busy = false ∧ y.patterns.loader.result = l.status) ∧
        (∀ d, d ≠ c.val → y.store d = s.chip.store d) ∧
        (∀ t < 256, ∀ r, (s.chip.thread c t).wait = .routine r → r.commit = false → (y.thread c t).state = stReady ∧ (y.thread c t).wait = .none ∧
          (y.thread c t).ip = (s.chip.thread c t).ip)) ∧
    (s.chip.starting = true →
      (∀ readB, (s.chip.checkSlot false).1 = true → ∃ y, Runs (.bootLoad true readB) s y ∧
        (∀ c : Cru, y.store c = { contents := (s.chip.checkSlot false).2.2 }) ∧ y.patterns.loader.result = (s.chip.checkSlot false).2.1 ∧
        y.patterns.loader.boot = true ∧ y.patterns.loader.slotB = false) ∧
      (∀ readA, (readA = false ∨ (s.chip.checkSlot false).1 = false) → (s.chip.checkSlot true).1 = true → ∃ y, Runs (.bootLoad readA true) s y ∧
        (∀ c : Cru, y.store c = { contents := (s.chip.checkSlot true).2.2 }) ∧ y.patterns.loader.slotB = true) ∧
      (∃ y, Runs (.bootLoad false false) s y ∧ y.patterns.stores = s.chip.patterns.stores ∧ y.patterns.loader.result = 1 ∧
        y.flag Reg.GLB_STARTUP 4 = true ∧ y.get Reg.GLB_STARTUP 15 8 = 2)) ∧
    (∀ (c : Cru) (word : Fin 16384), s.chip.copyReads (s.chip.bankOf c) 0 word = true →
      let w := BitVec.ofNat 128 (numBE (s.chip.ddrRead (reserveAt (s.chip.bankOf c) 0 word) 16))
      let sound := fun (y : Chip) => (y.store c).contents.words.get word = w ∧ (y.store c).wrong.get word = 0 ∧
        (y.store c).broken = (s.chip.store c).broken.erase word.val ∧ (∀ d, d ≠ c.val → y.store d = s.chip.store d)
      ((s.chip.store c).broken.contains word.val = true → ∃ y, Runs (.csRepair c word false) s y ∧ sound y ∧ y.regs = s.chip.regs) ∧
      (∃ y, Runs (.csScrub c word false) s y ∧ sound y ∧ y.flag (Reg.CRU_UC_EVENT c) 1 = true))

/-! ### Trees: receivers, maps, framers and their counters -/

/-- A granted burst ends once, in one outcome (R92, R95, R98, R114): NOT_ATTEMPTED where the receiver does not attempt it, LOST where no delimiter is found where it is sought, else what was
found; a PLOAMu that was heard is delivered; a burst that has its outcome is not judged again; a ranging grant whose window shows nothing is LOST with its notice; one burst found in
it gives its outcome and its notice; a frame's end is judged once, and its summary leaves once.
The model's own choices in it: log entries 5, 69, 71, 236, 237, 239. -/
def Obligations.BurstsEndInOneOutcome : Prop :=
  ∀ (s : State) (t : Tree) (w : Wl) (n : BitVec 51) (start : BitVec 16) (i j : Nat), s.chip.running = true →
    let c := s.chip
    let rx := c.pon.rx.get (wkey t w)
    let m := nth rx.maps i
    let b := nth m.bursts j
    let p := c.profile t w n.toNat b.profile
    let teqd := fld (c.ponuAt t n.toNat (Reg.PONU_TEQD t w)) 31 0
    rx.mapAt n.toNat = some i → m.burstAt start.toNat = some j →
    (b.result.isSome = true → (∀ x, Runs (.burstEnd t w n start x) s c) ∧ (∀ l, Runs (.quietWindowClose t w n start l) s c)) ∧
    (b.result = none → b.ranging = false → ∀ x,
      let y := knownLight x b.head
      let heard := heardPloamu w p b y
      (c.attempts t w n.toNat m.late j = false → Runs (.burstEnd t w n start x) s (c.endBurst t w n.toNat i j 6 none false y)) ∧
      (c.attempts t w n.toNat m.late j = true → c.findSpot t w n.toNat b y.head.spots = none →
        Runs (.burstEnd t w n start x) s (c.endBurst t w n.toNat i j 3 none false y)) ∧
      (∀ q, c.attempts t w n.toNat m.late j = true → c.findSpot t w n.toNat b y.head.spots = some q →
        let o := foundOutcome (tooClose w p rx.lastEnd (delimAt w n.toNat b.start p q.offset)) b.onu y.head (heardCodewords w p b y.codewords)
        (heard = none ∨ 2 < o ∨ c.servesAt t n.toNat = false →
          Runs (.burstEnd t w n start x) s (c.endBurst t w n.toNat i j o (some q.offset) false y)) ∧
        (∀ bytes, heard = some bytes → o ≤ 2 → c.servesAt t n.toNat = true →
          let d := c.ponuDeliver 1 o t w y.head.onu y.level.toNat n.toNat (arrivalOf teqd q.offset) (stampOf (c.logicalAt y.tick)) (some bytes)
          Runs (.burstEnd t w n start x) s (d.2.endBurst t w n.toNat i j o (some q.offset) d.1 y)))) ∧
    (b.result = none → b.ranging = true →
      (∀ l, c.attempts t w n.toNat m.late j = false →
        Runs (.quietWindowClose t w n start l) s ((c.endBurst t w n.toNat i j 6 none false default).lostNotice t w n.toNat b.onu)) ∧
      (c.attempts t w n.toNat m.late j = true →
        Runs (.quietWindowClose t w n start []) s ((c.endBurst t w n.toNat i j 3 none false default).lostNotice t w n.toNat b.onu)) ∧
      (∀ x q, c.attempts t w n.toNat m.late j = true → c.findSpot t w n.toNat b x.head.spots = some q →
        let o := foundOutcome (tooClose w p rx.lastEnd (delimAt w n.toNat b.start p q.offset)) b.onu x.head (heardCodewords w p b x.codewords)
        Runs (.quietWindowClose t w n start [x]) s
          ((c.endBurst t w n.toNat i j o (some q.offset) false x).rangingNotice t w n.toNat teqd b { light := x, offset := q.offset, outcome := o }))) ∧
    (∀ light spans,
      let ends := fun (f : Receiver → Receiver) => ((((((c.updRx (wkey t w) f).judge t w).setFlag (Reg.PONU_WL_STATUS t w) 0 light).darkLight
        t w n.toNat spans).agePartials t w).updRx (wkey t w) Receiver.clean)
      (m.ended = true → Runs (.upstreamFrameEnd t w n light spans) s (ends id)) ∧
      (m.ended = false → Runs (.upstreamFrameEnd t w n light spans) s
        (ends fun r => { r with maps := r.maps.set i { m with ended := true, dark := c.darkTime t w spans } }))) ∧
    (∀ spans, m.summarised = false → m.bursts ≠ [] → (m.bursts.all fun b => b.result.isSome) = true →
      let u := c.updRx (wkey t w) fun r => { r with maps := r.maps.set i { m with summarised := true } }
      let dest := u.ponuAt t n.toNat (Reg.PONU_SUMMARY_DEST t)
      let dark := (if m.ended then m.dark else c.darkTime t w spans) / 16
      let sent := u.sendQueue (fld dest 5 0) (fld dest 15 6) (deviceSource 3 (wkey t w)) (summaryBody t w dark m)
      (bit dest 16 = false → Runs (.burstSummary t w n spans) s (u.updRx (wkey t w) Receiver.clean)) ∧
      (bit dest 16 = true → sent.1 = true → Runs (.burstSummary t w n spans) s (sent.2.updRx (wkey t w) Receiver.clean)) ∧
      (bit dest 16 = true → sent.1 = false → Runs (.burstSummary t w n spans) s
        (((sent.2.bump (Reg.PONU_SUMMARY_DROP t w)).raise (Reg.PONU_EVENT t) 5).updRx (wkey t w) Receiver.clean)))

/-- Upstream XGEM frames (R79, R83 to R91, R754): a burst whose head passes gives its frames at once; a header that cannot be used ends the grant's frames, an idle frame changes nothing
but the count of corrected headers, one that runs past its grant ends the grant's frames too, a frame of a port that is not bound to the burst's terminal is counted and dropped, a
bound one goes to CIPH and reassembly; a partial frame not continued in eight frames is discarded.
The model's own choices in it: log entries 77, 79, 111, 230, 231, 232, 233. -/
def Obligations.UpstreamFramesAreDeframed : Prop :=
  ∀ (s : State) (t : Tree) (w : Wl) (n : BitVec 51) (start : BitVec 16) (a : Fin 1024) (x : XgemLight) (unit : UnitReport) (i j : Nat) (g : RxGrant),
    s.chip.running = true →
    let c := s.chip
    let m := nth (c.pon.rx.get (wkey t w)).maps i
    let b := nth m.bursts j
    let p := c.profile t w n.toNat b.profile
    let h := b.head.getD x.head
    let u := c.updBurst t w i j fun y => { y with head := some h }
    let runs := fun (y : Chip) => Runs (.xgemDeframe t w n start a x unit) s (c.demotions y)
    let at_ := b.allocAt a + (if g.dbru then 32 else 0) + 8 * x.position
    (c.pon.rx.get (wkey t w)).mapAt n.toNat = some i → m.burstAt start.toNat = some j → b.grants[a.val]? = some g →
    (c.attempts t w n.toNat m.late j = false ∨ c.passes t w n.toNat b h = false ∨ g.skip = true → runs c) ∧
    (c.attempts t w n.toNat m.late j = true → c.passes t w n.toNat b h = true → g.skip = false →
      (lostBits w p b x.codewords at_ (at_ + 64) = true → runs ((u.skipRest t w i j a).dropPartial t w g.allocId)) ∧
      (lostBits w p b x.codewords at_ (at_ + 64) = false →
        (x.hec = .bad → runs (((u.bump (Reg.PONU_HEC_UNCORR t w)).skipRest t w i j a).dropPartial t w g.allocId)) ∧
        (x.hec ≠ .bad →
          let v := (if x.hec = .corrected then u.bump (Reg.PONU_HEC_CORR t w) else u).beginPayload t w g.allocId x
          let onu := b.from_ h
          (x.port.val = 0xFFFF → runs v) ∧
          (x.port.val ≠ 0xFFFF → g.size * 4 < x.position + 8 + paddedLen x.pli → v.servesAt t n.toNat = false →
            runs ((v.bump (Reg.PONU_PLI_OVERRUN t w)).skipRest t w i j a)) ∧
          (x.port.val ≠ 0xFFFF → x.position + 8 + paddedLen x.pli ≤ g.size * 4 →
            lostBits w p b x.codewords at_ (at_ + 8 * (8 + paddedLen x.pli)) = false →
            (v.bindPort t w x.port onu = none → runs (v.bump (Reg.PONU_PORT_MISMATCH t w))) ∧
            (∀ k, v.bindPort t w x.port onu = some k → v.servesAt t n.toNat = true → runs (v.bound t w n.toNat onu g.allocId k x unit)))))) ∧
    (∀ (alloc : Fin 16384) (p : Partial), c.pon.partials.get (wkey t w * 16384 + alloc.val) = some p → 8 ≤ p.idle →
      Runs (.fragTimeout t w alloc) s (c.dropPartial t w alloc.val))

/-- Records, ownership and maps of ALLOC (R130, R131, R135, R136, R138, R153, R165, R166): a record is written unless its Alloc-ID is another record's, a terminal record unless the tree
would have more than 512; ALLOC_OWNER takes only a 64-bit write while OLD and NEW agree; the oldest map of a frame without a verdict gets one, sent as a message; a frame without a
map in time is LATE; POND takes the map and the entries queued by then.
The model's own choices in it: log entries 80, 84, 85, 227. -/
def Obligations.MapsAreCheckedAndTaken : Prop :=
  ∀ (s : State) (t : Tree) (w : Wl), s.chip.running = true →
    let c := s.chip
    let wk := wkey t w
    (∀ (idx : Fin 4096) (v : W64), (fld v 13 0 < 1020 ∨ 1023 < fld v 13 0) → fld v 24 15 ≤ 1019 →
      let u := c.setRec (recKey t 0 0 idx) (w64 (fld v 26 0))
      (bit v 26 = false → Runs (.allocRecWrite t w 0 idx v) s u) ∧
      (bit v 26 = true → c.findAlloc t (fld v 14 14) (fld v 13 0) = none → bit (c.pon.recs.get (recKey t 0 0 idx)) 26 = false →
        Runs (.allocRecWrite t w 0 idx v) s ((u.setRec (recKey t 0 2 idx) 0).setRec (recKey t 0 3 idx) 0))) ∧
    (∀ (idx : Fin 4096) (v : W64) r, (fld v 13 0 < 1020 ∨ 1023 < fld v 13 0) → fld v 24 15 ≤ 1019 → bit v 26 = true →
      c.findAlloc t (fld v 14 14) (fld v 13 0) = some r → r.1 ≠ idx.val →
      Runs (.allocRecWrite t w 0 idx v) s (c.raise Reg.ALLOC_EVENT 2)) ∧
    (∀ (idx : Fin 4096) (v : W64), idx.val ≤ 1019 → c.suspendedNow t w idx = true →
      Runs (.allocRecWrite t w 1 idx v) s (c.setRec (recKey t w 1 idx) (setFld (w64 (fld v 5 0)) 1 0 3))) ∧
    (∀ (idx : Fin 4096) (v : W64), idx.val ≤ 1019 → c.suspendedNow t w idx = false → fld (c.pon.recs.get (recKey t w 1 idx)) 1 0 = 0 → c.terminals t < 512 →
      Runs (.allocRecWrite t w 1 idx v) s (c.setRec (recKey t w 1 idx) (w64 (fld v 5 0)))) ∧
    (∀ (idx : Fin 4096) (v : W64), idx.val ≤ 1019 → c.suspendedNow t w idx = false → fld (c.pon.recs.get (recKey t w 1 idx)) 1 0 = 0 → fld v 1 0 ≠ 0 → 512 ≤ c.terminals t →
      Runs (.allocRecWrite t w 1 idx v) s (c.raise Reg.ALLOC_EVENT 1)) ∧
    (∀ v, fld (c.reg (Reg.ALLOC_OWNER t)) 5 0 = fld (c.reg (Reg.ALLOC_OWNER t)) 11 6 →
      let u := c.setReg (Reg.ALLOC_OWNER t) (w64 (fld v 11 0 + fld v 63 32 <<< 32))
      (c.timingRuns t = false → Runs (.allocOwnerWrite t .full v) s u) ∧
      (c.timingRuns t = true → Runs (.allocOwnerWrite t .full v) s (u.ownerHandover t (c.pon.pond.get t).fc))) ∧
    (∀ v lanes, (lanes ≠ .full ∨ fld (c.reg (Reg.ALLOC_OWNER t)) 5 0 ≠ fld (c.reg (Reg.ALLOC_OWNER t)) 11 6) →
      Runs (.allocOwnerWrite t lanes v) s (c.raise Reg.ALLOC_EVENT 3)) ∧
    (∀ (n : BitVec 51) i, ((c.pon.checker.get wk).maps.findIdx? fun m => m.frame = n.toNat && m.verdict.isNone) = some i →
      let m := nth (c.pon.checker.get wk).maps i
      let v := c.verdict t w n.toNat m.shadow (c.previousMap wk n.toNat) m.entries
      Runs (.mapVerdict t w n) s ((c.updChecker wk fun k => { k with maps := k.maps.set i { m with verdict := some v } }).verdictMessage t w n.toNat
        (verdictBody v.1 m.entries v.2))) ∧
    (∀ n t0, c.nextFrame t = some (n, t0) → lasts (t0 - c.frc) 6001 = false → c.hasMap wk n = false →
      Runs (.checkerDeadline t w) s (c.verdictMessage t w n (verdictBody (verdictHeader t w n (c.standbyAt n) 1 0) [] []))) ∧
    (∀ n t0, c.nextFrame t = some (n, t0) → lasts (t0 - c.frc) 3001 = false → (c.pon.framers.get wk).mapFrame ≠ some n →
      c.servesAt t n = true → Runs (.mapTake t w) s ((c.takeActive t w n).takePloams wk))

/-- Downstream framing (R173 to R178, R184 to R187, R205): ARM needs every transmitter and receiver disabled, and waits for START_TIME; a frame begins once its instant has come, its count
becoming POND_FC; an enable waits for a frame boundary; entries join the PLOAM queue of at most 256, and a flush empties it; a time-of-day capture is armed.
The model's own choices in it: log entries 65, 67, 88, 89, 91, 93, 228, 240, 242. -/
def Obligations.FramesAreSent : Prop :=
  ∀ (s : State) (t : Tree) (w : Wl), s.chip.running = true →
    let c := s.chip
    let wk := wkey t w
    let f := c.pon.framers.get wk
    (c.treeQuiet t = false → Runs (.timingArm t) s (c.raise (Reg.POND_EVENT t) 1)) ∧
    (c.treeQuiet t = true → ∃ y, Runs (.timingArm t) s y ∧
      (y.pon.pond.get t.val).timing = .armed c.frc ∧ y.flag (Reg.POND_TIMING_CTRL t) 1 = false ∧
      (∀ u : Wl, (y.pon.framers.get (wkey t u)).sending = false ∧ (y.pon.framers.get (wkey t u)).mapFrame = none ∧
        y.pon.checker.get (wkey t u) = {})) ∧
    (∀ n t0, c.nextFrame t = some (n, t0) → c.frc < t0 → Runs (.frameStart t) s c) ∧
    (∀ n t0, c.nextFrame t = some (n, t0) → t0 ≤ c.frc → t.val = 0 →
      Runs (.frameStart t) s ((((c.beginFrame t n t0).mateTurnover n).turnAuto n).evalPermit)) ∧
    (c.flag (Reg.POND_CTRL t) 0 = false → c.flag (Reg.POND_CTRL t) 1 = false → ∃ y, Runs (.txEnableWrite t true false) s y ∧
      y.flag (Reg.POND_CTRL t) 0 = true ∧ y.flag (Reg.POND_CTRL t) 1 = false ∧
      y.pon.framers.get (wkey t 0) = { c.pon.framers.get (wkey t 0) with want := some c.frc }) ∧
    (∃ y, Runs (.ploamFlush t w) s y ∧ y.pon.framers.get wk = { f with queue := [], eligible := 0 } ∧ y.regs = c.regs ∧
      (∀ k, k ≠ wk → y.pon.framers.get k = c.pon.framers.get k)) ∧
    (∀ v, let u := c.setReg (Reg.POND_PLOAM_HOSTi t w 7) v
      let bytes := (List.range 8).flatMap fun i => wordBytes (u.reg (Reg.POND_PLOAM_HOSTi t w i))
      (f.queue.length < 256 → ∃ y, Runs (.ploamHostPost t w .full v) s y ∧
        y.pon.framers.get wk = { f with queue := f.queue ++ [{ bytes := bytes.take 48, tag := numBE ((bytes.drop 54).take 2) }] }) ∧
      (256 ≤ f.queue.length → Runs (.ploamHostPost t w .full v) s ((u.bump (Reg.POND_PLOAM_FULL t w)).raise (Reg.POND_EVENT t) 2))) ∧
    (∀ unit, f.sending = true → c.timingRuns t = true →
      let gone := min (fsWords w) ((c.frc - (c.pon.pond.get t).t0) * fsWords w / frameTicks)
      let vals := c.pondValues t w
      let fc := (c.pon.pond.get t).fc
      let v := c.idleTo t w gone
      let u := v.gatherOffers t w vals (roomAt vals w fc (v.pon.framers.get wk).pos)
      let g := u.pon.framers.get wk
      let room := roomAt vals w fc g.pos
      let offer := (u.chooseOffer t w vals room g.pos g.remainder.isSome).1
      (fsWords w ≤ g.pos → Runs (.sduPlace t w unit) s (c.demotions u)) ∧
      (∀ r, g.pos < fsWords w → g.remainder = some r → offer = none → (roomAt r.values w fc g.pos).reserved = false →
        Runs (.sduPlace t w unit) s (c.demotions (u.placeRemainder t w r unit))) ∧
      (∀ i n x d, g.pos < fsWords w → g.remainder = none → offer = some (i, n, x, d) →
        Runs (.sduPlace t w unit) s (c.demotions (u.placeOffer t w i n x d ((u.downKey t w d.ctx d.onu).getD none) vals room.last unit)))) ∧
    (∀ v, ∃ y, Runs (.todArm t v) s y ∧ y.reg (Reg.POND_TOD_ARM t) = w64 (fld v 51 0 + fld v 63 63 <<< 63) ∧
      (y.pon.pond.get t.val).todNext = (bit v 63 && decide ((fld v 50 0 + fcMod - (c.pon.pond.get t.val).fc) % fcMod < 2)))

/-- Per-context counters (R207 to R211, R670): a selection sets BUSY, its end shows the three counters, a write while BUSY reads 0 sets the counter and its copy, and a fold moves what an
accumulator holds into the total without changing the count.
The model's own choices in it: log entries 28, 241. -/
def Obligations.PerContextCounters : Prop :=
  ∀ (s : State) (t : Tree), s.chip.running = true →
    let c := s.chip
    let sel := Reg.POND_STAT_SEL t
    (∀ v, c.flag sel 63 = false → Runs (.statSelWrite t v) s (c.setReg sel (w64 (fld v 15 0 + 1 <<< 63)))) ∧
    (∀ v, c.flag sel 63 = true → Runs (.statSelWrite t v) s c) ∧
    (c.flag sel 63 = true → ∃ y, Runs (.statCopyDone t) s y ∧ y.flag sel 63 = false ∧ y.pon = c.pon ∧
      (∀ k < 3, y.reg (statReg t k) = w64 (c.stat (c.selStat t k)))) ∧
    (∀ (k : Fin 3) x, c.flag sel 63 = false →
      let key := c.selStat t k
      Runs (.statWrite t k x) s ((c.setReg (statReg t k) (w64 (withHalf (c.get (statReg t k) 47 0) x))).setStat key (withHalf (c.stat key) x)) ∧
      ∃ y, Runs (.statWrite t k x) s y ∧ y.reg (statReg t k) = w64 (withHalf (c.get (statReg t k) 47 0) x) ∧
        y.stat key = withHalf (c.stat key) x ∧ ∀ o, o ≠ key → y.stat o = c.stat o) ∧
    (∀ (k : Fin 3) x, c.flag sel 63 = true → Runs (.statWrite t k x) s c) ∧
    (∀ (ctx : Fin 32768) (dir : Fin 2), ∃ y, Runs (.statFold t ctx dir) s y ∧ (∀ key, y.stat key = c.stat key) ∧
      y.regs = c.regs ∧ y.pon.rx = c.pon.rx ∧ y.pon.framers = c.pon.framers ∧
      (∀ k < 3, c.ddrHas (statAddr (statKey t ctx dir k)) 8 = true → y.pon.statAccs.get (statKey t ctx dir k) = 0) ∧
      (∀ key, (∀ k < 3, key ≠ statKey t ctx dir k) → y.pon.statAccs.get key = c.pon.statAccs.get key))
/-! ### Registers, staging and FIFOs -/

/-- Accesses of BAR0 (R14 to R20, R22, R23, R25, R634, R673, R749): outside its 64 MiB there is no address; a write of a size or alignment that R634 discards sets ACCESS_ERR and changes
nothing else; where no register lies it changes nothing; at a register without a rule of its own it sets RW bits, clears the W1C bits it writes as 1, leaves RO and reserved bits, keeps a
field at a reserved encoding, and stages STG bits without applying them, unless the block's GO is pending, when it is discarded with STAGE_ERR; the high half of an RC register or a counter
is the one that the same endpoint's last read of its low half latched, and that of any other register is its own.
The model's own choices in it: log entries 7, 15, 18, 29. -/
def Obligations.RegisterAccesses : Prop :=
  ∀ (s : State) (o : Origin) (e : Ep) (a : BitVec 32) (z : AccessSize) (v : W64), s.chip.running = true →
    let c := s.chip
    let write := fun (r : Nat) => Instr.registerWrite o (BitVec.ofNat 32 r) .eight v
    (67108864 ≤ a.toNat → exec (.registerWrite o a z v) s = .fault (.outsideBar0 a.toNat) ∧
      exec (.rcHighRead e a) s = .fault (.outsideBar0 a.toNat) ∧ exec (.counterLowRead e a) s = .fault (.outsideBar0 a.toNat)) ∧
    (a.toNat < 67108864 → lanesOf a.toNat z = none → Runs (.registerWrite o a z v) s (c.raise Reg.HIF_EVENT 0)) ∧
    (∀ l, a.toNat < 67108864 → lanesOf a.toNat z = some l → findRow (a.toNat / 8 * 8) = none → Runs (.registerWrite o a z v) s c) ∧
    (∀ l r i, a.toNat < 67108864 → lanesOf a.toNat z = some l → findRow (a.toNat / 8 * 8) = some (r, i) → ownRule.contains r.lo = false →
      c.asksActive r.lo i = false →
      let b := a.toNat / 8 * 8
      let k := c.alias r.lo i b
      let x := placed l v
      let m := laneMask l
      (r.stg ≠ 0 → c.goPending (commitOf b) = true → Runs (.registerWrite o a z v) s (c.raise (commitOf b) 2)) ∧
      (r.stg ≠ 0 → c.goPending (commitOf b) = false →
        Runs (.registerWrite o a z v) s (c.setReg k (mixBits (c.reg k) x (c.stageMask r &&& m)))) ∧
      (r.stg = 0 → Runs (.registerWrite o a z v) s
        (c.setReg k (settleReserved r.lo (c.reg k) (keepReserved r.legal (c.reg k) (mixBits (c.reg k) x (r.rw &&& m))) &&& ~~~(x &&& w64 (r.w1c &&& m)))))) ∧
    (∃ y, Runs (write Reg.PRS_EVENT) s y ∧ y.reg Reg.PRS_EVENT = c.reg Reg.PRS_EVENT &&& ~~~(v &&& 0x1FF) ∧
      (∀ b, b ≠ Reg.PRS_EVENT → y.reg b = c.reg b) ∧ y = { c with regs := y.regs }) ∧
    (∃ y, Runs (write Reg.GLB_THERMAL) s y ∧ y.get Reg.GLB_THERMAL 55 48 = fld v 55 48 ∧ y.get Reg.GLB_THERMAL 47 0 = c.get Reg.GLB_THERMAL 47 0 ∧
      (∀ b, b ≠ Reg.GLB_THERMAL → y.reg b = c.reg b) ∧ y = { c with regs := y.regs }) ∧
    (c.goPending Reg.CLK_COMMIT = false → ∃ y, Runs (write Reg.CLK_SPREAD) s y ∧ y.flag Reg.CLK_SPREAD 0 = bit v 0 ∧
      (∀ b, b ≠ Reg.CLK_SPREAD → y.reg b = c.reg b) ∧ y = { c with regs := y.regs }) ∧
    (c.goPending Reg.CLK_COMMIT = true → Runs (write Reg.CLK_SPREAD) s (c.raise Reg.CLK_COMMIT 2)) ∧
    (a.toNat < 67108864 → findRow a.toNat = none →
      Runs (.rcHighRead e a) s { c with readData := 0 } ∧ Runs (.counterLowRead e a) s { c with readData := 0 }) ∧
    (∀ r i, a.toNat < 67108864 → findRow a.toNat = some (r, i) →
      let shown := c.shown r i a.toNat
      (r.rc = true → Runs (.rcHighRead e a) s
        { c with readData := match c.rcLatch.get e with
                             | some (b, h) => if b = a.toNat then w64 h else 0
                             | none => 0
                 rcLatch := c.rcLatch.set e none }) ∧
      (r.rc = false → r.counter = true → Runs (.rcHighRead e a) s
        { c with readData := match c.ctrLatch.get e with
                             | some (b, h) => if b = a.toNat then w64 h else w64 (fld shown 63 32)
                             | none => w64 (fld shown 63 32)
                 ctrLatch := c.ctrLatch.set e none }) ∧
      (r.rc = false → r.counter = false → r.lo ≠ 0x1C00028 → Runs (.rcHighRead e a) s { c with readData := w64 (fld shown 63 32) }) ∧
      (r.rc = false → r.counter = false → r.lo = 0x1C00028 →
        Runs (.rcHighRead e a) s (({ c with readData := w64 (fld shown 63 32) } : Chip).memAdvance (inst i 0) .high)) ∧
      (r.counter = true → Runs (.counterLowRead e a) s
        { c with readData := w64 (fld shown 31 0), ctrLatch := c.ctrLatch.set e (some (a.toNat, fld shown 47 32)) }) ∧
      (r.counter = false → Runs (.counterLowRead e a) s { c with readData := w64 (fld shown 31 0) }))

/-- GO (R22, R23): each block's GO is turned away while its PENDING is set or its staged values are refused, and is else accepted with nothing applied yet; POND and ALLOC values of a
tree whose timing does not run apply at once, PONU values at the first clock at least 2 µs later (R119, R162, R213), and an ETH GO also counts the change times of its gate lists.
The model's own choices in it: log entries 18, 65. -/
def Obligations.GoStagesOrRefuses : Prop :=
  ∀ (s : State) (t : Tree) (k : Cru) (p : Fin 8), s.chip.running = true →
    let c := s.chip
    GoRule .prsGo s Reg.PRS_COMMIT c.prsStagedOk ∧ GoRule .fwdGo s Reg.FWD_COMMIT c.fwdMayApply ∧ GoRule .tmGo s Reg.TM_COMMIT c.tmStagedOk ∧
    GoRule .ciphGo s Reg.CIPH_COMMIT c.ciphStagedOk ∧ GoRule .timeGo s Reg.TIME_COMMIT c.timeStagedOk ∧ GoRule .gateGo s Reg.GATE_COMMIT c.gateStagedOk ∧
    GoRule .memGo s Reg.MEM_COMMIT c.memStagedOk ∧ GoRule .glkGo s Reg.GLK_COMMIT c.glkStagedOk ∧ GoRule .clkGo s Reg.CLK_COMMIT c.clkStagedOk ∧
    GoRule (.cruQueueGo k) s (Reg.CRU_COMMIT k) (c.queuesStagedOk k) ∧
    (c.goPending (Reg.PONU_COMMIT t) = true ∨ c.ponuStagedOk t = false → Runs (.ponuGo t) s (c.raise (Reg.PONU_COMMIT t) 2)) ∧
    (c.goPending (Reg.PONU_COMMIT t) = false → c.ponuStagedOk t = true → ∃ y, Runs (.ponuGo t) s y ∧ y = (c.goSet (Reg.PONU_COMMIT t)).setIdleGo t !(c.timingRuns t) ∧
      y.flag (Reg.PONU_COMMIT t) 1 = true ∧ y.goAt.get (Reg.PONU_COMMIT t) = some c.frc ∧ y.active = c.active ∧ (y.pon.ponu.get t.val).idleGo = !(c.timingRuns t)) ∧
    ((c.pon.ponu.get t.val).idleGo = true → c.goAged (Reg.PONU_COMMIT t) 2000 c.frc = true →
      let y := c.ponuApplyIdle t
      y.flag (Reg.PONU_COMMIT t) 1 = false ∧ (y.pon.ponu.get t.val).applied = true ∧ (y.pon.ponu.get t.val).idleGo = false ∧
      ∀ a, y.act a = if ponuBase t ≤ a ∧ a < ponuBase t + 0x10000 ∧ stagedBits a ≠ 0 then c.reg a else c.act a) ∧
    (c.timingRuns t = true → GoRule (.pondGo t) s (Reg.POND_COMMIT t) (c.pondStagedOk t)) ∧
    (c.timingRuns t = false → c.goPending (Reg.POND_COMMIT t) = false → c.pondStagedOk t = true →
      Runs (.pondGo t) s ((c.goSet (Reg.POND_COMMIT t)).pondApply t (c.get (Reg.POND_FC_START t) 31 0))) ∧
    (c.goPending Reg.ALLOC_COMMIT = false → c.allocStagedOk = true →
      Runs .allocGo s ((List.finRange 32).foldl Chip.allocApplyIdle (c.goSet Reg.ALLOC_COMMIT)).allocSettle) ∧
    (c.goPending Reg.ALLOC_COMMIT = true ∨ c.allocStagedOk = false → Runs .allocGo s (c.raise Reg.ALLOC_COMMIT 2)) ∧
    (c.goPending (Reg.ETH_COMMIT p) = true ∨ c.ethStagedOk p = false → Runs (.ethGo p) s (c.raise (Reg.ETH_COMMIT p) 2)) ∧
    (c.goPending (Reg.ETH_COMMIT p) = false → c.ethStagedOk p = true → Runs (.ethGo p) s ((c.goSet (Reg.ETH_COMMIT p)).listsWait p))

/-- Application of staged values (R22, R277, R344, R401, R444, R485, R528, R582, R585): the block's PENDING clears and every staged register takes its staged value at once; TM's staged list is
applied and emptied; FWD applies nothing when a table that a seed or an extension moves under has come to hold entries, and reports STAGE_ERR; the parser's values come into force under
the next EPOCH, its PENDING staying while frames of the last epoch are in flight.
The model's own choices in it: log entries 5, 113, 155. -/
def Obligations.StagedValuesApplyTogether : Prop :=
  ∀ (s : State) (k : Cru), s.chip.running = true →
    let c := s.chip
    ApplyRule .ciphApply s Reg.CIPH_COMMIT 0x1000000 0x1200000 ∧ ApplyRule .gateApply s Reg.GATE_COMMIT 0x1800000 0x1A00000 ∧
    ApplyRule .memApply s Reg.MEM_COMMIT 0x1A00000 0x1C00000 ∧
    ApplyRule (.cruQueueApply k) s (Reg.CRU_COMMIT k) (Cell.queueCfg k 0) (Cell.queueCfg k 1024) ∧
    (c.goPending Reg.FWD_COMMIT = true → c.seedMoves 0 = false → c.seedMoves 1 = false → ∃ y, Runs .fwdApply s y ∧ y.flag Reg.FWD_COMMIT 1 = false ∧
      ∀ a, y.act a = if ((0xC00000 ≤ a ∧ a < 0xE00000) ∨ (cell 16 0 ≤ a ∧ a < cell 19 0)) ∧ stagedBits a ≠ 0 then c.reg a else c.act a) ∧
    (c.goPending Reg.FWD_COMMIT = true → c.seedMoves 0 = true ∨ c.seedMoves 1 = true → ∃ y, Runs .fwdApply s y ∧ y.flag Reg.FWD_COMMIT 1 = false ∧
      y.flag Reg.FWD_COMMIT 2 = true ∧ y.active = c.active) ∧
    (c.goPending Reg.TM_COMMIT = true → c.tm.staged = [] → ∃ y, Runs .tmApply s y ∧ y.flag Reg.TM_COMMIT 1 = false ∧ y.tm = c.tm ∧
      ∀ a, y.act a = if ((0xE00000 ≤ a ∧ a < 0x1000000) ∨ (cell 22 0 ≤ a ∧ a < cell 23 0)) ∧ stagedBits a ≠ 0 then c.reg a else c.act a) ∧
    (∀ key r, c.goPending Reg.TM_COMMIT = true → c.tm.staged = [(key, r)] → ∃ y, Runs .tmApply s y ∧ y.tm.staged = [] ∧
      y.tm = { (c.applyRec key r).tm with staged := [] }) ∧
    (c.goPending Reg.PRS_COMMIT = true → c.prs.draining = none → ∃ y, Runs .prsApply s y ∧ y.prs.epoch = (c.prs.epoch + 1) % 256 ∧
      y.prs.draining = some c.prs.epoch ∧ y.regs = c.regs ∧
      ∀ a, y.act a = if ((0xA00000 ≤ a ∧ a < 0xC00000) ∨ (cell 6 0 ≤ a ∧ a < cell 12 0)) ∧ stagedBits a ≠ 0 then c.reg a else c.act a) ∧
    (c.goPending Reg.GLK_COMMIT = false → Runs .glkApply s c) ∧
    (c.goPending Reg.GLK_COMMIT = true → ∃ y, Runs .glkApply s y ∧ y.act Reg.GLK_MATE_CFG = c.reg Reg.GLK_MATE_CFG ∧
      y.act Reg.GLK_LINK_CFG = c.reg Reg.GLK_LINK_CFG ∧ y.flag Reg.GLK_COMMIT 1 = false) ∧
    (c.goPending Reg.TIME_COMMIT = false → Runs .timeApply s c) ∧
    (c.goPending Reg.TIME_COMMIT = true → ∃ y, Runs .timeApply s y ∧ y.act Reg.TIME_SERVO_CTRL = c.reg Reg.TIME_SERVO_CTRL ∧
      y.act Reg.TIME_SERVO_GAIN = c.reg Reg.TIME_SERVO_GAIN ∧ y.flag Reg.TIME_COMMIT 1 = false)

/-- FIFO registers (R20, R208, R269, R478, R502, R576, R581): a read of a crucible's trigger log, a tree's half-range FIFO, the key notices, an input's captures, the memory mismatches or the
fault log takes the oldest entry out and returns it. -/
def Obligations.FifoReadsTakeTheOldest : Prop :=
  ∀ (s : State) (t : Tree) (k : Cru) (n : Fin 4), s.chip.running = true →
    FifoRule (.trigLogRead k) s (Reg.CRU_TRIG_LOG k) (fun c => c.cru.trigLog.get k) ∧
    FifoRule (.statHalfFifoRead t) s (Reg.POND_STAT_HALF_FIFO t) (fun c => (c.pon.pond.get t).halfFifo) ∧
    FifoRule .noticeFifoRead s Reg.CIPH_NOTICE_FIFO (fun c => c.ciph.notices) ∧
    FifoRule (fun e l => .tinFifoRead e l n) s (Reg.TIME_TINn_FIFO n) (fun c => c.time.tin.get n) ∧
    FifoRule .faultLogRead s Reg.GATE_FAULT_LOG (fun c => c.gate.log) ∧
    FifoRule .mismatchLogRead s Reg.MEM_MISMATCH_LOG (fun c => c.mem.log)
/-! ### The packet pipes -/

/-- Passes of a pipe half (R321, R326 to R337, R344, R347, R349, R365, R383, R384): the frame at a half's front is parsed; a malformed one is counted and dropped or sent to the slow path, one that nests
too deeply goes to class 4, another takes its rule's action; a third pass is refused as a loop; a pass that finds no admission is shed to class 10; a frame that waits for the extension
is looked up there; frames that the slow path is to take leave in their source's order; and an epoch drains once none of its frames is in flight, when the applied values become the staged ones again.
The model's own choices in it: log entries 5, 250. -/
def Obligations.FramesAreParsedAndActedOn : Prop :=
  ∀ (s : State) (half : Fin 8) (faults : LookupFaults), s.chip.running = true →
    let c := s.chip
    (c.prs.draining = none → Runs .epochDrained s c) ∧
    (∀ e, c.prs.draining = some e → c.inFlight e ≠ 0 → Runs .epochDrained s c) ∧
    (∀ e, c.prs.draining = some e → c.inFlight e = 0 → ∃ y, Runs .epochDrained s y ∧ y.flag Reg.PRS_COMMIT 1 = false ∧
      y.flag Reg.PRS_EVENT 7 = true ∧ y.prs = { c.prs with draining := none, old := [] } ∧ y.active = c.active ∧
      ∀ a, ((0xA00000 ≤ a ∧ a < 0xC00000) ∨ (cell 6 0 ≤ a ∧ a < cell 12 0)) → stagedBits a ≠ 0 → y.reg a = c.act a) ∧
    (c.prs.pipes.get half = [] → Runs (.pipeEntry half faults) s c ∧ Runs (.recircPass half faults) s c ∧ Runs (.recircShed half) s c ∧
      Runs (.extLookup half faults) s c) ∧
    (∀ f, c.prs.pipes.get half = [f] → f.stage = .first → f.direct = none →
      let g := { c.atSource f with epoch := c.prs.epoch }
      let p := (c.parse g).1
      let w := (c.parse g).2
      let l := c.ruleLookup p faults.rule
      let runs := fun (y : Chip) => Runs (.pipeEntry half faults) s ((y.putBack half 0 none).releaseSlow half 1)
      (w.malformed = true → w.toSlow = false → runs (((c.bump Reg.PRS_MALFORMED).raise Reg.PRS_EVENT 0).pipeDrop p)) ∧
      (w.malformed = true → w.toSlow = true → runs (((c.bump Reg.PRS_MALFORMED).raise Reg.PRS_EVENT 0).slowFrame half p 5)) ∧
      (w.malformed = false → w.depth = true → runs (((l.2.bump Reg.PRS_DEPTH).raise Reg.PRS_EVENT 1).slowFrame half l.1 4)) ∧
      (w.malformed = false → w.depth = false → w.fragment = false →
        (l.1.action = 0 → runs (l.2.slowFrame half l.1 (fld l.1.result 6 2))) ∧
        (l.1.action = 1 → bit (l.2.reg (Cell.fwdBd (l.2.bridgeOf l.1))) 35 = false → runs (l.2.fwdDrop l.1 Reg.FWD_SEP_DROP (some 5))) ∧
        (l.1.action = 1 → bit (l.2.reg (Cell.fwdBd (l.2.bridgeOf l.1))) 35 = true → fld (l.2.act (Cell.fwdProfileCtrl l.1.profile)) 1 0 = 0 →
          let r := l.2.l2Stage half l.1 (l.2.bridgeOf l.1) faults false
          Runs (.pipeEntry half faults) s ((r.2.putBack half 0 r.1).releaseSlow half 1)) ∧
        (l.1.action = 2 → runs (l.2.pipeDrop l.1)) ∧
        (l.1.action = 3 → l.1.passes = 2 → runs (((l.2.bump Reg.PRS_LOOP).raise Reg.PRS_EVENT 3).slowFrame half l.1 9)) ∧
        (l.1.action = 3 → l.1.passes ≠ 2 → Runs (.pipeEntry half faults) s ((l.2.putBack half 0
          (some { l.1 with stage := .recirc, node := fld l.1.result 14 7, offset := fld l.1.result 23 15, profile := fld l.1.result 27 24 })).releaseSlow half 1)))) ∧
    (∀ f, c.prs.pipes.get half = [f] → f.stage = .recirc →
      Runs (.recircShed half) s (((((c.bump Reg.PRS_RECIRC_SHED).raise Reg.PRS_EVENT 4).slowFrame half f 10).putBack half 0 none).releaseSlow half 1) ∧
      (let u := c.bump Reg.PRS_RECIRC
       let g := { f with passes := f.passes + 1, stage := .first }
       let r := u.runPass half g faults
       Runs (.recircPass half faults) s ((r.2.putBack half 0 r.1).releaseSlow half 1) ∧
       ((u.parse g).2.malformed = true → (u.parse g).2.toSlow = false →
         r = (none, ((u.bump Reg.PRS_MALFORMED).raise Reg.PRS_EVENT 0).pipeDrop (u.parse g).1)))) ∧
    (∀ f, c.prs.pipes.get half = [f] → f.stage = .ext →
      let bd := c.bridgeOf f
      (bit (c.reg (Cell.fwdBd bd)) 35 = false →
        Runs (.extLookup half faults) s (((c.fwdDrop f Reg.FWD_SEP_DROP (some 5)).putBack half 0 none).releaseSlow half 1)) ∧
      (bit (c.reg (Cell.fwdBd bd)) 35 = true → fld (c.act (Cell.fwdProfileCtrl f.profile)) 1 0 = 0 ∨ f.extL2 = true →
        let r := c.l2Stage half f bd faults true
        Runs (.extLookup half faults) s ((r.2.putBack half 0 r.1).releaseSlow half 1)) ∧
      (bit (c.reg (Cell.fwdBd bd)) 35 = true → fld (c.act (Cell.fwdProfileCtrl f.profile)) 1 0 ≠ 0 → f.extL2 = false →
        let r := c.flowStage half f bd faults true
        Runs (.extLookup half faults) s ((r.2.putBack half 0 r.1).releaseSlow half 1)))

/-- Commands on the rule banks (R338, R339, R341): a command while another runs sets CMD_ERR; FIND returns a rule's result; INSERT, DELETE and CLEAR refuse a bank in use, and COPY a
destination in use; a key is inserted once; STATUS shows when the command is done.
The model's own choices in it: log entry 97. -/
def Obligations.RuleBankCommandsRun : Prop :=
  ∀ (s : State) (bank dst : Fin 8), s.chip.running = true →
    let c := s.chip
    let begun := fun (op : Nat) => (c.setField Reg.PRS_RS_CMD 8 0 (op + bank.val <<< 3 + dst.val <<< 6)).setFlag Reg.PRS_RS_CMD 10 true
    let ends := fun (u : Chip) (st : Nat) => u.updPrs fun p => { p with command := some st }
    let key := c.rsKey
    (c.prs.command.isSome = true → Runs (.rsFind bank dst) s (c.raise Reg.PRS_EVENT 6) ∧ Runs (.rsInsert bank dst) s (c.raise Reg.PRS_EVENT 6) ∧
      Runs (.rsDelete bank dst) s (c.raise Reg.PRS_EVENT 6) ∧ Runs (.rsClear bank dst) s (c.raise Reg.PRS_EVENT 6) ∧
      Runs (.rsCopy bank dst) s (c.raise Reg.PRS_EVENT 6)) ∧
    (c.prs.command = none →
      (c.findRule bank key = none → Runs (.rsFind bank dst) s (ends (begun 0) 3)) ∧
      (∀ p, c.findRule bank key = some p →
        Runs (.rsFind bank dst) s (ends ((begun 0).setReg Reg.PRS_RS_RESULT (c.prs.rules.get (rulePlace bank p.1 p.2)).result) 0)) ∧
      (reservedResult (c.reg Reg.PRS_RS_RESULT) = true → Runs (.rsInsert bank dst) s (ends (begun 1) 5)) ∧
      (reservedResult (c.reg Reg.PRS_RS_RESULT) = false → c.bankInUse bank = true → Runs (.rsInsert bank dst) s (ends (begun 1) 4)) ∧
      (reservedResult (c.reg Reg.PRS_RS_RESULT) = false → c.bankInUse bank = false →
        ((c.findRule bank key).isSome = true → Runs (.rsInsert bank dst) s (ends (begun 1) 2)) ∧
        (c.findRule bank key = none → (begun 1).insertRule bank key (c.reg Reg.PRS_RS_RESULT) = none → Runs (.rsInsert bank dst) s (ends (begun 1) 1)) ∧
        (c.findRule bank key = none → (c.prs.rules.get (rulePlace bank (ruleBuckets key).1 0)).valid = false → Runs (.rsInsert bank dst) s
          (ends ((begun 1).setRule bank ((ruleBuckets key).1, 0) { key := key, result := c.reg Reg.PRS_RS_RESULT, valid := true }) 0)) ∧
        (∀ v, c.findRule bank key = none → (begun 1).insertRule bank key (c.reg Reg.PRS_RS_RESULT) = some v →
          Runs (.rsInsert bank dst) s (ends v 0))) ∧
      (c.bankInUse bank = true → Runs (.rsDelete bank dst) s (ends (begun 2) 4) ∧ Runs (.rsClear bank dst) s (ends (begun 3) 4)) ∧
      (c.bankInUse bank = false → c.findRule bank key = none → Runs (.rsDelete bank dst) s (ends (begun 2) 3)) ∧
      (∀ p, c.bankInUse bank = false → c.findRule bank key = some p → Runs (.rsDelete bank dst) s (ends ((begun 2).setRule bank p {}) 0)) ∧
      (c.bankInUse bank = false → ∃ y, Runs (.rsClear bank dst) s y ∧ y.bankRules bank = [] ∧
        (∀ b, b ≠ bank.val → y.bankRules b = c.bankRules b) ∧ y.prs.command = some 0) ∧
      (c.bankInUse dst = true → Runs (.rsCopy bank dst) s (ends (begun 4) 4)) ∧
      (c.bankInUse dst = false → bank ≠ dst → ∃ y, Runs (.rsCopy bank dst) s y ∧ y.prs.command = some 0 ∧
        (∀ k, k / 16384 ≠ dst.val → y.prs.rules.get k = c.prs.rules.get k) ∧
        (c.prs.rules.canon = true → ∀ k < 16384, y.prs.rules.get (dst.val * 16384 + k) = c.prs.rules.get (bank.val * 16384 + k))) ∧
      Runs .rsCmdDone s c) ∧
    (∀ st, c.prs.command = some st → ∃ y, Runs .rsCmdDone s y ∧ y.get Reg.PRS_RS_CMD 18 16 = st % 8 ∧ y.flag Reg.PRS_RS_CMD 10 = false ∧
      y.prs = { c.prs with command := none } ∧ ∀ a, a ≠ Reg.PRS_RS_CMD → y.reg a = c.reg a)
/-- The forwarding tables (R386 to R388, R392 to R395, R398 to R400, R402, R752): a learn event installs an absent address, leaves a static or unmoved one, or is reported to the
program; a visit of the sweeper comes when its share of the period has passed, and then clears HIT, then sets AGED, then removes an entry, and never touches a static one; a host command while another runs sets CMD_ERR, and else finds, inserts,
deletes or ages the entry with its key and reports when it is done.
The model's own choices in it: log entries 97, 105, 106, 107, 250. -/
def Obligations.ForwardingTablesAreKept : Prop :=
  ∀ (s : State) (part : Fin 16) (table : Fin 2) (flags : Fin 32) (fault : Bool) (v : W64), s.chip.running = true →
    let c := s.chip
    let w := c.fwd.sweepers.get table
    let visit := c.entry table 0 w.pos
    let next := fun (u : Chip) => u.updFwd fun f => { f with sweepers := f.sweepers.set table { w with pos := w.pos + 1 } }
    (c.fwd.learn.get part = [] → Runs (.learnEvent part) s c) ∧
    (∀ ev rest, c.fwd.learn.get part = ev :: rest →
      let u := c.updFwd fun f => { f with learn := f.learn.set part rest }
      (bit (c.act Reg.FWD_LEARN_CFG) 0 = true → Runs (.learnEvent part) s (u.learnRequest part ev)) ∧
      let v := (u.faultAt 0 ev.key true false ev.stamp).2
      (bit (c.act Reg.FWD_LEARN_CFG) 0 = false → v.found 0 ev.key true = none → Runs (.learnEvent part) s (v.install ev)) ∧
      (∀ x i e, bit (c.act Reg.FWD_LEARN_CFG) 0 = false → v.found 0 ev.key true = some (x, i, e) → e.static = true ∨ e.dest = ev.dest →
        Runs (.learnEvent part) s v) ∧
      (∀ x i e, bit (c.act Reg.FWD_LEARN_CFG) 0 = false → v.found 0 ev.key true = some (x, i, e) → e.static = false → e.dest ≠ ev.dest →
        e.flapping = true → Runs (.learnEvent part) s (v.bump Reg.FWD_MOVE_IGNORED)) ∧
      (∀ x i e, bit (c.act Reg.FWD_LEARN_CFG) 0 = false → v.found 0 ev.key true = some (x, i, e) → e.static = false → e.dest ≠ ev.dest →
        e.flapping = false → fld (v.act Reg.FWD_LEARN_CFG) 19 7 ≤ (v.moveTime + 16384 - efld e 45 32) % 16384 →
        Runs (.learnEvent part) s (v.moveTo x i (setEfld (setEfld e 45 32 v.moveTime) 49 46 1) ev))) ∧
    (w.running = false → Runs (.sweepVisit table) s c) ∧
    (c.frc < c.sweepDue table → Runs (.sweepVisit table) s c) ∧
    (w.running = true → c.sweepDue table ≤ c.frc → w.pos < 1048575 → visit.valid = true → c.entryBad table 0 w.pos false = true →
      Runs (.sweepVisit table) s (next (c.entryErr table 0 w.pos 0))) ∧
    (w.running = true → c.sweepDue table ≤ c.frc → w.pos = 1048575 → c.sweepSize table = 1048576 → visit.valid = false →
      let r := c.reg (Reg.FWD_SWEEPn table)
      Runs (.sweepVisit table) s ((c.setField (Reg.FWD_SWEEPn table) 63 32 (fld r 63 32 + 1)).updFwd fun f =>
        { f with sweepers := f.sweepers.set table { w with pos := 0, period := fld r 31 0, since := w.since + w.period * 622080 } })) ∧
    (w.running = true → c.sweepDue table ≤ c.frc → w.pos < 1048575 → c.entryBad table 0 w.pos false = false →
      ((visit.valid = false ∨ visit.static = true) → Runs (.sweepVisit table) s (next c)) ∧
      (visit.valid = true → visit.static = false → visit.hit = true →
        Runs (.sweepVisit table) s (next (c.setEntry table 0 w.pos (setEfld visit 125 124 0)))) ∧
      (visit.valid = true → visit.static = false → visit.hit = false → visit.aged = false →
        Runs (.sweepVisit table) s (next (c.setEntry table 0 w.pos (setEfld visit 124 124 1)))) ∧
      (visit.valid = true → visit.static = false → visit.hit = false → visit.aged = true →
        Runs (.sweepVisit table) s
          (next (((c.setEntry table 0 w.pos 0).bump Reg.FWD_AGED_OUT).report 4 table (entryKey table visit) 0 visit 0)))) ∧
    (∃ y, Runs (.sweepPeriodWrite table v) s y ∧ y.get (Reg.FWD_SWEEPn table) 31 0 = fld v 31 0 ∧
      (fld v 31 0 = 0 → y.fwd.sweepers.get table = {}) ∧
      (fld v 31 0 ≠ 0 → w.running = true → y.fwd = c.fwd) ∧
      (fld v 31 0 ≠ 0 → w.running = false → y.fwd.sweepers.get table = { running := true, pos := 0, period := fld v 31 0, since := c.frc })) ∧
    (c.fwd.command.isSome = true → Runs (.fwdTblFind flags fault) s (c.raise Reg.FWD_EVENT 8) ∧
      Runs (.fwdTblInsert flags fault) s (c.raise Reg.FWD_EVENT 8) ∧ Runs (.fwdTblDelete flags fault) s (c.raise Reg.FWD_EVENT 8) ∧
      Runs (.fwdTblAge flags fault) s (c.raise Reg.FWD_EVENT 8)) ∧
    (c.fwd.command = none →
      let begun := fun (op : Nat) => (c.setField Reg.FWD_TBL_CMD 6 0 (op + flags.val <<< 2)).setFlag Reg.FWD_TBL_CMD 8 true
      let ends := fun (u : Chip) (st loc : Nat) => u.updFwd fun f => { f with command := some (st, w64 loc) }
      let t := tblTable flags
      let e := c.tblEntry
      let hit := c.found t (entryKey t e) (tblExt flags)
      (hit = none → Runs (.fwdTblFind flags fault) s (ends (begun 0) 1 0) ∧ Runs (.fwdTblDelete flags fault) s (ends (begun 2) 1 0) ∧
        Runs (.fwdTblAge flags fault) s (ends (begun 3) 1 0)) ∧
      (∀ x i g, hit = some (x, i, g) → c.entryBad t x i fault = true →
        Runs (.fwdTblFind flags fault) s (ends ((begun 0).entryErr t x i 0) 4 (locOf x i)) ∧
        Runs (.fwdTblDelete flags fault) s (ends ((begun 2).entryErr t x i 0) 4 (locOf x i))) ∧
      (∀ x i g, hit = some (x, i, g) → c.entryBad t x i fault = false →
        (tblTouch flags = false → Runs (.fwdTblFind flags fault) s
          (ends (((begun 0).setReg Reg.FWD_TBL_ENTRY_HI (w64 (efld g 127 64))).setReg Reg.FWD_TBL_ENTRY_LO (w64 (efld g 63 0))) 0 (locOf x i))) ∧
        Runs (.fwdTblDelete flags fault) s (ends ((begun 2).setEntry t x i 0) 0 (locOf x i)) ∧
        (g.valid = true → g.static = false → g.hit = true →
          Runs (.fwdTblAge flags fault) s (ends ((begun 3).setEntry t x i (setEfld g 125 124 0)) 0 (locOf x i)))) ∧
      (let a := (begun 1).tblInsert flags e fault
       Runs (.fwdTblInsert flags fault) s (ends a.chip a.status a.loc)) ∧
      (reservedDest e.dest = true → Runs (.fwdTblInsert flags fault) s (ends (begun 1) 5 0)) ∧
      (∀ x i g, reservedDest e.dest = false → hit = some (x, i, g) → c.entryBad t x i fault = false → tblReplace flags = false →
        Runs (.fwdTblInsert flags fault) s (ends (begun 1) 3 (locOf x i))) ∧
      (∀ x i g, reservedDest e.dest = false → hit = some (x, i, g) → c.entryBad t x i fault = false → tblReplace flags = true →
        Runs (.fwdTblInsert flags fault) s
          (ends ((begun 1).setEntry t x i (replaced t g (tblStatic flags) e.dest c.moveTime)) 0 (locOf x i))) ∧
      Runs .fwdCmdDone s c) ∧
    (∀ st loc, c.fwd.command = some (st, loc) → ∃ y, Runs .fwdCmdDone s y ∧ y.get Reg.FWD_TBL_CMD 11 9 = st % 8 ∧ y.flag Reg.FWD_TBL_CMD 8 = false ∧
      y.reg Reg.FWD_TBL_LOC = loc ∧ y.fwd = { c.fwd with command := none })
/-- Traffic management (R407, R409, R416, R417, R425, R430, R433, R437, R438, R440, R443): an admitted frame is dropped and counted at the first step that fails, else queued; TM gives a
channel what its egress can take, and nothing where nothing is ready; a staged record takes its place or sets STAGE_ERR; frames come back from DDR5 while there is room; a refused release message is tried
again; a drain empties a queue or times out; a sample is written to its ring or counted as lost; a shaper's refill makes its node eligible.
The model's own choices in it: log entries 5, 118, 252, 253. -/
def Obligations.QueuesAdmitDrainAndSample : Prop :=
  ∀ (s : State) (half : Fin 8) (ovfBusy : Bool) (q : Fin 1048576) (v : W64), s.chip.running = true →
    let c := s.chip
    let sel := c.reg Reg.TM_REC_SEL
    let key := tmKey (fld sel 2 0) (fld sel 23 3)
    (c.goPending Reg.TM_COMMIT = true ∨ 64 ≤ c.tm.staged.length ∨ kindCount (fld sel 2 0) ≤ fld sel 23 3 →
      Runs .recPush s (c.raise Reg.TM_COMMIT 2)) ∧
    (c.goPending Reg.TM_COMMIT = false → c.tm.staged.length < 64 → fld sel 23 3 < kindCount (fld sel 2 0) → ∃ y, Runs .recPush s y ∧
      y.tm.staged = (c.tm.staged.filter fun e => e.1 ≠ key) ++
        [(key, { w0 := c.reg (Reg.TM_REC_STGk 0), w1 := c.reg (Reg.TM_REC_STGk 1), w2 := c.reg (Reg.TM_REC_STGk 2) })] ∧
      y.tm.recs = c.tm.recs ∧ y.regs = c.regs) ∧
    (c.prs.pipes.get half = [] → Runs (.tmAdmit half ovfBusy) s c) ∧
    (∀ f, c.prs.pipes.get half = [f] → f.stage = .ready →
      let u := c.updPrs fun p => { p with pipes := p.pipes.upd half (·.eraseIdx 0) }
      let runs := fun (x : Chip) => Runs (.tmAdmit half ovfBusy) s (x.releaseSlow half 1)
      let drops := fun (x : Chip) (ctr : Nat) (k : Nat) => runs (((x.bump ctr).queueDropped k).tmDiscard f false)
      (c.mapQueue f = none → runs ((u.bump Reg.TM_DROP_MAP).tmDiscard f false)) ∧
      (∀ k, c.mapQueue f = some k →
        let r := c.tmRec kQueue k
        (r.qEn = false ∨ r.qAccept = false → drops u Reg.TM_DROP_ACCEPT k) ∧
        (r.qEn = true → r.qAccept = true →
          (c.policed k = true → c.tokens kPolicer (fld r.w0 44 27) < (f.length : Int) * tokenByte → drops u Reg.TM_DROP_POLICER k) ∧
          (c.policed k = false →
            (fld r.w1 23 0 * 1024 < (c.tmQueue k).depth + c.admitLen f → drops u Reg.TM_DROP_DEPTH k) ∧
            ((c.tmQueue k).depth + c.admitLen f ≤ fld r.w1 23 0 * 1024 →
              let need := cellsTested f (c.admitLen f) + (if r.qExpress = true then 0 else fld (c.act Reg.TM_BUF_CFG) 19 0)
              let room := fld (c.act Reg.TM_OVF_SIZE) 17 0 * 1048576
              (c.toDdr k = true → ovfBusy = true ∨ room < c.ovfUsed + f.length → drops (u.raise Reg.TM_EVENT 4) Reg.TM_DROP_OVF k) ∧
              (c.toDdr k = true → ovfBusy = false → c.ovfUsed + f.length ≤ room → runs (u.deposit k f)) ∧
              (c.toDdr k = false → c.freeCells < need → drops u Reg.TM_DROP_BUFFER k) ∧
              (c.toDdr k = false → need ≤ c.freeCells → runs (u.deposit k f))))))) ∧
    (∀ ch : Fin 104, c.tm.queues = [] → ∃ y, Runs (.tmSelect ch) s y ∧ y.tm = c.tm) ∧
    (∀ ch : Fin 104, 96 ≤ ch.val → Runs (.tmSelect ch) s (c.tmChoose ch {})) ∧
    (∀ ch : Fin 104, 64 ≤ ch.val → ch.val < 96 →
      let k := ch.val - 64
      (c.subOn k = false ∨ (c.sub k).link = false ∨ c.tm.egress.get ch ≠ [] → Runs (.tmSelect ch) s c) ∧
      (c.subOn k = true → (c.sub k).link = true → c.tm.egress.get ch = [] →
        Runs (.tmSelect ch) s (((c.countHolds k).tmChoose ch { uplink := some k }).trimHolds k))) ∧
    (∀ (t : Tree) (w : Wl) (ch : Fin 104), ch.val = wkey t w →
      let u := c.dropLongHeads t w
      (u.pondAsk t w = none → Runs (.tmSelect ch) s u) ∧ (∀ ask, u.pondAsk t w = some ask → Runs (.tmSelect ch) s (u.tmChoose ch ask))) ∧
    (∀ (ch : Fin 104) k st x rest, 96 ≤ ch.val → c.pick ((c.eligible {}).filter fun p => 96 ≤ p.2.2.2) 4 40 c.tm = some (k, st) →
      (c.tmQueue k).frames = x :: rest →
      let u := { c with tm := { c.tm with deficits := st.deficits, pointers := st.pointers } }
      Runs (.tmSelect ch) s (((u.setTmQueue k { c.tmQueue k with frames := rest }).handOver k x).clearDeficits k)) ∧
    ((c.tmQueue q).frames = [] → Runs (.ovfReturn q) s ((c.setTmQueue q (c.tmQueue q)).clearDeficits q)) ∧
    (∀ x, (c.tmQueue q).frames = [x] → x.inDdr = true → 0 < fld (c.tmRec kQueue q).w1 47 24 → cellsNeeded x.f x.f.length ≤ c.freeCells →
      ((x.at_.any fun p => c.poisoned p.1 p.2) = false → Runs (.ovfReturn q) s
        (((c.takeCells (cellsNeeded x.f x.f.length)).setTmQueue q
          { c.tmQueue q with frames := [{ x with inDdr := false, at_ := [], f := { x.f with bytes := c.ovfRead x.at_ } }] }).clearDeficits q)) ∧
      ((x.at_.any fun p => c.poisoned p.1 p.2) = true →
        let u := (c.queueDropped q).tmDiscard x.f false
        Runs (.ovfReturn q) s ((u.setTmQueue q { u.tmQueue q with frames := [] }).clearDeficits q))) ∧
    (c.tm.releases = [] → Runs .releaseRetry s c) ∧
    (∀ r, c.tm.releases = [r] →
      let sent := (c.updTm fun t => { t with releases := [] }).sendQueue r.crucible r.queue (deviceSource 8 0) (wordBytes r.word)
      (sent.1 = true → Runs .releaseRetry s sent.2) ∧
      (sent.1 = false → Runs .releaseRetry s (sent.2.updTm fun t => { t with releases := t.releases ++ [r] }))) ∧
    (c.flag Reg.TM_DRAIN_CMD 37 = true ∨ fld v 35 20 = 0 → Runs (.drainGo v) s (c.raise Reg.TM_EVENT 5)) ∧
    (c.flag Reg.TM_DRAIN_CMD 37 = false → fld v 35 20 ≠ 0 → ∃ y, Runs (.drainGo v) s y ∧ y.get Reg.TM_DRAIN_CMD 35 0 = fld v 35 0 ∧
      y.flag Reg.TM_DRAIN_CMD 37 = true ∧ y.flag Reg.TM_DRAIN_CMD 38 = false ∧ y.tm.draining = some (fld v 19 0, c.frc) ∧
      (y.tmRec kQueue (fld v 19 0)).qAccept = false ∧ y.tm.queues = c.tm.queues) ∧
    (c.tm.draining = none → Runs .drainDone s c ∧ Runs .drainTimeout s c) ∧
    (∀ k at_, c.tm.draining = some (k, at_) →
      ((c.tmQueue k).frames = [] → Runs .drainTimeout s c ∧ ∃ y, Runs .drainDone s y ∧ y.flag Reg.TM_DRAIN_CMD 37 = false ∧
        y.flag Reg.TM_EVENT 0 = true ∧ y.tm = { c.tm with draining := none }) ∧
      ((c.tmQueue k).frames ≠ [] → Runs .drainDone s c) ∧
      (∀ x, (c.tmQueue k).frames = [x] → at_ + c.get Reg.TM_DRAIN_CMD 35 20 * frameTicks ≤ c.frc → Runs .drainTimeout s
        ((((((c.setTmQueue k { frames := [], drops := countAdd (c.tmQueue k).drops 1 }).tmDiscard x.f (!x.inDdr)).bump Reg.TM_DRAIN_DROPS).setFlag
          Reg.TM_DRAIN_CMD 38 true).drainEnd.raise Reg.TM_EVENT 1).clearDeficits k))) ∧
    (let r := c.tmRec kQueue q
     let ring := q.val / 131072
     let prod := c.get (Reg.TM_SRING_PRODr ring) 31 0
     let cons := c.get (Reg.TM_SRING_CONSr ring) 31 0
     let size := 2 ^ fld (c.act (Reg.TM_SRING_CTRLr ring)) 4 0
     (bit (c.act Reg.TM_SAMPLE_CFG) 4 = false ∨ r.qEn = false → Runs (.queueSample q) s c) ∧
     (bit (c.act Reg.TM_SAMPLE_CFG) 4 = true → r.qEn = true →
       ((prod + 4294967296 - cons) % 4294967296 = size → Runs (.queueSample q) s ((c.bump Reg.TM_SAMPLE_LOST).raise Reg.TM_EVENT 2)) ∧
       ((prod + 4294967296 - cons) % 4294967296 ≠ size → ∃ y, Runs (.queueSample q) s y ∧
         y.reg (Reg.TM_SRING_PRODr ring) = w64 ((prod + 1) % 4294967296) ∧ y.tm = c.tm))) ∧
    (∀ (kind : Fin 8) (place : Fin 1048576),
      (c.shaped kind place = false ∨ c.tokens kind place ≤ 0 → Runs (.shaperEligible kind place) s c) ∧
      (c.shaped kind place = true → 0 < c.tokens kind place → ∃ y, Runs (.shaperEligible kind place) s y ∧
        y.tm.buckets.get (tmKey kind place) = { level := c.tokens kind place, at_ := c.frc } ∧ y.tokens kind place = c.tokens kind place ∧
        y.shaperOpen kind place = true ∧ y.regs = c.regs))
/-- Keys and cipher units (R452, R453, R457, R460, R461, R473 to R475, R478, R481, R486): a host command while another runs sets CMD_ERR; IMPORT loads a slot once its record can be written,
ERASE empties it and RETIRE retires it with its notice; STATUS is written and the import registers clear when the command is done; a failure window closes; a record is rewritten before
its reserve is used up; a slot that lost its key takes it back from its record or is retired; a spare joins its partner as a pair; the mask generator is reseeded
once in 1 ms.
The model's own choices in it: log entries 97, 127, 128, 129, 254. -/
def Obligations.KeySlotsAreKept : Prop :=
  ∀ (s : State) (slot : Fin 65536) (k : Fin 40960), s.chip.running = true →
    let c := s.chip
    let begun := fun (op : Nat) =>
      ((c.setField Reg.CIPH_SLOT_CMD 15 0 slot).setField Reg.CIPH_SLOT_CMD 17 16 op).setFlag Reg.CIPH_SLOT_CMD 19 true
    let ends := fun (u : Chip) (st : Nat) => u.updCiph fun d => { d with command := some st }
    let attr := c.reg Reg.CIPH_SLOT_ATTR
    let key := numBE ((List.range 4).flatMap fun i => wordBytes (c.reg (Reg.CIPH_IMPORTi i)))
    let x := c.slot k
    (c.ciph.command.isSome = true → Runs (.slotImport slot) s (c.raise Reg.CIPH_EVENT 7) ∧ Runs (.slotErase slot) s (c.raise Reg.CIPH_EVENT 7) ∧
      Runs (.slotRetire slot) s (c.raise Reg.CIPH_EVENT 7)) ∧
    (c.ciph.command = none → slot.val ≤ 40959 →
      (fld attr 7 2 < 20 ∨ 48 < fld attr 7 2 → Runs (.slotImport slot) s (ends (begun 0) 1)) ∧
      (20 ≤ fld attr 7 2 → fld attr 7 2 ≤ 48 → c.ddrHas (c.recordAt slot) 64 = false → Runs (.slotImport slot) s (ends (begun 0) 7)) ∧
      (20 ≤ fld attr 7 2 → fld attr 7 2 ≤ 48 → c.ddrHas (c.recordAt slot) 64 = true → ∃ y, Runs (.slotImport slot) s y ∧ y.ciph.command = some 0 ∧
        (y.slot slot).plainKey = key >>> (256 - 8 * modeBytes (fld attr 1 0)) ∧
        { y.slot slot with key := 0, mask := 0 } = { state := 1, mode := fld attr 1 0, limit := fld attr 7 2, saveOk := bit attr 8, label := c.reg Reg.CIPH_IMPORT_LABEL
                                                     reserved := 2 ^ (fld attr 7 2 - 6), loads := (c.slot slot).loads + 1 } ∧
        ∀ j, j ≠ slot.val → y.slot j = c.slot j) ∧
      (∃ y, Runs (.slotErase slot) s y ∧ y.ciph.command = some 0 ∧ y.slot slot = { loads := (c.slot slot).loads + 1 } ∧
        (∀ j, j ≠ slot.val → y.slot j = c.slot j) ∧ y.out = c.out) ∧
      (3 ≤ (c.slot slot).state → (c.slot slot).state ≤ 4 → Runs (.slotRetire slot) s (ends (begun 2) 0)) ∧
      ((c.slot slot).state < 3 →
        Runs (.slotRetire slot) s (ends (((begun 2).setSlot slot { c.slot slot with state := 4 }).slotNotice slot 4) 0)) ∧
      Runs .slotCmdDone s c) ∧
    (c.ciph.command = none → 40960 ≤ slot.val →
      Runs (.slotErase slot) s (ends ((c.setField Reg.CIPH_SLOT_CMD 17 16 1).setFlag Reg.CIPH_SLOT_CMD 19 true) 1)) ∧
    (∀ st, c.ciph.command = some st → ∃ y, Runs .slotCmdDone s y ∧ y.get Reg.CIPH_SLOT_CMD 22 20 = st % 8 ∧ y.flag Reg.CIPH_SLOT_CMD 19 = false ∧
      (∀ i < 4, y.reg (Reg.CIPH_IMPORTi i) = 0) ∧ y.ciph = { c.ciph with command := none }) ∧
    (x.fails ≠ 0 → x.state ≠ 4 → c.failWindowOver x = true → ∃ y, Runs (.failWindowClose k) s y ∧ y.slot k = { x with fails := 0 } ∧
      (∀ j, j ≠ k.val → y.slot j = c.slot j) ∧ y.regs = c.regs) ∧
    (x.fails = 0 ∨ x.state = 4 ∨ c.failWindowOver x = false → Runs (.failWindowClose k) s c) ∧
    (x.state = 0 ∨ x.uses + 2 ^ (x.limit - 7) ≤ x.reserved → Runs (.keystoreRewrite k) s c) ∧
    (x.state ≠ 0 → x.reserved < x.uses + 2 ^ (x.limit - 7) → c.ddrHas (c.recordAt k) 64 = true → ∃ y, Runs (.keystoreRewrite k) s y ∧
      y.slot k = { x with reserved := x.reserved + 2 ^ (x.limit - 6) } ∧ (∀ j, j ≠ k.val → y.slot j = c.slot j) ∧ y.regs = c.regs) ∧
    (x.state ≠ 0 → x.reserved < x.uses + 2 ^ (x.limit - 7) → c.ddrHas (c.recordAt k) 64 = false → Runs (.keystoreRewrite k) s c) ∧
    (x.state = 0 → x.reloading = false → Runs (.slotReload k) s c) ∧
    (x.state ≠ 0 → x.reloading = false →
      let u := (((c.setSlot k { x with reloading := true }).bump Reg.CIPH_SLOT_RELOAD).raise Reg.CIPH_EVENT 4).setSlot k x
      (c.poisoned (c.recordAt k) 64 = true → Runs (.slotReload k) s ((u.endSlot k 4).raise Reg.CIPH_EVENT 5)) ∧
      Runs (.slotReload k) s (match u.readRecord k with
        | none => (u.endSlot k 4).raise Reg.CIPH_EVENT 5
        | some b =>
          let a := w64 (numNats (b.drop 40))
          let m := (u.drawMasks (kwBlocks 48)).keyMask
          let z := { x with mode := fld a 63 62, limit := fld a 61 56, saveOk := bit a 55, reserved := fld a 54 0, label := w64 (numNats ((b.drop 32).take 8))
                            key := numNats (b.take (modeBytes (fld a 63 62))) ^^^ m.1, mask := m.1 }
          (m.2.setSlot k z).setUses k z.reserved)) ∧
    (c.ciph.units.joining = [] → Runs .spareJoin s c) ∧
    (∀ a p rest, c.ciph.units.joining = (a, p) :: rest → Runs .spareJoin s
      (c.updUnits fun u => { u with joining := rest, pairs := u.pairs ++ [(p, a)] })) ∧
    (c.ciph.healthy = true → lasts (c.frc - c.ciph.lastSeed) 1000000 = false → Runs .drbgReseed s c) ∧
    (c.ciph.healthy = false ∨ lasts (c.frc - c.ciph.lastSeed) 1000000 = true → ∃ y, Runs .drbgReseed s y ∧
      y.ciph = { c.ciph with drbg := c.ciph.drbg.reseed (Config.seed c.tick.1), healthy := true, restarting := false, lastSeed := c.frc } ∧ y.regs = c.regs) ∧
    (∃ y, Runs .healthTestFail s y ∧ y.ciph = { c.ciph with healthy := false, restarting := true } ∧ y.flag Reg.CIPH_EVENT 3 = true ∧
      ∀ a, a ≠ Reg.CIPH_EVENT → y.reg a = c.reg a)
/-- Time (R489 to R495, R499 to R504, R508 to R515, R518 to R520, R524 to R526): ticks count FRC and the engines' cycles, and a step that waits acts at the next one; a change of RATE leaves logical time
continuous to within 2^−16 ns; a read of TIME_NOW_NS captures one tick; an input's edges, a servo's measurements, its loss, the samples and updates of holdover, an output's edges, a
trigger's cancelling, the steering word and the oscillator's temperature act as their rules say.
The model's own choices in it: log entries 4, 134, 136, 139, 144. -/
def Obligations.TimeIsKept : Prop :=
  ∀ (s : State) (v : W64) (n : Fin 4) (out : Fin 8), s.chip.running = true →
    let c := s.chip
    let servo := c.time.servo
    let counting := c.flag Reg.CLK_STATUS 0
    (∀ k : BitVec 32, k ≠ 0 →
      (counting = false → Runs (.timeTick k) s { c with isl := { c.isl with clock := c.isl.clock + k.toNat } }) ∧
      (let u : Chip := cycleTick k.toNat { c with isl := { c.isl with clock := c.isl.clock + k.toNat } }
       (counting = true → Runs (.timeTick k) s ((List.finRange 32).foldl Chip.ponuApplyIdle (timeTick k.toNat u))) ∧
       (counting = true → c.time.stepping = false → (∀ t : Tree, (c.pon.ponu.get t.val).idleGo = false) →
         Runs (.timeTick k) s { u with frc := (c.frc + k.toNat) % 18446744073709551616 }))) ∧
    (counting = true → c.frc + 1 < 18446744073709551616 →
      (∀ x, c.time.setTo = some x → c.time.adjHost ++ c.time.adjEngine ++ c.time.servoStep = [] → ∃ y, Runs (.timeTick 1) s y ∧
        y.frc = c.frc + 1 ∧ y.logical = x ∧ y.flag Reg.TIME_EVENT 3 = true ∧ y.time.setTo = none) ∧
      (∀ d, c.time.setTo = none → c.time.adjHost ++ c.time.adjEngine ++ c.time.servoStep = [d] → ∃ y, Runs (.timeTick 1) s y ∧
        y.logical = c.logicalAt (c.frc + 1) + d ∧ y.flag Reg.TIME_EVENT 3 = true)) ∧
    (∃ y, Runs (.timeNowRead .full) s y ∧ y.readData = w64 (nsOf c.logical) ∧ y.reg Reg.TIME_NOW_NS = w64 (nsOf c.logical) ∧
      y.reg Reg.TIME_NOW_FRAC = w64 (fracOf c.logical) ∧ y.reg Reg.TIME_NOW_FRC = w64 c.frc) ∧
    (∃ y, Runs (.timeNowRead .low) s y ∧ y.readData = w64 (nsOf c.logical % 4294967296) ∧ y.reg Reg.TIME_NOW_NS = w64 (nsOf c.logical)) ∧
    Runs (.timeNowRead .high) s { c with readData := w64 (c.get Reg.TIME_NOW_NS 63 32) } ∧
    (∃ y, Runs (.timeSet v) s y ∧ y.offset = c.offset ∧ y.time.setTo =
      if bit v 16 = true then some (((c.reg Reg.TIME_SET_NS).toNat * 65536 + fld v 15 0 : Nat) : Int) else c.time.setTo) ∧
    (∃ y, Runs (.timeAdjWrite .sideBand v) s y ∧ y.time = { c.time with adjHost := c.time.adjHost ++ [signed 48 (fld v 47 0)] } ∧ y.offset = c.offset) ∧
    (∀ k, ∃ y, Runs (.timeAdjWrite (.engine k) v) s y ∧ y.time = { c.time with adjEngine := c.time.adjEngine ++ [signed 48 (fld v 47 0)] }) ∧
    (c.servoOwnsRate = true → Runs (.timeRateWrite v) s (c.raise Reg.TIME_EVENT 12)) ∧
    (c.servoOwnsRate = false → ∃ y, Runs (.timeRateWrite v) s y ∧ y.rate = signed 40 (fld v 39 0) ∧ (y.logical - c.logical).natAbs ≤ 1) ∧
    (∀ rising k, (c.flag (Reg.TIME_TINn_CFG n) 0 = false ∨ c.flag (Reg.TIME_TINn_CFG n) 1 = rising → Runs (.tinCapture n rising k) s c) ∧
      (c.flag (Reg.TIME_TINn_CFG n) 0 = true → c.flag (Reg.TIME_TINn_CFG n) 1 ≠ rising → fld (c.act Reg.TIME_SERVO_CTRL) 2 0 ≠ n.val + 1 →
        let at_ := c.logicalEighth k - signed 32 (c.get (Reg.TIME_TINn_DELAY n) 31 0)
        ((c.time.tin.get n).length < 16 → ∃ y, Runs (.tinCapture n rising k) s y ∧ y.regs = c.regs ∧
          y.time.tin.get n = c.time.tin.get n ++ [w64 (9223372036854775808 + stampOf at_)]) ∧
        (16 ≤ (c.time.tin.get n).length → Runs (.tinCapture n rising k) s ((c.bump (Reg.TIME_TINn_LOST n)).raise Reg.TIME_EVENT 9)))) ∧
    (fld (c.act Reg.TIME_SERVO_CTRL) 2 0 ≠ 5 → Runs (.servoInputWrite v) s (c.raise Reg.TIME_EVENT 12)) ∧
    (∀ at_, fld (c.act Reg.TIME_SERVO_CTRL) 2 0 = 5 → servo.lastInput = some at_ → lasts (c.frc - at_) 1000000 = false →
      Runs (.servoInputWrite v) s (c.bump Reg.TIME_INPUT_DROP)) ∧
    (fld (c.act Reg.TIME_SERVO_CTRL) 2 0 = 5 → servo.lastInput = none → servo.state = 2 → servo.outliers < 2 →
      (fld (c.act Reg.TIME_SERVO_BOUND) 23 0 : Int) * ns1 < (signed 48 (fld v 47 0)).natAbs → ∃ y, Runs (.servoInputWrite v) s y ∧
      y.time.servo = { servo with lastInput := some c.frc, lastErr := signed 48 (fld v 47 0), outliers := servo.outliers + 1 } ∧
      y.offset = c.offset) ∧
    (lasts (c.frc - servo.lossFrom) (fld (c.act Reg.TIME_SERVO_LIMIT) 63 48 * 1000000) = false → Runs .servoLoss s c) ∧
    (lasts (c.frc - servo.lossFrom) (fld (c.act Reg.TIME_SERVO_LIMIT) 63 48 * 1000000) = true →
      (servo.state = 1 → ∃ y, Runs .servoLoss s y ∧ y.time.servo = { servo with state := 0 } ∧ y.regs = c.regs) ∧
      (servo.state = 2 → ∃ y, Runs .servoLoss s y ∧ y.time.servo = { servo with state := 3 } ∧ y.flag Reg.TIME_EVENT 1 = true)) ∧
    (servo.state ≠ 2 ∨ c.secondSince c.time.hold.secondFrom = false → Runs .fitSample s c) ∧
    (servo.state = 2 → c.secondSince c.time.hold.secondFrom = true → c.fitEn = false → ∃ y, Runs .fitSample s y ∧ y.time.servo = servo ∧ y.regs = c.regs ∧
      y.time.hold.acc = 0 ∧ y.time.hold.secondFrom = c.frc ∧ y.time.hold.seconds =
        ({ y := mkRat (c.time.hold.acc + servo.y * (c.frc - c.time.hold.accFrom : Nat)) (c.frc - c.time.hold.secondFrom)
           temp := c.time.oven.temp, at_ := c.logical / (1000000000 * ns1) } :: c.time.hold.seconds).take 65535) ∧
    (servo.state ≠ 3 ∨ c.secondSince c.time.hold.secondFrom = false → Runs .holdoverUpdate s c) ∧
    (servo.state = 3 → c.secondSince c.time.hold.secondFrom = true → ∃ y, Runs .holdoverUpdate s y ∧ y.time.hold.secondFrom = c.frc ∧
      y.time.servo = { servo with y := (c.clampY (if c.hoEn = true then c.model c.presentSecond + c.time.hold.d0 else c.time.hold.mean)).1 }) ∧
    (∀ k : Fin 5, (c.fitEn = true → Runs (.hoCoeffWrite k v) s (c.raise Reg.TIME_EVENT 12)) ∧
      (c.fitEn = false → k.val = 4 → Runs (.hoCoeffWrite k v) s (c.setReg Reg.TIME_HO_REF v)) ∧
      (c.fitEn = false → k.val < 4 → Runs (.hoCoeffWrite k v) s (c.setReg (Reg.TIME_HO_Ck k) (w64 (fld v 47 0))))) ∧
    (let p := c.time.pulses.get out
     let at_ := fun (k : Nat) => c.pulseStart out + k * c.pulsePeriod out * ns1
     let width := fld (c.act (Reg.TIME_TOUTn_CTRL out)) 31 0
     (p.active = none → p.next = none → Runs (.toutEdge out) s c) ∧
     (∀ e, p.active = some e → e ≤ c.logical / ns1 → p.next = none → ∃ y, Runs (.toutEdge out) s y ∧ y.out = .pulseEnd out (c.pulseIdle out) :: c.out ∧
       y.time.pulses.get out = { p with active := none }) ∧
     (∀ k, p.active = none → p.next = some k → c.logical < at_ k → Runs (.toutEdge out) s c) ∧
     (∀ k, p.active = none → p.next = some k → at_ k ≤ c.logical → c.pulseOn out = true → ∃ y, Runs (.toutEdge out) s y ∧
       y.out = .pulse out k width (!c.pulseIdle out) :: c.out ∧ (y.time.pulses.get out).last = some k ∧
       (y.time.pulses.get out).active = some ((at_ k / ns1).toNat + width) ∧ y.regs = c.regs)) ∧
    (let g := c.time.trig.get (fld v 7 0)
     (g.armed = false ∨ g.gen ≠ fld v 15 8 → Runs (.trigCancel v) s c) ∧
     (g.armed = true → g.gen = fld v 15 8 → c.logical < g.next * ns1 → ∃ y, Runs (.trigCancel v) s y ∧ (y.time.trig.get (fld v 7 0)).armed = false ∧
       (y.time.trig.get (fld v 7 0)).gen = (g.gen + 1) % 256 ∧ ∀ j, j ≠ fld v 7 0 → y.time.trig.get j = c.time.trig.get j)) ∧
    (c.time.steer = none → Runs .steerWrite s c) ∧
    (∀ x, c.time.steer = some x → bit (c.act Reg.TIME_STEER_CFG) 0 = true →
      let f := c.act Reg.TIME_STEER_WORD
      let k := roundDiv (x * 256) (fld (c.act Reg.TIME_STEER_UNIT) 31 0)
      let word := wrapInt (8 * fld f 37 35) (satInt (8 * fld f 37 35) (if bit f 38 = true then -k else k))
      ∃ y, Runs .steerWrite s y ∧ y.time.steer = none ∧ y.reg Reg.TIME_STEER_LAST = w64 word ∧
        y.out = .steer (fld (c.act Reg.TIME_STEER_CFG) 10 9) (fld (c.act Reg.TIME_STEER_CFG) 8 1) ((bytesBE 4 (fld f 31 0)).take (fld f 34 32) ++ bytesBE (fld f 37 35) word) :: c.out) ∧
    (∀ raw : BitVec 32,
      let x := c.sensorTemp (raw.toNat % 2 ^ (8 * fld (c.act Reg.TIME_TEMP_CFG) 37 35))
      let due := c.time.oven.readAt.all c.secondSince
      (bit (c.act Reg.TIME_STEER_CFG) 11 = false ∨ due = false → Runs (.tempRead raw) s c) ∧
      (bit (c.act Reg.TIME_STEER_CFG) 11 = true → due = true → -60 * 65536 ≤ x → x ≤ 150 * 65536 → c.time.oven.seen = false ∨ (x - c.time.oven.temp).natAbs ≤ 131072 →
        ∃ y, Runs (.tempRead raw) s y ∧ y.time.oven.temp = x ∧ y.time.oven.valid = true ∧ y.time.oven.bad = 0 ∧ y.time.oven.readAt = some c.frc) ∧
      (bit (c.act Reg.TIME_STEER_CFG) 11 = true → due = true →
        150 * 65536 < x ∨ x < -60 * 65536 ∨ (c.time.oven.seen = true ∧ 131072 < (x - c.time.oven.temp).natAbs) →
        ∃ y, Runs (.tempRead raw) s y ∧ y.time.oven.temp = c.time.oven.temp ∧ y.time.oven.readAt = some c.frc ∧
          y.time.oven.bad = c.time.oven.bad + 1 ∧ (c.time.oven.bad = 2 → y.flag Reg.TIME_EVENT 5 = true ∧ y.time.oven.valid = false))) ∧
    (∀ (r : Fin 2) locked, (c.flag (Reg.TIME_RCLKr r) 6 = false → Runs (.rclkSquelch r locked) s c) ∧
      (c.flag (Reg.TIME_RCLKr r) 6 = true → ∃ y, Runs (.rclkSquelch r locked) s y ∧ y.flag (Reg.TIME_RCLKr r) 7 = !locked ∧
        (∀ a, a ≠ Reg.TIME_RCLKr r → y.reg a = c.reg a) ∧
        y.out = .rclk r (if locked = true then some (c.get (Reg.TIME_RCLKr r) 4 0, c.flag (Reg.TIME_RCLKr r) 5) else none) :: c.out))
/-- Gates, flasks and crucibles (R533, R536 to R541, R546, R549 to R554, R563 to R568, R582, R584): copies that differ pass the copy of the half that has not erred, or the flask is held until it
is retired onto the spare; an error takes HEALTH and gives the twin the active role; a crucible silent on both paths is lost; a host command while another runs sets CMD_ERR and else acts
as its rule says; self-tests, resynchronisations and turnovers set the roles that they end in.
The model's own choices in it: log entries 145, 146, 148, 149. -/
def Obligations.GatesKeepFlasks : Prop :=
  ∀ (s : State) (c : Cru) (f : Fin 33), s.chip.running = true →
    let h := s.chip
    let x := h.flask c f
    let g := h.gate.crus.get c
    let up := h.updFlask c f
    (Runs (.gateCompare c f false) s h) ∧
    (x.works = true → g.state = 0 →
      (∀ w, x.cope.errs h.frc = w → x.drag.errs h.frc = !w → Runs (.gateCompare c f true) s
        (((h.bump Reg.GATE_SPLITS_REPORTED).raise Reg.GATE_EVENT 0).faultFlask 1 c f (ofBool !w))) ∧
      (∀ w, x.cope.errs h.frc = w → x.drag.errs h.frc = w → x.state = 1 → Runs (.gateCompare c f true) s h) ∧
      (∀ w, x.cope.errs h.frc = w → x.drag.errs h.frc = w → x.state ≠ 1 → Runs (.gateCompare c f true) s
        ((((h.bump Reg.GATE_SPLITS_UNREPORTED).raise Reg.GATE_EVENT 0).faultFlask (if w = true then 3 else 2) c f).updFlask c f fun y =>
          { y with held := true })) ∧
      (x.drag.role = 9 → x.cope.role = 12 → h.healthMin ≤ x.cope.health - 32 → ∃ y, Runs (.halfError c f false) s y ∧
        (y.flask c f).state = 1 ∧ (y.flask c f).drag = { x.drag with role := 12 } ∧
        (y.flask c f).cope = { x.cope with role := 3, health := x.cope.health - 32, errAt := some h.frc, erred := true } ∧
        (∀ d k, (d, k) ≠ (c.val, f.val) → k < 33 → y.flask d k = h.flask d k) ∧ y.regs = h.regs)) ∧
    (x.works = false → ∃ y, Runs (.halfError c f true) s y ∧ (y.flask c f).drag.health = x.drag.health - 32 ∧ (y.flask c f).state = x.state) ∧
    (x.state ≠ 1 → Runs (.resyncDone c f) s h) ∧
    (x.state = 1 → x.cope.role = 3 → x.drag.role = 12 → ∃ y, Runs (.resyncDone c f) s y ∧ (y.flask c f).cope = { x.cope with role := 9 } ∧
      (y.flask c f).drag = x.drag ∧ (y.flask c f).state = 0) ∧
    (x.works = false ∨ x.held = false ∨ g.state ≠ 0 → Runs (.flaskRetire c f) s h) ∧
    (x.works = true → x.held = true → g.state = 0 → h.spareOf c = none → Runs (.flaskRetire c f) s (h.crucibleGone c true)) ∧
    (∀ n, x.works = true → x.held = true → g.state = 0 → h.spareOf c = some n → Runs (.flaskRetire c f) s
      ((List.range 8).foldl (fun u k => u.rollBack c n (x.engine * 8 + k)) ((h.swapFlask c f n).undoLines c x.engine))) ∧
    (∀ a b d e : BitVec 32, x.works = true → g.state = 0 → a.toNat ≠ x.cope.last1 → b.toNat ≠ x.cope.last2 → d.toNat ≠ x.drag.last1 →
      e.toNat ≠ x.drag.last2 → ∃ y, Runs (.stepCounterPoll c f a b d e) s y ∧ y.regs = h.regs ∧ (y.flask c f).state = x.state ∧
      (y.flask c f).cope = { x.cope with last1 := a.toNat, last2 := b.toNat, moved1 := h.frc, moved2 := h.frc, quiet := 0 } ∧
      (y.flask c f).drag = { x.drag with last1 := d.toNat, last2 := e.toNat, moved1 := h.frc, moved2 := h.frc, quiet := 0 }) ∧
    (∃ y, Runs (.crucibleHeartbeat c false) s y ∧ y.gate.crus.get c = { g with beatAt := h.frc, pathFault := g.pathFault && !lasts (h.frc - g.beatAt) 12000 }) ∧
    (∃ y, Runs (.crucibleHeartbeat c true) s y ∧ y.gate.crus.get c = { g with probeAt := h.frc, pathFault := g.pathFault && !lasts (h.frc - g.probeAt) 12000 }) ∧
    (g.state ≠ 0 → Runs (.crucibleLost c) s h) ∧
    (g.state = 0 → lasts (h.frc - g.beatAt) 12000 = true → lasts (h.frc - g.probeAt) 12000 = true → Runs (.crucibleLost c) s (h.crucibleGone c false)) ∧
    (g.state = 0 → lasts (h.frc - g.beatAt) 12000 = true → lasts (h.frc - g.probeAt) 12000 = false → g.pathFault = false →
      Runs (.crucibleLost c) s (((h.updGateCru c fun z => { z with pathFault := true }).faultLog 10 c 0 0 0 0).raise Reg.GATE_EVENT 3)) ∧
    (h.gate.command.isSome = true → Runs .retireFlask s (h.raise Reg.GATE_EVENT 6) ∧ Runs .restoreFlask s (h.raise Reg.GATE_EVENT 6) ∧
      Runs .retireCrucible s (h.raise Reg.GATE_EVENT 6) ∧ Runs .restoreCrucible s (h.raise Reg.GATE_EVENT 6) ∧
      Runs .gateTest s (h.raise Reg.GATE_EVENT 6)) ∧
    (h.gate.command = none → h.get Reg.GATE_SEL 5 0 = c.val → h.get Reg.GATE_SEL 11 6 = f.val →
      let begun := fun (op : Nat) => (h.setField Reg.GATE_RETIRE_CMD 2 0 op).setFlag Reg.GATE_RETIRE_CMD 4 true
      let ends := fun (u : Chip) (st : Nat) => { u with gate := { u.gate with command := some st } }
      let fresh : Half := { role := 6, health := 128 }
      (g.state ≠ 0 ∨ x.works = false ∨ x.held = true → Runs .retireFlask s (ends (begun 0) 4)) ∧
      (g.state = 0 → x.works = true → x.held = false → h.spareOf c = none → Runs .retireFlask s (ends (begun 0) 2)) ∧
      (∀ n, g.state = 0 → x.works = true → x.held = false → h.spareOf c = some n →
        Runs .retireFlask s (ends ((begun 0).swapFlask c f n) 0)) ∧
      (x.state ≠ 3 ∨ x.bist = 0 → Runs .restoreFlask s (ends (begun 1) 4)) ∧
      (x.state = 3 → x.bist = 2 → Runs .restoreFlask s (ends (begun 1) 3)) ∧
      (x.state = 3 → x.bist = 1 → x.retires < 3 → h.spareOf c = none →
        Runs .restoreFlask s (ends ((begun 1).setFlask c f { x with state := 2, cope := fresh, drag := fresh }) 0)) ∧
      (g.state ≠ 0 → Runs .retireCrucible s (ends (begun 2) 4)) ∧
      (g.state = 0 → h.cruCount c ≠ 0 → Runs .retireCrucible s (ends (begun 2) 1)) ∧
      (g.state = 0 → h.cruCount c = 0 →
        Runs .retireCrucible s (ends (((begun 2).updGateCru c fun z => { z with state := 3, bist := 0 }).faultLog 12 c 0 0 0 0) 0)) ∧
      (g.state ≠ 2 ∨ g.bist = 0 → Runs .restoreCrucible s (ends (begun 3) 4)) ∧
      (g.state = 2 → g.bist = 1 → h.cruCount c = 0 → ∃ y, Runs .restoreCrucible s y ∧ (y.gate.crus.get c).state = 0 ∧
        (y.gate.crus.get c).redirected = false ∧ y.gate.command = some 0) ∧
      (g.state = 1 ∨ g.state = 2 → Runs .gateTest s (ends ((begun 4).updGateCru c fun z => { z with state := 3, bist := 0 }) 0)) ∧
      (g.state = 0 → x.state = 3 → Runs .gateTest s (ends ((begun 4).updFlask c f fun z => { z with state := 4, bist := 0 }) 0)) ∧
      Runs .gateCmdDone s h) ∧
    (∀ st, h.gate.command = some st → ∃ y, Runs .gateCmdDone s y ∧ y.get Reg.GATE_RETIRE_CMD 7 5 = st % 8 ∧ y.flag Reg.GATE_RETIRE_CMD 4 = false ∧
      y.gate = { h.gate with command := none }) ∧
    (x.state ≠ 4 → Runs (.bistDone c f true) s h) ∧
    (x.state = 4 → bit (h.act Reg.GATE_CFG) 16 = false →
      Runs (.bistDone c f true) s (up fun y => { y with state := 3, bist := 1, tested := true })) ∧
    (x.state = 4 → h.gate.command = none →
      Runs (.bistDone c f false) s ((up fun y => { y with state := 3, bist := 2, tested := true }).faultLog 14 c f 0 0 0)) ∧
    (g.state ≠ 3 → Runs (.crucibleSelftestDone c true) s h) ∧
    (g.state = 3 → Runs (.crucibleSelftestDone c true) s (h.updGateCru c fun z => { z with state := 2, bist := 1 })) ∧
    (g.state ≠ 0 ∨ h.turnDue c = false → Runs (.flaskTurnover c) s h) ∧
    (g.state = 0 → h.turnDue c = true → ∃ y, Runs (.flaskTurnover c) s y ∧ (y.gate.crus.get c).turnedAt = h.logical ∧
      (y.gate.crus.get c).turned = (h.turnTree c).map fun t => (h.pon.pond.get t).fc)
/-- Memory (R572 to R580, R587, R704): a scrubbed word or line is counted, corrected or poisoned, and the end of a pass is counted; a channel is taken off line only while its partner holds every
line, trains when it is brought on line, becomes ONLINE, resilvers or fails as its training shows, and is primary once asked; a SUSPECT mark clears on command.
The model's own choices in it: log entries 166, 167, 168, 170, 171, 172, 243, 255. -/
def Obligations.MemoryIsScrubbedAndServed : Prop :=
  ∀ (s : State) (w : SramWord) (ch : Fin 8), s.chip.running = true →
    let c := s.chip
    let k := c.get Reg.MEM_CHAN_SEL 2 0
    let pass := fun (u : Chip) => u.setField Reg.MEM_SCRUB_STATUS 31 0 (u.get Reg.MEM_SCRUB_STATUS 31 0 + 1)
    let cmd := fun (op : Nat) => c.setField Reg.MEM_CHAN_CMD 2 0 op
    let done := fun (u : Chip) (st : Nat) => u.setField Reg.MEM_CHAN_CMD 7 5 st
    let beats := fun (line : BitVec 34) => line.toNat * 64
    (∀ bad : BitVec 160, ∀ last,
      let all := c.sramWrong bad w
      let ends := fun (u : Chip) => if last then pass u else u
      (w20Check all = .clean → Runs (.sramScrub w bad last) s (ends (c.sramBack (w20Left all) false w))) ∧
      (w20Check all = .corrected → Runs (.sramScrub w bad last) s (ends ((c.bump Reg.MEM_SRAM_CORR).sramBack (w20Left all) true w))) ∧
      (w20Check all = .uncorrectable →
        Runs (.sramScrub w bad last) s (ends (((c.bump Reg.MEM_SRAM_UNCORR).raise Reg.MEM_EVENT 0).sramLost w)))) ∧
    (∀ j : Fin 160, Runs (.sramScrub .other (1 <<< j.val) false) s (c.bump Reg.MEM_SRAM_CORR)) ∧
    (∀ bad, w20Check bad = .uncorrectable → Runs (.sramScrub .other bad false) s ((c.bump Reg.MEM_SRAM_UNCORR).raise Reg.MEM_EVENT 0)) ∧
    (∀ i v bad, w20Check bad = .uncorrectable →
      ∃ y, Runs (.sramScrub (.iram i v) bad false) s y ∧ (i.val * 16384 + v.val) ∈ y.mem.badIram ∧ y.cru = c.cru) ∧
    (∀ line a b differ, c.ddrHas (beats line) 64 = false → Runs (.ddrScrub line a b differ false) s c) ∧
    (∀ line a b differ, c.ddrHas (beats line) 64 = true → c.mirrored = false → lineCount .corrected a ≠ 0 → lineCount .uncorrectable a = 0 →
      lineLeft a = 0 →
      Runs (.ddrScrub line a b differ false) s (c.bump (Reg.MEM_CORRc (channelOf (line.toNat / 4)).1) (lineCount .corrected a))) ∧
    (∀ line a b differ, c.mirrored = false → lineCount .corrected a = 0 → lineCount .uncorrectable a = 0 → lineLeft a = 0 →
      Runs (.ddrScrub line a b differ false) s c) ∧
    (∀ line a b differ, c.ddrHas (beats line) 64 = true → c.mirrored = false → lineCount .uncorrectable a ≠ 0 →
      ∃ y, Runs (.ddrScrub line a b differ false) s y ∧ (line.toNat ∈ y.mem.poison ∨ 1024 ≤ y.mem.poison.length) ∧
        y.flag Reg.MEM_EVENT 0 = true) ∧
    (let p := fun (line : BitVec 34) => line.toNat / 4 % 4
     let first := fun line => if c.isPrimary (2 * p line) then 2 * p line else 2 * p line + 1
     ∀ line a b, c.ddrHas (beats line) 64 = true → c.mirrored = true → (c.chan (first line)).serves = true →
      (c.chan (partner (first line))).serves = true → lineCount .uncorrectable a = 0 → lineCount .uncorrectable b = 0 →
      lineLeft a = 0 → lineLeft b = 0 → lineCount .corrected a = 0 → lineCount .corrected b = 0 →
      Runs (.ddrScrub line a b false false) s c ∧
      (∃ y, Runs (.ddrScrub line a b true false) s y ∧ y.flag Reg.MEM_EVENT 1 = true ∧
        y = (c.mismatch (p line) line.toNat))) ∧
    ((c.mem.command.isSome = true → Runs .chanOffline s (c.raise Reg.MEM_EVENT 6) ∧ Runs .chanOnline s (c.raise Reg.MEM_EVENT 6) ∧
      Runs .makePrimary s (c.raise Reg.MEM_EVENT 6) ∧ Runs .clearSuspect s (c.raise Reg.MEM_EVENT 6))) ∧
    (c.mem.command = none →
      let st := (c.chan k).state
      (st ≠ 3 → st ≠ 4 → st ≠ 5 → Runs .chanOffline s (done (cmd 0) 4)) ∧
      (st = 3 → c.mirrored = false ∨ (c.chan (partner k)).state ≠ 3 → Runs .chanOffline s (done (cmd 0) 1)) ∧
      (st = 3 → c.mirrored = true → (c.chan (partner k)).state = 3 → ∃ y, Runs .chanOffline s y ∧ (y.chan k).state = 1 ∧ y.isPrimary (partner k) = true ∧
        y.get Reg.MEM_CHAN_CMD 7 5 = 0 ∧ ∀ j, j ≠ k → y.chan j = c.chan j) ∧
      (st ≠ 0 → st ≠ 1 → st ≠ 5 → Runs .chanOnline s (done (cmd 1) 4)) ∧
      (st = 0 ∨ st = 1 ∨ st = 5 → ∃ y, Runs .chanOnline s y ∧ (y.chan k).state = 2 ∧ y.flag Reg.MEM_CHAN_CMD 4 = true ∧
        y.isl.dimms = c.isl.dimms ||| 2 ^ k ∧ y.mem.command = some k ∧ ∀ j, j ≠ k → y.chan j = c.chan j) ∧
      (c.mirrored = false ∨ st ≠ 3 → Runs .makePrimary s (done (cmd 2) 4)) ∧
      (c.mirrored = true → st = 3 → ∃ y, Runs .makePrimary s y ∧ y.isPrimary k = true ∧ y.get Reg.MEM_CHAN_CMD 7 5 = 0 ∧ y.mem.chans = c.mem.chans) ∧
      ((c.chan k).suspect = false → Runs .clearSuspect s (done (cmd 3) 4)) ∧
      ((c.chan k).suspect = true → ∃ y, Runs .clearSuspect s y ∧ y.chan k = { c.chan k with suspect := false } ∧
        y.mem.mismatches.get (k / 2) = [] ∧ y.get Reg.MEM_CHAN_CMD 7 5 = 0)) ∧
    ((c.chan ch).state ≠ 2 → c.starting = false → ∀ a b g, (a = true ∨ (c.chan ch).serves = false) → Runs (.trainingDone ch a b g) s c) ∧
    ((c.chan ch).state = 3 → c.starting = false → ∀ b g, ∃ y, Runs (.trainingDone ch false b g) s y ∧ (y.chan ch).state = 5 ∧
      y.isPrimary (partner ch) = true ∧ y.flag Reg.MEM_EVENT 3 = true ∧ ∀ j, j ≠ ch.val → y.chan j = c.chan j) ∧
    ((c.chan ch).state = 2 → c.starting = false → c.mem.command = some ch.val →
      (∀ g, ∃ y, Runs (.trainingDone ch true false g) s y ∧ y.chan ch = { c.chan ch with state := 1, capacity := g } ∧
        y.get Reg.MEM_CHAN_CMD 7 5 = 3 ∧ y.flag Reg.MEM_CHAN_CMD 4 = false ∧ y.mem.command = none) ∧
      (∀ g, c.mirrored = false → ∃ y, Runs (.trainingDone ch true true g) s y ∧
        y.chan ch = { state := 3, capacity := g, progress := 0, suspect := false } ∧ y.get Reg.MEM_CHAN_CMD 7 5 = 0 ∧
        y.flag Reg.MEM_CHAN_CMD 4 = false ∧ y.mem.command = none) ∧
      (∀ g : Fin 256, c.mirrored = true → (c.chan (partner ch)).state = 3 → (c.chan (partner ch)).capacity ≤ g.val →
        ∃ y, Runs (.trainingDone ch true true g) s y ∧ y.chan ch = { state := 4, capacity := g, progress := 0, suspect := false } ∧
          y.isPrimary (partner ch) = true ∧ y.get Reg.MEM_CHAN_CMD 7 5 = 0)) ∧
    ((c.chan ch).state ≠ 4 → ∀ p, Runs (.resilverDone ch p) s c) ∧
    ((c.chan ch).state = 4 → (∀ p : Fin 1001, p.val ≠ 1000 → ∃ y, Runs (.resilverDone ch p) s y ∧
        y.chan ch = { c.chan ch with progress := p } ∧ y.regs = c.regs) ∧
      (∀ p : Fin 1001, p.val = 1000 → ∃ y, Runs (.resilverDone ch p) s y ∧ y.chan ch = { c.chan ch with state := 3, progress := 0 } ∧
        y.isPrimary (partner ch) = true ∧ y.flag Reg.MEM_EVENT 4 = true))
/-- The Gulrov link (R590 to R593, R598 to R604, R608 to R623): records go out in the mirror stream and are taken in order, a record of another type stays; a path silent for 300 µs is lost;
a turnover is scheduled or refused with its status; rows of a link that is not aligned are discarded, a foreign label is reported; lanes lock, align and slip; a
second is counted once it is 10 s old; the selected bin is latched; hierarchy messages go out and come in.
The model's own choices in it: log entries 173, 175, 177, 256, 257. -/
def Obligations.TheLinkCarriesRecords : Prop :=
  ∀ (s : State) (v : W64) (p : Fin 2) (lane : Fin 8), s.chip.running = true →
    let c := s.chip
    let l := c.glk.link
    let path := c.glk.paths.get (p.val + 1)
    let tail := fun (r : List (List W64)) => c.updLink fun z => { z with inbox := r }
    let queueOf := fun (d : W64) => c.redirect (fld d 5 0) * 1024 + fld d 15 6
    let waiting := fun (d : W64) => c.msgs.queues.get (queueOf d)
    let taken := fun (d : W64) rest =>
      ({ c with msgs := { c.msgs with queues := c.msgs.queues.set (queueOf d) { waiting d with items := rest } } } : Chip)
    let bodyOf := fun (d : W64) (m : QMsg) =>
      c.readStore (c.redirect (fld d 5 0)) (slotOffset (c.queueCfg (c.redirect (fld d 5 0)) (fld d 15 6)) m.slot) m.len
    let leaves := fun (y : Chip) (label : Nat) (quiet : Bool) (payload : List Byte) =>
      y.glk.link.txSeq = (l.txSeq + 1) % 65536 ∧ y.out = .row ((List.range c.laneCount).map fun k =>
        (laneMarker k l.txSeq label (l.tx.get k).bip quiet,
          lineBytes (scramble (l.tx.get k).bits (lineBits ((payload.drop (8184 * k)).take 8184))).1)) :: c.out
    (c.mateOn = false → Runs .mirrorHeartbeatSend s c) ∧
    (c.mateOn = true → Runs .mirrorHeartbeatSend s (c.glkRecord 1 c.ownHeat [c.heartWord])) ∧
    (l.inbox = [] → Runs .heartbeatRecord s c ∧ Runs .mapRecord s c ∧ Runs .slotRecord s c ∧ Runs .programRecord s c ∧ Runs .resendRecord s c) ∧
    (∀ r rest, l.inbox = r :: rest →
      let kind := fld (r.headD 0) 63 56
      (kind ≠ 1 → Runs .heartbeatRecord s c) ∧ (kind ≠ 2 → Runs .mapRecord s c) ∧ (kind ≠ 3 → Runs .slotRecord s c) ∧
      (kind ≠ 4 → Runs .programRecord s c) ∧ (kind ≠ 5 → Runs .resendRecord s c) ∧
      (kind = 1 → Runs .heartbeatRecord s ((tail rest).heartbeat 1 (fld (nth r 0) 15 0) (nth r 1))) ∧
      (kind = 2 → c.nextFrame (recordTree (nth r 0)) = none → Runs .mapRecord s (tail rest)) ∧
      (∀ m t0 n d, kind = 2 → c.nextFrame (recordTree (nth r 0)) = some (m, t0) → nearFrame m (fld (nth r 0) 31 0) = some (n, d) →
        c.standbyAt n = true → Runs .mapRecord s ((tail rest).mirrorMap (recordTree (nth r 0)) (recordWl (nth r 0)) n (t0 + d * frameTicks)
          (fld (nth r 1) 31 0) (((r.drop 2).take (fld (nth r 1) 47 32)).map (mirrorEntry (recordWl (nth r 0)))))) ∧
      (kind = 3 → c.nextFrame (recordTree (nth r 0)) = none → Runs .slotRecord s (tail rest)) ∧
      (∀ m t0 n d a b, kind = 3 → c.nextFrame (recordTree (nth r 0)) = some (m, t0) → nearFrame m (fld (nth r 0) 31 0) = some (n, d) →
        c.standbyAt n = true → r.drop 1 = [a, b] →
        Runs .slotRecord s ((tail rest).setRec (recKey (recordTree (nth r 0)) 0 (2 + fld a 14 14) (fld a 13 0)) b)) ∧
      (kind = 4 → bit (c.act Reg.GLK_PROG_DEST) 16 = false → Runs .programRecord s ((tail rest).raise Reg.GLK_EVENT 6)) ∧
      (kind = 4 → bit (c.act Reg.GLK_PROG_DEST) 16 = true →
        let x := (tail rest).sendQueue (fld (c.act Reg.GLK_PROG_DEST) 5 0) (fld (c.act Reg.GLK_PROG_DEST) 15 6) (deviceSource 12 0) (wordsBytes (r.drop 1))
        Runs .programRecord s (if x.1 then x.2 else x.2.raise Reg.GLK_EVENT 6)) ∧
      (kind = 5 → fld (nth r 0) 19 16 = 1 → (∀ g ∈ l.kept, g.seq ≠ fld (nth r 0) 15 0) →
        Runs .resendRecord s (((tail rest).raise Reg.GLK_EVENT 6).bump Reg.GLK_GAPS)) ∧
      (∀ g, kind = 5 → fld (nth r 0) 19 16 = 1 → l.kept = [g] → g.seq = fld (nth r 0) 15 0 →
        Runs .resendRecord s ((tail rest).updLink fun z => { z with resend := z.resend ++ [g] }))) ∧
    (path.seen = false ∨ lasts (c.frc - path.at_) 300000 = false → Runs (.pathLoss p) s c) ∧
    (path.seen = true → lasts (c.frc - path.at_) 300000 = true → Runs (.pathLoss p) s
      ((c.updGlk fun g => { g with paths := g.paths.set (p.val + 1) {} }).raise Reg.GLK_EVENT (2 + p.val)).evalPermit) ∧
    (bit (c.act Reg.GLK_PROG_SRC) 16 = false → Runs .programRecordSend s c) ∧
    (∀ m rest, bit (c.act Reg.GLK_PROG_SRC) 16 = true → (waiting (c.act Reg.GLK_PROG_SRC)).items = m :: rest →
      Runs .programRecordSend s ((taken (c.act Reg.GLK_PROG_SRC) rest).glkRecord 4 (fld (c.act Reg.GLK_PROG_SRC) 5 0 <<< 32)
        (bytesWords (bodyOf (c.act Reg.GLK_PROG_SRC) m)))) ∧
    (∀ frame : BitVec 32, c.mateOn = false ∨ c.role ≠ 12 → c.mateFrame = none →
      Runs (.turnGo frame) s ((c.setField Reg.GLK_TURN 31 0 frame.toNat).setField Reg.GLK_TURN 35 34 1)) ∧
    (∀ (frame : BitVec 32) n, c.mateFrame = some n → c.mateOn = true → c.role = 12 → c.mateSteady = true → c.glk.turn = none →
      let full := (n + (frame.toNat + 4294967296 - n % 4294967296) % 4294967296) % 2251799813685248
      full % 80 = 0 → earlier full (n + 160) = false → ∃ y, Runs (.turnGo frame) s y ∧ y.glk = { c.glk with turn := some full } ∧
        y.get Reg.GLK_TURN 31 0 = frame.toNat ∧ y.get Reg.GLK_TURN 35 34 = 0) ∧
    (∀ x : RowLight, c.linkAligned = false → ∃ y, Runs (.rowReceive x) s y ∧ y.glk.link.lanes = (c.laneFrames x).1 ∧
      y.glk.link.inbox = l.inbox ∧ y.glk.hierIn = c.glk.hierIn ∧
      y.get Reg.GLK_BAD_BLOCK 47 0 = countAdd (c.get Reg.GLK_BAD_BLOCK 47 0) (x.lanes.map fun z => badBlocks z.headers).sum) ∧
    (∀ x : RowLight, c.linkAligned = true → l.dropRow = false →
      let r := c.laneFrames x
      let marks := (x.lanes.zip r.2).filter fun z => isMarker (z.1.headers.headD 2) z.1.marker
      let label := match marks with | z :: _ => fld z.1.marker 23 16 | [] => l.label
      let seq := (r.1.get 0).seq
      let expected := fld (c.act Reg.GLK_LINK_CFG) 27 20
      (c.updLink fun z => { z with lanes := r.1 }).linkAligned = true →
      ∃ y, Runs (.rowReceive x) s y ∧ y.glk.link.label = label ∧ y.glk.link.lanes = r.1 ∧ y.glk.link.rxQuiet = false ∧
        (label = 0xFF → y.glk.link.inbox = l.inbox ∧ y.glk.hierIn = c.glk.hierIn) ∧
        (label ≠ 0xFF → label ≠ expected → y.flag Reg.GLK_EVENT 5 = true ∧ y.glk.link.inbox = l.inbox ∧ y.glk.hierIn = c.glk.hierIn) ∧
        (label = 1 → expected = 1 → (∀ e, l.expect = some e → (seq + 65536 - e) % 65536 < 32768) →
          y.glk.link.expect = some ((seq + 1) % 65536)) ∧
        (label = 2 → expected = 2 → ∃ f, y.glk.hierIn = c.glk.hierIn ++ [f] ∧ f.2.bytes = rowBytes r.2)) ∧
    (∀ headers, ∃ y, Runs (.blockLock lane headers) s y ∧
      y.glk.link.lanes.get lane = headers.foldl GlkLane.sync (l.lanes.get lane) ∧
      (∀ k, k ≠ lane.val → y.glk.link.lanes.get k = l.lanes.get k) ∧
      ((l.lanes.get lane).lock = false → (l.lanes.get lane).run = 0 → headers.length = 128 → (∀ h ∈ headers, h = 1 ∨ h = 2) →
        y.glk.link.lanes.get lane = { lock := true }) ∧
      ((l.lanes.get lane).lock = true → headers.length = 24 → (∀ h ∈ headers, h = 0 ∨ h = 3) → y.glk.link.lanes.get lane = {})) ∧
    (∀ header block place, (l.lanes.get lane).lock = false ∨ (l.lanes.get lane).aligned = true →
      Runs (.laneAlign lane header block place) s c) ∧
    (∀ header block (place : Fin 1024), (l.lanes.get lane).lock = true → (l.lanes.get lane).aligned = false →
      let x := l.lanes.get lane
      ∃ y, Runs (.laneAlign lane header block place) s y ∧ (∀ k, k ≠ lane.val → y.glk.link.lanes.get k = l.lanes.get k) ∧
        (isMarker header block = false →
          y.glk.link.lanes.get lane = { x with candidates := x.candidates.filter fun z => z.place ≠ place.val }) ∧
        (∀ z, isMarker header block = true → x.candidates = [z] → z.place = place.val → fld block 39 24 = (z.seq + 1) % 65536 →
          z.count + 1 = fld (c.act Reg.GLK_LINK_CFG) 6 4 →
          (y.glk.link.lanes.get lane).place = some place.val ∧ (y.glk.link.lanes.get lane).number = fld block 42 40 ∧
          (y.glk.link.lanes.get lane).seq = fld block 39 24)) ∧
    (∃ drops, Runs .rowSlip s ((c.tick.2.updLink fun z => { z with dropRow := drops }).bump Reg.GLK_SLIPS)) ∧
    (∀ k, c.glk.pm.next = some k → c.second.toNat < k + 11 → Runs .pmSecond s c) ∧
    (∀ k, c.glk.pm.next = some k → k + 11 ≤ c.second.toNat → ∃ y, Runs .pmSecond s y ∧ y.glk.pm.next = some (k + 1)) ∧
    (∃ y, Runs (.pmSelWrite v) s y ∧ y.get Reg.GLK_PM_SEL 6 0 = (if fld v 6 0 ≤ 96 then fld v 6 0 else c.get Reg.GLK_PM_SEL 6 0) ∧
      y.glk = c.glk ∧ (fld v 6 0 ≤ 96 → fld v 8 7 = 0 → y.reg Reg.GLK_PM_CNT1 = w64 (c.glk.pm.sources.get (fld v 6 0)).cur15.uas)) ∧
    (bit (c.act Reg.GLK_LINK_CFG) 29 = false →
      Runs .laneFrameSend s (c.updLink fun z => { z with txSeq := (z.txSeq + 1) % 65536 })) ∧
    (bit (c.act Reg.GLK_LINK_CFG) 29 = true → bit (c.act Reg.GLK_LINK_CFG) 28 = true → 16 ≤ l.quietSent →
      Runs .laneFrameSend s (c.updLink fun z => { z with txSeq := (z.txSeq + 1) % 65536 })) ∧
    (bit (c.act Reg.GLK_LINK_CFG) 29 = true → bit (c.act Reg.GLK_LINK_CFG) 28 = true → l.quietSent < 16 → ∃ y, Runs .laneFrameSend s y ∧
      y.glk.link.quietSent = l.quietSent + 1 ∧ leaves y 0 true (List.replicate (c.laneCount * 8184) 0#8)) ∧
    (bit (c.act Reg.GLK_LINK_CFG) 29 = true → bit (c.act Reg.GLK_LINK_CFG) 28 = false → c.linkAligned = false → ∃ y, Runs .laneFrameSend s y ∧
      leaves y 0xFF false (List.replicate (c.laneCount * 8184) 0xFF#8)) ∧
    (∀ g rest, bit (c.act Reg.GLK_LINK_CFG) 29 = true → bit (c.act Reg.GLK_LINK_CFG) 28 = false → c.linkAligned = true →
      fld (c.act Reg.GLK_LINK_CFG) 19 12 = 1 → l.resend = g :: rest → ∃ y, Runs .laneFrameSend s y ∧
        leaves y 1 false g.bytes ∧ y.glk.link.resend = rest ∧ y.get Reg.GLK_RESENT 47 0 = countAdd (c.get Reg.GLK_RESENT 47 0) 1) ∧
    (bit (c.act Reg.GLK_HIER_CFG) 26 = false ∨ (c.mateOn = true ∧ c.role ≠ 12) → Runs .hierSend s c) ∧
    (∀ e rest, bit (c.act Reg.GLK_HIER_CFG) 26 = true → bit (c.act Reg.GLK_HIER_SRC) 16 = true → c.mateOn = false →
      (waiting (c.act Reg.GLK_HIER_SRC)).items = e :: rest →
      let m := bodyOf (c.act Reg.GLK_HIER_SRC) e
      let u := taken (c.act Reg.GLK_HIER_SRC) rest
      let path := c.reg (Cell.glkPeer ((nth m 3).toNat % 32) 1)
      let r := u.hierSeal (fld path 21 6) (nth m 1).toNat ((nth m 3).toNat % 32) (m.drop 8)
      let x := r.2
      (bit path 5 = false → Runs .hierSend s u) ∧
      (bit path 5 = true → fld (x.act Reg.GLK_LINK_CFG) 19 12 = 2 → bit (x.act Reg.GLK_LINK_CFG) 29 = true →
        Runs .hierSend s (match r.1 with
          | none => x
          | some msg => x.updGlk fun g => { g with hierOut := g.hierOut ++ [x.hierFrame (x.reg (Cell.glkPeer ((nth m 3).toNat % 32) 0)) msg] }))) ∧
    (c.glk.hierIn = [] → Runs .hierReceive s c) ∧
    (∀ cls f rest, c.glk.hierIn = (cls, f) :: rest →
      Runs .hierReceive s ((c.updGlk fun g => { g with hierIn := rest }).hierTake f cls))
/-! ### The host -/

/-- Rings and vectors (R25, R631, R632, R635 to R641, R644 to R649, R739): a TAIL beyond the ring's size is refused; a ring's BASE and place do not change while it is enabled; an item fills
posted buffers and is written back, or is dropped where it finds none; a transmit run becomes a frame, or is refused by its STATUS and written back with it; an active source of an ARMED
vector sends its message, or waits masked; an endpoint's bus mastering, links and function-level reset.
The model's own choices in it: log entries 181, 183, 184, 185, 260, 261, 262. -/
def Obligations.RingsAndVectorsServeTheHost : Prop :=
  ∀ (s : State) (ring : Fin 4096) (e : Ep) (v : Fin 2048), s.chip.running = true →
    let c := s.chip
    let rx := ringKey 0 ring
    let tx := ringKey 1 ring
    let taken := fun (k : Nat) => ((c.ring k).open_.map fun o => o.descs.length).sum
    (∀ (tail : BitVec 16) descs, c.ringSize rx < (tail.toNat + 65536 - (c.ring rx).head) % 65536 →
      Runs (.rxTailWrite ring tail descs) s (c.raise Reg.HIF_EVENT 1)) ∧
    (∀ (tail : BitVec 16) descs, c.ringSize tx < (tail.toNat + 65536 - (c.ring tx).head) % 65536 →
      Runs (.txTailWrite ring tail descs) s (c.raise Reg.HIF_EVENT 1)) ∧
    (∀ (tail : BitVec 16) descs, (tail.toNat + 65536 - (c.ring rx).head) % 65536 ≤ c.ringSize rx →
      (c.ring rx).posted.length + taken rx + descs.length = (tail.toNat + 65536 - (c.ring rx).head) % 65536 → ∃ y, Runs (.rxTailWrite ring tail descs) s y ∧
      y.ring rx = { c.ring rx with tail := tail.toNat, posted := (c.ring rx).posted ++ descs } ∧ (∀ k, k ≠ rx → y.ring k = c.ring k) ∧ y.regs = c.regs) ∧
    (∀ (tail : BitVec 16) descs, (tail.toNat + 65536 - (c.ring rx).head) % 65536 ≤ c.ringSize rx →
      (tail.toNat + 65536 - (c.ring rx).head) % 65536 ≤ taken rx + (c.ring rx).posted.length → ∃ y, Runs (.rxTailWrite ring tail descs) s y ∧
      y.ring rx = { c.ring rx with
        tail := tail.toNat, posted := (c.ring rx).posted.take ((tail.toNat + 65536 - (c.ring rx).head) % 65536 - taken rx) }) ∧
    (∀ (tail : BitVec 16) descs, (tail.toNat + 65536 - (c.ring tx).head) % 65536 ≤ c.ringSize tx →
      (c.ring tx).posted.length + taken tx + descs.length = (tail.toNat + 65536 - (c.ring tx).head) % 65536 → ∃ y, Runs (.txTailWrite ring tail descs) s y ∧
      y.ring tx = { c.ring tx with tail := tail.toNat, posted := (c.ring tx).posted ++ descs } ∧ (∀ k, k ≠ tx → y.ring k = c.ring k) ∧ y.regs = c.regs) ∧
    (∀ (tail : BitVec 16) descs, (tail.toNat + 65536 - (c.ring tx).head) % 65536 ≤ c.ringSize tx →
      (tail.toNat + 65536 - (c.ring tx).head) % 65536 ≤ taken tx + (c.ring tx).posted.length → ∃ y, Runs (.txTailWrite ring tail descs) s y ∧
      y.ring tx = { c.ring tx with
        tail := tail.toNat, posted := (c.ring tx).posted.take ((tail.toNat + 65536 - (c.ring tx).head) % 65536 - taken tx) }) ∧
    (∀ w, bit (c.ringReg c.selRing 1) 0 = true → Runs (.ringCfgWrite true w) s (c.raise Reg.HIF_EVENT 2)) ∧
    (∀ w, bit (c.ringReg c.selRing 1) 0 = false → Runs (.ringCfgWrite true w) s (c.setReg (Cell.hifRing c.selRing 0) (w64 (fld w 63 12 <<< 12)))) ∧
    (∀ w, let new := c.ringCfgAfter (c.ringReg c.selRing 1) w
      (bit new 0 = false → bit (c.ringReg c.selRing 1) 0 = false → Runs (.ringCfgWrite false w) s (c.setReg (Cell.hifRing c.selRing 1) new)) ∧
      (bit (c.ringReg c.selRing 1) 0 = true → fld (c.ringReg c.selRing 1) 5 1 ≠ fld new 5 1 → Runs (.ringCfgWrite false w) s (c.raise Reg.HIF_EVENT 2)) ∧
      (bit new 0 = true → bit (c.ringReg c.selRing 1) 0 = false → ∃ y, Runs (.ringCfgWrite false w) s y ∧ y.ring c.selRing = {})) ∧
    ((c.ring rx).inbox = [] → c.hostFrame ring = none → Runs (.rxDeliver ring) s c) ∧
    (∀ it rest, (c.ring rx).inbox = it :: rest →
      let u := c.updRing rx fun x => { x with inbox := rest }
      (c.ringEn rx = true → c.ringRuns rx = false → Runs (.rxDeliver ring) s c) ∧
      ((c.endpoint (c.ringEp rx)).bme = true → (c.ring rx).posted = [] → Runs (.rxDeliver ring) s
        ((((u.bump (Cell.hifRing rx 5)).bump (Cell.hifRing rx 6)).raise Reg.HIF_EVENT 4).rxGone it true)) ∧
      (∀ d ds, (c.endpoint (c.ringEp rx)).bme = true → (c.ring rx).posted = d :: ds → it.data ≠ [] → it.data.length ≤ fld d.w2 15 0 → it.held = none → it.frame = none →
        ∃ y, Runs (.rxDeliver ring) s y ∧ (y.ring rx).posted = ds ∧ (y.ring rx).inbox = rest ∧ (y.ring rx).head = ((c.ring rx).head + 1) % 65536 ∧
          y.out = .dma (c.ringEp rx) ((c.ringReg rx 0).toNat + 32 * ((c.ring rx).head % c.ringSize rx))
            (descBytes (rxDone it d it.data.length true true false false)) :: .dma (c.ringEp rx) d.w3.toNat it.data :: c.out)) ∧
    (∀ ch k x, (c.ring rx).inbox = [] → c.hostFrame ring = some (ch, k, x) → c.ringRuns rx = false → Runs (.rxDeliver ring) s
      ((((((c.updTm fun t => { t with egress := t.egress.upd ch (·.eraseIdx k) }).bump (Cell.hifRing rx 5)).bump (Cell.hifRing rx 6)).raise
        Reg.HIF_EVENT 4)).rxGone (forwardedItem x) true)) ∧
    (c.ringRuns tx = false ∨ nextRun (c.ring tx).posted = none → ∀ data, Runs (.txFetch ring data) s c) ∧
    (∀ l, c.ringRuns tx = true → nextRun (c.ring tx).posted = some l →
      let put := fun (st : Nat) => c.updRing tx fun x =>
        { x with posted := x.posted.drop l.length, open_ := x.open_ ++ [{ descs := l, timed := false, status := some st }] }
      (runOk l = false → ∀ data, Runs (.txFetch ring data) s ((put 4).raise Reg.HIF_EVENT 5)) ∧
      (runOk l = true → Runs (.txFetch ring none) s ((put 5).raise Reg.HIF_EVENT 3)) ∧
      (∀ bytes : List Byte, runOk l = true → c.freeCells < fld (c.act Reg.TM_BUF_CFG) 19 0 + 64 + cellsOf (runBytes l) →
        Runs (.txFetch ring (some bytes)) s c) ∧
      (∀ bytes : List Byte, runOk l = true → bytes.length = runBytes l → bit (l.headD {}).w0 19 = false →
        fld (c.act Reg.TM_BUF_CFG) 19 0 + 64 + cellsOf (runBytes l) ≤ c.freeCells → Runs (.txFetch ring (some bytes)) s
          (((put 0).takeCells (cellsOf (runBytes l))).enterPipe (2 * fld (c.ringReg tx 1) 43 42) (c.txFrame ring (l.headD {}) bytes)))) ∧
    ((c.ring tx).open_ = [] → Runs (.txWriteback ring) s c) ∧
    (∀ o rest, (c.ring tx).open_ = o :: rest →
      (o.status = none → Runs (.txWriteback ring) s c) ∧
      (∀ st d, o.status = some st → o.descs = [d] → st = 4 → (c.endpoint (c.ringEp tx)).bme = true → ∃ y, Runs (.txWriteback ring) s y ∧
        (y.ring tx).open_ = rest ∧ (y.ring tx).head = ((c.ring tx).head + 1) % 65536 ∧ y.regs = c.regs ∧
        y.out = .dma (c.ringEp tx) ((c.ringReg tx 0).toNat + 32 * ((c.ring tx).head % c.ringSize tx)) (descBytes (txDone 4 d)) :: c.out)) ∧
    (∀ b, let r := ringKey (ofBool b) ring
      let late := lasts (c.frc - (c.ring r).oldest) (fld (c.ringReg r 1) 41 26 * 1000)
      ((c.ring r).unsignalled = 0 ∨ late = false → Runs (.modTimeout b ring) s c) ∧
      ((c.ring r).unsignalled ≠ 0 → late = true → Runs (.modTimeout b ring) s (c.updRing r fun y => { y with due := true }))) ∧
    (c.hif.disarmed.get v = true ∨ c.vectorActive v = false → Runs (.vectorSend v) s c) ∧
    (c.hif.disarmed.get v = false → c.vectorActive v = true → c.hif.unmasked.get v = false →
      Runs (.vectorSend v) s (c.updHif fun h => { h with pending := h.pending.set v true })) ∧
    (c.hif.disarmed.get v = false → c.vectorActive v = true → c.hif.unmasked.get v = true → (c.endpoint (c.vectorEp v)).bme = true →
      ∃ y, Runs (.vectorSend v) s y ∧ y.hif.disarmed.get v = true ∧ y.hif.pending.get v = false ∧ y.regs = c.regs ∧
        y.out = .msix (c.vectorEp v) (if c.vectorEp v = 1 then v.val - 1024 else v.val) :: c.out) ∧
    (c.vectorActive v = false → ∃ y, Runs (.vecArm v) s y ∧ y.hif.disarmed.get v = false ∧ y.out = c.out ∧ y.regs = c.regs) ∧
    (c.hif.pending.get v = false → ∃ y, Runs (.msixUnmask v) s y ∧ y.hif.unmasked.get v = true ∧ y.out = c.out) ∧
    (∃ y, Runs (.bmeClear e) s y ∧ y.endpoint e = { c.endpoint e with bme := false } ∧ (c.patterns.loader.busy = false → y.regs = c.regs)) ∧
    (∃ y, Runs (.bmeSet e) s y ∧ y.endpoint e = { c.endpoint e with bme := true } ∧ y.regs = c.regs) ∧
    (e.val = 1 → c.split = false → ∀ speed width, Runs (.perstRelease e speed width) s c) ∧
    (e.val = 0 ∨ c.split = true → ∀ (speed : Fin 6) (width : Fin 17), ∃ y, Runs (.perstRelease e speed width) s y ∧
      y.endpoint e = { bme := (c.endpoint e).bme, up := c.flag Reg.GLB_STARTUP 3, detect := !c.flag Reg.GLB_STARTUP 3, speed := speed, width := width }) ∧
    (c.patterns.loader.busy = false → ∃ y, Runs (.flr e) s y ∧ y.flag Reg.HIF_EVENT 9 = true ∧ y.flag (Reg.HIF_MB_CMD e) 17 = false ∧
      (∀ r < 8192, c.ringEp r = e.val → y.ringEn r = false ∧ (c.ringEn r = true → y.ring r = {})) ∧
      (∀ k : Fin 2048, c.vectorEp k = e.val → y.hif.disarmed.get k = false) ∧ y.hif.eps = c.hif.eps ∧ y.hif.unmasked = c.hif.unmasked)

/-- The mailboxes (R650 to R654, R696): a command while another is under way sets CMD_ERR; else it is answered with its STATUS and SEQ, NOTIFY and MB_DONE; arguments out of range are refused; a
long operation starts with its TOKEN, unless one runs; a read of the answer clears NOTIFY.
The model's own choices in it: log entries 188, 189. -/
def Obligations.MailboxesAnswer : Prop :=
  ∀ (s : State) (e : Ep) (seq : Byte), s.chip.running = true →
    let c := s.chip
    let begun := fun (op : Nat) => c.setReg (Reg.HIF_MB_CMD e) (w64 (op + seq.toNat <<< 8))
    let answers := fun (i : Instr) (u : Chip) (status : Nat) (d0 d1 : W64) => Runs i s (u.mbAnswer e seq.toNat status d0 d1)
    (c.flag (Reg.HIF_MB_CMD e) 17 = true → Runs (.mbNop e seq) s (c.raise Reg.HIF_EVENT 8) ∧ Runs (.mbIdentify e seq) s (c.raise Reg.HIF_EVENT 8) ∧
      Runs (.mbSensors e seq) s (c.raise Reg.HIF_EVENT 8) ∧ Runs (.mbFlashCheck e seq) s (c.raise Reg.HIF_EVENT 8) ∧
      Runs (.mbCoreReset e seq) s (c.raise Reg.HIF_EVENT 8) ∧ Runs (.mbAbort e seq) s (c.raise Reg.HIF_EVENT 8)) ∧
    (c.flag (Reg.HIF_MB_CMD e) 17 = false → c.isl.inReset = false →
      (∃ y, Runs (.mbNop e seq) s y ∧ y.reg (Reg.HIF_MB_RSP e) = w64 (seq.toNat <<< 8) ∧ y.reg (Reg.HIF_MB_DATA0 e) = 0 ∧
        y.flag (Reg.HIF_MB_STATUS e) 27 = true ∧ y.flag Reg.HIF_EVENT 6 = true ∧ y.isl = c.isl) ∧
      answers (.mbIdentify e seq) (begun 2) 0 (begun 2).identify.1 (begun 2).identify.2 ∧
      answers (.mbSensors e seq) (begun 3) 0 (begun 3).sensors.1 (begun 3).sensors.2 ∧
      (c.mbArg e 1 = 0 ∨ 4096 < c.mbArg e 1 → ∀ ok, answers (.mbLogRead e seq ok) (begun 4) 3 0 0) ∧
      (1 ≤ c.mbArg e 1 → c.mbArg e 1 ≤ 256 → answers (.mbLogRead e seq false) (begun 4) 7 0 0) ∧
      (1 ≤ c.mbArg e 1 → c.mbArg e 1 ≤ 256 → (c.endpoint e).bme = true →
        let r := (begun 4).logSend e (c.mbArg e 0) (c.mbArg e 1) (c.mbArg e 2)
        answers (.mbLogRead e seq true) r.2 0 (w64 r.1) 0) ∧
      (1 < c.mbArg e 0 → (∀ data, answers (.mbFlashWrite e seq data) (begun 5) 3 0 0) ∧ answers (.mbFlashCheck e seq) (begun 6) 3 0 0) ∧
      (c.mbArg e 0 ≤ 1 → c.hif.long.isSome = true → answers (.mbFlashCheck e seq) (begun 6) 4 0 0) ∧
      (c.mbArg e 0 ≤ 1 → 1 ≤ c.mbArg e 2 → c.mbArg e 2 ≤ 0x200000 → c.hif.long.isSome = true → ∀ data, answers (.mbFlashWrite e seq data) (begun 5) 4 0 0) ∧
      (c.mbArg e 0 ≤ 1 → 1 ≤ c.mbArg e 2 → c.mbArg e 2 ≤ 0x200000 → c.hif.long = none → (begun 5).slotGuarded (c.mbArg e 0 = 1) = true →
        ∀ data, answers (.mbFlashWrite e seq data) (begun 5) 5 0 0) ∧
      (∀ data : Option (List Byte), c.mbArg e 0 ≤ 1 → 1 ≤ c.mbArg e 2 → c.mbArg e 2 ≤ 0x200000 → c.hif.long = none →
        (begun 5).slotGuarded (c.mbArg e 0 = 1) = false → ∃ y, Runs (.mbFlashWrite e seq data) s y ∧
          y.hif.long.map (fun x => (x.op, x.arg, x.arg1, x.arg2, x.bytes.length)) = some (5, c.mbArg e 0, c.mbArg e 1, c.mbArg e 2, c.mbArg e 2) ∧
          y.reg (Reg.HIF_MB_RSP e) = w64 (1 + seq.toNat <<< 8) ∧ y.reg (Reg.HIF_MB_DATA0 e) = w64 ((c.hif.token + 1) % 4294967296)) ∧
      (∀ ok, 256 < c.mbArg e 1 → c.mbArg e 1 ≤ 4096 → c.hif.long = none → ∃ y, Runs (.mbLogRead e seq ok) s y ∧
        y.hif.long.map (fun x => (x.op, x.arg, x.arg1, x.arg2)) = some (4, c.mbArg e 0, c.mbArg e 1, c.mbArg e 2) ∧
        y.reg (Reg.HIF_MB_RSP e) = w64 (1 + seq.toNat <<< 8)) ∧
      (c.mbArg e 0 ≤ 1 → c.hif.long = none → ∃ y, Runs (.mbFlashCheck e seq) s y ∧
        y.hif.long = some { by_ := .mailbox e, op := 6, arg := c.mbArg e 0, token := (c.hif.token + 1) % 4294967296 } ∧
        y.reg (Reg.HIF_MB_RSP e) = w64 (1 + seq.toNat <<< 8) ∧ y.reg (Reg.HIF_MB_DATA0 e) = w64 ((c.hif.token + 1) % 4294967296)) ∧
      (let r := (begun 7).askReset (c.reg (Reg.HIF_MB_ARGi e 0)); answers (.mbCoreReset e seq) r.2 r.1 0 0) ∧
      (let r := (begun 8).longAbort (.mailbox e); answers (.mbAbort e seq) r.2 r.1 0 0)) ∧
    (∃ y, Runs (.mbRspRead e .full) s y ∧ y.readData = c.reg (Reg.HIF_MB_RSP e) ∧ y.flag (Reg.HIF_MB_STATUS e) 27 = false ∧
      ∀ a, a ≠ Reg.HIF_MB_STATUS e → y.reg a = c.reg a) ∧
    (∃ y, Runs (.mbRspRead e .low) s y ∧ y.readData = w64 (c.get (Reg.HIF_MB_RSP e) 31 0) ∧ y.flag (Reg.HIF_MB_STATUS e) 27 = false)
/-- The uplinks (R655 to R669, R674 to R680): a frame is received only while its subport is enabled and locked, and is counted as too short, damaged, cut or whole; a frame that TM has handed
over leaves when it may; PFC frames pause classes and are sent as the free cells fall and rise; gate lists step and change at their times; verification, the timestamp FIFO and the
link's changes act as their rules say; staged values apply together.
The model's own choices in it: log entries 190, 192, 193, 194, 196, 198, 258, 259. -/
def Obligations.UplinksSendAndReceive : Prop :=
  ∀ (s : State) (k : Fin 32) (p : Fin 8), s.chip.running = true →
    let c := s.chip
    let x := c.sub k
    let port := k.val / 4
    let lane := k.val % 4
    let up := c.subOn k && x.link
    let free := c.freeCells
    let pfc := c.act (Reg.ETH_PFC_CFG p)
    (c.goPending (Reg.ETH_COMMIT p) = false ∨ c.goAt.get (Reg.ETH_COMMIT p) = none → Runs (.ethApply p) s c) ∧
    (c.goPending (Reg.ETH_COMMIT p) = true → c.goAt.get (Reg.ETH_COMMIT p) ≠ none → ∃ y, Runs (.ethApply p) s y ∧
      y.act (Reg.ETH_PORT_CFG p) = c.reg (Reg.ETH_PORT_CFG p) ∧ (∀ i < 4, y.act (Reg.ETH_SUB_CFG p i) = c.reg (Reg.ETH_SUB_CFG p i)) ∧
      y.goAt.get (Reg.ETH_COMMIT p) = none) ∧
    ((c.subOn k && x.lock) = false → (∀ r, Runs (.ethRxFrame k r) s c) ∧ ∀ classes quanta, Runs (.pfcReceive k classes quanta) s c) ∧
    ((c.subOn k && x.lock) = true → ∀ r : EthLight,
      let len := r.bytes.length + 4
      let seen := c.pmBlocks (65 + k) 1 (ofBool (!fcsRight r))
      (r.smd = smdExpress → len < 64 → Runs (.ethRxFrame k r) s (seen.bump (Reg.ETH_RX_UNDERSIZE port lane))) ∧
      (r.smd = smdExpress → 64 ≤ len → beAt r.bytes 12 2 ≠ 0x8808 →
        let cut := fun (u : Chip) => if c.rxMaxLen k r.tick < len then u.bump (Reg.ETH_RX_TRUNCATED port lane) else u
        (fcsRight r = true → Runs (.ethRxFrame k r) s ((cut (seen.rxCount k len (castType r.bytes))).ethEnter k len r)) ∧
        (fcsRight r = false → Runs (.ethRxFrame k r) s ((cut (seen.bump (Reg.ETH_RX_FCS_ERR port lane))).ethEnter k len r))) ∧
      (r.smd = smdExpress → 64 ≤ len → len ≤ c.rxMaxLen k r.tick → beAt r.bytes 12 2 = 0x8808 → fcsRight r = true → beAt r.bytes 14 2 = 1 →
        Runs (.ethRxFrame k r) s ((seen.rxCount k len (castType r.bytes)).bump (Reg.ETH_RX_PAUSE_IGNORED port lane))) ∧
      (r.smd = smdVerify → Runs (.ethRxFrame k r) s (c.mergeSend k smdRespond)) ∧
      (r.smd = smdRespond → x.verify = 2 → Runs (.ethRxFrame k r) s (c.updSub k fun y => { y with verify := 3 })) ∧
      (r.smd ≠ smdExpress → r.smd ≠ smdVerify → r.smd ≠ smdRespond → (∀ n, r.smd ≠ smdStart n ∧ r.smd ≠ smdNext n) →
        Runs (.ethRxFrame k r) s (c.bump (Reg.ETH_RX_SMD_ERR port lane))) ∧
      (∀ n < 4, r.smd = smdStart n → x.assembly = none → mCrc r.bytes = bytesBE 4 r.check.toNat → Runs (.ethRxFrame k r) s
        (c.updSub k fun y => { y with assembly := some { number := n, next := 0, bytes := r.bytes, tick := r.tick } })) ∧
      (∀ n < 4, r.smd = smdNext n → x.assembly = none → ∃ y, Runs (.ethRxFrame k r) s y ∧ (y.sub k).assembly = none ∧
        y.regs = (c.bump (Reg.ETH_RX_REASM_ERR port lane)).regs) ∧
      (∀ n < 4, ∀ b, r.smd = smdNext n → x.assembly = some b → b.number = n → r.count = fragCount b.next →
        (mCrc (b.bytes ++ r.bytes) = bytesBE 4 r.check.toNat → Runs (.ethRxFrame k r) s
          (c.updSub k fun y => { y with assembly := some { b with next := b.next + 1, bytes := b.bytes ++ r.bytes } })) ∧
        (mCrc (b.bytes ++ r.bytes) ≠ bytesBE 4 r.check.toNat → Runs (.ethRxFrame k r) s
          (((c.updSub k fun y => { y with assembly := none }).bump (Reg.ETH_RX_REASM_OK port lane)).ethArrive k
            { r with bytes := b.bytes ++ r.bytes, tick := b.tick })))) ∧
    (up = false → Runs (.ethTxFrame k) s c) ∧
    (∀ f rest, up = true → c.tm.egress.get (64 + k) = f :: rest →
      let u := c.updTm fun t => { t with egress := t.egress.set (64 + k) rest }
      (c.maxLen k < f.f.bytes.length + 4 →
        Runs (.ethTxFrame k) s ((u.bump (Reg.ETH_TX_OVERSIZE_DROP port lane)).tmDiscard f.f true)) ∧
      (f.f.bytes.length + 4 ≤ c.maxLen k → c.ethAllows k f.cls f.f.length = false → Runs (.ethTxFrame k) s c) ∧
      (f.f.bytes.length + 4 ≤ c.maxLen k → c.ethAllows k f.cls f.f.length = true → c.cuttable k f.cls = false → Runs (.ethTxFrame k) s
        (((u.tsAppend k f).emit (.ethPacket k smdExpress none (wireBytes f.f.bytes f.stomp))).ethSent k f)) ∧
      (f.f.bytes.length + 4 ≤ c.maxLen k → c.ethAllows k f.cls f.f.length = true → c.cuttable k f.cls = true →
        let v := (u.tsAppend k f).updSub k fun y => { y with number := (y.number + 1) % 4 }
        ∃ y, Runs (.ethTxFrame k) s y ∧ (y.sub k).number = (x.number + 1) % 4 ∧
          match v.cutAt k f.cls (wireBytes f.f.bytes f.stomp).length with
          | some d => (y.sub k).preempted = some { frame := f, number := x.number, sent := d, parts := 1 }
          | none => (y.sub k).preempted = x.preempted)) ∧
    (∀ r, up = true → c.tm.egress.get (64 + k) = [] → x.preempted = some r → c.gateOpen k r.frame.cls = true → c.expressReady k = false →
      let wire := wireBytes r.frame.f.bytes r.frame.stomp
      fitsRoom (c.roomBefore k r.frame.cls) (wire.length - r.sent) = true → Runs (.ethTxFrame k) s
        (((c.fragmentSend k r wire none).updSub k fun y => { y with preempted := none }).ethSent k r.frame)) ∧
    (∀ (classes : BitVec 8) quanta, (c.subOn k && x.lock) = true → bit (c.subCfg k) 42 = false → Runs (.pfcReceive k classes quanta) s
      (((c.pmBlocks (65 + k) 1 0).rxCount k 64 1).bump (Reg.ETH_RX_PFC port lane))) ∧
    (∀ (classes : BitVec 8) quanta, (c.subOn k && x.lock) = true → bit (c.subCfg k) 42 = true → ∃ y, Runs (.pfcReceive k classes quanta) s y ∧
      ∀ i : Fin 8, (y.sub k).paused.get i =
        if classes.getLsbD i = true then some (c.frc + c.quantaTicks k (quanta.getD i 0).toNat) else x.paused.get i) ∧
    (∀ cls : Fin 8, (x.paused.get cls = none ∨ c.pausedClass k cls = true → Runs (.pauseExpire k cls) s c) ∧
      (x.paused.get cls ≠ none → c.pausedClass k cls = false → ∃ y, Runs (.pauseExpire k cls) s y ∧ (y.sub k).paused.get cls = none ∧ y.regs = c.regs)) ∧
    (fld pfc 27 8 ≤ free → Runs (.pfcXoff p) s c) ∧ (fld pfc 47 28 ≤ free → Runs (.pfcRefresh p) s c) ∧ (free < fld pfc 47 28 → Runs (.pfcXon p) s c) ∧
    (∀ i, c.pfcSubs p = [i] →
      (free < fld pfc 27 8 → (c.sub i).xoff = none → Runs (.pfcXoff p) s (c.pfcSend i (fld pfc 63 48) true)) ∧
      (∀ t, free < fld pfc 47 28 → (c.sub i).xoff = some t → c.quantaTicks i (fld pfc 63 48) ≤ 2 * (c.frc - t) →
        Runs (.pfcRefresh p) s (c.pfcSend i (fld pfc 63 48) true)) ∧
      (∀ t, fld pfc 47 28 ≤ free → (c.sub i).xoff = some t → Runs (.pfcXon p) s (c.pfcSend i 0 false))) ∧
    (c.gated k = false → Runs (.gclStep k) s c) ∧
    (c.gated k = true → Runs (.gclStep k) s (c.updSub k fun y => { y with entry := y.gates.entryNow c.nowNs })) ∧
    (x.change = none → Runs (.gclApplied k) s c) ∧
    (∀ t, x.change = some t → c.nowNs < t → Runs (.gclApplied k) s c) ∧
    (∀ t, x.change = some t → (t : Int) ≤ c.nowNs → ∃ y, Runs (.gclApplied k) s y ∧ y.flag (Reg.ETH_EVENT port) 5 = true ∧
      y.sub k = { x with gates := c.stagedGates k, entry := (c.stagedGates k).entryNow c.nowNs, change := none, lastChange := t } ∧
      ∀ j, j ≠ k.val → y.sub j = c.sub j) ∧
    (x.verify ≠ 2 → ∀ ok, Runs (.mmVerify k ok) s c) ∧
    (x.verify = 2 → Runs (.mmVerify k true) s (c.updSub k fun y => { y with verify := 3 }) ∧
      (let late := lasts (c.frc - x.triedAt) ((fld (c.subCfg k) 40 34 + 1) * 1000000)
       (late = false → Runs (.mmVerify k false) s c) ∧
       (late = true → x.tries < 3 → Runs (.mmVerify k false) s (c.verifyTry k)) ∧
       (late = true → 3 ≤ x.tries →
        Runs (.mmVerify k false) s ((c.updSub k fun y => { y with verify := 4 }).raise (Reg.ETH_EVENT port) 2)))) ∧
    (Runs (.tsFifoRead k .low) s { c with readData := 0 }) ∧
    (x.stamps = [] → ∃ y, Runs (.tsFifoRead k .full) s y ∧ y.readData = 0 ∧ y.reg (Reg.ETH_TS_FIFO1 port lane) = 0) ∧
    (∀ a b rest, x.stamps = (a, b) :: rest → ∃ y, Runs (.tsFifoRead k .full) s y ∧ y.readData = a ∧ y.reg (Reg.ETH_TS_FIFO1 port lane) = b ∧
      y.sub k = { x with stamps := rest }) ∧
    (c.subOn k = false → ∀ lock link lf rf, Runs (.linkChange k lock link lf rf) s c) ∧
    (c.subOn k = true → ∀ lock link lf rf, ∃ y, Runs (.linkChange k lock link lf rf) s y ∧ (y.sub k).lock = lock ∧ (y.sub k).link = link ∧
      (y.sub k).localFault = lf ∧ (y.sub k).remoteFault = rf ∧ (x.link ≠ link → y.flag (Reg.ETH_EVENT port) 0 = true) ∧
      ∀ j, j ≠ k.val → y.sub j = c.sub j)
/-! ### Supplies, resets and clocks -/

/-- The rails come up one after the other (R701): a good rail enables the next one, and after the last the island's hold ends 10 ms later. Where the board
sequences the rails the island shows their state only.
A power fault takes every rail off (R702): a rail that is not good 10 ms after it was enabled, or an enabled rail whose power-good falls. The last rail goes
at once and one more after each millisecond, in reverse order (the model's choice: see log entry 206). POWER_FAULT and the reset cause set, every block of the
core is lost, and the island's straps, clock, flash and log numbers stay.
The model's own choices in it: log entry 206. -/
def Obligations.RailsComeUpInOrderAndFailTogether : Prop :=
  (∀ (s : State) (r : Fin 6),
     let i := s.chip.isl
     let good := i.good ||| 2 ^ r.val
     (i.seq = true → i.core = 1 → i.step = r.val → r.val < 5 →
       Runs (.railPowerGood r) s
         { s.chip with isl := { i with good := good, rails := i.rails ||| 2 ^ (r.val + 1), step := r.val + 1, stepAt := i.clock } }) ∧
     (i.seq = true → i.core = 1 → i.step = 5 → r.val = 5 →
       Runs (.railPowerGood r) s
         { s.chip with isl := { i with good := good, core := 2, holdEnd := some (i.clock + islTicks 10000000) } }) ∧
     (i.seq = false →
       Runs (.railPowerGood r) s
         { s.chip with isl := { i with good := good, therm := if good = 63 then false else i.therm } })) ∧
  (∀ (s : State), s.chip.isl.seq = true →
     let off := fun (x : Chip) =>
       x.isl.rails = s.chip.isl.rails ∧ x.isl.offAt = some (s.chip.isl.offAt.getD s.chip.isl.clock) ∧
       (s.chip.isl.offAt = none → ∀ k, ({ x.isl with clock := x.isl.clock + k * islTicks 1000000 } : Island).enabled = x.isl.rails / 2 ^ (1 + k)) ∧
       x.isl.core = 0 ∧ x.isl.hold = false ∧ x.isl.resetDue = none ∧
       x.flag Reg.SBY_EVENT 5 = true ∧ x.flag Reg.GLB_RESET_CAUSE 2 = true ∧ CoreAsAtReset x ∧
       x.isl.node = s.chip.isl.node ∧ x.isl.seq = true ∧ x.isl.clock = s.chip.isl.clock ∧ x.isl.flash = s.chip.isl.flash ∧
       x.isl.logSeq = s.chip.isl.logSeq ∧ x.isl.dimms = s.chip.isl.dimms ∧ x.out = s.chip.out
     (s.chip.isl.core = 1 → bitOf s.chip.isl.good s.chip.isl.step = false → s.chip.isl.stepAt + islTicks 10000000 ≤ s.chip.isl.clock →
       ∃ x, Runs .railTimeout s x ∧ off x ∧ x.isl.good = s.chip.isl.good) ∧
     (∀ r : Fin 6, bitOf s.chip.isl.enabled r.val = true → ∃ x, Runs (.pgFall r) s x ∧ off x ∧
       x.isl.good = s.chip.isl.good &&& (63 - 2 ^ r.val)))

/-- What puts a running core in reset (R717, R725, R703): PORST_N low, the synthesizer's loss of lock, the hold that a CORE_RESET asked for, and a rail that
falls on a board that sequences the rails. Each leaves its cause as the only one in GLB_RESET_CAUSE, and the core's blocks at reset.
The model's own choices in it: log entry 207. -/
def Obligations.ResetsClearTheCore : Prop :=
  ∀ (s : State), s.chip.isl.core = 3 →
    let down := fun (x : Chip) (cause : Nat) =>
      x.isl.core = 2 ∧ x.get Reg.GLB_RESET_CAUSE 4 0 = 2 ^ cause ∧ CoreAsAtReset x ∧
      x.isl.node = s.chip.isl.node ∧ x.isl.seq = s.chip.isl.seq ∧ x.isl.clock = s.chip.isl.clock ∧ x.isl.flash = s.chip.isl.flash ∧
      x.isl.rails = s.chip.isl.rails ∧ x.isl.dimms = s.chip.isl.dimms ∧ x.out = s.chip.out
    (∃ x, Runs .porstAssert s x ∧ down x 0 ∧ x.isl.pin = true) ∧
    (∀ due, s.chip.isl.resetDue = some due → due ≤ s.chip.isl.clock →
      ∃ x, Runs .coreResetHold s x ∧ down x 1 ∧ x.isl.hold = true ∧ x.isl.resetDue = none ∧
        x.isl.holdEnd = some (s.chip.isl.clock + islTicks 1000000)) ∧
    (s.chip.flag Reg.CLK_STATUS 0 = true → s.chip.flag Reg.CLK_STATUS 3 = false →
      ∃ x, Runs .lockLoss s x ∧ x.isl.core = 2 ∧ x.get Reg.GLB_RESET_CAUSE 4 0 = 16 ∧ x.flag Reg.CLK_EVENT 0 = true ∧ x.isl.hold = true ∧
        x.isl.holdEnd = some (s.chip.isl.clock + islTicks 1000000) ∧ x.cru = {} ∧ x.tm = {}) ∧
    (∀ r : Fin 6, s.chip.isl.seq = false →
      ∃ x, Runs (.pgFall r) s x ∧ down x 2 ∧ x.isl.good = s.chip.isl.good &&& (63 - 2 ^ r.val))

/-- The core leaves reset once nothing holds it (R717): PORST_N high, the island's hold over and every rail good. Start-up then begins with the straps read;
while anything still holds it, the core stays in reset. A loss of VSTBY takes all but the island's flash, and its return starts the supplies again (R681).
The model's own choices in it: log entries 12, 207. -/
def Obligations.ReleaseNeedsEveryHoldGone : Prop :=
  ∀ (s : State) (split mirror : Bool),
    (s.chip.isl.core = 2 → s.chip.isl.hold = false → s.chip.isl.holdEnd = none → s.chip.isl.good = 63 →
      Runs (.porstRelease true split mirror) s
        (({ s.chip with isl := { s.chip.isl with pin := false, core := 3, releasedAt := s.chip.isl.clock } } : Chip).setReg Reg.GLB_STRAPS
          (w64 (ofBool split + 2 * ofBool mirror + (s.chip.isl.node % 32) <<< 2 + ofBool s.chip.isl.seq <<< 7)))) ∧
    (s.chip.isl.core = 2 → s.chip.isl.hold = true → s.chip.isl.holdEnd = none →
      Runs (.porstRelease true split mirror) s { s.chip with isl := { s.chip.isl with pin := false } }) ∧
    (∀ node seq, ∃ x, Runs (.islandReset true node seq) s x ∧ x.isl.inReset = true ∧ x.isl.flash = s.chip.isl.flash ∧
      x.isl.core = (if s.chip.isl.seq then 0 else 2) ∧ x.regs = [] ∧ x.hif = {} ∧ x.cru = {} ∧ x.isl.queue = [] ∧ x.isl.answers = []) ∧
    (∀ node, s.chip.isl.inReset = true → ∃ x, Runs (.islandReset false node true) s x ∧ x.isl.inReset = false ∧ x.isl.node = node.val ∧
      x.isl.core = 1 ∧ x.isl.rails = 1 ∧ x.isl.hold = true ∧ x.regs = s.chip.regs ∧ x.isl.flash = s.chip.isl.flash)

/-- The root synthesizer (R725 to R727): its lock sets LOCK and REF_OK and moves start-up on; REFCLK lost puts it in HOLD, REFCLK back ends HOLD, each with its
event; CLK_APPLY applies the staged settings and clears PENDING, and a change of EN begins to ramp the spread.
The model's own choices in it: log entries 208, 209. -/
def Obligations.ClockSupervision : Prop :=
  ∀ (s : State), s.chip.running = true →
    (s.chip.flag Reg.CLK_STATUS 0 = false → ∃ x, Runs .rootLock s x ∧
      x.flag Reg.CLK_STATUS 0 = true ∧ x.flag Reg.CLK_STATUS 1 = true ∧
      (x.act Reg.MEM_CFG).getLsbD 0 = s.chip.flag Reg.GLB_STRAPS 1 ∧
      (s.chip.starting = true → s.chip.get Reg.GLB_STARTUP 2 0 = 0 → x.get Reg.GLB_STARTUP 2 0 = 1)) ∧
    (s.chip.flag Reg.CLK_STATUS 1 = true →
      Runs .refclkLoss s (((s.chip.setFlag Reg.CLK_STATUS 1 false).setFlag Reg.CLK_STATUS 3 true).raise Reg.CLK_EVENT 1)) ∧
    (s.chip.flag Reg.CLK_STATUS 3 = true →
      Runs .refclkBack s (((s.chip.setFlag Reg.CLK_STATUS 1 true).setFlag Reg.CLK_STATUS 3 false).raise Reg.CLK_EVENT 2)) ∧
    (s.chip.goPending Reg.CLK_COMMIT = true → ∃ x, Runs .clkApply s x ∧ x.goPending Reg.CLK_COMMIT = false ∧
      x.act Reg.CLK_SPREAD = s.chip.reg Reg.CLK_SPREAD ∧
      x.rampFrom = (if bit (s.chip.reg Reg.CLK_SPREAD) 0 = bit (s.chip.act Reg.CLK_SPREAD) 0 then s.chip.rampFrom else some s.chip.frc))

/-- Start-up ends once (R736, R738): with READY when no more than the spare crucible has to stand in, else with FAIL and its cause; the time it took is in
GLB_STARTUP[63:32].
The model's own choices in it: log entry 215. -/
def Obligations.StartupEnds : Prop :=
  ∀ (s : State), s.chip.running = true → s.chip.starting = true →
    (∀ code : Fin 4, ∃ x, Runs (.startupFail code) s x ∧ x.flag Reg.GLB_STARTUP 4 = true ∧ x.flag Reg.GLB_STARTUP 3 = false ∧
      x.get Reg.GLB_STARTUP 15 8 = code.val + 1 ∧ x.get Reg.GLB_STARTUP 63 32 = s.chip.startupMs % 4294967296 ∧
      x.flag Reg.GLB_OWN_EVENT 2 = true ∧ x.starting = false) ∧
    (s.chip.get Reg.GLB_STARTUP 2 0 = 3 → ∃ x, Runs (.startupDone [] [] []) s x ∧ x.flag Reg.GLB_STARTUP 3 = true ∧
      x.get Reg.GLB_STARTUP 2 0 = 4 ∧ x.get Reg.GLB_STARTUP 63 32 = s.chip.startupMs % 4294967296 ∧ x.flag Reg.GLB_OWN_EVENT 1 = true ∧
      x.starting = false)

/-- Temperature and ageing (R704, R718, R723): THERM_WARN shows the readings and raises the event above WARN_C; above 125 °C THERMTRIP takes the rails off, or
leaves that to the board; VID moves by one code toward the lowest code with margin; the supply of an OFFLINE channel's slot goes.
The model's own choices in it: log entries 206, 214. -/
def Obligations.ThermalAndAgeing : Prop :=
  ∀ (s : State) (core lineA lineB : BitVec 16),
    let shown := core.toNat + lineA.toNat <<< 16 + lineB.toNat <<< 32
    (s.chip.running = true → ∃ x, Runs (.thermWarn core lineA lineB) s x ∧ x.get Reg.GLB_THERMAL 47 0 = shown ∧
      x.get Reg.GLB_THERMAL 63 48 = s.chip.get Reg.GLB_THERMAL 63 48 ∧
      x.flag Reg.GLB_OWN_EVENT 0 = (s.chip.flag Reg.GLB_OWN_EVENT 0 || anyAbove (s.chip.get Reg.GLB_THERMAL 55 48) core lineA lineB)) ∧
    (anyAbove 125 core lineA lineB = true → s.chip.isl.seq = true →
      ∃ x, Runs (.thermtrip core lineA lineB) s x ∧ x.isl.therm = true ∧ x.isl.offAt = some (s.chip.isl.offAt.getD s.chip.isl.clock) ∧ x.isl.core = 0 ∧
        x.flag Reg.GLB_RESET_CAUSE 3 = true ∧ CoreAsAtReset x) ∧
    (anyAbove 125 core lineA lineB = true → s.chip.isl.seq = false →
      ∃ x, Runs (.thermtrip core lineA lineB) s x ∧ x.isl = { s.chip.isl with therm := true } ∧ x.flag Reg.GLB_RESET_CAUSE 3 = true) ∧
    (∀ (lowest : Fin 32) (age : BitVec 16), s.chip.running = true → s.chip.starting = false →
      s.chip.isl.avsAt + islTicks 1000000 ≤ s.chip.isl.clock → s.chip.get Reg.GLB_AVS 4 0 < lowest.val → lowest.val ≤ 20 → 4 ≤ lowest.val →
      ∃ x, Runs (.avsStep lowest age) s x ∧ x.get Reg.GLB_AVS 4 0 = s.chip.get Reg.GLB_AVS 4 0 + 1 ∧ x.flag Reg.GLB_AVS 5 = false ∧
        x.get Reg.GLB_AVS 31 16 = age.toNat ∧ x.isl = { s.chip.isl with avsAt := s.chip.isl.clock }) ∧
    (∀ c : Fin 8, (s.chip.chan c.val).state = 1 →
      Runs (.dimmSupplyOff c) s { s.chip with isl := { s.chip.isl with dimms := s.chip.isl.dimms &&& (255 - 2 ^ c.val) } })

/-! ### The side band -/

/-- A new request of a node that the island can answer at once (R692, R693): its frame is counted, and the answer, with the request's SEQ and OP, waits for the
bus and is kept. NOP, IDENTIFY, SENSORS, LOG_READ, PROGRESS; REG_READ and REG_WRITE while the core runs.
The model's own choices in it: log entries 23, 205. -/
def Obligations.SideBandReads : Prop :=
  ∀ (s : State) (n : Fin 32) (q : BitVec 16), takesRequest s n q →
    let u := received s.chip
    Runs (.sbNop n q) s (answered u n q 1 0 []) ∧
    Runs (.sbIdentify n q) s (answered u n q 2 0 (wordBytes u.identify.1 ++ wordBytes u.identify.2)) ∧
    Runs (.sbSensors n q) s (answered u n q 3 0 (wordBytes u.sensors.1 ++ wordBytes u.sensors.2)) ∧
    (∀ e : BitVec 32, Runs (.sbLogRead n q e) s (match u.logRead e.toNat with
      | some l => answered u n q 4 0 l
      | none => answered u n q 4 3 [])) ∧
    (∀ x, s.chip.hif.long = some x → x.by_ = .node n.val →
      Runs (.sbProgress n q) s (answered u n q 0x10 0 ([1] ++ bytesBE 2 x.progress ++ [0] ++ bytesBE 4 x.token))) ∧
    (s.chip.hif.long = none →
      Runs (.sbProgress n q) s (answered u n q 0x10 0
        ([0] ++ bytesBE 2 0 ++ [BitVec.ofNat 8 (s.chip.hif.results.get n.val)] ++ bytesBE 4 (s.chip.hif.results.get n.val / 256)))) ∧
    (∀ a : BitVec 26, s.chip.isl.core = 3 →
      Runs (.sbRegRead n q a false) s (answered (u.registerRead a.toNat).2 n q 0x11 0 (wordBytes (u.registerRead a.toNat).1)) ∧
      Runs (.sbRegRead n q a true) s (answered u n q 0x11 6 [])) ∧
    (∀ (a : BitVec 26) (v : W64), s.chip.isl.core = 3 →
      Runs (.sbRegWrite n q a v false) s (answered (registerWrite .sideBand a.toNat .eight v u) n q 0x12 0 []) ∧
      Runs (.sbRegWrite n q a v true) s (answered u n q 0x12 6 [])) ∧
    (∀ (a : BitVec 26) (v : W64) (slow : Bool), s.chip.isl.core ≠ 3 →
      Runs (.sbRegRead n q a slow) s (answered u n q 0x11 5 []) ∧ Runs (.sbRegWrite n q a v slow) s (answered u n q 0x12 5 []))

/-- A new request that changes something (R693, R695 to R697, R701 to R706): the resets and supplies it asks for, the long operations it starts with their TOKEN,
and the flash writes.
The model's own choices in it: log entries 203, 204, 206. -/
def Obligations.SideBandActions : Prop :=
  ∀ (s : State) (n : Fin 32) (q : BitVec 16), takesRequest s n q →
    let u := received s.chip
    (s.chip.flashWriting = false →
      Runs (.sbCoreReset n q 0x3250) s
        (answered { u with isl := { u.isl with resetDue := some (u.isl.clock + islTicks 10000000) } } n q 7 0 [])) ∧
    (s.chip.flashWriting = true → Runs (.sbCoreReset n q 0x3250) s (answered u n q 7 5 [])) ∧
    (∀ key, key ≠ 0x3250 → Runs (.sbCoreReset n q key) s (answered u n q 7 3 [])) ∧
    (∀ x, s.chip.hif.long = some x → x.by_ = .node n.val → x.op = 6 →
      Runs (.sbAbort n q) s (answered (u.longEnd x 6) n q 8 0 [])) ∧
    (s.chip.hif.long = none → Runs (.sbAbort n q) s (answered u n q 8 5 [])) ∧
    (s.chip.isl.seq = true → s.chip.isl.core ≠ 0 → Runs (.sbCoreOff n q) s (answered (u.railsOff 1) n q 0x14 0 [])) ∧
    (s.chip.isl.seq = true → s.chip.isl.core = 0 → s.chip.hif.long = none →
      Runs (.sbCoreOn n q) s
        (answered (longStarted (if s.chip.isl.enabled = 0 then u.railsOn else u) n 0x14 1) n q 0x14 1
          (wordBytes (w64 ((s.chip.hif.token + 1) % 4294967296))))) ∧
    (s.chip.isl.seq = false → Runs (.sbCoreOff n q) s (answered u n q 0x14 5 []) ∧ Runs (.sbCoreOn n q) s (answered u n q 0x14 5 [])) ∧
    (∀ c : Byte, c.toNat < 8 → s.chip.slotIdle c.toNat = true →
      Runs (.sbDimmOff n q c) s
        (answered { u with isl := { u.isl with dimms := u.isl.dimms &&& (255 - 2 ^ c.toNat) } } n q 0x14 0 []) ∧
      Runs (.sbDimmOn n q c) s (answered { u with isl := { u.isl with dimms := u.isl.dimms ||| 2 ^ c.toNat } } n q 0x14 0 [])) ∧
    (∀ slot : Byte, slot.toNat < 2 → s.chip.hif.long = none →
      Runs (.sbFlashCheck n q slot) s
        (answered (longStarted u n 6 slot.toNat) n q 6 1 (wordBytes (w64 ((s.chip.hif.token + 1) % 4294967296)))) ∧
      (s.chip.isl.core = 3 → s.chip.patterns.loader.busy = false →
        Runs (.sbPatternLoad n q slot) s
          (answered (longStarted (u.loadStart true 0 (slot.toNat + 1)) n 0x13 slot.toNat) n q 0x13 1
            (wordBytes (w64 ((s.chip.hif.token + 1) % 4294967296))))))

/-- A flash write over the side band (R706): FLASH_BEGIN erases the slot unless it is the last one that passes, FLASH_DATA writes 32 bytes at its offset,
FLASH_END starts the check; without a slot being written the last two are denied.
The model's own choices in it: log entries 203, 204. -/
def Obligations.SideBandFlashWrite : Prop :=
  ∀ (s : State) (n : Fin 32) (q : BitVec 16), takesRequest s n q →
    let u := received s.chip
    let token := (s.chip.hif.token + 1) % 4294967296
    (∀ (slot : Byte) (length : BitVec 32), slot.toNat < 2 → length.toNat ≠ 0 → length.toNat ≤ 0x200000 → s.chip.hif.long = none →
      let b := decide (slot.toNat = 1)
      (s.chip.slotGuarded b = false → Runs (.flashBegin n q slot length) s
        (let v := u.flashErase (slotBase b) 0x200000
         answered (longStarted { v with isl := { v.isl with writeSlot := some (slot.toNat, length.toNat) } } n 0x15 slot.toNat) n q 0x15 1
           (wordBytes (w64 token)))) ∧
      (s.chip.slotGuarded b = true → Runs (.flashBegin n q slot length) s (answered u n q 0x15 5 []))) ∧
    (∀ slot len (offset : BitVec 32) (data : List Byte), s.chip.isl.writeSlot = some (slot, len) → data.length = 32 →
      offset.toNat % 32 = 0 → offset.toNat < len →
      Runs (.flashData n q offset data) s (answered (u.flashWrite (slotBase (slot = 1) + offset.toNat) data) n q 0x16 0 [])) ∧
    (∀ slot len, s.chip.isl.writeSlot = some (slot, len) → s.chip.hif.long = none →
      Runs (.flashEnd n q) s (answered (longStarted u n 0x17 slot) n q 0x17 1
        (wordBytes (w64 (u.flashCheck (decide (slot = 1))).2)))) ∧
    (s.chip.isl.writeSlot = none → Runs (.flashEnd n q) s (answered u n q 0x17 5 []) ∧
      ∀ offset data, Runs (.flashData n q offset data) s (answered u n q 0x16 5 []))

/-- The island keeps each node's last SEQ and answer for 1 s (R694): a request it takes leaves its answer kept, and on the bus's queue; a request of the same node with the same SEQ within
that second is answered with it again, and does nothing else, whatever the request. -/
def Obligations.RepeatedRequestsOnlyRepeatTheAnswer : Prop :=
  ∀ (s : State) (n : Fin 32) (q : BitVec 16), s.chip.isl.inReset = false →
    ∀ i : Instr, i ∈ ([.sbNop n q, .sbIdentify n q, .sbSensors n q, .sbAbort n q, .sbProgress n q, .sbCoreOff n q, .sbCoreOn n q, .flashEnd n q] :
        List Instr) ∨
        (∃ e, i = .sbLogRead n q e) ∨ (∃ b, i = .sbFlashCheck n q b) ∨ (∃ k, i = .sbCoreReset n q k) ∨ (∃ a w, i = .sbRegRead n q a w) ∨
        (∃ a v w, i = .sbRegWrite n q a v w) ∨ (∃ b, i = .sbPatternLoad n q b) ∨ (∃ c, i = .sbDimmOff n q c) ∨ (∃ c, i = .sbDimmOn n q c) ∨
        (∃ b l, i = .flashBegin n q b l) ∨ (∃ o d, i = .flashData n q o d) →
      (keptAnswer s.chip n.val q.toNat = none → ∃ y frame before, Runs i s y ∧ keptAnswer y n.val q.toNat = some frame ∧
        y.isl.queue = before ++ [{ dest := n.val, bytes := frame }]) ∧
      (∀ frame, keptAnswer s.chip n.val q.toNat = some frame →
        Runs i s (let u := received s.chip
                  { u with isl := { u.isl with queue := u.isl.queue ++ [{ dest := n.val, bytes := frame }] } }))

/-- Frames on the side band (R684, R685, R690, R710): the frame at the front leaves when the bus is free or its back-off is over; a collision counts an attempt,
and the sixteenth drops it; a frame the island does not accept is counted; an APP frame to send joins the queue with BUSY set, and one received goes to its
queue or sets APP_DROP.
Side-band heartbeats (R687 to R691): at its instant a heartbeat leaves with the core's last refresh and LATE, or waits for the bus; one that waits is abandoned
when it collides or is more than 88 µs late; one received is shown, and reaches GLK while the core runs; GLK's refresh is kept with its time.
The model's own choices in it: log entries 211, 212, 213, 263. -/
def Obligations.SideBandFramesAndHeartbeats : Prop :=
  (∀ (s : State), s.chip.isl.inReset = false →
     Runs .sbRxDiscard s ((s.chip.bump Reg.SBY_RX_DISCARD).raise Reg.SBY_EVENT 2) ∧
     (∀ f rest, s.chip.isl.waiting = none → s.chip.isl.queue = f :: rest →
       let left := ({ s.chip with isl := { s.chip.isl with queue := rest }, out := .sideBand f.dest (f.bytes ++ ethFcs f.bytes false) :: s.chip.out } : Chip).bump
         Reg.SBY_TX_FRAMES
       let u := s.chip.bump Reg.SBY_COLLISIONS
       ((∃ g ∈ f :: rest, s.chip.isl.clock < g.from_) → Runs .deferenceEnd s s.chip) ∧
       (s.chip.isl.clock < f.from_ → Runs .sbFrameRetry s s.chip) ∧
       (f.app = false → (∀ g ∈ f :: rest, g.from_ ≤ s.chip.isl.clock) → Runs .deferenceEnd s left) ∧
       (f.app = false → f.from_ ≤ s.chip.isl.clock → f.attempts < 16 → Runs .sbFrameRetry s left) ∧
       (f.app = true → (∀ g ∈ f :: rest, g.from_ ≤ s.chip.isl.clock) → Runs .deferenceEnd s
         (((left.setFlag Reg.SBY_APP_CTRL 6 false).setField Reg.SBY_APP_CTRL 8 7 0).raise Reg.SBY_EVENT 4)) ∧
       (f.attempts + 1 < 16 →
         Runs .collision s { u.tick.2 with isl := { u.isl with queue :=
           { f with attempts := f.attempts + 1, from_ := u.isl.clock + backOffTicks u.fresh (f.attempts + 1) } :: rest } }) ∧
       backOffTicks u.fresh (f.attempts + 1) ≤ islTicks (2 ^ min 10 (f.attempts + 1) * 51200) ∧
       (16 ≤ f.attempts + 1 → f.app = false →
         Runs .collision s ((({ u with isl := { u.isl with queue := rest } } : Chip).bump Reg.SBY_TX_ABANDONED).raise Reg.SBY_EVENT 1))) ∧
     (∀ dest : Fin 32, s.chip.running = true → s.chip.flag Reg.SBY_APP_CTRL 6 = false → ∃ x, Runs (.sbAppSend dest) s x ∧
       x.flag Reg.SBY_APP_CTRL 6 = true ∧ x.get Reg.SBY_APP_CTRL 4 0 = dest.val ∧
       (let bytes := s.chip.sbBytes dest.val 3 0 0 0 ((List.range 5).flatMap fun k => wordBytes (s.chip.reg (Reg.SBY_APP_TXi k)))
        x.isl.queue = s.chip.isl.queue ++ [{ dest := dest.val, app := true, bytes := bytes }])) ∧
     (∀ (node : Fin 32) (data : List Byte), s.chip.isl.core = 3 → data.length = 40 →
       let dest := s.chip.reg Reg.SBY_APP_DEST
       let r := (received s.chip).sendQueue (fld dest 5 0) (fld dest 15 6) (deviceSource 16 0)
         ([BitVec.ofNat 8 node.val] ++ List.replicate 7 0 ++ data)
       (bit dest 16 = true → Runs (.sbAppReceive node data) s (if r.1 then r.2 else r.2.raise Reg.SBY_EVENT 3)) ∧
       (bit dest 16 = false → Runs (.sbAppReceive node data) s ((received s.chip).raise Reg.SBY_EVENT 3)))) ∧
  (∀ (s : State), s.chip.isl.inReset = false →
     (∀ h w, s.chip.isl.waiting = none → s.chip.isl.nextBeat = s.chip.isl.clock → s.chip.beatReady = some (h, w) →
       (∃ x, Runs (.sbHeartbeatSend false) s x ∧ x.isl = { s.chip.isl with nextBeat := s.chip.isl.clock + beatPeriod } ∧
         (let frame := s.chip.sbBytes (s.chip.get Reg.SBY_HB_CFG 4 0) 0 0 0 0 (bytesBE 2 h.toNat ++ wordBytes w ++ [0])
          x.out = .sideBand (s.chip.get Reg.SBY_HB_CFG 4 0) (frame ++ ethFcs frame false) :: s.chip.out) ∧ x.get Reg.SBY_HB_STATUS 7 0 = 0) ∧
       Runs (.sbHeartbeatSend true) s { s.chip with isl := { s.chip.isl with nextBeat := s.chip.isl.clock + beatPeriod
                                                                             waiting := some s.chip.isl.clock } }) ∧
     (∀ t, s.chip.isl.waiting = some t →
       Runs (.sbHeartbeatAbandon true) s
         ((({ s.chip.bump Reg.SBY_COLLISIONS with isl := { s.chip.isl with waiting := none } } : Chip).bump Reg.SBY_HB_ABANDONED).raise
           Reg.SBY_EVENT 0) ∧
       (islTicks 88000 < s.chip.isl.clock - t →
         Runs (.sbHeartbeatAbandon false) s
           ((({ s.chip with isl := { s.chip.isl with waiting := none } } : Chip).bump Reg.SBY_HB_ABANDONED).raise Reg.SBY_EVENT 0))) ∧
     (∀ heat word late, s.chip.isl.core = 3 → s.chip.mateOn = true →
       heat.toNat % 16 = fld (s.chip.act Reg.GLK_MATE_CFG) 16 13 + 1 →
       ∃ y : Chip, Runs (.sbHeartbeatReceive heat word late) s (y.heartbeat 2 heat.toNat word) ∧ y.get Reg.SBY_HB_STATUS 15 8 = late.toNat ∧
         y.get Reg.SBY_HB_STATUS 17 16 = 1 ∧ y.isl = { s.chip.isl with leaderAt := none }) ∧
     (s.chip.running = true → (∀ r, s.chip.isl.refresh = some r → s.chip.isl.clock < r.2.2 + beatPeriod / 2) → s.chip.isl.refresh ≠ none →
       Runs .heartbeatRefresh s s.chip) ∧
     (s.chip.running = true → (∀ r, s.chip.isl.refresh = some r → r.2.2 + beatPeriod / 2 ≤ s.chip.isl.clock) →
       Runs .heartbeatRefresh s
         { s.chip with isl := { s.chip.isl with refresh := some (w64 s.chip.ownHeat, s.chip.heartWord, s.chip.isl.clock) } }))

/-- The island's log and time, and long operations (R652, R653, R708, R709): an entry of the buffer goes to the flash while the bucket allows, else it is
counted as suppressed; logical time is taken from TIME while the core runs; an operation that reaches 1,000 per mille ends with its result.
The model's own choices in it: log entry 201. -/
def Obligations.IslandLogAndLongOperations : Prop :=
  ∀ (s : State),
    (∀ e rest, s.chip.isl.buffer = e :: rest → s.chip.isl.suppressed = [] → s.chip.isl.refilled.bucket < 4096 →
      Runs .logWrite s (({ s.chip with isl := { s.chip.isl.refilled with buffer := rest } } : Chip).logPut e)) ∧
    (∀ e rest, s.chip.isl.buffer = e :: rest → 4096 ≤ s.chip.isl.refilled.bucket →
      ∃ x, Runs .logWrite s x ∧ x.isl.buffer = rest ∧ x.isl.flash = s.chip.isl.flash ∧ x.isl.logSeq = s.chip.isl.logSeq ∧
        x.isl.suppressed.get (e.source * 256 + e.kind) = s.chip.isl.suppressed.get (e.source * 256 + e.kind) + 1 ∧
        x.flag Reg.SBY_EVENT 6 = true) ∧
    (s.chip.isl.core = 3 → s.chip.isl.timeRead = false ∨ s.chip.isl.timeAt + islTicks 1000000000 ≤ s.chip.isl.clock →
      Runs .islandTimeRead s
        { s.chip with isl := { s.chip.isl with timeNs := s.chip.logical / 65536, timeAt := s.chip.isl.clock, timeRead := true } }) ∧
    (∀ x r y, s.chip.hif.long = some x → s.chip.longResult x = some (r, y) → Runs (.longOpDone 1000) s (y.longEnd x r)) ∧
    (∀ x n, s.chip.hif.long = some x → x.by_ = .node n → x.op ≠ 5 → ∀ p : Fin 1001, p.val < 1000 →
      Runs (.longOpDone p) s { s.chip with hif := { s.chip.hif with long := some { x with progress := p.val } } })
end

