-- ==== Sys2Proof/Laws/Map.lean ====
section
/-! SUPPORT. Tables: reading after writing, and the canonical form kept. -/
namespace Sys2Proof.Machine

variable {α : Type}

theorem Map.look_drop_self (d : Nat → α) (m : Map α) (k : Nat) : (m.drop k).look d k = d k := by
  induction m with
  | nil => rfl
  | cons e m ih =>
    obtain ⟨j, v⟩ := e
    by_cases h : j = k
    · simp only [Map.drop, h, if_true]; exact ih
    · simp only [Map.drop, h, if_false, Map.look]; exact ih

theorem Map.look_drop_other (d : Nat → α) (m : Map α) {j k : Nat} (h : j ≠ k) : (m.drop k).look d j = m.look d j := by
  induction m with
  | nil => rfl
  | cons e m ih =>
    obtain ⟨i, v⟩ := e
    by_cases hi : i = k
    · have hj : i ≠ j := fun e => h (e.symm.trans hi)
      simp only [Map.drop, hi, if_true, Map.look]
      rw [if_neg (fun e => h e.symm)]; exact ih
    · simp only [Map.drop, hi, if_false, Map.look, ih]

theorem Map.look_insert_self (d : Nat → α) (m : Map α) (k : Nat) (x : α) (h : ∀ e ∈ m, e.1 ≠ k) : (m.insert k x).look d k = x := by
  induction m with
  | nil => simp [Map.insert, Map.look]
  | cons e m ih =>
    obtain ⟨j, v⟩ := e
    have hj : j ≠ k := h (j, v) (by simp)
    unfold Map.insert
    split
    · simp [Map.look]
    · simp only [Map.look, hj, if_false]; exact ih fun e he => h e (List.mem_cons_of_mem _ he)

theorem Map.look_insert_other (d : Nat → α) (m : Map α) {j k : Nat} (x : α) (h : j ≠ k) : (m.insert k x).look d j = m.look d j := by
  induction m with
  | nil => simp [Map.insert, Map.look, h.symm]
  | cons e m ih =>
    obtain ⟨i, v⟩ := e
    unfold Map.insert
    split
    · simp [Map.look, h.symm]
    · simp only [Map.look, ih]

theorem Map.drop_keys (m : Map α) (k : Nat) : ∀ e ∈ m.drop k, e.1 ≠ k := by
  induction m with
  | nil => simp [Map.drop]
  | cons e m ih =>
    obtain ⟨j, v⟩ := e
    by_cases h : j = k
    · simp only [Map.drop, h, if_true]; exact ih
    · simp only [Map.drop, h, if_false, List.mem_cons]
      rintro e (rfl | he)
      · exact h
      · exact ih e he

variable [DecidableEq α]

/-- A key reads what was put there. -/
@[simp] theorem Map.look_put_self (d : Nat → α) (m : Map α) (k : Nat) (x : α) : (m.put d k x).look d k = x := by
  unfold Map.put
  split
  · next h => rw [Map.look_drop_self, h]
  · exact Map.look_insert_self d _ k x (Map.drop_keys m k)

/-- Every other key reads as before. -/
theorem Map.look_put_other (d : Nat → α) (m : Map α) {j k : Nat} (x : α) (h : j ≠ k) : (m.put d k x).look d j = m.look d j := by
  unfold Map.put
  split
  · exact Map.look_drop_other d m h
  · rw [Map.look_insert_other d _ x h, Map.look_drop_other d m h]

theorem Map.look_put (d : Nat → α) (m : Map α) (j k : Nat) (x : α) : (m.put d k x).look d j = if j = k then x else m.look d j := by
  by_cases h : j = k
  · rw [h, if_pos rfl, Map.look_put_self]
  · rw [if_neg h, Map.look_put_other d m x h]

@[simp] theorem Map.get_set_self [Inhabited α] (m : Map α) (k : Nat) (x : α) : (m.set k x).get k = x := Map.look_put_self _ m k x

theorem Map.get_set_other [Inhabited α] (m : Map α) {j k : Nat} (x : α) (h : j ≠ k) : (m.set k x).get j = m.get j :=
  Map.look_put_other _ m x h

theorem Map.get_set [Inhabited α] (m : Map α) (j k : Nat) (x : α) : (m.set k x).get j = if j = k then x else m.get j :=
  Map.look_put _ m j k x

/-! ### The canonical form -/

theorem Map.wfFrom_mono (d : Nat → α) {lo lo' : Nat} (m : Map α) (h : lo' ≤ lo) (hm : Map.wfFrom d lo m = true) :
    Map.wfFrom d lo' m = true := by
  cases m with
  | nil => rfl
  | cons e m =>
    simp only [Map.wfFrom, Bool.and_eq_true, decide_eq_true_eq] at hm ⊢
    exact ⟨Nat.le_trans h hm.1, hm.2⟩

theorem Map.wfFrom_drop (d : Nat → α) (k : Nat) (m : Map α) : ∀ lo, Map.wfFrom d lo m = true → Map.wfFrom d lo (m.drop k) = true := by
  induction m with
  | nil => intro lo h; exact h
  | cons e m ih =>
    obtain ⟨j, v⟩ := e
    intro lo h
    simp only [Map.wfFrom, Bool.and_eq_true, decide_eq_true_eq] at h
    unfold Map.drop
    split
    · exact Map.wfFrom_mono d _ (by omega) (ih (j + 1) h.2.2)
    · simp only [Map.wfFrom, Bool.and_eq_true, decide_eq_true_eq]
      exact ⟨h.1, h.2.1, ih (j + 1) h.2.2⟩

theorem Map.wfFrom_insert (d : Nat → α) (k : Nat) (x : α) (hx : x ≠ d k) (m : Map α) (hk : ∀ e ∈ m, e.1 ≠ k) :
    ∀ lo, lo ≤ k → Map.wfFrom d lo m = true → Map.wfFrom d lo (m.insert k x) = true := by
  induction m with
  | nil => intro lo hlo _; simp [Map.insert, Map.wfFrom, hlo, hx]
  | cons e m ih =>
    obtain ⟨j, v⟩ := e
    intro lo hlo h
    have hj : j ≠ k := hk (j, v) (by simp)
    simp only [Map.wfFrom, Bool.and_eq_true, decide_eq_true_eq] at h
    unfold Map.insert
    split
    · simp only [Map.wfFrom, Bool.and_eq_true, decide_eq_true_eq]
      exact ⟨hlo, hx, by omega, h.2.1, h.2.2⟩
    · simp only [Map.wfFrom, Bool.and_eq_true, decide_eq_true_eq]
      exact ⟨h.1, h.2.1, ih (fun e he => hk e (List.mem_cons_of_mem _ he)) (j + 1) (by omega) h.2.2⟩

/-- Writing a key keeps the canonical form. -/
theorem Map.wf_put (d : Nat → α) (m : Map α) (k : Nat) (x : α) (h : m.wf d = true) : (m.put d k x).wf d = true := by
  unfold Map.put Map.wf
  split
  · exact Map.wfFrom_drop d k m 0 h
  · next hx => exact Map.wfFrom_insert d k x hx _ (Map.drop_keys m k) 0 (Nat.zero_le k) (Map.wfFrom_drop d k m 0 h)

theorem Map.canon_set [Inhabited α] (m : Map α) (k : Nat) (x : α) (h : m.canon = true) : (m.set k x).canon = true :=
  Map.wf_put _ m k x h

theorem Map.look_below (d : Nat → α) (m : Map α) : ∀ lo k, k < lo → Map.wfFrom d lo m = true → m.look d k = d k := by
  induction m with
  | nil => intro lo k _ _; rfl
  | cons e m ih =>
    obtain ⟨j, v⟩ := e
    intro lo k hk h
    simp only [Map.wfFrom, Bool.and_eq_true, decide_eq_true_eq] at h
    have : j ≠ k := by omega
    simp only [Map.look, this, if_false]
    exact ih (j + 1) k (by omega) h.2.2

/-- Canonical tables that read alike are equal. -/
theorem Map.ext_wfFrom (d : Nat → α) (m : Map α) : ∀ (n : Map α) (lo : Nat), Map.wfFrom d lo m = true → Map.wfFrom d lo n = true →
    (∀ k, m.look d k = n.look d k) → m = n := by
  induction m with
  | nil =>
    intro n lo _ hn h
    cases n with
    | nil => rfl
    | cons e n =>
      obtain ⟨j, v⟩ := e
      simp only [Map.wfFrom, Bool.and_eq_true, decide_eq_true_eq] at hn
      exact absurd (by simpa [Map.look] using h j) (Ne.symm hn.2.1)
  | cons e m ih =>
    obtain ⟨j, v⟩ := e
    intro n lo hm hn h
    simp only [Map.wfFrom, Bool.and_eq_true, decide_eq_true_eq] at hm
    cases n with
    | nil => exact absurd (by simpa [Map.look] using h j) hm.2.1
    | cons e n =>
      obtain ⟨i, w⟩ := e
      simp only [Map.wfFrom, Bool.and_eq_true, decide_eq_true_eq] at hn
      have hij : i = j := by
        rcases Nat.lt_trichotomy i j with hlt | heq | hgt
        · have h1 := h i
          rw [Map.look_below d ((j, v) :: m) j i hlt (by simp [Map.wfFrom, hm.2.1, hm.2.2])] at h1
          simp only [Map.look, if_true] at h1
          exact absurd h1.symm hn.2.1
        · exact heq
        · have h1 := h j
          rw [Map.look_below d ((i, w) :: n) i j hgt (by simp [Map.wfFrom, hn.2.1, hn.2.2])] at h1
          simp only [Map.look, if_true] at h1
          exact absurd h1 hm.2.1
      subst hij
      have hvw : v = w := by simpa [Map.look] using h i
      subst hvw
      have := ih n (i + 1) hm.2.2 hn.2.2 fun k => by
        by_cases hk : i = k
        · subst hk
          rw [Map.look_below d m (i + 1) i (by omega) hm.2.2, Map.look_below d n (i + 1) i (by omega) hn.2.2]
        · simpa [Map.look, hk] using h k
      rw [this]

end Sys2Proof.Machine
end

