-- ==== Sys2Proof/Laws/State.lean ====
section
/-! SUPPORT. What each update of the state leaves as it was: one theorem per update, one clause per field. -/
namespace Sys2Proof.Machine

@[simp] theorem State.withChip_chip (s : State) (x : Chip) : (s.withChip x).chip = x := rfl
@[simp] theorem State.withChip_pending (s : State) (x : Chip) : (s.withChip x).pending = s.pending := rfl
@[simp] theorem State.withChip_withChip (s : State) (x y : Chip) : (s.withChip x).withChip y = s.withChip y := rfl
@[simp] theorem State.withChip_self (s : State) : s.withChip s.chip = s := rfl

variable (s : Chip)

@[simp] theorem Chip.setReg_keeps (a : Nat) (v : W64) :
    (s.setReg a v).active = s.active ∧ (s.setReg a v).goAt = s.goAt ∧ (s.setReg a v).rcLatch = s.rcLatch ∧ (s.setReg a v).ctrLatch = s.ctrLatch ∧
    (s.setReg a v).frc = s.frc ∧ (s.setReg a v).rampFrom = s.rampFrom ∧ (s.setReg a v).offset = s.offset ∧ (s.setReg a v).fresh = s.fresh ∧
    (s.setReg a v).readData = s.readData ∧ (s.setReg a v).out = s.out ∧ (s.setReg a v).role = s.role ∧ (s.setReg a v).tookActive = s.tookActive ∧
    (s.setReg a v).permit = s.permit ∧ (s.setReg a v).glkOut = s.glkOut ∧ (s.setReg a v).msgs = s.msgs ∧ (s.setReg a v).pon = s.pon ∧
    (s.setReg a v).prs = s.prs ∧ (s.setReg a v).fwd = s.fwd ∧ (s.setReg a v).tm = s.tm ∧ (s.setReg a v).ddr = s.ddr ∧ (s.setReg a v).mem = s.mem ∧
    (s.setReg a v).ciph = s.ciph ∧ (s.setReg a v).rings = s.rings ∧ (s.setReg a v).time = s.time ∧ (s.setReg a v).cru = s.cru ∧
    (s.setReg a v).patterns = s.patterns ∧ (s.setReg a v).gate = s.gate ∧ (s.setReg a v).glk = s.glk ∧ (s.setReg a v).hif = s.hif ∧
    (s.setReg a v).subs = s.subs ∧ (s.setReg a v).isl = s.isl :=
    ⟨rfl, rfl, rfl, rfl, rfl, rfl, rfl, rfl, rfl, rfl, rfl, rfl, rfl, rfl, rfl, rfl, rfl, rfl, rfl, rfl, rfl, rfl, rfl, rfl, rfl, rfl, rfl, rfl, rfl, rfl, rfl⟩

@[simp] theorem Chip.setReg_thread (a : Nat) (v : W64) (d u : Nat) : (s.setReg a v).thread d u = s.thread d u := rfl

@[simp] theorem Chip.answer_keeps (v : W64) :
    (s.answer v).regs = s.regs ∧ (s.answer v).active = s.active ∧ (s.answer v).goAt = s.goAt ∧ (s.answer v).rcLatch = s.rcLatch ∧
    (s.answer v).ctrLatch = s.ctrLatch ∧ (s.answer v).frc = s.frc ∧ (s.answer v).rampFrom = s.rampFrom ∧ (s.answer v).offset = s.offset ∧
    (s.answer v).fresh = s.fresh ∧ (s.answer v).out = s.out ∧ (s.answer v).role = s.role ∧ (s.answer v).tookActive = s.tookActive ∧
    (s.answer v).permit = s.permit ∧ (s.answer v).glkOut = s.glkOut ∧ (s.answer v).msgs = s.msgs ∧ (s.answer v).pon = s.pon ∧
    (s.answer v).prs = s.prs ∧ (s.answer v).fwd = s.fwd ∧ (s.answer v).tm = s.tm ∧ (s.answer v).ddr = s.ddr ∧ (s.answer v).mem = s.mem ∧
    (s.answer v).ciph = s.ciph ∧ (s.answer v).rings = s.rings ∧ (s.answer v).time = s.time ∧ (s.answer v).cru = s.cru ∧
    (s.answer v).patterns = s.patterns ∧ (s.answer v).gate = s.gate ∧ (s.answer v).glk = s.glk ∧ (s.answer v).hif = s.hif ∧
    (s.answer v).subs = s.subs ∧ (s.answer v).isl = s.isl :=
    ⟨rfl, rfl, rfl, rfl, rfl, rfl, rfl, rfl, rfl, rfl, rfl, rfl, rfl, rfl, rfl, rfl, rfl, rfl, rfl, rfl, rfl, rfl, rfl, rfl, rfl, rfl, rfl, rfl, rfl, rfl, rfl⟩

@[simp] theorem Chip.answer_registers (v : W64) : (∀ a, (s.answer v).reg a = s.reg a) ∧ (∀ a, (s.answer v).act a = s.act a) ∧
    (∀ a hi lo, (s.answer v).get a hi lo = s.get a hi lo) ∧ (∀ a k, (s.answer v).flag a k = s.flag a k) :=
  ⟨fun _ => rfl, fun _ => rfl, fun _ _ _ => rfl, fun _ _ => rfl⟩

@[simp] theorem Chip.answer_thread (v : W64) (d u : Nat) : (s.answer v).thread d u = s.thread d u := rfl

@[simp] theorem Chip.emit_keeps (o : Out) :
    (s.emit o).regs = s.regs ∧ (s.emit o).active = s.active ∧ (s.emit o).goAt = s.goAt ∧ (s.emit o).rcLatch = s.rcLatch ∧
    (s.emit o).ctrLatch = s.ctrLatch ∧ (s.emit o).frc = s.frc ∧ (s.emit o).rampFrom = s.rampFrom ∧ (s.emit o).offset = s.offset ∧
    (s.emit o).fresh = s.fresh ∧ (s.emit o).readData = s.readData ∧ (s.emit o).role = s.role ∧ (s.emit o).tookActive = s.tookActive ∧
    (s.emit o).permit = s.permit ∧ (s.emit o).glkOut = s.glkOut ∧ (s.emit o).msgs = s.msgs ∧ (s.emit o).pon = s.pon ∧ (s.emit o).prs = s.prs ∧
    (s.emit o).fwd = s.fwd ∧ (s.emit o).tm = s.tm ∧ (s.emit o).ddr = s.ddr ∧ (s.emit o).mem = s.mem ∧ (s.emit o).ciph = s.ciph ∧
    (s.emit o).rings = s.rings ∧ (s.emit o).time = s.time ∧ (s.emit o).cru = s.cru ∧ (s.emit o).patterns = s.patterns ∧ (s.emit o).gate = s.gate ∧
    (s.emit o).glk = s.glk ∧ (s.emit o).hif = s.hif ∧ (s.emit o).subs = s.subs ∧ (s.emit o).isl = s.isl :=
    ⟨rfl, rfl, rfl, rfl, rfl, rfl, rfl, rfl, rfl, rfl, rfl, rfl, rfl, rfl, rfl, rfl, rfl, rfl, rfl, rfl, rfl, rfl, rfl, rfl, rfl, rfl, rfl, rfl, rfl, rfl, rfl⟩

@[simp] theorem Chip.emit_registers (o : Out) : (∀ a, (s.emit o).reg a = s.reg a) ∧ (∀ a, (s.emit o).act a = s.act a) ∧
    (∀ a hi lo, (s.emit o).get a hi lo = s.get a hi lo) ∧ (∀ a k, (s.emit o).flag a k = s.flag a k) :=
  ⟨fun _ => rfl, fun _ => rfl, fun _ _ _ => rfl, fun _ _ => rfl⟩

@[simp] theorem Chip.emit_thread (o : Out) (d u : Nat) : (s.emit o).thread d u = s.thread d u := rfl

@[simp] theorem Chip.setThread_keeps (c t : Nat) (x : Thread) :
    (s.setThread c t x).regs = s.regs ∧ (s.setThread c t x).active = s.active ∧ (s.setThread c t x).goAt = s.goAt ∧
    (s.setThread c t x).rcLatch = s.rcLatch ∧ (s.setThread c t x).ctrLatch = s.ctrLatch ∧ (s.setThread c t x).frc = s.frc ∧
    (s.setThread c t x).rampFrom = s.rampFrom ∧ (s.setThread c t x).offset = s.offset ∧ (s.setThread c t x).fresh = s.fresh ∧
    (s.setThread c t x).readData = s.readData ∧ (s.setThread c t x).out = s.out ∧ (s.setThread c t x).role = s.role ∧
    (s.setThread c t x).tookActive = s.tookActive ∧ (s.setThread c t x).permit = s.permit ∧ (s.setThread c t x).glkOut = s.glkOut ∧
    (s.setThread c t x).msgs = s.msgs ∧ (s.setThread c t x).pon = s.pon ∧ (s.setThread c t x).prs = s.prs ∧ (s.setThread c t x).fwd = s.fwd ∧
    (s.setThread c t x).tm = s.tm ∧ (s.setThread c t x).ddr = s.ddr ∧ (s.setThread c t x).mem = s.mem ∧ (s.setThread c t x).ciph = s.ciph ∧
    (s.setThread c t x).rings = s.rings ∧ (s.setThread c t x).time = s.time ∧ (s.setThread c t x).patterns = s.patterns ∧
    (s.setThread c t x).gate = s.gate ∧ (s.setThread c t x).glk = s.glk ∧ (s.setThread c t x).hif = s.hif ∧ (s.setThread c t x).subs = s.subs ∧
    (s.setThread c t x).isl = s.isl :=
    ⟨rfl, rfl, rfl, rfl, rfl, rfl, rfl, rfl, rfl, rfl, rfl, rfl, rfl, rfl, rfl, rfl, rfl, rfl, rfl, rfl, rfl, rfl, rfl, rfl, rfl, rfl, rfl, rfl, rfl, rfl, rfl⟩

@[simp] theorem Chip.setThread_registers (c t : Nat) (x : Thread) : (∀ a, (s.setThread c t x).reg a = s.reg a) ∧ (∀ a, (s.setThread c t x).act a = s.act a) ∧
    (∀ a hi lo, (s.setThread c t x).get a hi lo = s.get a hi lo) ∧ (∀ a k, (s.setThread c t x).flag a k = s.flag a k) :=
  ⟨fun _ => rfl, fun _ => rfl, fun _ _ _ => rfl, fun _ _ => rfl⟩

@[simp] theorem Chip.setFlask_keeps (c f : Nat) (x : Flask) :
    (s.setFlask c f x).regs = s.regs ∧ (s.setFlask c f x).active = s.active ∧ (s.setFlask c f x).goAt = s.goAt ∧
    (s.setFlask c f x).rcLatch = s.rcLatch ∧ (s.setFlask c f x).ctrLatch = s.ctrLatch ∧ (s.setFlask c f x).frc = s.frc ∧
    (s.setFlask c f x).rampFrom = s.rampFrom ∧ (s.setFlask c f x).offset = s.offset ∧ (s.setFlask c f x).fresh = s.fresh ∧
    (s.setFlask c f x).readData = s.readData ∧ (s.setFlask c f x).out = s.out ∧ (s.setFlask c f x).role = s.role ∧
    (s.setFlask c f x).tookActive = s.tookActive ∧ (s.setFlask c f x).permit = s.permit ∧ (s.setFlask c f x).glkOut = s.glkOut ∧
    (s.setFlask c f x).msgs = s.msgs ∧ (s.setFlask c f x).pon = s.pon ∧ (s.setFlask c f x).prs = s.prs ∧ (s.setFlask c f x).fwd = s.fwd ∧
    (s.setFlask c f x).tm = s.tm ∧ (s.setFlask c f x).ddr = s.ddr ∧ (s.setFlask c f x).mem = s.mem ∧ (s.setFlask c f x).ciph = s.ciph ∧
    (s.setFlask c f x).rings = s.rings ∧ (s.setFlask c f x).time = s.time ∧ (s.setFlask c f x).cru = s.cru ∧
    (s.setFlask c f x).patterns = s.patterns ∧ (s.setFlask c f x).glk = s.glk ∧ (s.setFlask c f x).hif = s.hif ∧ (s.setFlask c f x).subs = s.subs ∧
    (s.setFlask c f x).isl = s.isl :=
    ⟨rfl, rfl, rfl, rfl, rfl, rfl, rfl, rfl, rfl, rfl, rfl, rfl, rfl, rfl, rfl, rfl, rfl, rfl, rfl, rfl, rfl, rfl, rfl, rfl, rfl, rfl, rfl, rfl, rfl, rfl, rfl⟩

@[simp] theorem Chip.setFlask_registers (c f : Nat) (x : Flask) : (∀ a, (s.setFlask c f x).reg a = s.reg a) ∧ (∀ a, (s.setFlask c f x).act a = s.act a) ∧
    (∀ a hi lo, (s.setFlask c f x).get a hi lo = s.get a hi lo) ∧ (∀ a k, (s.setFlask c f x).flag a k = s.flag a k) :=
  ⟨fun _ => rfl, fun _ => rfl, fun _ _ _ => rfl, fun _ _ => rfl⟩

@[simp] theorem Chip.setFlask_thread (c f : Nat) (x : Flask) (d u : Nat) : (s.setFlask c f x).thread d u = s.thread d u := rfl

@[simp] theorem Chip.updTime_keeps (f : TimeState → TimeState) :
    (s.updTime f).regs = s.regs ∧ (s.updTime f).active = s.active ∧ (s.updTime f).goAt = s.goAt ∧ (s.updTime f).rcLatch = s.rcLatch ∧
    (s.updTime f).ctrLatch = s.ctrLatch ∧ (s.updTime f).frc = s.frc ∧ (s.updTime f).rampFrom = s.rampFrom ∧ (s.updTime f).offset = s.offset ∧
    (s.updTime f).fresh = s.fresh ∧ (s.updTime f).readData = s.readData ∧ (s.updTime f).out = s.out ∧ (s.updTime f).role = s.role ∧
    (s.updTime f).tookActive = s.tookActive ∧ (s.updTime f).permit = s.permit ∧ (s.updTime f).glkOut = s.glkOut ∧ (s.updTime f).msgs = s.msgs ∧
    (s.updTime f).pon = s.pon ∧ (s.updTime f).prs = s.prs ∧ (s.updTime f).fwd = s.fwd ∧ (s.updTime f).tm = s.tm ∧ (s.updTime f).ddr = s.ddr ∧
    (s.updTime f).mem = s.mem ∧ (s.updTime f).ciph = s.ciph ∧ (s.updTime f).rings = s.rings ∧ (s.updTime f).cru = s.cru ∧
    (s.updTime f).patterns = s.patterns ∧ (s.updTime f).gate = s.gate ∧ (s.updTime f).glk = s.glk ∧ (s.updTime f).hif = s.hif ∧
    (s.updTime f).subs = s.subs ∧ (s.updTime f).isl = s.isl :=
    ⟨rfl, rfl, rfl, rfl, rfl, rfl, rfl, rfl, rfl, rfl, rfl, rfl, rfl, rfl, rfl, rfl, rfl, rfl, rfl, rfl, rfl, rfl, rfl, rfl, rfl, rfl, rfl, rfl, rfl, rfl, rfl⟩

@[simp] theorem Chip.updTime_registers (f : TimeState → TimeState) : (∀ a, (s.updTime f).reg a = s.reg a) ∧ (∀ a, (s.updTime f).act a = s.act a) ∧
    (∀ a hi lo, (s.updTime f).get a hi lo = s.get a hi lo) ∧ (∀ a k, (s.updTime f).flag a k = s.flag a k) :=
  ⟨fun _ => rfl, fun _ => rfl, fun _ _ _ => rfl, fun _ _ => rfl⟩

@[simp] theorem Chip.updTime_thread (f : TimeState → TimeState) (d u : Nat) : (s.updTime f).thread d u = s.thread d u := rfl

@[simp] theorem Chip.updTm_keeps (f : TmState → TmState) :
    (s.updTm f).regs = s.regs ∧ (s.updTm f).active = s.active ∧ (s.updTm f).goAt = s.goAt ∧ (s.updTm f).rcLatch = s.rcLatch ∧
    (s.updTm f).ctrLatch = s.ctrLatch ∧ (s.updTm f).frc = s.frc ∧ (s.updTm f).rampFrom = s.rampFrom ∧ (s.updTm f).offset = s.offset ∧
    (s.updTm f).fresh = s.fresh ∧ (s.updTm f).readData = s.readData ∧ (s.updTm f).out = s.out ∧ (s.updTm f).role = s.role ∧
    (s.updTm f).tookActive = s.tookActive ∧ (s.updTm f).permit = s.permit ∧ (s.updTm f).glkOut = s.glkOut ∧ (s.updTm f).msgs = s.msgs ∧
    (s.updTm f).pon = s.pon ∧ (s.updTm f).prs = s.prs ∧ (s.updTm f).fwd = s.fwd ∧ (s.updTm f).ddr = s.ddr ∧ (s.updTm f).mem = s.mem ∧
    (s.updTm f).ciph = s.ciph ∧ (s.updTm f).rings = s.rings ∧ (s.updTm f).time = s.time ∧ (s.updTm f).cru = s.cru ∧
    (s.updTm f).patterns = s.patterns ∧ (s.updTm f).gate = s.gate ∧ (s.updTm f).glk = s.glk ∧ (s.updTm f).hif = s.hif ∧ (s.updTm f).subs = s.subs ∧
    (s.updTm f).isl = s.isl :=
    ⟨rfl, rfl, rfl, rfl, rfl, rfl, rfl, rfl, rfl, rfl, rfl, rfl, rfl, rfl, rfl, rfl, rfl, rfl, rfl, rfl, rfl, rfl, rfl, rfl, rfl, rfl, rfl, rfl, rfl, rfl, rfl⟩

@[simp] theorem Chip.updTm_registers (f : TmState → TmState) : (∀ a, (s.updTm f).reg a = s.reg a) ∧ (∀ a, (s.updTm f).act a = s.act a) ∧
    (∀ a hi lo, (s.updTm f).get a hi lo = s.get a hi lo) ∧ (∀ a k, (s.updTm f).flag a k = s.flag a k) :=
  ⟨fun _ => rfl, fun _ => rfl, fun _ _ _ => rfl, fun _ _ => rfl⟩

@[simp] theorem Chip.updTm_thread (f : TmState → TmState) (d u : Nat) : (s.updTm f).thread d u = s.thread d u := rfl

@[simp] theorem Chip.updMem_keeps (f : MemState → MemState) :
    (s.updMem f).regs = s.regs ∧ (s.updMem f).active = s.active ∧ (s.updMem f).goAt = s.goAt ∧ (s.updMem f).rcLatch = s.rcLatch ∧
    (s.updMem f).ctrLatch = s.ctrLatch ∧ (s.updMem f).frc = s.frc ∧ (s.updMem f).rampFrom = s.rampFrom ∧ (s.updMem f).offset = s.offset ∧
    (s.updMem f).fresh = s.fresh ∧ (s.updMem f).readData = s.readData ∧ (s.updMem f).out = s.out ∧ (s.updMem f).role = s.role ∧
    (s.updMem f).tookActive = s.tookActive ∧ (s.updMem f).permit = s.permit ∧ (s.updMem f).glkOut = s.glkOut ∧ (s.updMem f).msgs = s.msgs ∧
    (s.updMem f).pon = s.pon ∧ (s.updMem f).prs = s.prs ∧ (s.updMem f).fwd = s.fwd ∧ (s.updMem f).tm = s.tm ∧ (s.updMem f).ddr = s.ddr ∧
    (s.updMem f).ciph = s.ciph ∧ (s.updMem f).rings = s.rings ∧ (s.updMem f).time = s.time ∧ (s.updMem f).cru = s.cru ∧
    (s.updMem f).patterns = s.patterns ∧ (s.updMem f).gate = s.gate ∧ (s.updMem f).glk = s.glk ∧ (s.updMem f).hif = s.hif ∧
    (s.updMem f).subs = s.subs ∧ (s.updMem f).isl = s.isl :=
    ⟨rfl, rfl, rfl, rfl, rfl, rfl, rfl, rfl, rfl, rfl, rfl, rfl, rfl, rfl, rfl, rfl, rfl, rfl, rfl, rfl, rfl, rfl, rfl, rfl, rfl, rfl, rfl, rfl, rfl, rfl, rfl⟩

@[simp] theorem Chip.updMem_registers (f : MemState → MemState) : (∀ a, (s.updMem f).reg a = s.reg a) ∧ (∀ a, (s.updMem f).act a = s.act a) ∧
    (∀ a hi lo, (s.updMem f).get a hi lo = s.get a hi lo) ∧ (∀ a k, (s.updMem f).flag a k = s.flag a k) :=
  ⟨fun _ => rfl, fun _ => rfl, fun _ _ _ => rfl, fun _ _ => rfl⟩

@[simp] theorem Chip.updMem_thread (f : MemState → MemState) (d u : Nat) : (s.updMem f).thread d u = s.thread d u := rfl

@[simp] theorem Chip.updCiph_keeps (f : CiphState → CiphState) :
    (s.updCiph f).regs = s.regs ∧ (s.updCiph f).active = s.active ∧ (s.updCiph f).goAt = s.goAt ∧ (s.updCiph f).rcLatch = s.rcLatch ∧
    (s.updCiph f).ctrLatch = s.ctrLatch ∧ (s.updCiph f).frc = s.frc ∧ (s.updCiph f).rampFrom = s.rampFrom ∧ (s.updCiph f).offset = s.offset ∧
    (s.updCiph f).fresh = s.fresh ∧ (s.updCiph f).readData = s.readData ∧ (s.updCiph f).out = s.out ∧ (s.updCiph f).role = s.role ∧
    (s.updCiph f).tookActive = s.tookActive ∧ (s.updCiph f).permit = s.permit ∧ (s.updCiph f).glkOut = s.glkOut ∧ (s.updCiph f).msgs = s.msgs ∧
    (s.updCiph f).pon = s.pon ∧ (s.updCiph f).prs = s.prs ∧ (s.updCiph f).fwd = s.fwd ∧ (s.updCiph f).tm = s.tm ∧ (s.updCiph f).ddr = s.ddr ∧
    (s.updCiph f).mem = s.mem ∧ (s.updCiph f).rings = s.rings ∧ (s.updCiph f).time = s.time ∧ (s.updCiph f).cru = s.cru ∧
    (s.updCiph f).patterns = s.patterns ∧ (s.updCiph f).gate = s.gate ∧ (s.updCiph f).glk = s.glk ∧ (s.updCiph f).hif = s.hif ∧
    (s.updCiph f).subs = s.subs ∧ (s.updCiph f).isl = s.isl :=
    ⟨rfl, rfl, rfl, rfl, rfl, rfl, rfl, rfl, rfl, rfl, rfl, rfl, rfl, rfl, rfl, rfl, rfl, rfl, rfl, rfl, rfl, rfl, rfl, rfl, rfl, rfl, rfl, rfl, rfl, rfl, rfl⟩

@[simp] theorem Chip.updCiph_registers (f : CiphState → CiphState) : (∀ a, (s.updCiph f).reg a = s.reg a) ∧ (∀ a, (s.updCiph f).act a = s.act a) ∧
    (∀ a hi lo, (s.updCiph f).get a hi lo = s.get a hi lo) ∧ (∀ a k, (s.updCiph f).flag a k = s.flag a k) :=
  ⟨fun _ => rfl, fun _ => rfl, fun _ _ _ => rfl, fun _ _ => rfl⟩

@[simp] theorem Chip.updCiph_thread (f : CiphState → CiphState) (d u : Nat) : (s.updCiph f).thread d u = s.thread d u := rfl

@[simp] theorem Chip.updPrs_keeps (f : PrsState → PrsState) :
    (s.updPrs f).regs = s.regs ∧ (s.updPrs f).active = s.active ∧ (s.updPrs f).goAt = s.goAt ∧ (s.updPrs f).rcLatch = s.rcLatch ∧
    (s.updPrs f).ctrLatch = s.ctrLatch ∧ (s.updPrs f).frc = s.frc ∧ (s.updPrs f).rampFrom = s.rampFrom ∧ (s.updPrs f).offset = s.offset ∧
    (s.updPrs f).fresh = s.fresh ∧ (s.updPrs f).readData = s.readData ∧ (s.updPrs f).out = s.out ∧ (s.updPrs f).role = s.role ∧
    (s.updPrs f).tookActive = s.tookActive ∧ (s.updPrs f).permit = s.permit ∧ (s.updPrs f).glkOut = s.glkOut ∧ (s.updPrs f).msgs = s.msgs ∧
    (s.updPrs f).pon = s.pon ∧ (s.updPrs f).fwd = s.fwd ∧ (s.updPrs f).tm = s.tm ∧ (s.updPrs f).ddr = s.ddr ∧ (s.updPrs f).mem = s.mem ∧
    (s.updPrs f).ciph = s.ciph ∧ (s.updPrs f).rings = s.rings ∧ (s.updPrs f).time = s.time ∧ (s.updPrs f).cru = s.cru ∧
    (s.updPrs f).patterns = s.patterns ∧ (s.updPrs f).gate = s.gate ∧ (s.updPrs f).glk = s.glk ∧ (s.updPrs f).hif = s.hif ∧
    (s.updPrs f).subs = s.subs ∧ (s.updPrs f).isl = s.isl :=
    ⟨rfl, rfl, rfl, rfl, rfl, rfl, rfl, rfl, rfl, rfl, rfl, rfl, rfl, rfl, rfl, rfl, rfl, rfl, rfl, rfl, rfl, rfl, rfl, rfl, rfl, rfl, rfl, rfl, rfl, rfl, rfl⟩

@[simp] theorem Chip.updPrs_registers (f : PrsState → PrsState) : (∀ a, (s.updPrs f).reg a = s.reg a) ∧ (∀ a, (s.updPrs f).act a = s.act a) ∧
    (∀ a hi lo, (s.updPrs f).get a hi lo = s.get a hi lo) ∧ (∀ a k, (s.updPrs f).flag a k = s.flag a k) :=
  ⟨fun _ => rfl, fun _ => rfl, fun _ _ _ => rfl, fun _ _ => rfl⟩

@[simp] theorem Chip.updPrs_thread (f : PrsState → PrsState) (d u : Nat) : (s.updPrs f).thread d u = s.thread d u := rfl

@[simp] theorem Chip.updFwd_keeps (f : FwdState → FwdState) :
    (s.updFwd f).regs = s.regs ∧ (s.updFwd f).active = s.active ∧ (s.updFwd f).goAt = s.goAt ∧ (s.updFwd f).rcLatch = s.rcLatch ∧
    (s.updFwd f).ctrLatch = s.ctrLatch ∧ (s.updFwd f).frc = s.frc ∧ (s.updFwd f).rampFrom = s.rampFrom ∧ (s.updFwd f).offset = s.offset ∧
    (s.updFwd f).fresh = s.fresh ∧ (s.updFwd f).readData = s.readData ∧ (s.updFwd f).out = s.out ∧ (s.updFwd f).role = s.role ∧
    (s.updFwd f).tookActive = s.tookActive ∧ (s.updFwd f).permit = s.permit ∧ (s.updFwd f).glkOut = s.glkOut ∧ (s.updFwd f).msgs = s.msgs ∧
    (s.updFwd f).pon = s.pon ∧ (s.updFwd f).prs = s.prs ∧ (s.updFwd f).tm = s.tm ∧ (s.updFwd f).ddr = s.ddr ∧ (s.updFwd f).mem = s.mem ∧
    (s.updFwd f).ciph = s.ciph ∧ (s.updFwd f).rings = s.rings ∧ (s.updFwd f).time = s.time ∧ (s.updFwd f).cru = s.cru ∧
    (s.updFwd f).patterns = s.patterns ∧ (s.updFwd f).gate = s.gate ∧ (s.updFwd f).glk = s.glk ∧ (s.updFwd f).hif = s.hif ∧
    (s.updFwd f).subs = s.subs ∧ (s.updFwd f).isl = s.isl :=
    ⟨rfl, rfl, rfl, rfl, rfl, rfl, rfl, rfl, rfl, rfl, rfl, rfl, rfl, rfl, rfl, rfl, rfl, rfl, rfl, rfl, rfl, rfl, rfl, rfl, rfl, rfl, rfl, rfl, rfl, rfl, rfl⟩

@[simp] theorem Chip.updFwd_registers (f : FwdState → FwdState) : (∀ a, (s.updFwd f).reg a = s.reg a) ∧ (∀ a, (s.updFwd f).act a = s.act a) ∧
    (∀ a hi lo, (s.updFwd f).get a hi lo = s.get a hi lo) ∧ (∀ a k, (s.updFwd f).flag a k = s.flag a k) :=
  ⟨fun _ => rfl, fun _ => rfl, fun _ _ _ => rfl, fun _ _ => rfl⟩

@[simp] theorem Chip.updFwd_thread (f : FwdState → FwdState) (d u : Nat) : (s.updFwd f).thread d u = s.thread d u := rfl

@[simp] theorem Chip.updGlk_keeps (f : GlkState → GlkState) :
    (s.updGlk f).regs = s.regs ∧ (s.updGlk f).active = s.active ∧ (s.updGlk f).goAt = s.goAt ∧ (s.updGlk f).rcLatch = s.rcLatch ∧
    (s.updGlk f).ctrLatch = s.ctrLatch ∧ (s.updGlk f).frc = s.frc ∧ (s.updGlk f).rampFrom = s.rampFrom ∧ (s.updGlk f).offset = s.offset ∧
    (s.updGlk f).fresh = s.fresh ∧ (s.updGlk f).readData = s.readData ∧ (s.updGlk f).out = s.out ∧ (s.updGlk f).role = s.role ∧
    (s.updGlk f).tookActive = s.tookActive ∧ (s.updGlk f).permit = s.permit ∧ (s.updGlk f).glkOut = s.glkOut ∧ (s.updGlk f).msgs = s.msgs ∧
    (s.updGlk f).pon = s.pon ∧ (s.updGlk f).prs = s.prs ∧ (s.updGlk f).fwd = s.fwd ∧ (s.updGlk f).tm = s.tm ∧ (s.updGlk f).ddr = s.ddr ∧
    (s.updGlk f).mem = s.mem ∧ (s.updGlk f).ciph = s.ciph ∧ (s.updGlk f).rings = s.rings ∧ (s.updGlk f).time = s.time ∧ (s.updGlk f).cru = s.cru ∧
    (s.updGlk f).patterns = s.patterns ∧ (s.updGlk f).gate = s.gate ∧ (s.updGlk f).hif = s.hif ∧ (s.updGlk f).subs = s.subs ∧
    (s.updGlk f).isl = s.isl :=
    ⟨rfl, rfl, rfl, rfl, rfl, rfl, rfl, rfl, rfl, rfl, rfl, rfl, rfl, rfl, rfl, rfl, rfl, rfl, rfl, rfl, rfl, rfl, rfl, rfl, rfl, rfl, rfl, rfl, rfl, rfl, rfl⟩

@[simp] theorem Chip.updGlk_registers (f : GlkState → GlkState) : (∀ a, (s.updGlk f).reg a = s.reg a) ∧ (∀ a, (s.updGlk f).act a = s.act a) ∧
    (∀ a hi lo, (s.updGlk f).get a hi lo = s.get a hi lo) ∧ (∀ a k, (s.updGlk f).flag a k = s.flag a k) :=
  ⟨fun _ => rfl, fun _ => rfl, fun _ _ _ => rfl, fun _ _ => rfl⟩

@[simp] theorem Chip.updGlk_thread (f : GlkState → GlkState) (d u : Nat) : (s.updGlk f).thread d u = s.thread d u := rfl

@[simp] theorem Chip.updHif_keeps (f : HifState → HifState) :
    (s.updHif f).regs = s.regs ∧ (s.updHif f).active = s.active ∧ (s.updHif f).goAt = s.goAt ∧ (s.updHif f).rcLatch = s.rcLatch ∧
    (s.updHif f).ctrLatch = s.ctrLatch ∧ (s.updHif f).frc = s.frc ∧ (s.updHif f).rampFrom = s.rampFrom ∧ (s.updHif f).offset = s.offset ∧
    (s.updHif f).fresh = s.fresh ∧ (s.updHif f).readData = s.readData ∧ (s.updHif f).out = s.out ∧ (s.updHif f).role = s.role ∧
    (s.updHif f).tookActive = s.tookActive ∧ (s.updHif f).permit = s.permit ∧ (s.updHif f).glkOut = s.glkOut ∧ (s.updHif f).msgs = s.msgs ∧
    (s.updHif f).pon = s.pon ∧ (s.updHif f).prs = s.prs ∧ (s.updHif f).fwd = s.fwd ∧ (s.updHif f).tm = s.tm ∧ (s.updHif f).ddr = s.ddr ∧
    (s.updHif f).mem = s.mem ∧ (s.updHif f).ciph = s.ciph ∧ (s.updHif f).rings = s.rings ∧ (s.updHif f).time = s.time ∧ (s.updHif f).cru = s.cru ∧
    (s.updHif f).patterns = s.patterns ∧ (s.updHif f).gate = s.gate ∧ (s.updHif f).glk = s.glk ∧ (s.updHif f).subs = s.subs ∧
    (s.updHif f).isl = s.isl :=
    ⟨rfl, rfl, rfl, rfl, rfl, rfl, rfl, rfl, rfl, rfl, rfl, rfl, rfl, rfl, rfl, rfl, rfl, rfl, rfl, rfl, rfl, rfl, rfl, rfl, rfl, rfl, rfl, rfl, rfl, rfl, rfl⟩

@[simp] theorem Chip.updHif_registers (f : HifState → HifState) : (∀ a, (s.updHif f).reg a = s.reg a) ∧ (∀ a, (s.updHif f).act a = s.act a) ∧
    (∀ a hi lo, (s.updHif f).get a hi lo = s.get a hi lo) ∧ (∀ a k, (s.updHif f).flag a k = s.flag a k) :=
  ⟨fun _ => rfl, fun _ => rfl, fun _ _ _ => rfl, fun _ _ => rfl⟩

@[simp] theorem Chip.updHif_thread (f : HifState → HifState) (d u : Nat) : (s.updHif f).thread d u = s.thread d u := rfl

@[simp] theorem Chip.updSub_keeps (k : Nat) (f : Subport → Subport) :
    (s.updSub k f).regs = s.regs ∧ (s.updSub k f).active = s.active ∧ (s.updSub k f).goAt = s.goAt ∧ (s.updSub k f).rcLatch = s.rcLatch ∧
    (s.updSub k f).ctrLatch = s.ctrLatch ∧ (s.updSub k f).frc = s.frc ∧ (s.updSub k f).rampFrom = s.rampFrom ∧ (s.updSub k f).offset = s.offset ∧
    (s.updSub k f).fresh = s.fresh ∧ (s.updSub k f).readData = s.readData ∧ (s.updSub k f).out = s.out ∧ (s.updSub k f).role = s.role ∧
    (s.updSub k f).tookActive = s.tookActive ∧ (s.updSub k f).permit = s.permit ∧ (s.updSub k f).glkOut = s.glkOut ∧ (s.updSub k f).msgs = s.msgs ∧
    (s.updSub k f).pon = s.pon ∧ (s.updSub k f).prs = s.prs ∧ (s.updSub k f).fwd = s.fwd ∧ (s.updSub k f).tm = s.tm ∧ (s.updSub k f).ddr = s.ddr ∧
    (s.updSub k f).mem = s.mem ∧ (s.updSub k f).ciph = s.ciph ∧ (s.updSub k f).rings = s.rings ∧ (s.updSub k f).time = s.time ∧
    (s.updSub k f).cru = s.cru ∧ (s.updSub k f).patterns = s.patterns ∧ (s.updSub k f).gate = s.gate ∧ (s.updSub k f).glk = s.glk ∧
    (s.updSub k f).hif = s.hif ∧ (s.updSub k f).isl = s.isl :=
    ⟨rfl, rfl, rfl, rfl, rfl, rfl, rfl, rfl, rfl, rfl, rfl, rfl, rfl, rfl, rfl, rfl, rfl, rfl, rfl, rfl, rfl, rfl, rfl, rfl, rfl, rfl, rfl, rfl, rfl, rfl, rfl⟩

@[simp] theorem Chip.updSub_registers (k : Nat) (f : Subport → Subport) : (∀ a, (s.updSub k f).reg a = s.reg a) ∧ (∀ a, (s.updSub k f).act a = s.act a) ∧
    (∀ a hi lo, (s.updSub k f).get a hi lo = s.get a hi lo) ∧ (∀ a k, (s.updSub k f).flag a k = s.flag a k) :=
  ⟨fun _ => rfl, fun _ => rfl, fun _ _ _ => rfl, fun _ _ => rfl⟩

@[simp] theorem Chip.updSub_thread (k : Nat) (f : Subport → Subport) (d u : Nat) : (s.updSub k f).thread d u = s.thread d u := rfl

@[simp] theorem Chip.updRing_keeps (k : Nat) (f : Ring → Ring) :
    (s.updRing k f).regs = s.regs ∧ (s.updRing k f).active = s.active ∧ (s.updRing k f).goAt = s.goAt ∧ (s.updRing k f).rcLatch = s.rcLatch ∧
    (s.updRing k f).ctrLatch = s.ctrLatch ∧ (s.updRing k f).frc = s.frc ∧ (s.updRing k f).rampFrom = s.rampFrom ∧ (s.updRing k f).offset = s.offset ∧
    (s.updRing k f).fresh = s.fresh ∧ (s.updRing k f).readData = s.readData ∧ (s.updRing k f).out = s.out ∧ (s.updRing k f).role = s.role ∧
    (s.updRing k f).tookActive = s.tookActive ∧ (s.updRing k f).permit = s.permit ∧ (s.updRing k f).glkOut = s.glkOut ∧
    (s.updRing k f).msgs = s.msgs ∧ (s.updRing k f).pon = s.pon ∧ (s.updRing k f).prs = s.prs ∧ (s.updRing k f).fwd = s.fwd ∧
    (s.updRing k f).tm = s.tm ∧ (s.updRing k f).ddr = s.ddr ∧ (s.updRing k f).mem = s.mem ∧ (s.updRing k f).ciph = s.ciph ∧
    (s.updRing k f).time = s.time ∧ (s.updRing k f).cru = s.cru ∧ (s.updRing k f).patterns = s.patterns ∧ (s.updRing k f).gate = s.gate ∧
    (s.updRing k f).glk = s.glk ∧ (s.updRing k f).hif = s.hif ∧ (s.updRing k f).subs = s.subs ∧ (s.updRing k f).isl = s.isl :=
    ⟨rfl, rfl, rfl, rfl, rfl, rfl, rfl, rfl, rfl, rfl, rfl, rfl, rfl, rfl, rfl, rfl, rfl, rfl, rfl, rfl, rfl, rfl, rfl, rfl, rfl, rfl, rfl, rfl, rfl, rfl, rfl⟩

@[simp] theorem Chip.updRing_registers (k : Nat) (f : Ring → Ring) : (∀ a, (s.updRing k f).reg a = s.reg a) ∧ (∀ a, (s.updRing k f).act a = s.act a) ∧
    (∀ a hi lo, (s.updRing k f).get a hi lo = s.get a hi lo) ∧ (∀ a k, (s.updRing k f).flag a k = s.flag a k) :=
  ⟨fun _ => rfl, fun _ => rfl, fun _ _ _ => rfl, fun _ _ => rfl⟩

@[simp] theorem Chip.updRing_thread (k : Nat) (f : Ring → Ring) (d u : Nat) : (s.updRing k f).thread d u = s.thread d u := rfl

@[simp] theorem Chip.updPond_keeps (t : Nat) (f : PondTree → PondTree) :
    (s.updPond t f).regs = s.regs ∧ (s.updPond t f).active = s.active ∧ (s.updPond t f).goAt = s.goAt ∧ (s.updPond t f).rcLatch = s.rcLatch ∧
    (s.updPond t f).ctrLatch = s.ctrLatch ∧ (s.updPond t f).frc = s.frc ∧ (s.updPond t f).rampFrom = s.rampFrom ∧ (s.updPond t f).offset = s.offset ∧
    (s.updPond t f).fresh = s.fresh ∧ (s.updPond t f).readData = s.readData ∧ (s.updPond t f).out = s.out ∧ (s.updPond t f).role = s.role ∧
    (s.updPond t f).tookActive = s.tookActive ∧ (s.updPond t f).permit = s.permit ∧ (s.updPond t f).glkOut = s.glkOut ∧
    (s.updPond t f).msgs = s.msgs ∧ (s.updPond t f).prs = s.prs ∧ (s.updPond t f).fwd = s.fwd ∧ (s.updPond t f).tm = s.tm ∧
    (s.updPond t f).ddr = s.ddr ∧ (s.updPond t f).mem = s.mem ∧ (s.updPond t f).ciph = s.ciph ∧ (s.updPond t f).rings = s.rings ∧
    (s.updPond t f).time = s.time ∧ (s.updPond t f).cru = s.cru ∧ (s.updPond t f).patterns = s.patterns ∧ (s.updPond t f).gate = s.gate ∧
    (s.updPond t f).glk = s.glk ∧ (s.updPond t f).hif = s.hif ∧ (s.updPond t f).subs = s.subs ∧ (s.updPond t f).isl = s.isl :=
    ⟨rfl, rfl, rfl, rfl, rfl, rfl, rfl, rfl, rfl, rfl, rfl, rfl, rfl, rfl, rfl, rfl, rfl, rfl, rfl, rfl, rfl, rfl, rfl, rfl, rfl, rfl, rfl, rfl, rfl, rfl, rfl⟩

@[simp] theorem Chip.updPond_registers (t : Nat) (f : PondTree → PondTree) : (∀ a, (s.updPond t f).reg a = s.reg a) ∧ (∀ a, (s.updPond t f).act a = s.act a) ∧
    (∀ a hi lo, (s.updPond t f).get a hi lo = s.get a hi lo) ∧ (∀ a k, (s.updPond t f).flag a k = s.flag a k) :=
  ⟨fun _ => rfl, fun _ => rfl, fun _ _ _ => rfl, fun _ _ => rfl⟩

@[simp] theorem Chip.updPond_thread (t : Nat) (f : PondTree → PondTree) (d u : Nat) : (s.updPond t f).thread d u = s.thread d u := rfl

@[simp] theorem Chip.setStoreByte_keeps (c off : Nat) (b : Byte) :
    (s.setStoreByte c off b).regs = s.regs ∧ (s.setStoreByte c off b).active = s.active ∧ (s.setStoreByte c off b).goAt = s.goAt ∧
    (s.setStoreByte c off b).rcLatch = s.rcLatch ∧ (s.setStoreByte c off b).ctrLatch = s.ctrLatch ∧ (s.setStoreByte c off b).frc = s.frc ∧
    (s.setStoreByte c off b).rampFrom = s.rampFrom ∧ (s.setStoreByte c off b).offset = s.offset ∧ (s.setStoreByte c off b).fresh = s.fresh ∧
    (s.setStoreByte c off b).readData = s.readData ∧ (s.setStoreByte c off b).out = s.out ∧ (s.setStoreByte c off b).role = s.role ∧
    (s.setStoreByte c off b).tookActive = s.tookActive ∧ (s.setStoreByte c off b).permit = s.permit ∧ (s.setStoreByte c off b).glkOut = s.glkOut ∧
    (s.setStoreByte c off b).pon = s.pon ∧ (s.setStoreByte c off b).prs = s.prs ∧ (s.setStoreByte c off b).fwd = s.fwd ∧
    (s.setStoreByte c off b).tm = s.tm ∧ (s.setStoreByte c off b).ddr = s.ddr ∧ (s.setStoreByte c off b).mem = s.mem ∧
    (s.setStoreByte c off b).ciph = s.ciph ∧ (s.setStoreByte c off b).rings = s.rings ∧ (s.setStoreByte c off b).time = s.time ∧
    (s.setStoreByte c off b).cru = s.cru ∧ (s.setStoreByte c off b).patterns = s.patterns ∧ (s.setStoreByte c off b).gate = s.gate ∧
    (s.setStoreByte c off b).glk = s.glk ∧ (s.setStoreByte c off b).hif = s.hif ∧ (s.setStoreByte c off b).subs = s.subs ∧
    (s.setStoreByte c off b).isl = s.isl :=
    ⟨rfl, rfl, rfl, rfl, rfl, rfl, rfl, rfl, rfl, rfl, rfl, rfl, rfl, rfl, rfl, rfl, rfl, rfl, rfl, rfl, rfl, rfl, rfl, rfl, rfl, rfl, rfl, rfl, rfl, rfl, rfl⟩

@[simp] theorem Chip.setStoreByte_registers (c off : Nat) (b : Byte) : (∀ a, (s.setStoreByte c off b).reg a = s.reg a) ∧ (∀ a, (s.setStoreByte c off b).act a = s.act a) ∧
    (∀ a hi lo, (s.setStoreByte c off b).get a hi lo = s.get a hi lo) ∧ (∀ a k, (s.setStoreByte c off b).flag a k = s.flag a k) :=
  ⟨fun _ => rfl, fun _ => rfl, fun _ _ _ => rfl, fun _ _ => rfl⟩

@[simp] theorem Chip.setStoreByte_thread (c off : Nat) (b : Byte) (d u : Nat) : (s.setStoreByte c off b).thread d u = s.thread d u := rfl

@[simp] theorem Chip.setLoader_keeps (f : Loader → Loader) :
    (s.setLoader f).regs = s.regs ∧ (s.setLoader f).active = s.active ∧ (s.setLoader f).goAt = s.goAt ∧ (s.setLoader f).rcLatch = s.rcLatch ∧
    (s.setLoader f).ctrLatch = s.ctrLatch ∧ (s.setLoader f).frc = s.frc ∧ (s.setLoader f).rampFrom = s.rampFrom ∧ (s.setLoader f).offset = s.offset ∧
    (s.setLoader f).fresh = s.fresh ∧ (s.setLoader f).readData = s.readData ∧ (s.setLoader f).out = s.out ∧ (s.setLoader f).role = s.role ∧
    (s.setLoader f).tookActive = s.tookActive ∧ (s.setLoader f).permit = s.permit ∧ (s.setLoader f).glkOut = s.glkOut ∧
    (s.setLoader f).msgs = s.msgs ∧ (s.setLoader f).pon = s.pon ∧ (s.setLoader f).prs = s.prs ∧ (s.setLoader f).fwd = s.fwd ∧
    (s.setLoader f).tm = s.tm ∧ (s.setLoader f).ddr = s.ddr ∧ (s.setLoader f).mem = s.mem ∧ (s.setLoader f).ciph = s.ciph ∧
    (s.setLoader f).rings = s.rings ∧ (s.setLoader f).time = s.time ∧ (s.setLoader f).cru = s.cru ∧ (s.setLoader f).gate = s.gate ∧
    (s.setLoader f).glk = s.glk ∧ (s.setLoader f).hif = s.hif ∧ (s.setLoader f).subs = s.subs ∧ (s.setLoader f).isl = s.isl :=
    ⟨rfl, rfl, rfl, rfl, rfl, rfl, rfl, rfl, rfl, rfl, rfl, rfl, rfl, rfl, rfl, rfl, rfl, rfl, rfl, rfl, rfl, rfl, rfl, rfl, rfl, rfl, rfl, rfl, rfl, rfl, rfl⟩

@[simp] theorem Chip.setLoader_registers (f : Loader → Loader) : (∀ a, (s.setLoader f).reg a = s.reg a) ∧ (∀ a, (s.setLoader f).act a = s.act a) ∧
    (∀ a hi lo, (s.setLoader f).get a hi lo = s.get a hi lo) ∧ (∀ a k, (s.setLoader f).flag a k = s.flag a k) :=
  ⟨fun _ => rfl, fun _ => rfl, fun _ _ _ => rfl, fun _ _ => rfl⟩

@[simp] theorem Chip.setLoader_thread (f : Loader → Loader) (d u : Nat) : (s.setLoader f).thread d u = s.thread d u := rfl

@[simp] theorem Chip.updIsl_keeps (f : Island → Island) :
    (s.updIsl f).regs = s.regs ∧ (s.updIsl f).active = s.active ∧ (s.updIsl f).goAt = s.goAt ∧ (s.updIsl f).rcLatch = s.rcLatch ∧
    (s.updIsl f).ctrLatch = s.ctrLatch ∧ (s.updIsl f).frc = s.frc ∧ (s.updIsl f).rampFrom = s.rampFrom ∧ (s.updIsl f).offset = s.offset ∧
    (s.updIsl f).fresh = s.fresh ∧ (s.updIsl f).readData = s.readData ∧ (s.updIsl f).out = s.out ∧ (s.updIsl f).role = s.role ∧
    (s.updIsl f).tookActive = s.tookActive ∧ (s.updIsl f).permit = s.permit ∧ (s.updIsl f).glkOut = s.glkOut ∧ (s.updIsl f).msgs = s.msgs ∧
    (s.updIsl f).pon = s.pon ∧ (s.updIsl f).prs = s.prs ∧ (s.updIsl f).fwd = s.fwd ∧ (s.updIsl f).tm = s.tm ∧ (s.updIsl f).ddr = s.ddr ∧
    (s.updIsl f).mem = s.mem ∧ (s.updIsl f).ciph = s.ciph ∧ (s.updIsl f).rings = s.rings ∧ (s.updIsl f).time = s.time ∧ (s.updIsl f).cru = s.cru ∧
    (s.updIsl f).patterns = s.patterns ∧ (s.updIsl f).gate = s.gate ∧ (s.updIsl f).glk = s.glk ∧ (s.updIsl f).hif = s.hif ∧
    (s.updIsl f).subs = s.subs :=
    ⟨rfl, rfl, rfl, rfl, rfl, rfl, rfl, rfl, rfl, rfl, rfl, rfl, rfl, rfl, rfl, rfl, rfl, rfl, rfl, rfl, rfl, rfl, rfl, rfl, rfl, rfl, rfl, rfl, rfl, rfl, rfl⟩

@[simp] theorem Chip.updIsl_registers (f : Island → Island) : (∀ a, (s.updIsl f).reg a = s.reg a) ∧ (∀ a, (s.updIsl f).act a = s.act a) ∧
    (∀ a hi lo, (s.updIsl f).get a hi lo = s.get a hi lo) ∧ (∀ a k, (s.updIsl f).flag a k = s.flag a k) :=
  ⟨fun _ => rfl, fun _ => rfl, fun _ _ _ => rfl, fun _ _ => rfl⟩

@[simp] theorem Chip.updIsl_thread (f : Island → Island) (d u : Nat) : (s.updIsl f).thread d u = s.thread d u := rfl

/-! ### Registers read back -/

@[simp] theorem Chip.reg_setReg_self (a : Nat) (v : W64) : (s.setReg a v).reg a = v := Map.look_put_self _ _ a v

theorem Chip.reg_setReg_other {a b : Nat} (v : W64) (h : b ≠ a) : (s.setReg a v).reg b = s.reg b := Map.look_put_other _ _ v h

theorem Chip.reg_setReg (a b : Nat) (v : W64) : (s.setReg a v).reg b = if b = a then v else s.reg b := Map.look_put _ _ b a v

@[simp] theorem Chip.act_setReg (a b : Nat) (v : W64) : (s.setReg a v).act b = s.act b := rfl

/-! ### Threads read back -/

@[simp] theorem Chip.thread_setThread_self (c t : Nat) (x : Thread) : (s.setThread c t x).thread c t = x := Map.get_set_self _ _ x

theorem Chip.thread_setThread_other {c t d u : Nat} (x : Thread) (h : tkey d u ≠ tkey c t) : (s.setThread c t x).thread d u = s.thread d u :=
  Map.get_set_other _ x h

@[simp] theorem Chip.thread_updThread_self (c t : Nat) (f : Thread → Thread) : (s.updThread c t f).thread c t = f (s.thread c t) :=
  Map.get_set_self _ _ _

theorem Chip.thread_updThread_other {c t d u : Nat} (f : Thread → Thread) (h : tkey d u ≠ tkey c t) :
    (s.updThread c t f).thread d u = s.thread d u := Map.get_set_other _ _ h

@[simp] theorem Chip.updThread_registers (c t : Nat) (f : Thread → Thread) :
    (∀ a, (s.updThread c t f).reg a = s.reg a) ∧ (∀ a, (s.updThread c t f).act a = s.act a) ∧
    (∀ a k, (s.updThread c t f).flag a k = s.flag a k) := ⟨fun _ => rfl, fun _ => rfl, fun _ _ => rfl⟩

/-! ### Commands -/

variable (m : State) (f : Chip → Chip)

@[simp] theorem State.act_eq : m.act f = .next (m.withChip (f m.chip)) := rfl

theorem State.core_running (h : m.chip.running = true) : m.core f = .next (m.withChip (f m.chip)) := by
  simp only [State.core, State.act, h, if_true]

theorem State.core_held (h : m.chip.running = false) : m.core f = .next m := by
  simp [State.core, State.act, h]

/-- Whatever a command of the core does, it answers, and the queue stays. -/
theorem State.core_next : ∃ x, m.core f = .next (m.withChip x) := ⟨_, rfl⟩

theorem State.bar0_inside {a : BitVec 32} (h : a.toNat < 67108864) : m.bar0 a f = m.core f := if_pos h

theorem State.bar0_outside {a : BitVec 32} (h : 67108864 ≤ a.toNat) : m.bar0 a f = .fault (.outsideBar0 a.toNat) :=
  if_neg (Nat.not_lt.mpr h)

end Sys2Proof.Machine
end

