-- ==== Sys2Proof/Laws/Bits.lean ====
section
/-! SUPPORT. Fields of registers: what a field or bit reads after another was set, and events and counters read back. -/
namespace Sys2Proof.Machine

theorem getLsbD_setFld (v : W64) (hi lo x k : Nat) (hk : k < 64) :
    (setFld v hi lo x).getLsbD k = if lo ≤ k ∧ k < hi + 1 then x.testBit (k - lo) else v.getLsbD k := by
  simp only [setFld, BitVec.getLsbD_or, BitVec.getLsbD_and, BitVec.getLsbD_not, BitVec.getLsbD_ofNat, hk, decide_true, Bool.true_and,
    Nat.testBit_and, Nat.testBit_shiftLeft, Nat.testBit_two_pow_sub_one]
  by_cases h1 : lo ≤ k <;> by_cases h2 : k < hi + 1
  · have h3 : k - lo < hi + 1 - lo := by omega
    simp [h1, h2, h3]
  · have h3 : ¬(k - lo < hi + 1 - lo) := by omega
    simp [h1, h2, h3]
  · simp [h1]
  · simp [h1]

theorem testBit_fld (v : W64) (hi lo j : Nat) : (fld v hi lo).testBit j = (decide (j < hi + 1 - lo) && v.getLsbD (lo + j)) := by
  simp only [fld, bitsOf, Nat.testBit_mod_two_pow, Nat.testBit_shiftRight, BitVec.getLsbD]

/-- A field reads what was put there. -/
theorem fld_setFld_self (v : W64) {hi lo : Nat} (x : Nat) (h : hi < 64) : fld (setFld v hi lo x) hi lo = x % 2 ^ (hi + 1 - lo) := by
  apply Nat.eq_of_testBit_eq
  intro j
  rw [testBit_fld, Nat.testBit_mod_two_pow]
  by_cases hj : j < hi + 1 - lo
  · rw [getLsbD_setFld _ _ _ _ _ (by omega), if_pos ⟨by omega, by omega⟩]
    simp [hj]
  · simp [hj]

/-- A field apart from the one set reads as before. -/
theorem fld_setFld_other (v : W64) {hi lo h l : Nat} (x : Nat) (h64 : h < 64) (hd : h < lo ∨ hi < l) : fld (setFld v hi lo x) h l = fld v h l := by
  apply Nat.eq_of_testBit_eq
  intro j
  rw [testBit_fld, testBit_fld]
  by_cases hj : j < h + 1 - l
  · rw [getLsbD_setFld _ _ _ _ _ (by omega), if_neg (by omega)]
  · simp [hj]

theorem bit_setFld (v : W64) {hi lo k : Nat} (x : Nat) (hk : k < 64) :
    bit (setFld v hi lo x) k = if lo ≤ k ∧ k < hi + 1 then x.testBit (k - lo) else bit v k := getLsbD_setFld v hi lo x k hk

@[simp] theorem bit_setBit_self (v : W64) {k : Nat} (b : Bool) (hk : k < 64) : bit (setBit v k b) k = b := by
  unfold setBit
  rw [bit_setFld v _ hk, if_pos ⟨Nat.le_refl k, Nat.lt_succ_self k⟩]
  cases b <;> simp [ofBool]

theorem bit_setBit_other (v : W64) {j k : Nat} (b : Bool) (hj : j < 64) (h : j ≠ k) : bit (setBit v k b) j = bit v j := by
  unfold setBit
  rw [bit_setFld v _ hj, if_neg (by omega)]

theorem bit_setBit (v : W64) {j k : Nat} (b : Bool) (hj : j < 64) : bit (setBit v k b) j = if j = k then b else bit v j := by
  by_cases h : j = k
  · rw [if_pos h, h, bit_setBit_self v b (h ▸ hj)]
  · rw [if_neg h, bit_setBit_other v b hj h]

theorem fld_setBit_other (v : W64) {h l k : Nat} (b : Bool) (h64 : h < 64) (hd : h < k ∨ k < l) : fld (setBit v k b) h l = fld v h l :=
  fld_setFld_other v _ h64 hd

theorem fld_lt (v : W64) (hi lo : Nat) : fld v hi lo < 2 ^ (hi + 1 - lo) := Nat.mod_lt _ (Nat.pow_pos (by decide))

/-! ### Registers -/

variable (s : Chip)

theorem Chip.flag_setFlag_self (a : Nat) {k : Nat} (b : Bool) (hk : k < 64) : (s.setFlag a k b).flag a k = b := by
  simp [Chip.flag, Chip.setFlag, bit_setBit_self _ b hk]

theorem Chip.flag_setFlag_bit (a : Nat) {j k : Nat} (b : Bool) (hj : j < 64) (h : j ≠ k) : (s.setFlag a k b).flag a j = s.flag a j := by
  simp [Chip.flag, Chip.setFlag, bit_setBit_other _ b hj h]

theorem Chip.flag_setFlag_reg {a c : Nat} (j k : Nat) (b : Bool) (h : c ≠ a) : (s.setFlag a k b).flag c j = s.flag c j := by
  simp [Chip.flag, Chip.setFlag, Chip.reg_setReg_other s _ h]

theorem Chip.get_setFlag_bit (a : Nat) {hi lo k : Nat} (b : Bool) (h64 : hi < 64) (h : hi < k ∨ k < lo) :
    (s.setFlag a k b).get a hi lo = s.get a hi lo := by
  simp [Chip.get, Chip.setFlag, fld_setBit_other _ b h64 h]

theorem Chip.get_setFlag_reg {a c : Nat} (hi lo k : Nat) (b : Bool) (h : c ≠ a) : (s.setFlag a k b).get c hi lo = s.get c hi lo := by
  simp [Chip.get, Chip.setFlag, Chip.reg_setReg_other s _ h]

theorem Chip.get_setField_self (a : Nat) {hi lo : Nat} (x : Nat) (h : hi < 64) : (s.setField a hi lo x).get a hi lo = x % 2 ^ (hi + 1 - lo) := by
  simp [Chip.get, Chip.setField, fld_setFld_self _ x h]

theorem Chip.get_setField_field (a : Nat) {hi lo h l : Nat} (x : Nat) (h64 : h < 64) (hd : h < lo ∨ hi < l) :
    (s.setField a hi lo x).get a h l = s.get a h l := by
  simp [Chip.get, Chip.setField, fld_setFld_other _ x h64 hd]

theorem Chip.get_setField_reg {a c : Nat} (hi lo h l x : Nat) (hc : c ≠ a) : (s.setField a hi lo x).get c h l = s.get c h l := by
  simp [Chip.get, Chip.setField, Chip.reg_setReg_other s _ hc]

theorem Chip.flag_setField (a : Nat) {hi lo k : Nat} (x : Nat) (hk : k < 64) :
    (s.setField a hi lo x).flag a k = if lo ≤ k ∧ k < hi + 1 then x.testBit (k - lo) else s.flag a k := by
  simp [Chip.flag, Chip.setField, bit_setFld _ x hk]

theorem Chip.flag_setField_reg {a c : Nat} (hi lo k x : Nat) (hc : c ≠ a) : (s.setField a hi lo x).flag c k = s.flag c k := by
  simp [Chip.flag, Chip.setField, Chip.reg_setReg_other s _ hc]

/-- Whatever else it does, an increment changes registers only. -/
theorem Chip.bump_eq (a n : Nat) : ∃ r, s.bump a n = { s with regs := r } := by
  unfold Chip.bump
  dsimp only
  split
  · exact ⟨_, rfl⟩
  · exact ⟨_, rfl⟩

@[simp] theorem Chip.setFlag_keeps (a k : Nat) (b : Bool) :
    (s.setFlag a k b).isl = s.isl ∧ (s.setFlag a k b).cru = s.cru ∧ (s.setFlag a k b).hif = s.hif ∧ (s.setFlag a k b).active = s.active :=
  ⟨rfl, rfl, rfl, rfl⟩

@[simp] theorem Chip.setField_keeps (a hi lo x : Nat) :
    (s.setField a hi lo x).isl = s.isl ∧ (s.setField a hi lo x).cru = s.cru ∧ (s.setField a hi lo x).hif = s.hif ∧
    (s.setField a hi lo x).active = s.active :=
  ⟨rfl, rfl, rfl, rfl⟩

/-- Every part of the state but the registers is as it was. -/
def RegsOnly (s t : Chip) : Prop := t = { s with regs := t.regs }

theorem regsOnly_setReg (a : Nat) (v : W64) : RegsOnly s (s.setReg a v) := rfl
theorem regsOnly_raise (a k : Nat) : RegsOnly s (s.raise a k) := rfl
theorem regsOnly_bump (a n : Nat) : RegsOnly s (s.bump a n) := by
  obtain ⟨r, h⟩ := s.bump_eq a n
  rw [h]; rfl

theorem RegsOnly.trans {s t u : Chip} (h : RegsOnly s t) (g : RegsOnly t u) : RegsOnly s u := by
  unfold RegsOnly at h g ⊢
  rw [g, h]

/-- What an increment leaves as it was. -/
@[simp] theorem Chip.bump_keeps (a n : Nat) :
    (s.bump a n).isl = s.isl ∧ (s.bump a n).hif = s.hif ∧ (s.bump a n).cru = s.cru ∧ (s.bump a n).patterns = s.patterns ∧
    (s.bump a n).mem = s.mem ∧ (s.bump a n).tm = s.tm ∧ (s.bump a n).pon = s.pon ∧ (s.bump a n).active = s.active ∧
    (s.bump a n).msgs = s.msgs ∧ (s.bump a n).gate = s.gate ∧ (s.bump a n).glk = s.glk ∧ (s.bump a n).ciph = s.ciph ∧
    (s.bump a n).frc = s.frc ∧ (s.bump a n).out = s.out := by
  obtain ⟨r, h⟩ := s.bump_eq a n
  rw [h]
  exact ⟨rfl, rfl, rfl, rfl, rfl, rfl, rfl, rfl, rfl, rfl, rfl, rfl, rfl, rfl⟩

/-- An increment of a register outside its own window of events leaves every other register but its block's event register as it was. -/
theorem Chip.reg_bump_other {a b : Nat} (n : Nat) (h : b ≠ a) (he : ∀ e k, halfEvent a = some (e, k) → b ≠ e) : (s.bump a n).reg b = s.reg b := by
  unfold Chip.bump
  dsimp only
  split
  · next e k _ hk => rw [Chip.raise, Chip.setFlag, Chip.reg_setReg_other _ _ (he e k hk), Chip.reg_setReg_other _ _ h]
  · exact Chip.reg_setReg_other _ _ h

/-- The count after an increment. -/
theorem Chip.get_bump_self {a n : Nat} (he : ∀ e k, halfEvent a = some (e, k) → a ≠ e) :
    (s.bump a n).get a 47 0 = countAdd (s.get a 47 0) n := by
  have hr : (s.bump a n).reg a = w64 (countAdd (s.get a 47 0) n) := by
    unfold Chip.bump
    dsimp only
    split
    · next e k _ hk => rw [Chip.raise, Chip.setFlag, Chip.reg_setReg_other _ _ (he e k hk), Chip.reg_setReg_self]
    · rw [Chip.reg_setReg_self]
  rw [Chip.get, hr]
  have hlt : countAdd (s.get a 47 0) n < 281474976710656 := Nat.mod_lt _ (by decide)
  simp only [fld, bitsOf, w64, BitVec.toNat_ofNat, Nat.shiftRight_zero]
  omega

end Sys2Proof.Machine
end

