-- ==== Sys2Proof/Laws/Ddr.lean ====
section
/-! SUPPORT. DDR5: a byte read after a write, what a write leaves as it was, and that every operation keeps its bytes in canonical form. -/
namespace Sys2Proof.Machine

/-- The bytes of a write, put one by one. -/
def Map.putBytes (m : Map Byte) (a : Nat) (l : List Byte) : Map Byte := (addressed a l).foldl (fun m (e : Nat × Byte) => m.set e.1 e.2) m

theorem Map.putBytes_cons (m : Map Byte) (a : Nat) (b : Byte) (l : List Byte) : m.putBytes a (b :: l) = (m.set a b).putBytes (a + 1) l := rfl

/-- A byte outside the written ones reads as before. -/
theorem Map.get_putBytes_outside (l : List Byte) : ∀ (m : Map Byte) (a k : Nat), k < a ∨ a + l.length ≤ k → (m.putBytes a l).get k = m.get k := by
  induction l with
  | nil => intro m a k _; rfl
  | cons b l ih =>
    intro m a k h
    rw [List.length_cons] at h
    rw [Map.putBytes_cons, ih _ _ _ (by omega), Map.get_set_other _ _ (by omega)]

/-- A written byte reads as written. -/
theorem Map.get_putBytes_inside (l : List Byte) : ∀ (m : Map Byte) (a i : Nat) (h : i < l.length), (m.putBytes a l).get (a + i) = l[i] := by
  induction l with
  | nil => intro m a i h; exact absurd h (Nat.not_lt_zero i)
  | cons b l ih =>
    intro m a i h
    rw [Map.putBytes_cons]
    cases i with
    | zero => rw [Map.get_putBytes_outside _ _ _ _ (by omega)]; exact Map.get_set_self m a b
    | succ i =>
      rw [show a + (i + 1) = a + 1 + i by omega, ih _ _ _ (by simpa using h)]
      rfl

theorem Map.canon_putBytes (l : List Byte) : ∀ (m : Map Byte) (a : Nat), m.canon = true → (m.putBytes a l).canon = true := by
  induction l with
  | nil => intro m a h; exact h
  | cons b l ih => intro m a h; exact ih _ _ (Map.canon_set m a b h)

/-- Taking entries out keeps the canonical form. -/
theorem Map.wfFrom_filter {α : Type} [DecidableEq α] (d : Nat → α) (p : Nat × α → Bool) (m : Map α) :
    ∀ lo, Map.wfFrom d lo m = true → Map.wfFrom d lo (m.filter p : Map α) = true := by
  induction m with
  | nil => intro lo h; exact h
  | cons e m ih =>
    obtain ⟨j, v⟩ := e
    intro lo h
    simp only [Map.wfFrom, Bool.and_eq_true, decide_eq_true_eq] at h
    cases hp : p (j, v)
    · rw [List.filter_cons_of_neg (by simp [hp])]
      exact Map.wfFrom_mono d _ (by omega) (ih (j + 1) h.2.2)
    · rw [List.filter_cons_of_pos hp]
      simp only [Map.wfFrom, Bool.and_eq_true, decide_eq_true_eq]
      exact ⟨h.1, h.2.1, ih (j + 1) h.2.2⟩

theorem Chip.ddrWrite_ddr (s : Chip) (off : Nat) (l : List Byte) : (s.ddrWrite off l).ddr = s.ddr.putBytes off l := rfl

/-- What was written is read back. -/
theorem Chip.ddrRead_ddrWrite_self (s : Chip) (off : Nat) (l : List Byte) : (s.ddrWrite off l).ddrRead off l.length = l := by
  apply List.ext_getElem
  · simp [Chip.ddrRead]
  · intro i h _
    simp only [Chip.ddrRead, List.getElem_map, List.getElem_range, Chip.ddrWrite_ddr]
    exact Map.get_putBytes_inside l s.ddr off i (by simpa [Chip.ddrRead] using h)

/-- Bytes apart from the written ones read as before. -/
theorem Chip.ddrRead_ddrWrite_apart (s : Chip) (off a n : Nat) (l : List Byte) (h : a + n ≤ off ∨ off + l.length ≤ a) :
    (s.ddrWrite off l).ddrRead a n = s.ddrRead a n := by
  apply List.map_congr_left
  intro i hi
  have := List.mem_range.mp hi
  rw [Chip.ddrWrite_ddr]
  exact Map.get_putBytes_outside l s.ddr off (a + i) (by omega)

theorem Chip.ddrWrite_canon (s : Chip) (off : Nat) (l : List Byte) (h : s.ddr.canon = true) : (s.ddrWrite off l).ddr.canon = true :=
  Map.canon_putBytes l s.ddr off h

theorem Chip.ddrForget_canon (s : Chip) (h : s.ddr.canon = true) : s.ddrForget.ddr.canon = true := Map.wfFrom_filter _ _ s.ddr 0 h

end Sys2Proof.Machine
end

