-- ==== Sys2Proof/Laws/Exec.lean ====
section
/-! SUPPORT. The two shapes that every command's meaning has: it acts on the part always, or while the core runs. -/
namespace Sys2Proof.Machine

/-- Every command that names no offset completes, and leaves the queue as it is. -/
theorem exec_completes (i : Instr) (h : i.offset = none) (u : State) : ∃ x, exec i u = .next { u with chip := x } := by
  cases i <;> first | exact ⟨_, rfl⟩ | cases h

/-- A command of the core does nothing while the core does not run, unless it names an offset. -/
theorem exec_held (i : Instr) (h : i.ofIsland = false) (h0 : i.offset = none) (u : State) (hu : u.chip.running = false) : exec i u = .next u := by
  cases i <;> first | exact State.core_held _ _ hu | (cases h; done) | (cases h0; done) |
    simp only [exec, execXgemDeframe, execSduPlace, execSpareJoin, State.core_held _ _ hu]

end Sys2Proof.Machine
end

