-- ==== Sys2Proof/Laws/Issue.lean ====
section
/-! SUPPORT. What the issue of an instruction counts and changes, and how an instruction that only writes its thread completes. -/
namespace Sys2Proof.Machine
open Sys2Proof.Claim

/-- A counter's increment changes registers of its engine's counters and the crucible's events only. -/
theorem ctrAdd_frame (s : Chip) (c e k n : Nat) : RegsOnly s (s.ctrAdd c e k n) ∧ ∀ a, ¬counterRegister c e a → (s.ctrAdd c e k n).reg a = s.reg a := by
  unfold Chip.ctrAdd
  dsimp only
  refine ⟨?_, fun a ha => ?_⟩
  · split <;> rfl
  · have h1 : a ≠ Cell.ctrData c e k := fun h => ha (.inr ⟨k, .inl h⟩)
    have h2 : a ≠ Cell.ctrCfg c e k := fun h => ha (.inr ⟨k, .inr h⟩)
    have h3 : a ≠ Reg.CRU_EVENT c := fun h => ha (.inl h)
    split
    · exact Chip.reg_setReg_other _ _ h1
    · rw [Chip.raise, Chip.setFlag, Chip.reg_setReg_other _ _ h3, Chip.setFlag, Chip.reg_setReg_other _ _ h2, Chip.reg_setReg_other _ _ h1]

/-- u is s but for counters of one engine and the events of its crucible. -/
def CountsOnly (c e : Nat) (s u : Chip) : Prop := RegsOnly s u ∧ ∀ a, ¬counterRegister c e a → u.reg a = s.reg a

theorem CountsOnly.refl (c e : Nat) (s : Chip) : CountsOnly c e s s := ⟨rfl, fun _ _ => rfl⟩

theorem CountsOnly.trans {c e : Nat} {s u v : Chip} (h : CountsOnly c e s u) (g : CountsOnly c e u v) : CountsOnly c e s v :=
  ⟨RegsOnly.trans h.1 g.1, fun a ha => (g.2 a ha).trans (h.2 a ha)⟩

theorem CountsOnly.fold {c e : Nat} (f : Chip → Nat → Chip) (hf : ∀ u k, CountsOnly c e u (f u k)) (l : List Nat) :
    ∀ s, CountsOnly c e s (l.foldl f s) := by
  induction l with
  | nil => exact fun s => .refl c e s
  | cons k l ih => exact fun s => .trans (hf s k) (ih (f s k))

/-- An event counted changes counters and the event register of its crucible only. -/
theorem countEvent_frame (s : Chip) (c e : Nat) (super : Bool) (code n : Nat) : CountsOnly c e s (s.countEvent c e super code n) := by
  unfold Chip.countEvent
  apply CountsOnly.fold
  intro u k
  dsimp only
  generalize (decide (fld (u.reg (Cell.ctrCfg c e k)) 7 0 = code) && bit (u.reg (Cell.ctrCfg c e k)) (if super = true then 9 else 8) &&
    decide (n ≠ 0)) = b
  cases b
  · exact .refl c e u
  · exact ctrAdd_frame u c e k n

theorem RegsOnly.thread_eq {s u : Chip} (h : RegsOnly s u) (d t : Nat) : u.thread d t = s.thread d t := by
  unfold RegsOnly at h
  rw [h]; rfl

theorem OnlyThread.of_counts {s u : Chip} {c t : Nat} (h : CountsOnly c (t / 8) s u) : OnlyThread s u c t := by
  obtain ⟨h, g⟩ := h
  refine ⟨g, fun d v _ => h.thread_eq d v, ?_, ?_⟩
  · intro k _; unfold RegsOnly at h; rw [h]; exact ⟨rfl, rfl⟩
  · unfold RegsOnly at h; rw [h]

theorem OnlyThread.trans {s u v : Chip} {c t : Nat} (h : OnlyThread s u c t) (g : OnlyThread u v c t) : OnlyThread s v c t := by
  obtain ⟨h1, h2, h3, h4⟩ := h
  obtain ⟨g1, g2, g3, g4⟩ := g
  refine ⟨fun a ha => (g1 a ha).trans (h1 a ha), fun d w hw => (g2 d w hw).trans (h2 d w hw),
    fun k hk => ⟨(g3 k hk).1.trans (h3 k hk).1, (g3 k hk).2.trans (h3 k hk).2⟩, ?_⟩
  rw [g4, h4]

/-- A thread changed. -/
theorem OnlyThread.updThread (s : Chip) (c t : Nat) (f : Thread → Thread) : OnlyThread s (s.updThread c t f) c t :=
  ⟨fun _ _ => rfl, fun _ _ h => Chip.thread_updThread_other _ _ h, fun _ _ => ⟨rfl, rfl⟩, rfl⟩

theorem OnlyThread.countEvent (s : Chip) (c t : Nat) (super : Bool) (code n : Nat) : OnlyThread s (s.countEvent c (t / 8) super code n) c t :=
  OnlyThread.of_counts (countEvent_frame s c (t / 8) super code n)

/-- Issue counts events; it notes which thread issued last, and an instruction between two CTR.RD. -/
theorem countIssue_parts (s : Chip) (c t : Nat) (long : Bool) : ∃ u run, CountsOnly c (t / 8) s u ∧
    s.countIssue c t long = { u with cru := { u.cru with lastIssued := u.cru.lastIssued.set (c * 32 + t / 8) (t % 8 + 1)
                                                         ctrRuns := u.cru.ctrRuns.set (c * 32 + t / 8) run } } := by
  refine ⟨_, _, ?_, rfl⟩
  refine .trans ?_ (countEvent_frame _ _ _ _ _ _)
  have h : CountsOnly c (t / 8) s ((s.countEvent c (t / 8) (s.thread c t).super 0x02).countEvent c (t / 8) (s.thread c t).super (0x30 + t % 8)) :=
    .trans (countEvent_frame _ _ _ _ _ _) (countEvent_frame _ _ _ _ _ _)
  split
  · exact .trans h (countEvent_frame _ _ _ _ _ _)
  · exact h

/-- Issue changes the counters of the engine, its last issue and its run of CTR.RD, and no thread. -/
theorem countIssue_frame (s : Chip) (c t : Nat) (long : Bool) : OnlyThread s (s.countIssue c t long) c t ∧
    (∀ d u, (s.countIssue c t long).thread d u = s.thread d u) ∧ (s.countIssue c t long).cru.lastIssued.get (c * 32 + t / 8) = t % 8 + 1 := by
  obtain ⟨u, run, ⟨h, g⟩, e⟩ := countIssue_parts s c t long
  have hu := h
  unfold RegsOnly at hu
  rw [e]
  refine ⟨⟨g, fun d w _ => h.thread_eq d w, ?_, ?_⟩, fun d w => h.thread_eq d w, by dsimp only; exact Map.get_set_self _ _ _⟩
  · intro k hk
    dsimp only
    rw [Map.get_set_other _ _ hk, Map.get_set_other _ _ hk, hu]
    exact ⟨rfl, rfl⟩
  · rw [hu]

@[simp] theorem countIssue_thread (s : Chip) (c t d u : Nat) (long : Bool) : (s.countIssue c t long).thread d u = s.thread d u :=
  (countIssue_frame s c t long).2.1 d u

/-- A thread that an engine chooses is READY. -/
theorem Issues.ready {s : State} {c t : Nat} {w : BitVec 32} (h : Issues s c t w) : (s.chip.thread c t).state = stReady := by
  obtain ⟨_, h, _, _⟩ := h
  unfold Chip.canIssue at h
  simp only [Bool.and_eq_true, decide_eq_true_eq] at h
  obtain ⟨_, h⟩ := h
  have hmem : ∀ u, u ∈ s.chip.readyOrder c (t / 8) → (s.chip.thread c u).state = stReady := by
    intro u hu
    unfold Chip.readyOrder at hu
    simpa using (List.mem_filter.mp hu).2
  unfold Chip.chosen at h
  split at h
  · rename_i p hp
    cases h
    unfold Chip.ctrTurn at hp
    split at hp
    · split at hp
      · rename_i q hq
        simp only [Bool.and_eq_true, decide_eq_true_eq] at hq
        cases hp
        exact hq.1.1.2
      · cases hp
    · cases hp
  · split at h
    · rename_i u hu
      cases h
      exact hmem _ (List.mem_of_find?_eq_some hu)
    · exact hmem _ (List.mem_of_mem_head? h)

theorem issue_eq {s : State} {c t : Nat} {w : BitVec 32} (h : Issues s c t w) (long : Bool) (act : Chip → Chip) :
    s.chip.issue c t w long act = act (s.chip.countIssue c t long) := by
  obtain ⟨_, h2, h3, h4⟩ := h
  unfold Chip.issue
  simp only [h2, h3, h4, Bool.not_true, Bool.false_eq_true, if_false, ne_eq, not_true_eq_false]

/-- A short instruction that only changes its thread leaves it as said. -/
theorem leaves_of {i : Instr} {s : State} {c t : Nat} {w : BitVec 32} {x : Thread} (h : Issues s c t w) (act : Chip → Chip)
    (he : exec i s = s.core fun y => y.issue c t w false act) (ha : OnlyThread (issued s c t) (act (issued s c t)) c t)
    (hl : (act (issued s c t)).cru.lastIssued = (issued s c t).cru.lastIssued) (hx : (act (issued s c t)).thread c t = x) : Leaves i s c t x := by
  obtain ⟨f1, _, f3⟩ := countIssue_frame s.chip c t false
  refine ⟨act (issued s c t), ?_, OnlyThread.trans f1 ha, hx, ?_⟩
  · unfold Runs
    rw [he, State.core_running _ _ h.1, issue_eq h]; rfl
  · rw [hl]; exact f3

theorem result_lastIssued (u : Chip) (c t rd : Nat) (v : W64) : (u.result c t rd v).cru.lastIssued = u.cru.lastIssued := rfl

theorem result_thread (u : Chip) (c t rd : Nat) (v : W64) :
    (u.result c t rd v).thread c t = { (u.thread c t).setG rd v with ip := nextIp (u.thread c t).ip } := by
  unfold Chip.result Chip.next
  rw [Chip.thread_updThread_self]

theorem result_only (u : Chip) (c t rd : Nat) (v : W64) : OnlyThread u (u.result c t rd v) c t := OnlyThread.updThread u c t _

/-- A short instruction that writes a result computes it. -/
theorem computes_of {i : Instr} {s : State} {c t rd : Nat} {w : BitVec 32} {v : W64} (h : Issues s c t w) (act : Chip → Chip)
    (he : exec i s = s.core fun y => y.issue c t w false act) (ha : act (issued s c t) = (issued s c t).result c t rd v) : Computes i s c t rd v := by
  have h2 : (issued s c t).thread c t = s.chip.thread c t := countIssue_thread _ _ _ _ _ _
  have hx := result_thread (issued s c t) c t rd v
  rw [h2] at hx
  have ho := result_only (issued s c t) c t rd v
  have hl := result_lastIssued (issued s c t) c t rd v
  rw [← ha] at hx ho hl
  exact leaves_of h act he ho hl hx

end Sys2Proof.Machine
end

