-- ==== Sys2Proof/Laws/Long.lean ====
section
/-! SUPPORT. How a long instruction completes whose routine runs straight through: its words do nothing until the last one ends the instruction. -/
namespace Sys2Proof.Machine
open Sys2Proof.Claim

/-- A sound word of a crucible with a pattern is fetched, and nothing changes. -/
theorem csFetch_sound {s : Chip} {c e a : Nat} (hb : (s.store c).broken.contains a = false) (hw : (s.store c).wrong.get a = 0)
    (hv : (s.store c).contents.version.isSome = true) (hs : uf ((s.store c).contents.words.get a) 15 14 ≠ 3) :
    s.csFetch c e a = (some ((s.store c).contents.words.get a), s) := by
  have hn : (s.store c).contents.version.isNone = false := by
    cases h : (s.store c).contents.version <;> simp_all
  have hc : w20Check 0 = .clean := by unfold w20Check; rw [if_pos rfl]
  unfold Chip.csFetch
  simp only [hb, hw, hc, hn, hs, decide_false, Bool.or_self, Bool.false_eq_true, if_false, if_true, reduceCtorEq]

/-- A word without a WAIT goes on where the instruction is ready for it. -/
theorem microWait_none {s : Chip} {c t : Nat} {w : BitVec 128} {pass : Nat} {r : Routine} (hw : uf w 42 37 = 0) (hr : s.longReady c t r = true) :
    s.microWait c t w pass r = some (pass, { r with waiting := false }, s) := by
  unfold Chip.microWait Chip.reserve
  simp only [hw, hr, Bool.not_true, Bool.and_false, Bool.false_eq_true, if_false, if_true]
  split <;> rfl

theorem longReady_run (s : Chip) (c t : Nat) (r : Routine) (a k w : Nat) (b e : Bool) :
    s.longReady c t { r with word := a, cycles := k, since := w, waiting := b, commit := e } = s.longReady c t r := rfl

/-- What the end of a routine does depends neither on the word that ends it nor on its commit phase. -/
theorem longFinish_run (s : Chip) (c : Cru) (t : Nat) (r : Routine) (a : Nat) (b e : Bool) :
    s.longFinish c t { r with word := a, waiting := b, commit := e } = s.longFinish c t r := rfl

/-- A routine that runs straight through ends the instruction, where the instruction is ready. -/
theorem microRun_straight (c : Cru) (t : Nat) (s : Chip) (hv : (s.store c).contents.version.isSome = true) : ∀ (n a k pass : Nat) (r : Routine),
    straightCycles (s.store c) n a = some k → s.longReady c t r = true →
    ∃ m, s.microRun c t n pass { r with word := a } = s.longFinish c t { r with cycles := m, waiting := r.waiting } ∧ (r.waiting = false → m = r.cycles + k) := by
  intro n
  induction n with
  | zero => intro a k pass r h; simp [straightCycles] at h
  | succ n ih =>
    intro a k pass r h hr
    unfold straightCycles at h
    dsimp only at h
    split at h
    · cases h
    · rename_i hb
      simp only [Bool.or_eq_true, decide_eq_true_eq, not_or, Bool.not_eq_true, ne_eq, Decidable.not_not] at hb
      obtain ⟨⟨⟨h1, h2⟩, h3⟩, h4⟩ := hb
      have hs : uf ((s.store c).contents.words.get a) 15 14 ≠ 3 := by
        intro e; rw [e] at h; cases h
      unfold Chip.microRun
      dsimp only
      rw [csFetch_sound h1 h2 hv hs]
      dsimp only
      rw [microWait_none (r := { r with word := a, cycles := _ }) h3 hr]
      dsimp only
      unfold Chip.microAct
      simp only [h4, Nat.zero_ne_one, if_false]
      split at h
      · rename_i e
        obtain ⟨k', hk, rfl⟩ := Option.map_eq_some_iff.mp h
        simp only [e]
        obtain ⟨m, hm, hc⟩ := ih (uf ((s.store c).contents.words.get a) 13 0) k' pass
          { r with cycles := if r.waiting then r.cycles else r.cycles + uf ((s.store c).contents.words.get a) 44 43 + 1, waiting := false,
                   commit := r.commit || decide (uf ((s.store c).contents.words.get a) 45 45 = 1) } hk hr
        refine ⟨m, ?_, ?_⟩
        · exact hm
        · intro hw
          have := hc rfl
          simp only [hw, Bool.false_eq_true, if_false] at this
          omega
      · rename_i e
        simp only [e]
        cases h
        refine ⟨_, rfl, ?_⟩
        intro hw
        simp only [hw, Bool.false_eq_true, if_false]
        omega
      · cases h

/-- A word without a WAIT that neither commits nor ends goes on whatever the instruction waits for; one that does holds the thread. -/
theorem microWait_held {s : Chip} {c t : Nat} {w : BitVec 128} {pass : Nat} {r : Routine} (hw : uf w 42 37 = 0) (hr : s.longReady c t r = false) :
    s.microWait c t w pass r = if (uf w 45 45 = 1 || uf w 15 14 = 2) = true then none else some (pass, { r with waiting := false }, s) := by
  unfold Chip.microWait Chip.reserve
  simp only [hw, hr, Bool.not_false, Bool.and_true, if_true]
  split
  · rfl
  · split <;> rfl

/-- A routine that runs straight through holds the thread before its commit phase or its end, where the instruction is not ready. -/
theorem microRun_held (c : Cru) (t : Nat) (s : Chip) (hv : (s.store c).contents.version.isSome = true) : ∀ (n a k pass : Nat) (r : Routine),
    straightCycles (s.store c) n a = some k → s.longReady c t r = false →
    ∃ b m, s.microRun c t n pass { r with word := a, commit := false } =
        s.hold c t { r with word := b, cycles := m, waiting := true, commit := false } ∧
      ∃ j k', straightCycles (s.store c) j b = some k' ∧ j ≤ n := by
  intro n
  induction n with
  | zero => intro a k pass r h; simp [straightCycles] at h
  | succ n ih =>
    intro a k pass r h hr
    have h0 := h
    unfold straightCycles at h
    dsimp only at h
    split at h
    · cases h
    · rename_i hb
      simp only [Bool.or_eq_true, decide_eq_true_eq, not_or, Bool.not_eq_true, ne_eq, Decidable.not_not] at hb
      obtain ⟨⟨⟨h1, h2⟩, h3⟩, h4⟩ := hb
      have hs : uf ((s.store c).contents.words.get a) 15 14 ≠ 3 := by
        intro e; rw [e] at h; cases h
      unfold Chip.microRun
      dsimp only
      rw [csFetch_sound h1 h2 hv hs]
      dsimp only
      rw [microWait_held (r := { r with word := a, cycles := _, commit := false }) h3 hr]
      by_cases hx : (uf ((s.store c).contents.words.get a) 45 45 = 1 || uf ((s.store c).contents.words.get a) 15 14 = 2) = true
      · rw [if_pos hx]
        exact ⟨a, _, rfl, n + 1, k, h0, Nat.le_refl _⟩
      · rw [if_neg hx]
        simp only [Bool.or_eq_true, decide_eq_true_eq, not_or] at hx
        obtain ⟨hx1, hx2⟩ := hx
        dsimp only
        unfold Chip.microAct
        simp only [h4, hx1, decide_false, Bool.or_self, Nat.zero_ne_one, if_false]
        split at h
        · rename_i e
          obtain ⟨k', hk, rfl⟩ := Option.map_eq_some_iff.mp h
          simp only [e]
          obtain ⟨b, m, hm, j, k'', hj, hl⟩ := ih (uf ((s.store c).contents.words.get a) 13 0) k' pass
            { r with cycles := if r.waiting then r.cycles else r.cycles + uf ((s.store c).contents.words.get a) 44 43 + 1, waiting := false } hk hr
          refine ⟨b, m, ?_, j, k'', hj, by omega⟩
          exact hm
        · rename_i e
          exact absurd e hx2
        · cases h

theorem count_frame (s : Chip) (c t code n : Nat) : CountsOnly c (t / 8) s (s.count c t code n) := by
  unfold Chip.count
  split
  · exact .refl _ _ _
  · exact countEvent_frame _ _ _ _ _ _

@[simp] theorem count_thread (s : Chip) (c t code n d u : Nat) : (s.count c t code n).thread d u = s.thread d u :=
  (count_frame s c t code n).1.thread_eq d u

/-- The parts of the state that the choice of a routine's words looks at. -/
def SameWords (s u : Chip) : Prop := u.patterns = s.patterns ∧ u.gate = s.gate ∧ u.frc = s.frc

theorem SameWords.trans {s u v : Chip} (h : SameWords s u) (g : SameWords u v) : SameWords s v :=
  ⟨g.1.trans h.1, g.2.1.trans h.2.1, g.2.2.trans h.2.2⟩

theorem CountsOnly.words {c e : Nat} {s u : Chip} (h : CountsOnly c e s u) : SameWords s u := by
  obtain ⟨h, _⟩ := h
  unfold RegsOnly at h
  rw [h]; exact ⟨rfl, rfl, rfl⟩

theorem OnlyThread.words {c t : Nat} {s u : Chip} (h : OnlyThread s u c t) : SameWords s u := by
  rw [h.2.2.2]; exact ⟨rfl, rfl, rfl⟩

theorem freeSlots_words (c : Nat) (l : List HeldMsg) : ∀ s : Chip, SameWords s (l.foldl (fun u h => u.freeSlotOf c h) s) := by
  induction l with
  | nil => exact fun s => ⟨rfl, rfl, rfl⟩
  | cons h l ih => exact fun s => SameWords.trans ⟨rfl, rfl, rfl⟩ (ih _)

theorem waitBegin_words (s : Chip) (c t : Nat) : SameWords s (s.waitBegin c t) :=
  .trans (freeSlots_words c _ s) ⟨rfl, rfl, rfl⟩

/-- What begins a long instruction changes no word, hold or time. -/
theorem longBegin_words (s : Chip) (c t : Nat) (r : Routine) : SameWords s (s.longBegin c t r) := by
  unfold Chip.longBegin
  dsimp only
  have h : ∀ v : Chip, SameWords v (v.count c t 0x08) := fun v => (count_frame v c t 0x08 1).words
  have g := (count_frame s c t (longEvent r.op r.fn) 1).words
  split <;> split
  · exact .trans g (.trans (h _) (waitBegin_words _ c t))
  · exact .trans g (waitBegin_words _ c t)
  · exact .trans g (h _)
  · exact g

/-- A long instruction that its mode permits, issued with no bit of the control store turned wrong. -/
theorem issueLong_eq {s : State} {c : Cru} {t : Nat} {w : BitVec 32} (h : Issues s c t w) (pass : Nat) (r : Routine)
    (hs : longSuper r.op r.fn = true → (s.chip.thread c t).super = true)
    (hh : ((issuedLong s c t).longBegin c t r).holdsDispatch c = false) :
    s.chip.issueLong c t w [] pass r = ((issuedLong s c t).longBegin c t r).microRun c t microFuel pass
      { r with word := dispatchWord r.op r.fn, since := (issuedLong s c t).frc } := by
  have hsup : (longSuper r.op r.fn && !((issuedLong s c t).thread c t).super) = false := by
    rw [issuedLong, countIssue_thread]
    cases hl : longSuper r.op r.fn
    · rfl
    · rw [hs hl]; rfl
  unfold Chip.issueLong
  rw [issue_eq h]
  change (if (longSuper r.op r.fn && !((issuedLong s c t).thread c t).super) = true then _ else
    (if ((issuedLong s c t).longBegin c t r).holdsDispatch c = true then _ else _)) = _
  rw [hsup, hh]
  rfl

/-- A long instruction that need not wait, whose routine runs straight through, ends in the command that issues it. -/
theorem long_of {i : Instr} {s : State} {c : Cru} {t : Nat} {w : BitVec 32} {op fn k pass : Nat} {r : Routine} (h : IssuesLong s c t w op fn k)
    (he : exec i s = s.core fun y => y.issueLong c t w [] pass r) (hop : r.op = op) (hfn : r.fn = fn)
    (hs : longSuper op fn = true → (s.chip.thread c t).super = true) (hr : ((issuedLong s c t).longBegin c t r).longReady c t r = true)
    (hc : r.cycles = 0) (hw : r.waiting = false) :
    Runs i s (((issuedLong s c t).longBegin c t r).longFinish c t { r with since := s.chip.frc, cycles := k }) := by
  subst hop hfn
  obtain ⟨h1, h2, h3, h4⟩ := h
  have g : SameWords s.chip (issuedLong s c t) := OnlyThread.words (countIssue_frame s.chip c t true).1
  have q : SameWords s.chip ((issuedLong s c t).longBegin c t r) := .trans g (longBegin_words _ c t r)
  have hst : (((issuedLong s c t).longBegin c t r).store c) = s.chip.store c := by unfold Chip.store; rw [q.1]
  have hh : ((issuedLong s c t).longBegin c t r).holdsDispatch c = false := by
    rw [← h2]; unfold Chip.holdsDispatch; rw [q.2.1, q.2.2]
  obtain ⟨m, hm, hk⟩ := microRun_straight c t ((issuedLong s c t).longBegin c t r) (by rw [hst]; exact h3) microFuel (dispatchWord r.op r.fn) k pass
    { r with since := s.chip.frc } (by rw [hst]; exact h4) hr
  have hm0 : m = k := by have := hk hw; simp only [hc, Nat.zero_add] at this; exact this
  unfold Runs
  rw [he, State.core_running _ _ h1.1, issueLong_eq h1 pass r hs hh, g.2.2]
  subst hm0
  exact congrArg (fun x => Host.Outcome.next (s.withChip x)) hm

/-- A long instruction that must wait, whose routine runs straight through, holds its thread in the command that issues it. -/
theorem long_held {i : Instr} {s : State} {c : Cru} {t : Nat} {w : BitVec 32} {op fn k pass : Nat} {r : Routine} (h : IssuesLong s c t w op fn k)
    (he : exec i s = s.core fun y => y.issueLong c t w [] pass r) (hop : r.op = op) (hfn : r.fn = fn)
    (hs : longSuper op fn = true → (s.chip.thread c t).super = true) (hr : ((issuedLong s c t).longBegin c t r).longReady c t r = false)
    (hc : { r with commit := false } = r) :
    ∃ b m, Runs i s (((issuedLong s c t).longBegin c t r).hold c t
      { r with since := s.chip.frc, word := b, cycles := m, waiting := true, commit := false }) := by
  subst hop hfn
  obtain ⟨h1, h2, h3, h4⟩ := h
  have g : SameWords s.chip (issuedLong s c t) := OnlyThread.words (countIssue_frame s.chip c t true).1
  have q : SameWords s.chip ((issuedLong s c t).longBegin c t r) := .trans g (longBegin_words _ c t r)
  have hst : (((issuedLong s c t).longBegin c t r).store c) = s.chip.store c := by unfold Chip.store; rw [q.1]
  have hh : ((issuedLong s c t).longBegin c t r).holdsDispatch c = false := by
    rw [← h2]; unfold Chip.holdsDispatch; rw [q.2.1, q.2.2]
  obtain ⟨b, m, hm, _⟩ := microRun_held c t ((issuedLong s c t).longBegin c t r) (by rw [hst]; exact h3) microFuel (dispatchWord r.op r.fn) k pass
    { r with since := s.chip.frc } (by rw [hst]; exact h4) hr
  refine ⟨b, m, ?_⟩
  have hq : ({ r with word := dispatchWord r.op r.fn, since := s.chip.frc, commit := false } : Routine) =
      { r with word := dispatchWord r.op r.fn, since := s.chip.frc } := by
    rw [← hc]
  unfold Runs
  rw [he, State.core_running _ _ h1.1, issueLong_eq h1 pass r hs hh, g.2.2]
  rw [hq] at hm
  exact congrArg (fun x => Host.Outcome.next (s.withChip x)) hm

/-- A thread held at a word of its routine goes on to the end of its instruction, where the instruction is ready and the words that are left run straight through. -/
theorem resume_straight {s : Chip} {c : Cru} {t k pass : Nat} {r : Routine} {ok : Routine → Bool} (hw : (s.thread c t).wait = .routine r)
    (hs : (s.thread c t).state = stWaiting) (he : s.engineRuns c (t / 8) = true) (hd : s.holdsDispatch c = false) (hu : r.due ≤ s.frc) (ho : ok r = true)
    (hv : (s.store c).contents.version.isSome = true) (hk : straightCycles (s.store c) microFuel r.word = some k) (hr : s.longReady c t r = true) :
    ∃ m, s.resume c t pass ok = s.longFinish c t { r with since := s.frc, cycles := m } := by
  obtain ⟨m, hm, _⟩ := microRun_straight c t s hv microFuel r.word k pass { r with since := s.frc, cycles := 0 } hk hr
  refine ⟨m, ?_⟩
  unfold Chip.resume
  simp only [hw, hs, he, hd, hu, ho, decide_true, Bool.not_false, Bool.and_self, if_true]
  exact hm

/-- Most long instructions only count as they begin. -/
theorem longBegin_begun {s : State} {c t op fn : Nat} {r : Routine} (hop : r.op = op) (hfn : r.fn = fn) (hw : ¬(op = 0x31 ∧ fn = 1))
    (hp : (s.chip.thread c t).prog = 0 ∨ (op ≠ 0x32 ∧ op ≠ 0x33)) : (issuedLong s c t).longBegin c t r = begun s c t op fn := by
  subst hop hfn
  have hb : (decide (r.op = 0x31) && decide (r.fn = 1)) = false := by
    simp only [Bool.and_eq_false_imp, decide_eq_true_eq, decide_eq_false_iff_not]
    exact fun a b => hw ⟨a, b⟩
  unfold Chip.longBegin
  dsimp only
  rw [hb]
  simp only [Bool.false_eq_true, if_false]
  have hx : (Chip.restartable ((issuedLong s c t).count c t (longEvent r.op r.fn)) c t r &&
      decide ((((issuedLong s c t).count c t (longEvent r.op r.fn)).thread c t).prog ≠ 0)) = false := by
    rcases hp with hp | ⟨h1, h2⟩
    · rw [count_thread, issuedLong, countIssue_thread, hp]; simp
    · unfold Chip.restartable
      simp [h1, h2]
  rw [hx]
  rfl

/-- A long instruction begun has changed counters, its engine's last issue and its run of CTR.RD only. -/
theorem begun_frame (s : State) (c t op fn : Nat) : OnlyThread s.chip (begun s c t op fn) c t ∧
    (∀ d u, (begun s c t op fn).thread d u = s.chip.thread d u) ∧ (begun s c t op fn).cru.lastIssued.get (c * 32 + t / 8) = t % 8 + 1 := by
  obtain ⟨h1, h2, h3⟩ := countIssue_frame s.chip c t true
  have g := count_frame (issuedLong s c t) c t (longEvent op fn) 1
  refine ⟨OnlyThread.trans h1 (OnlyThread.of_counts g), fun d u => ?_, ?_⟩
  · rw [begun, count_thread]; exact h2 d u
  · obtain ⟨g, _⟩ := g
    unfold RegsOnly at g
    rw [begun, g]; exact h3

end Sys2Proof.Machine
end

