-- ==== Sys2Proof/Laws/Power.lean ====
section
/-! SUPPORT. What a log entry, the end of a long operation and a core reset change. -/
namespace Sys2Proof.Machine
open Sys2Proof.Claim

/-- A table reads nothing where every entry was filtered out. -/
theorem look_filter (d : Nat → W64) (p : Nat × W64 → Bool) (m : Map W64) (a : Nat) (h : ∀ v, p (a, v) = false) : Map.look d (List.filter p m : Map W64) a = d a := by
  induction m with
  | nil => rfl
  | cons e m ih =>
    obtain ⟨j, v⟩ := e
    by_cases hj : j = a
    · subst hj; simp [List.filter, h, ih]
    · cases hp : p (j, v) <;> simp [List.filter, hp, Map.look, hj, ih]

/-- A log entry changes the buffer only. -/
theorem islLog_parts (s : Chip) (a b : Nat) (d) : ∃ l, s.islLog a b d = { s with isl := { s.isl with buffer := l } } := by
  unfold Chip.islLog; dsimp only; split
  · exact ⟨_, rfl⟩
  · exact ⟨_, rfl⟩

/-- The end of a long operation. -/
theorem longEnd_parts (s : Chip) (x) (r : Nat) : ∃ l g q, s.longEnd x r = { s with isl := { s.isl with buffer := l }, hif := { s.hif with long := none, results := g }, regs := q } := by
  unfold Chip.longEnd; dsimp only
  obtain ⟨l, hl⟩ := islLog_parts ({ s with hif := { s.hif with long := none } }) 2 x.op (BitVec.ofNat 8 r :: bytesBE 4 x.token)
  rw [hl]
  split
  · split <;> exact ⟨_, _, _, rfl⟩
  · exact ⟨_, _, _, rfl⟩

/-- The end of a pattern load by a reset. -/
theorem endPattern_parts (s : Chip) : ∃ l h q, s.endPatternLoad = { s with isl := { s.isl with buffer := l }, hif := h, regs := q } := by
  unfold Chip.endPatternLoad
  split
  · split
    · obtain ⟨l, g, q, h⟩ := longEnd_parts s ‹_› 6; exact ⟨l, _, q, h⟩
    · exact ⟨_, _, _, rfl⟩
  · exact ⟨_, _, _, rfl⟩

/-- What a core reset leaves. -/
theorem coreDown_parts (s : Chip) (core cause : Nat) (hc : cause < 5) : ∃ l, CoreAsAtReset (s.coreDown core cause) ∧
    (s.coreDown core cause).isl = { s.isl with core := core, refresh := none, buffer := l } ∧ (s.coreDown core cause).out = s.out ∧
    (s.coreDown core cause).flag Reg.GLB_RESET_CAUSE cause = true ∧
    (s.isl.core = 3 → (s.coreDown core cause).get Reg.GLB_RESET_CAUSE 4 0 = 2 ^ cause) := by
  unfold Chip.coreDown
  obtain ⟨l, h, q, e⟩ := endPattern_parts s
  rw [e]
  dsimp only [Chip.coreCleared, Chip.updIsl]
  obtain ⟨l2, e2⟩ := islLog_parts ({ regs := ({ s with isl := { s.isl with buffer := l }, hif := h, regs := q } : Chip).islandRegs, fresh := s.fresh, readData := s.readData, out := s.out, isl := { ({ s.isl with buffer := l } : Island) with core := core, refresh := none }, hif := { long := h.long, token := h.token, results := h.results } } : Chip) 3 cause []
  rw [e2]
  refine ⟨l2, ?_, rfl, rfl, ?_, ?_⟩
  · refine ⟨rfl, rfl, rfl, rfl, rfl, rfl, rfl, rfl, rfl, rfl, rfl, rfl, rfl, rfl, rfl, rfl, rfl, rfl, rfl, rfl, rfl, rfl, rfl, rfl, rfl, rfl, rfl, ?_⟩
    intro a h1 h2
    unfold Chip.setCause Chip.setFlag Chip.setField
    rw [Chip.reg_setReg_other _ _ h2, Chip.reg_setReg_other _ _ h2]
    unfold Chip.reg
    dsimp only [Chip.islandRegs]
    apply look_filter
    intro v
    simp only [Bool.and_eq_false_iff, decide_eq_false_iff_not]
    omega
  · exact Chip.flag_setFlag_self _ _ _ (by omega)
  · intro h3
    unfold Chip.setCause
    simp only [h3, if_true]
    have : ∀ c, c < 5 → ∀ v : W64, fld (setBit (setFld v 4 0 0) c true) 4 0 = 2 ^ c := by
      intro c hc v
      apply Nat.eq_of_testBit_eq
      intro j
      rw [testBit_fld]
      by_cases hj : j < 5
      · have := bit_setBit (setFld v 4 0 0) (j := j) (k := c) true (by omega)
        unfold bit at this
        simp only [Nat.zero_add, this, getLsbD_setFld _ _ _ _ j (by omega), Nat.testBit_two_pow]
        by_cases hjc : j = c
        · simp [hjc, hc]
        · have : ¬ c = j := fun e => hjc e.symm
          simp [hjc, hj, this]
      · simp [hj, Nat.testBit_two_pow]; omega
    simp only [Chip.get, Chip.setFlag, Chip.setField, Chip.reg_setReg_self]
    exact this cause hc _

end Sys2Proof.Machine
end

