-- ==== Sys2Proof/Tests/Slice0.lean ====
section
/-! SUPPORT. Small tests: ill-formed commands that WellFormed refuses, one-step runs checked against worked values, and for each obligation with
hypotheses a state and operands that meet them. -/
set_option maxRecDepth 20000

namespace Sys2Proof.Tests
open Sys2Proof.Machine Sys2Proof.Claim

/-! ### Ill-formed commands -/

theorem test_ill_register_write : (Instr.registerWrite (.host 0) 0x4000000 .eight 0).wellFormed = false := by decide
theorem test_ill_rc_high_read : (Instr.rcHighRead 0 0x4).wellFormed = false := by decide
theorem test_ill_counter_low_read : (Instr.counterLowRead 1 0x4000000).wellFormed = false := by decide
theorem test_ill_xgem : (Instr.xgemDeframe 0 0 0 0 0 { (default : XgemLight) with pli := 16384 } .fine).wellFormed = false := by decide
theorem test_ill_alloc_rec : (Instr.allocRecWrite 0 0 1 1024 0).wellFormed = false := by decide
theorem test_ill_slot_import : (Instr.slotImport 40960).wellFormed = false := by decide
theorem test_ill_slot_erase : (Instr.slotErase 65535).wellFormed = false := by decide
theorem test_ill_slot_retire : (Instr.slotRetire 40960).wellFormed = false := by decide
theorem test_ill_time_tick : (Instr.timeTick 0).wellFormed = false := by decide
theorem test_ill_pfc : (Instr.pfcReceive 0 0 [0, 0]).wellFormed = false := by decide
theorem test_ill_flash_data : (Instr.flashData 0 0 0 [0]).wellFormed = false := by decide
theorem test_ill_app_receive : (Instr.sbAppReceive 0 []).wellFormed = false := by decide

/-! ### States -/

/-- A state of the part, changed from reset. -/
def from_ (f : Chip → Chip) : State := { chip := f State.reset.chip }

/-- Thread 0 of crucible 0 as f changes it, READY. -/
def ready (f : Thread → Thread := id) : Chip → Chip := fun s => s.setThread 0 0 (f { state := stReady })

/-- An instruction word at the start of crucible 0's instruction RAM. -/
def holds (w : BitVec 32) : Chip → Chip := fun s => s.putIram 0 0 (bytesBE 4 w.toNat)

/-- Crucible 0 with a pattern whose routine of OP and FN is one word that ends at once. -/
def loaded (op fn : Nat) : Chip → Chip := fun s =>
  s.setStore 0 { contents := { version := some 1, words := Map.set [] (dispatchWord op fn) 0x8000#128 } }

/-- Thread 0 of crucible 0 READY at an instruction. -/
def issuing (w : BitVec 32) (f : Thread → Thread := id) : State := { chip := holds w (ready f State.reset.chip) }

/-- Thread 0 of crucible 0 READY at a long instruction. -/
def issuingLong (w : BitVec 32) (op fn : Nat) (f : Thread → Thread := id) : State := { chip := loaded op fn (issuing w f).chip }

/-- Thread 0 of crucible 0 WAITING for w. -/
def waiting (w : Wait) (f : Thread → Thread := id) : Chip → Chip := fun s => s.setThread 0 0 (f { state := stWaiting, wait := w })

/-- A queue of crucible 0 with a message of 8 bytes. -/
def posted (q : Nat) (m : QMsg) : Chip → Chip := fun s => { s with msgs := { s.msgs with queues := s.msgs.queues.set q { items := [m] } } }

/-- A register as staged values have been applied to it. -/
def applied (a : Nat) (v : W64) : Chip → Chip := fun s => { s with active := s.active.put resetW a v }

/-- Thread 0 READY at an instruction with an address in g1. -/
def addressed (w : BitVec 32) (a : W64) : State := issuing w fun x => x.setG 1 a

/-- Words at the start of the local data of engine 0 of crucible 0. -/
def words (l : List Nat) : Chip → Chip := fun s => s.putLocal 0 0 0 (l.flatMap fun w => wordBytes (w64 w))

/-- A field of PONU, ALLOC and POND changed. -/
def pon (f : Pon → Pon) : Chip → Chip := fun s => { s with pon := f s.pon }

/-- Every memory channel serves. -/
def served : Chip → Chip := fun s => { s with mem := { s.mem with chans := (List.range 8).map fun k => (k, { state := 3, capacity := 1024 }) } }

/-! ### Witnesses: the block -/

theorem witness_commands : (Instr.registerWrite (.host 0) 0x3FFFFF8 .eight 0).offset.all (· < 67108864) = true ∧
    (Instr.registerWrite (.host 0) 0x4000000 .eight 0).offset = some 67108864 := by decide
theorem witness_queues : ∀ i ∈ ({ chip := State.reset.chip, pending := [.timeTick 1, .servoLoss] } : State).pending, i.wellFormed = true := by decide
theorem witness_held : (from_ fun s => { s with isl := { s.isl with core := 2 } }).chip.running = false ∧
    ∀ i ∈ [Instr.servoLoss, .memGo], i.ofIsland = false ∧ i.wellFormed = true := by decide

/-! ### Witnesses: Jarril -/

theorem witness_issues : Issues (issuing (wordR 0 3 1 2 0x011)) 0 0 (wordR 0 3 1 2 0x011) ∧ Issues (issuing (wordI 0x08 31 31 0xFFFF)) 0 0 (wordI 0x08 31 31 0xFFFF) ∧
    Issues (issuing (wordJ 0x27 0x3FFFFFF)) 0 0 (wordJ 0x27 0x3FFFFFF) := by unfold Issues; decide
theorem witness_long : let w := wordR 0x31 3 1 2 0
    IssuesLong (issuingLong w 0x31 0) 0 0 w 0x31 0 1 := by unfold IssuesLong Issues; decide

theorem witness_immediates : (63#16).toNat < 64 ∧ 64 ≤ (64#16).toNat ∧ (1 : Fin 32) ≠ 0 := by decide

theorem witness_division : (issuing (wordR 0 3 1 2 0x012)).chip.running = true ∧ Issues (issuing (wordR 0 3 1 2 0x012)) 0 0 (wordR 0 3 1 2 0x012) ∧
    (∀ w ∈ [Wait.short, .last 0], ((from_ (waiting w)).chip.thread 0 0).state = stWaiting ∧ ((from_ (waiting w)).chip.thread 0 0).wait = w ∧
      (from_ (waiting w)).chip.engineRuns 0 0 = true) ∧ 0 ≤ (from_ (waiting (.last 0))).chip.frc := by unfold Issues; decide

theorem witness_fields : (3 : Fin 32).val < 4 ∧ 4 ≤ (4 : Fin 32).val ∧ (4032#16).toNat % 64 + ((4032#16).toNat / 64 % 64 + 1) = 64 ∧
    64 < (4033#16).toNat % 64 + ((4033#16).toNat / 64 % 64 + 1) ∧ (4095#16).toNat < 4096 ∧ 4096 ≤ (4096#16).toNat := by decide

theorem witness_loads : let w := wordI 0x13 3 1 0
    let s := fun a => addressed w a
    Issues (s 0x7FF8) 0 0 w ∧ Issues (s 0x2000000) 0 0 w ∧ Issues (s 0x8000) 0 0 w ∧ Issues (s 1) 0 0 w ∧
    ((s 0x7FF8).chip.thread 0 0).g 1 = 0x7FF8 ∧
    (s 0x2000000).chip.place 0 0 0x2000000 8 false = some (.own 0) ∧ (Region.own 0).isData = false ∧
    (s 0x8000).chip.place 0 0 0x8000 8 false = none := by unfold Issues; decide

theorem witness_load_returns : let s := from_ (waiting (.load 2 0x2000000 8 false))
    s.chip.running = true ∧ (s.chip.thread 0 0).state = stWaiting ∧ (s.chip.thread 0 0).wait = .load 2 0x2000000 8 false ∧
    s.chip.engineRuns 0 0 = true ∧ (regionOf 0x2000000).map (·.1) = some (.own 0) ∧ s.chip.badPlace 0 (.own 0) = false := by decide

theorem witness_stores : let w := wordI 0x1B 2 1 0
    let s := fun a => addressed w a
    ((s 0x7FF8).chip.thread 0 0).handler = none ∧ (s 0x8000).chip.place 0 0 0x8000 8 true = none ∧
    0x2000000 ≤ (0x23FFFF8#64).toNat ∧ (0x23FFFF8#64).toNat + 8 ≤ 0x2400000 ∧ Issues (s 0x23FFFF8) 0 0 w ∧
    (s 0x23FFFF8).chip.place 0 0 0x23FFFF8 8 true = some (.own 0x3FFFF8) ∧ ((addressed 0 1).chip.thread 0 0).g 1 = 1 ∧
    Issues (issuing w fun x => { x.setG 1 0x103FFF8 with super := true }) 0 0 w := by unfold Issues; decide

theorem witness_atomics : let w := wordR 0x1C 3 1 2 2
    let s := fun a => addressed w a
    Issues (s 0x23FFFF8) 0 0 w ∧ ((s 0x23FFFF8).chip.thread 0 0).expected = none ∧
    (s 0x23FFFF8).chip.mem.badStore.contains (0 * 262144 + 0x3FFFF8 / 16) = false ∧ Issues (s 0x7FF8) 0 0 w := by unfold Issues; decide

theorem witness_modes : let r := wordR 0x3E 3 0 0 0
    let s := issuing r
    Issues (issuing (wordR 0x3E 3 0 8 1) fun x => { x with super := true }) 0 0 (wordR 0x3E 3 0 8 1) ∧ Issues s 0 0 r ∧ (s.chip.thread 0 0).super = false ∧
    s.chip.flag (Reg.CRU_CTRL 0) 0 = false ∧ s.chip.cru.ctrRuns.get 0 = none ∧
    (∀ k ∈ [1, 6], (issued s 0 0).countsCycles 0 0 k = false) ∧ Issues (issuing (wordR 0x35 3 1 0 1)) 0 0 (wordR 0x35 3 1 0 1) := by unfold Issues; decide

theorem witness_traps : let s := issuing 0xB4000000
    definedWord 0xB4000000#32 = false ∧ Issues s 0 0 0xB4000000 ∧ (s.chip.thread 0 0).exl = false ∧ Issues (issuing (wordR 0x3F 0 0 31 0)) 0 0 (wordR 0x3F 0 0 31 0) := by
  unfold Issues; decide
theorem witness_runaway : let s := from_ fun s => { (ready id s).setReg (Reg.CRU_RUN_LIMIT 0) 1 with frc := 1 }
    s.chip.get (Reg.CRU_RUN_LIMIT 0) 31 0 ≠ 0 ∧ (s.chip.thread 0 0).state = stReady ∧ s.chip.engineRuns 0 0 = true ∧
    (s.chip.thread 0 0).exl = false ∧ s.chip.get (Reg.CRU_RUN_LIMIT 0) 31 0 < 2 * (s.chip.frc - (s.chip.thread 0 0).readyFrom) := by decide
theorem witness_double : let w := wordI 0x1B 3 1 0
    let s := issuing w fun x => { x.setG 1 1 with exl := true }
    Issues s 0 0 w ∧ (s.chip.thread 0 0).exl = true ∧ ((s.chip.thread 0 0).g 1 + (0#16).signExtend 64).toNat % 8 ≠ 0 := by unfold Issues; decide
theorem witness_faulted : let u := from_ fun s => s.setThread 0 0 { state := stFaulted }
    u.chip.running = true ∧ (u.chip.thread 0 0).state = stFaulted := by decide
theorem witness_returns : let s := fun fn => issuing (wordR 0x3F 0 0 0 fn)
    (∀ fn ∈ [1, 2, 3, 4], Issues (s fn) 0 0 (wordR 0x3F 0 0 0 fn)) ∧ ((s 2).chip.thread 0 0).held = [] ∧ ((s 1).chip.thread 0 0).super = false ∧
    ((issuing 0 fun x => { x with held := [{ queue := 1, msg := {} }] }).chip.thread 0 0).held = [{ queue := 1, msg := {} }] := by
  unfold Issues; decide
theorem witness_stop : let s := from_ (ready fun x => { x with stopReq := true })
    let u := from_ (waiting (.routine {}) fun x => { x with stopReq := true })
    s.chip.running = true ∧ (s.chip.thread 0 0).stopReq = true ∧ (s.chip.thread 0 0).state = stReady ∧ s.chip.engineRuns 0 0 = true ∧
    (u.chip.thread 0 0).state = stWaiting ∧ (u.chip.thread 0 0).wait = .routine {} ∧ ({} : Routine).commit = false := by decide

/-- An urgent message in queue 5 that no thread waits for; thread 0 READY with interrupts on. -/
def urgent : State :=
  from_ fun s => applied (Cell.queueCfg 0 5) (w64 (1 <<< 29)) (posted 5 {} (ready (fun x => { x with ie := true, imask := BitVec.allOnes 64 }) s))
theorem witness_urgent : urgent.chip.running = true ∧ (urgent.chip.msgs.queues.get 5).items = [] ++ ({} : QMsg) :: [] ∧ ({} : QMsg).interrupted = false ∧
    bit (urgent.chip.queueCfg 0 5) 29 = true ∧ urgent.chip.mayInterrupt 0 0 5 = true ∧ (urgent.chip.thread 0 0).state = stReady ∧
    urgent.chip.engineRuns 0 0 = true := by decide
theorem witness_none_waits : ∀ u < 256, (urgent.chip.thread 0 u).waitsFor = none := by decide

/-! ### Witnesses: long instructions and crucibles -/

/-- Thread 0 in supervisor mode, at a long instruction of registers 3, 1 and 0, with words in its local data. -/
def asks (op fn : Nat) (l : List Nat) : State := { chip := words l (issuingLong (wordR op 3 1 0 fn) op fn fun x => { x with super := true }).chip }

theorem witness_table : (∀ fn ∈ [0, 1, 2, 3], IssuesLong (asks 0x30 fn []) 0 0 (wordR 0x30 3 1 0 fn) 0x30 fn 1) ∧
    let s := (asks 0x30 0 []).chip
    (s.thread 0 0).super = true ∧ (s.thread 0 0).g 1 = 0 ∧ (s.thread 0 0).handler = none ∧ (s.thread 0 0).expected = none ∧
    fld (s.localWord 0 0 0 0) 63 5 = 0 ∧ fld ((asks 0x30 0 [32]).chip.localWord 0 0 0 0) 63 5 ≠ 0 := by
  unfold IssuesLong Issues; decide

/-- Thread 0 at MSG.SEND with a control word in g2, beside queue 0 as configured and filled. -/
def sends (cfg ctl : Nat) (items : List QMsg) (f : Thread → Thread := id) : State :=
  let s := (issuingLong (wordR 0x31 3 1 2 0) 0x31 0 fun x => f (x.setG 2 (w64 ctl))).chip
  { chip := { applied (Cell.queueCfg 0 0) (w64 cfg) s with msgs := { queues := Map.set [] 0 { items := items } } } }

theorem witness_send : ∀ p ∈ [((1 <<< 30 : Nat), (8 <<< 32 : Nat), ([] : List QMsg)), (0, 8 <<< 32, []), (1 <<< 30, 8 <<< 32, [{}]),
    (1 <<< 30, (8 <<< 32) + (1 <<< 48), [{}])], let s := sends p.1 p.2.1 p.2.2
    IssuesLong s 0 0 (wordR 0x31 3 1 2 0) 0x31 0 1 ∧ (s.chip.thread 0 0).expected = none ∧ (s.chip.thread 0 0).g 2 = w64 p.2.1 ∧ (s.chip.thread 0 0).g 1 = 0 := by
  unfold IssuesLong Issues; decide
theorem witness_send_status : let st := fun cfg ctl items => (sends cfg ctl items).chip.sendStatus (w64 ctl)
    st (1 <<< 30) (8 <<< 32) [] = 0 ∧ st 0 (8 <<< 32) [] = 4 ∧ st (1 <<< 30) (8 <<< 32) [{}] = 1 ∧ st (1 <<< 30) ((8 <<< 32) + (1 <<< 48)) [{}] = 1 ∧
    st (1 <<< 30) (4 <<< 32) [] = 2 ∧ st 0 ((8 <<< 32) + (3 <<< 30)) [] = 3 ∧ bodyPlace 0 8 = some (false, 0) ∧ bodyPlace 0x8000 8 = none := by
  decide
theorem witness_send_resume : let s := (sends (1 <<< 30) (8 <<< 32) [] fun x =>
      { x with state := stWaiting, wait := .routine { op := 0x31, fn := 0, rd := 3, ra := 1, rb := 2, word := dispatchWord 0x31 0 } }).chip
    let cfg := s.queueCfg 0 0
    s.running = true ∧ (s.thread 0 0).state = stWaiting ∧ s.engineRuns 0 0 = true ∧ s.holdsDispatch 0 = false ∧
    (s.store 0).contents.version.isSome = true ∧ straightCycles (s.store 0) microFuel (dispatchWord 0x31 0) = some 1 ∧
    bit cfg 30 = true ∧ 8 ≤ slotBytes cfg ∧ freeSlot (slotCount cfg) (s.msgs.queues.get 0).busy (s.msgs.queues.get 0).next = some 0 := by decide

theorem witness_waiter : let s := posted 5 {} (loaded 0x31 1 (from_ (waiting (.routine { op := 0x31, fn := 1, rd := 3, ra := 1, word := dispatchWord 0x31 1 })
      fun x => x.setG 1 5)).chip)
    s.running = true ∧ (s.thread 0 0).state = stWaiting ∧ (s.store 0).contents.version.isSome = true ∧ s.holdsDispatch 0 = false ∧
    straightCycles (s.store 0) microFuel (dispatchWord 0x31 1) = some 1 ∧ s.engineRuns 0 0 = true ∧
    s.oldestFor 0 ((s.thread 0 0).g 1) (fun _ => 0) = some (5, {}) ∧ ∀ u < 256, u ≠ 0 → (s.thread 0 u).waitsFor = none := by decide
theorem witness_poll : let s := fun fn => ({ chip := posted 5 {} (issuingLong (wordR 0x31 3 1 0 fn) 0x31 fn fun x => x.setG 1 5).chip } : State)
    IssuesLong (s 3) 0 0 (wordR 0x31 3 1 0 3) 0x31 3 1 ∧ (s 3).chip.oldestFor 0 (((s 3).chip.thread 0 0).g 1) (fun _ => 0) = some (5, {}) ∧
    (s 3).chip.oldestFor 0 4 (fun _ => 0) = none ∧ ((s 3).chip.thread 0 0).held = [] ∧ IssuesLong (s 1) 0 0 (wordR 0x31 3 1 0 1) 0x31 1 1 ∧
    IssuesLong (issuingLong (wordR 0x31 0 0 0 2) 0x31 2) 0 0 (wordR 0x31 0 0 0 2) 0x31 2 1 := by
  unfold IssuesLong Issues; decide

theorem witness_blocks : let s := fun fn (a d : W64) => issuingLong (wordR 0x32 2 1 3 fn) 0x32 fn fun x => ((x.setG 1 a).setG 2 d).setG 3 8
    IssuesLong (s 0 64 0x7FF8) 0 0 (wordR 0x32 2 1 3 0) 0x32 0 1 ∧ IssuesLong (s 1 64 0x103FFF8) 0 0 (wordR 0x32 2 1 3 1) 0x32 1 1 ∧
    let x := (s 0 64 0x7FF8).chip.thread 0 0
    x.prog = 0 ∧ x.handler = none ∧ x.super = false ∧ (x.g 2).toNat + (x.g 3).toNat = 0x8000 ∧
    IssuesLong (s 0 (w64 (3 <<< 60)) 0) 0 0 (wordR 0x32 2 1 3 0) 0x32 0 1 ∧ fld (((s 0 (w64 (3 <<< 60)) 0).chip.thread 0 0).g 1) 63 60 = 3 := by
  unfold IssuesLong Issues; decide

theorem witness_fill : let s := issuingLong (wordR 0x33 3 1 2 0) 0x33 0 fun x => (x.setG 1 0x23FFFF8).setG 2 (w64 (1 <<< 16))
    IssuesLong s 0 0 (wordR 0x33 3 1 2 0) 0x33 0 1 ∧ fld ((s.chip.thread 0 0).g 2) 26 16 = 1 ∧ ((s.chip.thread 0 0).g 1).toNat = 0x23FFFF8 ∧
    s.chip.badBody 0 8 (true, 0x3FFFF8) = false := by
  unfold IssuesLong Issues; decide

theorem witness_time : Issues (issuing (wordR 0x34 2 0 0 0)) 0 0 (wordR 0x34 2 0 0 0) ∧ Issues (issuing (wordR 0x34 3 0 0 1)) 0 0 (wordR 0x34 3 0 0 1) ∧
    IssuesLong (asks 0x34 2 [1, 0, 0, 0]) 0 0 (wordR 0x34 3 1 0 2) 0x34 2 1 ∧
    let word := fun l k => (asks 0x34 2 l).chip.localWord 0 0 0 k
    32 < fld (word [1, 0, 33, 0] 2) 5 0 ∧ ¬32 < fld (word [1, 0, 32, 0] 2) 5 0 ∧ fld (word [1, 0, 0, 999] 3) 39 0 < 1000 ∧ fld (word [1, 0, 0, 1000] 3) 39 0 = 1000 ∧
    (asks 0x34 2 [1]).chip.logical < (word [1] 0).toNat * ns1 ∧ (word [] 0).toNat * ns1 ≤ (asks 0x34 2 []).chip.logical ∧
    ((asks 0x34 2 []).chip.time.trig.get 255).armed = false := by
  unfold IssuesLong Issues; decide

theorem witness_key_service : (∀ fn ∈ [0, 1], IssuesLong (asks 0x35 fn [3]) 0 0 (wordR 0x35 3 1 0 fn) 0x35 fn 1) ∧
    let s := (asks 0x35 0 [3]).chip
    fld (s.localWord 0 0 0 0) 3 0 = 3 ∧ (s.thread 0 0).super = true ∧ fld (s.localWord 0 0 0 2) 47 32 = 0 ∧
    (opErase (s.localWord 0 0 0 0) (begun (asks 0x35 0 [3]) 0 0 0x35 0)).2.1.length ≤ 0x8000 := by
  unfold IssuesLong Issues; decide

/-- Thread 0 of crucible 0 in a state, with the pattern loaded. -/
def inState (n : Nat) (f : Thread → Thread := id) : State :=
  from_ fun s => (s.setThread 0 0 (f { state := n })).setStore 0 { contents := { version := some 1 } }

theorem witness_threads : (∀ n ∈ [stIdle, stReady, stWaiting, stStopped, stFaulted], (inState n).chip.running = true ∧
      ((inState n).chip.thread 0 0).state = n ∧ ((inState n).chip.thread 0 0).held = []) ∧
    (inState stIdle).chip.hasPattern 0 = true ∧ State.reset.chip.hasPattern 0 = false ∧ ((inState stIdle).chip.gate.crus.get 0).state = 0 ∧
    ((inState stIdle fun x => { x with pending := some {} }).chip.thread 0 0).pending = some {} := by decide
theorem witness_fires : let s := from_ fun s => { s with time := { s.time with trig := s.time.trig.set 255 { armed := true, next := 0 } } }
    (s.chip.time.trig.get 255).armed = true ∧ ((s.chip.time.trig.get 255).next : Int) * ns1 ≤ s.chip.logical ∧
    s.chip.redirect (s.chip.time.trig.get 255).crucible = 0 ∧ (s.chip.thread 0 0).state = stIdle := by decide
theorem witness_memory_window : State.reset.chip.get (Reg.CRU_MEM_ADDR 32) 23 22 = 0 ∧ State.reset.chip.flag (Reg.CRU_MEM_ADDR 32) 63 = false ∧
    (from_ fun s => s.setReg (Reg.CRU_MEM_ADDR 32) (w64 (1 <<< 63 + 0x3FFFF8))).chip.get (Reg.CRU_MEM_ADDR 32) 23 22 = 0 ∧
    (from_ fun s => s.setReg (Reg.CRU_MEM_ADDR 32) (w64 (1 <<< 63 + 0x3FFFF8))).chip.flag (Reg.CRU_MEM_ADDR 32) 63 = true := by decide

/-- The loader as f sets it. -/
def loader (l : Loader) : State := from_ fun s => { s with patterns := { s.patterns with loader := l } }

/-- Which images pass rests on the fused key (Config.verifyKey), which no test can know: the clauses on a load or a slot that passes have no closed witness. -/
theorem witness_load : let due := loader { busy := true, phase := 3, done := 32 }
    let host := (loader { busy := true, phase := 1 }).chip
    State.reset.chip.patterns.loader.busy = false ∧ host.patterns.loader.busy = true ∧ host.patterns.loader.source = 0 ∧
    (host.hif.eps.get 0).bme = false ∧ ({ host with hif := { host.hif with eps := host.hif.eps.set 0 { bme := true } } }.hif.eps.get 0).bme = true ∧
    host.get Reg.CRU_LOAD_LEN 20 0 = 0 ∧ (host.setReg Reg.CRU_LOAD_LEN 1048576).get Reg.CRU_LOAD_LEN 20 0 = 1048576 ∧ (checkImage {} []).1 = 4 ∧
    due.chip.patterns.loader.done = (32 : Cru).val ∧ (∀ t : Tree, (due.chip.pon.pond.get t).timing = .stopped) ∧ due.chip.holdDue 32 = true ∧
    State.reset.chip.starting = true ∧ ({} : Routine).commit = false := by decide
theorem witness_repair : let s := (from_ fun s => served (s.setStore 0 { broken := [16383] })).chip
    (s.store 0).broken.contains 16383 = true ∧ s.copyReads (s.bankOf 0) 0 16383 = true := by decide

/-! ### Witnesses: trees -/

/-- Tree 0 expects one burst at the end of frame 5's upstream frame; its receiver of wavelength 0 is enabled with values applied. -/
def expecting (b : RxBurst) (m : RxMap := {}) : State :=
  from_ fun s => pon (fun p => { p with rx := p.rx.set 0 { maps := [{ m with frame := 5, bursts := [b] }] }, ponu := p.ponu.set 0 { applied := true } })
    (s.setReg (Reg.PONU_CTRL 0) 1)

theorem witness_bursts : (∀ b ∈ [({ start := 0xFFFF } : RxBurst), { start := 0xFFFF, ranging := true }],
      let s := expecting b
      let m := nth (s.chip.pon.rx.get (wkey 0 0)).maps 0
      s.chip.running = true ∧ (s.chip.pon.rx.get (wkey 0 0)).mapAt 5 = some 0 ∧ m.burstAt 0xFFFF = some 0 ∧ (nth m.bursts 0).result = none ∧
      (nth m.bursts 0).ranging = b.ranging ∧ s.chip.attempts 0 0 5 m.late 0 = true) ∧
    (expecting { start := 0xFFFF } { late := true }).chip.attempts 0 0 5 true 0 = false ∧
    (nth (nth ((expecting { start := 0xFFFF, result := some {} }).chip.pon.rx.get (wkey 0 0)).maps 0).bursts 0).result.isSome = true := by decide
theorem witness_spots : let c := (expecting {}).chip
    c.findSpot 0 0 5 {} [] = none ∧ c.findSpot 0 0 5 {} [{ offset := 0, bits := 0 }] = some { offset := 0, bits := 0 } ∧
    c.findSpot 0 0 5 { ranging := true, window := some (0, 10) } [] = none ∧
    (c.findSpot 0 0 5 { ranging := true, window := some (0, 10) } [{ offset := 20480, bits := 0 }]).isSome = true ∧
    foundOutcome false 7 { spots := [], hec := .good, onu := 7 } [some 0] = 0 ∧ foundOutcome false 7 { spots := [], hec := .bad, onu := 7 } [] = 4 ∧
    heardPloamu 0 (c.profile 0 0 5 0) { ploamu := true } { (default : BurstLight) with ploamu := some [] } = some [] ∧
    heardPloamu 0 (c.profile 0 0 5 0) {} default = none ∧ c.servesAt 0 5 = true := by decide
theorem witness_frame_end : (nth ((expecting {} { ended := true }).chip.pon.rx.get (wkey 0 0)).maps 0).ended = true ∧
    (nth ((expecting {}).chip.pon.rx.get (wkey 0 0)).maps 0).summarised = false := by decide
theorem witness_summary : let s := expecting { result := some {} }
    let m := nth (s.chip.pon.rx.get (wkey 0 0)).maps 0
    let u := fun (x : Chip) => x.updRx (wkey 0 0) fun r => { r with maps := r.maps.set 0 { m with summarised := true } }
    let dest := fun (x : Chip) => applied (Reg.PONU_SUMMARY_DEST 0) (w64 (1 <<< 16)) x
    m.bursts ≠ [] ∧ (m.bursts.all fun b => b.result.isSome) = true ∧ bit ((u s.chip).ponuAt 0 5 (Reg.PONU_SUMMARY_DEST 0)) 16 = false ∧
    bit ((u (dest s.chip)).ponuAt 0 5 (Reg.PONU_SUMMARY_DEST 0)) 16 = true ∧
    ((u (dest s.chip)).sendQueue 0 0 0 (summaryBody 0 0 0 m)).1 = false ∧
    ((u (applied (Cell.queueCfg 0 0) (w64 (1 <<< 30)) (dest s.chip))).sendQueue 0 0 0 (summaryBody 0 0 0 m)).1 = true := by decide

/-- The burst of an ONU with one grant, with service context 0 of tree 0 bound to it at port-ID 2000. -/
def granted : State :=
  let s := expecting { onu := 7, grants := [{ allocId := 7, size := 4 }] }
  { chip := (applied (Cell.fwdPortmap 0) (w64 (1 <<< 16 + 2000)) s.chip).setReg (Cell.fwdCtx 0 0) (w64 (7 <<< 1 + 1)) }

theorem witness_upstream : let s := granted
    let m := nth (s.chip.pon.rx.get (wkey 0 0)).maps 0
    let b := nth m.bursts 0
    let h : BurstHead := { spots := [{ offset := 0, bits := 0 }], hec := .good, onu := 7 }
    s.chip.running = true ∧ (s.chip.pon.rx.get (wkey 0 0)).mapAt 5 = some 0 ∧ m.burstAt 0 = some 0 ∧
    b.grants[0]? = some { allocId := 7, size := 4 } ∧ s.chip.attempts 0 0 5 m.late 0 = true ∧ s.chip.passes 0 0 5 b h = true ∧
    s.chip.passes 0 0 5 b { h with onu := 8 } = false ∧ lostBits 0 (s.chip.profile 0 0 5 0) b [] 0 192 = false ∧
    s.chip.bindPort 0 0 2000 (b.from_ h) = some 0 ∧ s.chip.bindPort 0 0 2001 (b.from_ h) = none ∧ s.chip.servesAt 0 5 = true ∧ 0 + 8 + paddedLen 8 ≤ 4 * 4 := by
  decide
theorem witness_lost : let b : RxBurst := { onu := 7, grants := [{ allocId := 7, size := 4000 }] }
    lostBits 0 0 b [none, some 0] 0 64 = true ∧ lostBits 0 0 b [some 0, none] 14591 14592 = false ∧ lostBits 0 0 b [some 0, none] 14591 14593 = true := by decide
theorem witness_partial : let s := from_ (pon fun p => { p with partials := p.partials.set 16383 (some { idle := 8 }) })
    s.chip.pon.partials.get (wkey 0 0 * 16384 + (16383 : Fin 16384).val) = some { idle := 8 } := by decide

theorem witness_records : fld (1019#64) 13 0 < 1020 ∧ 1023 < fld (1024#64) 13 0 ∧ fld (w64 (1019 <<< 15 + 1 <<< 26 + 1024)) 24 15 ≤ 1019 ∧
    bit (w64 (1019 <<< 15 + 1 <<< 26 + 1024)) 26 = true ∧ State.reset.chip.findAlloc 0 0 1024 = none ∧
    (from_ fun s => s.setRec (recKey 0 0 0 3) (w64 (1 <<< 26 + 1024))).chip.findAlloc 0 0 1024 = some (3, w64 (1 <<< 26 + 1024)) ∧
    State.reset.chip.terminals 0 < 512 ∧ State.reset.chip.suspendedNow 0 0 1019 = false ∧
    (from_ (pon fun p => { p with suspended := Map.set [] 1019 (some 0) })).chip.suspendedNow 0 0 1019 = true ∧
    512 ≤ (from_ (pon fun p => { p with recs := (List.range 512).map fun i => (recKey 0 0 1 i, 1) })).chip.terminals 0 ∧
    fld ((from_ (pon fun p => { p with recs := (List.range 512).map fun i => (recKey 0 0 1 i, 1) })).chip.pon.recs.get (recKey 0 0 1 1019)) 1 0 = 0 ∧
    fld (State.reset.chip.pon.recs.get (recKey 0 0 1 1019)) 1 0 = 0 := by decide
theorem witness_owner : fld (State.reset.chip.reg (Reg.ALLOC_OWNER 31)) 5 0 = fld (State.reset.chip.reg (Reg.ALLOC_OWNER 31)) 11 6 ∧
    fld ((from_ fun s => s.setReg (Reg.ALLOC_OWNER 31) 1).chip.reg (Reg.ALLOC_OWNER 31)) 5 0 ≠
      fld ((from_ fun s => s.setReg (Reg.ALLOC_OWNER 31) 1).chip.reg (Reg.ALLOC_OWNER 31)) 11 6 := by decide

/-- Tree 0 sends frame 4; frame 5 begins at a tick. -/
def sending (next : Nat) (f : Pon → Pon := id) : State :=
  from_ (pon fun p => f { p with pond := p.pond.set 0 { timing := .running next, fc := 4 } })

theorem witness_verdict : let s := sending 77760 fun p => { p with checker := p.checker.set 0 { maps := [{ frame := 5 }] } }
    ((s.chip.pon.checker.get (wkey 0 0)).maps.findIdx? fun m => m.frame = (5#51).toNat && m.verdict.isNone) = some 0 := by decide
theorem witness_deadlines : (sending 3732).chip.nextFrame 0 = some (5, 3732) ∧ lasts (3732 - (sending 3732).chip.frc) 6001 = false ∧
    (sending 3732).chip.hasMap 0 5 = false ∧ (sending 1864).chip.nextFrame 0 = some (5, 1864) ∧
    lasts (1864 - (sending 1864).chip.frc) 3001 = false ∧ ((sending 1864).chip.pon.framers.get 0).mapFrame ≠ some 5 ∧
    (sending 1864).chip.servesAt 0 5 = true := by decide

theorem witness_framing : State.reset.chip.treeQuiet 31 = true ∧ (from_ fun s => s.setReg (Reg.POND_CTRL 0) 2).chip.treeQuiet 0 = false ∧
    (sending 4).chip.frc < 4 ∧ (sending 0).chip.nextFrame 0 = some (5, 0) ∧ (sending 0).chip.frc = 0 ∧
    State.reset.chip.flag (Reg.POND_CTRL 0) 0 = false ∧ State.reset.chip.flag (Reg.POND_CTRL 0) 1 = false ∧
    (State.reset.chip.pon.framers.get 0).queue.length < 256 ∧
    256 ≤ ((from_ (pon fun p => { p with framers := p.framers.set 0 { queue := List.replicate 256 {} } })).chip.pon.framers.get 0).queue.length := by
  decide

/-- Tree 0 sends on wavelength 0; service context 0 has port-ID 2000. -/
def framing (f : Framer → Framer) (offers : List TmFrame) : State :=
  let s := sending 77760 fun p => { p with framers := p.framers.set 0 (f { sending := true }) }
  { chip := ({ applied (Reg.POND_MAX_SDU 0 0) 9000 (applied (Cell.fwdPortmap 0) (w64 (1 <<< 16 + 2000)) s.chip) with
      tm := { s.chip.tm with egress := s.chip.tm.egress.set 0 offers } }).setReg (Cell.fwdCtx 0 0) (w64 (7 <<< 1 + 1)) }

theorem witness_remainder : let s := framing (fun f => { f with remainder := some {} }) []
    let gone := min (fsWords 0) ((s.chip.frc - (s.chip.pon.pond.get 0).t0) * fsWords 0 / frameTicks)
    let v := s.chip.idleTo 0 0 gone
    let u := v.gatherOffers 0 0 (s.chip.pondValues 0 0) (roomAt (s.chip.pondValues 0 0) 0 (s.chip.pon.pond.get 0).fc (v.pon.framers.get 0).pos)
    let g := u.pon.framers.get 0
    (s.chip.pon.framers.get 0).sending = true ∧ s.chip.timingRuns 0 = true ∧ g.pos < fsWords 0 ∧ g.remainder = some {} ∧
    (u.chooseOffer 0 0 (s.chip.pondValues 0 0) (roomAt (s.chip.pondValues 0 0) 0 (s.chip.pon.pond.get 0).fc g.pos) g.pos true).1 = none ∧
    (roomAt ({} : Remainder).values 0 (s.chip.pon.pond.get 0).fc g.pos).reserved = false := by decide
theorem witness_offer : let s := framing id [{ f := { bytes := List.replicate 60 0, length := 60 } }]
    let gone := min (fsWords 0) ((s.chip.frc - (s.chip.pon.pond.get 0).t0) * fsWords 0 / frameTicks)
    let v := s.chip.idleTo 0 0 gone
    let u := v.gatherOffers 0 0 (s.chip.pondValues 0 0) (roomAt (s.chip.pondValues 0 0) 0 (s.chip.pon.pond.get 0).fc (v.pon.framers.get 0).pos)
    let g := u.pon.framers.get 0
    g.pos < fsWords 0 ∧ g.remainder = none ∧
    (u.chooseOffer 0 0 (s.chip.pondValues 0 0) (roomAt (s.chip.pondValues 0 0) 0 (s.chip.pon.pond.get 0).fc g.pos) g.pos false).1.isSome = true := by
  decide

theorem witness_counters : State.reset.chip.flag (Reg.POND_STAT_SEL 31) 63 = false ∧
    (from_ fun s => s.setReg (Reg.POND_STAT_SEL 31) (w64 (1 <<< 63))).chip.flag (Reg.POND_STAT_SEL 31) 63 = true := by decide
theorem witness_folds : (from_ served).chip.ddrHas (statAddr (statKey 31 32767 1 2)) 8 = true := by decide

/-! ### Witnesses: registers, staging and the packet path -/

/-- A register's value set. -/
def with_ (a v : Nat) : Chip → Chip := fun s => s.setReg a (w64 v)

theorem witness_accesses : State.reset.chip.running = true ∧ 67108864 ≤ (0x4000000#32).toNat ∧ (0x3FFFFFF#32).toNat < 67108864 ∧
    lanesOf (0x3FFFFFF#32).toNat .eight = none ∧ State.reset.chip.goPending Reg.CLK_COMMIT = false ∧
    (from_ (with_ Reg.CLK_COMMIT 2)).chip.goPending Reg.CLK_COMMIT = true := by decide
theorem witness_go : let c := State.reset.chip
    c.prsStagedOk = true ∧ c.fwdMayApply = true ∧ c.tmStagedOk = true ∧ c.ciphStagedOk = true ∧ c.timeStagedOk = true ∧ c.gateStagedOk = true ∧
    c.memStagedOk = true ∧ c.glkStagedOk = true ∧ c.clkStagedOk = true ∧ c.queuesStagedOk 32 = true ∧ c.ethStagedOk 7 = true ∧
    (from_ fun s => with_ (Reg.PONU_DRIFT 31 0) (2 <<< 40 + 1 <<< 32 + 1 <<< 16) (with_ (Reg.PONU_DRIFT 31 1) (2 <<< 40 + 1 <<< 32 + 1 <<< 16) s)).chip.ponuStagedOk 31 = true ∧ c.pondStagedOk 31 = true ∧ c.timingRuns 31 = false ∧ (sending 77760).chip.timingRuns 0 = true ∧
    c.goPending Reg.PRS_COMMIT = false ∧ (from_ (with_ Reg.PRS_COMMIT 2)).chip.goPending Reg.PRS_COMMIT = true ∧
    c.goPending (Reg.PONU_COMMIT 31) = false ∧ c.goPending (Reg.POND_COMMIT 31) = false ∧ c.goPending Reg.ALLOC_COMMIT = false ∧
    c.goPending (Reg.ETH_COMMIT 7) = false := by decide
theorem witness_alloc_go : State.reset.chip.allocStagedOk = true := by decide +kernel
theorem witness_staged : let c := State.reset.chip
    c.seedMoves 0 = false ∧ c.seedMoves 1 = false ∧ c.tm.staged = [] ∧ c.prs.draining = none ∧
    (∀ a ∈ [Reg.CIPH_COMMIT, Reg.GATE_COMMIT, Reg.MEM_COMMIT, Reg.CRU_COMMIT 32, Reg.FWD_COMMIT, Reg.TM_COMMIT, Reg.PRS_COMMIT, Reg.GLK_COMMIT,
      Reg.TIME_COMMIT], c.goPending a = false ∧ (from_ (with_ a 2)).chip.goPending a = true) ∧
    (from_ fun s => { with_ Reg.TM_COMMIT 2 s with tm := { staged := [(tmKey kMap 1052703, {})] } }).chip.tm.staged = [(tmKey kMap 1052703, {})] := by
  decide
theorem witness_seed_moves : (from_ fun s => { with_ (Reg.FWD_TABLE_CFGn 1) 1 s with
    fwd := { s.fwd with entries := s.fwd.entries.set (entryPlace 1 0 0) (setEfld 0 127 127 1) } }).chip.seedMoves 1 = true := by decide
theorem witness_fifos : let s := from_ fun s => { s with
      cru := { s.cru with trigLog := s.cru.trigLog.set 32 [1] }, pon := { s.pon with pond := s.pon.pond.set 31 { halfFifo := [1] } }
      ciph := { s.ciph with notices := [1] }, time := { s.time with tin := s.time.tin.set 3 [1] }, gate := { s.gate with log := [1] }
      mem := { s.mem with log := [1] }, rcLatch := s.rcLatch.set 1 (some (Reg.MEM_MISMATCH_LOG, 7)) }
    s.chip.cru.trigLog.get (32 : Cru) = [1] ∧ (s.chip.pon.pond.get (31 : Tree)).halfFifo = [1] ∧ s.chip.ciph.notices = [1] ∧
    s.chip.time.tin.get (3 : Fin 4) = [1] ∧ s.chip.gate.log = [1] ∧ s.chip.mem.log = [1] ∧
    s.chip.rcLatch.get (1 : Ep) = some (Reg.MEM_MISMATCH_LOG, 7) ∧ State.reset.chip.rcLatch.get (1 : Ep) = none ∧ State.reset.chip.gate.log = [] := by
  decide

/-- One frame at the front of half 7. -/
def piped (f : PipeFrame) : Chip → Chip := fun s => { s with prs := { s.prs with pipes := s.prs.pipes.set 7 [f] } }

/-- A frame of an engine with n bytes, before its first pass. -/
def frameOf (n : Nat) : PipeFrame := { kind := 2, bytes := List.replicate n 0, length := n }

/-- Half 7 with a frame, profile 0 answering with a result. -/
def missing (n v : Nat) (f : PipeFrame → PipeFrame := id) : State := from_ fun s => applied (Cell.prsMiss 0) (w64 v) (piped (f (frameOf n)) s)

theorem witness_epochs : (from_ fun s => { s with prs := { s.prs with draining := some 255 } }).chip.prs.draining = some 255 ∧
    (from_ fun s => { s with prs := { s.prs with draining := some 255 } }).chip.inFlight 255 = 0 ∧
    (from_ fun s => { piped { stage := .ext, epoch := 255 } s with prs := { (piped { stage := .ext, epoch := 255 } s).prs with
      draining := some 255 } }).chip.inFlight 255 ≠ 0 ∧ State.reset.chip.prs.pipes.get (7 : Fin 8) = [] := by decide
theorem witness_passes : (∀ v ∈ [0, 1, 2, 3], let c := (missing 60 v).chip
      let f := frameOf 60
      let w := (c.parse { c.atSource f with epoch := c.prs.epoch }).2
      let l := c.ruleLookup (c.parse { c.atSource f with epoch := c.prs.epoch }).1 false
      c.prs.pipes.get (7 : Fin 8) = [f] ∧ f.stage = .first ∧ f.direct = none ∧ w.malformed = false ∧ w.depth = false ∧ w.fragment = false ∧
      l.1.action = v ∧ l.1.passes ≠ 2 ∧ bit (l.2.reg (Cell.fwdBd (l.2.bridgeOf l.1))) 35 = false) ∧
    (let c := (missing 60 3 fun f => { f with passes := 2 }).chip
     (c.ruleLookup (c.parse { frameOf 60 with passes := 2 }).1 false).1.passes = 2) := by decide
theorem witness_malformed : let c := (missing 0 0).chip
    let d := (from_ (applied (Cell.prsNode 0 0) (w64 (1 <<< 45 + 256)))).chip
    let e := (from_ (applied (Cell.prsNode 0 0) (w64 (20 <<< 32)))).chip
    (c.parse (frameOf 0)).2.malformed = true ∧ (c.parse (frameOf 0)).2.toSlow = false ∧
    (d.parse (frameOf 0)).2.malformed = true ∧ (d.parse (frameOf 0)).2.toSlow = true ∧
    (e.parse (frameOf 600)).2.malformed = false ∧ (e.parse (frameOf 600)).2.depth = true := by decide
theorem witness_recirc : let c := (missing 0 0 fun f => { f with stage := .recirc }).chip
    c.prs.pipes.get (7 : Fin 8) = [{ frameOf 0 with stage := .recirc }] ∧
    ((c.bump Reg.PRS_RECIRC).parse { frameOf 0 with passes := 1, stage := .first }).2.malformed = true ∧
    ((c.bump Reg.PRS_RECIRC).parse { frameOf 0 with passes := 1, stage := .first }).2.toSlow = false ∧
    bit (c.reg (Cell.fwdBd (c.bridgeOf { frameOf 0 with stage := .ext }))) 35 = false := by decide

/-- Bank 7 holds rules at places of the buckets a and b, all with one key. -/
def ruled (key : Nat) (l : List (Nat × Nat)) : Chip → Chip := fun s =>
  l.foldl (fun u p => u.setRule 7 p { key := key, valid := true }) s

theorem witness_rules : let c := State.reset.chip
    let d := (from_ (ruled 0 [((ruleBuckets 0).2, 3)])).chip
    let begun := fun (x : Chip) => (x.setField Reg.PRS_RS_CMD 8 0 (1 + 7 <<< 3)).setFlag Reg.PRS_RS_CMD 10 true
    c.prs.command = none ∧ (from_ fun s => { s with prs := { s.prs with command := some 0 } }).chip.prs.command.isSome = true ∧
    c.findRule 7 c.rsKey = none ∧ d.findRule 7 d.rsKey = some ((ruleBuckets 0).2, 3) ∧ reservedResult (c.reg Reg.PRS_RS_RESULT) = false ∧
    reservedResult ((from_ (with_ Reg.PRS_RS_RESULT (1 <<< 63))).chip.reg Reg.PRS_RS_RESULT) = true ∧ c.bankInUse 7 = false ∧ c.bankInUse 0 = true ∧
    ((begun c).insertRule 7 c.rsKey (c.reg Reg.PRS_RS_RESULT)).isSome = true ∧ c.prs.rules.canon = true := by decide
/-- A learn event waits in partition 15; the place of its key holds an entry. -/
def learning (e : Entry) (v : Nat := 0) : State := from_ fun s => applied Reg.FWD_LEARN_CFG (w64 v) { s with
  fwd := { s.fwd with learn := s.fwd.learn.set 15 [{ dest := 1 }],
                      entries := s.fwd.entries.set (entryPlace 0 0 (s.entryIndex 0 0 (s.partition 0 0) (s.buckets 0 0 0).1 0)) e } }

/-- A valid entry of key 0 with one bit more. -/
def entryWith (bit : Nat) : Entry := setEfld (setEfld 0 127 127 1) bit bit 1

theorem witness_learning : State.reset.chip.fwd.learn.get (15 : Fin 16) = [] ∧ (learning 0).chip.fwd.learn.get (15 : Fin 16) = [{ dest := 1 }] ∧
    bit ((learning 0 1).chip.act Reg.FWD_LEARN_CFG) 0 = true ∧ bit ((learning 0).chip.act Reg.FWD_LEARN_CFG) 0 = false ∧
    (learning 0).chip.found 0 0 true = none ∧ ((learning (entryWith 123)).chip.found 0 0 true).map (·.2.2) = some (entryWith 123) ∧
    (entryWith 123).static = true ∧ (entryWith 0).dest = 1 ∧ (entryWith 122).static = false ∧ (entryWith 122).dest ≠ 1 ∧
    (entryWith 122).flapping = true ∧ (entryWith 125).flapping = false ∧ ((learning (entryWith 122)).chip.found 0 0 true).isSome = true ∧
    fld ((learning 0).chip.act Reg.FWD_LEARN_CFG) 19 7 ≤ ((learning 0).chip.moveTime + 16384 - efld (entryWith 125) 45 32) % 16384 := by decide

/-- The sweeper of table 1 runs and stands at the last entry but one, which is e. -/
def sweeping (e : Entry) : State := from_ fun s => { s with fwd := { s.fwd with
  sweepers := s.fwd.sweepers.set 1 { running := true, pos := 1048574 }, entries := s.fwd.entries.set (entryPlace 1 0 1048574) e } }

theorem witness_sweep : (State.reset.chip.fwd.sweepers.get (1 : Fin 2)).running = false ∧ ((sweeping 0).chip.fwd.sweepers.get (1 : Fin 2)).running = true ∧
    ((sweeping 0).chip.fwd.sweepers.get (1 : Fin 2)).pos < 1048575 ∧
    (∀ k ∈ [123, 124, 125], (sweeping (entryWith k)).chip.entry 1 0 1048574 = entryWith k ∧ (entryWith k).valid = true ∧ (entryWith k).static = (k == 123) ∧
      (entryWith k).aged = (k == 124) ∧ (entryWith k).hit = (k == 125)) ∧ ((sweeping 0).chip.entry 1 0 1048574).valid = false ∧
    fld (0#64) 31 0 = 0 ∧ fld (1#64) 31 0 ≠ 0 := by decide
theorem witness_table_commands : let c := (learning (entryWith 125)).chip
    State.reset.chip.fwd.command = none ∧ (from_ fun s => { s with fwd := { s.fwd with command := some (0, 0) } }).chip.fwd.command = some (0, 0) ∧
    State.reset.chip.found 0 (entryKey 0 State.reset.chip.tblEntry) false = none ∧
    (c.found 0 (entryKey 0 c.tblEntry) false).map (·.2.2) = some (entryWith 125) ∧ tblTable 0 = 0 ∧ tblTouch 0 = false ∧ tblReplace 8 = true ∧
    tblReplace 0 = false ∧ reservedDest c.tblEntry.dest = false ∧
    reservedDest (from_ (with_ Reg.FWD_TBL_ENTRY_LO 1)).chip.tblEntry.dest = true := by decide

/-- A record of TM. -/
def tmSet (kind i : Nat) (r : TmRec) : Chip → Chip := fun s => { s with tm := { s.tm with recs := s.tm.recs.set (tmKey kind i) r } }

/-- A frame of 64 bytes for HIF (DEST 0x30000000), the map of its target naming queue 0, whose record is r; its class leads to channel 96. -/
def admitting (map : Nat) (r : TmRec) (f : Chip → Chip := id) : State := from_ fun s =>
  f (tmSet kTerminal 0 { w0 := w64 96 } (tmSet kQueue 0 r (tmSet kMap 1048608 { w0 := w64 map }
    (piped { frameOf 64 with stage := .ready, dest := 0x30000000 } s))))

theorem witness_admission : let f : PipeFrame := { frameOf 64 with stage := .ready, dest := 0x30000000 }
    let r : TmRec := { w0 := w64 (3 <<< 21), w1 := 1 }
    let p : TmRec := { w0 := w64 (1 <<< 26 + 3 <<< 21) }
    let o : TmRec := { w0 := w64 (1 <<< 25 + 3 <<< 21), w1 := 1 }
    (admitting 0 r).chip.prs.pipes.get (7 : Fin 8) = [f] ∧ (admitting 0 r).chip.mapQueue f = none ∧ (admitting (1 <<< 23) r).chip.mapQueue f = some 0 ∧
    (({} : TmRec).qEn = false) ∧ r.qEn = true ∧ r.qAccept = true ∧ (admitting (1 <<< 23) r).chip.policed 0 = false ∧
    (admitting (1 <<< 23) p (tmSet kPolicer 0 { w0 := w64 (1 <<< 48) })).chip.policed 0 = true ∧
    (admitting (1 <<< 23) p (tmSet kPolicer 0 { w0 := w64 (1 <<< 48) })).chip.tokens kPolicer 0 < (f.length : Int) * tokenByte ∧
    fld ({ r with w1 := 0 } : TmRec).w1 23 0 * 1024 < ((admitting (1 <<< 23) r).chip.tmQueue 0).depth + (admitting (1 <<< 23) r).chip.admitLen f ∧
    ((admitting (1 <<< 23) r).chip.tmQueue 0).depth + (admitting (1 <<< 23) r).chip.admitLen f ≤ fld r.w1 23 0 * 1024 ∧
    (admitting (1 <<< 23) o (applied Reg.TM_OVF_SIZE 1)).chip.toDdr 0 = true ∧ (admitting (1 <<< 23) r).chip.toDdr 0 = false ∧
    cellsNeeded f 64 ≠ 0 ∧ cellsNeeded f 64 + 0 ≤ (admitting (1 <<< 23) r).chip.freeCells ∧
    (admitting (1 <<< 23) r fun s => { s with tm := { s.tm with used := 524288 } }).chip.freeCells < cellsNeeded f 64 := by decide
theorem witness_records_staged : let c := State.reset.chip
    c.goPending Reg.TM_COMMIT = false ∧ c.tm.staged.length < 64 ∧ fld (c.reg Reg.TM_REC_SEL) 23 3 < kindCount (fld (c.reg Reg.TM_REC_SEL) 2 0) ∧
    kindCount (fld ((from_ (with_ Reg.TM_REC_SEL 7)).chip.reg Reg.TM_REC_SEL) 2 0) ≤ fld ((from_ (with_ Reg.TM_REC_SEL 7)).chip.reg Reg.TM_REC_SEL) 23 3 ∧
    64 ≤ (from_ fun s => { s with tm := { s.tm with staged := (List.range 64).map fun i => (i, {}) } }).chip.tm.staged.length := by decide

/-- Queue 0 holds a frame and may send on channel 96. -/
def queued (x : TmFrame) (r : TmRec := {}) : State := from_ fun s =>
  let r0 : TmRec := { r with w0 := r.w0 ||| w64 (1 <<< 21) }
  tmSet kPort (portOf 96) { w0 := w64 (1 <<< 18) } (tmSet kChannel 96 { w0 := w64 (1 <<< 18 + portOf 96) } (tmSet kTerminal 0 { w0 := w64 (1 <<< 18 + 96) }
    (tmSet kClass 0 { w0 := w64 (1 <<< 18) } (tmSet kQueue 0 r0 { s with tm := { s.tm with queues := s.tm.queues.set 0 { frames := [x] } } }))))

theorem witness_select : let c := (queued { f := frameOf 64 }).chip
    ((c.pick ((c.eligible {}).filter fun p => 96 ≤ p.2.2.2) 4 40 c.tm).map (·.1)) = some 0 ∧ (c.tmQueue 0).frames = [{ f := frameOf 64 }] ∧
    State.reset.chip.tm.queues = [] ∧ (State.reset.chip.tmQueue 0).frames = [] := by decide +kernel
theorem witness_overflow : let c := (queued { f := frameOf 64, inDdr := true } { w1 := w64 (1 <<< 24) }).chip
    (c.tmQueue 0).frames = [{ f := frameOf 64, inDdr := true }] ∧ 0 < fld (c.tmRec kQueue 0).w1 47 24 ∧ cellsNeeded (frameOf 64) 64 ≤ c.freeCells := by
  decide
theorem witness_releases : let c := (from_ fun s => applied (Cell.queueCfg 0 5) (w64 (1 <<< 30)) { s with
      tm := { s.tm with releases := [{ crucible := 0, queue := 5 }] } }).chip
    State.reset.chip.tm.releases = [] ∧ c.tm.releases = [{ crucible := 0, queue := 5 }] ∧
    ((c.updTm fun t => { t with releases := [] }).sendQueue 0 5 (deviceSource 8 0) (wordBytes 0)).1 = true := by decide
theorem witness_drain : let c := (from_ fun s => { (queued {}).chip with tm := { (queued {}).chip.tm with draining := some (0, s.frc) } }).chip
    State.reset.chip.flag Reg.TM_DRAIN_CMD 37 = false ∧ (from_ (with_ Reg.TM_DRAIN_CMD (1 <<< 37))).chip.flag Reg.TM_DRAIN_CMD 37 = true ∧
    fld (w64 (1 <<< 20)) 35 20 ≠ 0 ∧ State.reset.chip.tm.draining = none ∧ c.tm.draining = some (0, 0) ∧ (c.tmQueue 0).frames = [{}] ∧
    0 + c.get Reg.TM_DRAIN_CMD 35 20 * frameTicks ≤ c.frc ∧
    ((from_ fun s => { s with tm := { s.tm with draining := some (0, 0) } }).chip.tmQueue 0).frames = [] := by decide
theorem witness_samples : let c := (from_ fun s => applied Reg.TM_SAMPLE_CFG 16 (tmSet kQueue 1048575 { w0 := w64 (1 <<< 21) } s)).chip
    bit (State.reset.chip.act Reg.TM_SAMPLE_CFG) 4 = false ∧ bit (c.act Reg.TM_SAMPLE_CFG) 4 = true ∧ (c.tmRec kQueue 1048575).qEn = true ∧
    (c.get (Reg.TM_SRING_PRODr 7) 31 0 + 4294967296 - c.get (Reg.TM_SRING_CONSr 7) 31 0) % 4294967296 ≠
      2 ^ fld (c.act (Reg.TM_SRING_CTRLr 7)) 4 0 ∧
    ((from_ (with_ (Reg.TM_SRING_PRODr 7) (2 ^ fld (c.act (Reg.TM_SRING_CTRLr 7)) 4 0))).chip.get (Reg.TM_SRING_PRODr 7) 31 0 + 4294967296 - 0) % 4294967296 =
      2 ^ fld (c.act (Reg.TM_SRING_CTRLr 7)) 4 0 := by decide
theorem witness_shapers : let c := (from_ fun s => tmSet kQueue 1048575 { w2 := w64 (1 + 1 <<< 29) } { s with frc := 1000000 }).chip
    State.reset.chip.shaped (0 : Fin 8) 1048575 = false ∧ c.shaped (0 : Fin 8) 1048575 = true ∧ 0 < c.tokens (0 : Fin 8) 1048575 := by decide

/-- A key slot set. -/
def slotted (k : Nat) (x : Slot) : State := from_ fun s => served (s.setSlot k x)

theorem witness_slots : let c := (slotted 40959 {}).chip
    State.reset.chip.ciph.command = none ∧ (from_ fun s => { s with ciph := { s.ciph with command := some 7 } }).chip.ciph.command = some 7 ∧
    fld (State.reset.chip.reg Reg.CIPH_SLOT_ATTR) 7 2 < 20 ∧ 48 < fld ((from_ (with_ Reg.CIPH_SLOT_ATTR (49 <<< 2))).chip.reg Reg.CIPH_SLOT_ATTR) 7 2 ∧
    20 ≤ fld ((from_ (with_ Reg.CIPH_SLOT_ATTR (20 <<< 2))).chip.reg Reg.CIPH_SLOT_ATTR) 7 2 ∧
    State.reset.chip.ddrHas (State.reset.chip.recordAt 40959) 64 = false ∧ c.ddrHas (c.recordAt 40959) 64 = true ∧ (c.slot 40959).state ≠ 4 ∧
    ((slotted 40959 { state := 4 }).chip.slot 40959).state = 4 ∧ c.ciph.units.joining = [] ∧
    (from_ fun s => s.updUnits fun u => { u with joining := [(1, 32)] }).chip.ciph.units.joining = [(1, 32)] := by decide
theorem witness_windows : let c := (slotted 40959 { state := 1, fails := 1, limit := 20 }).chip
    (c.slot 40959).fails ≠ 0 ∧ ({ c with frc := 622080000 } : Chip).failWindowOver (c.slot 40959) = true ∧ c.failWindowOver (c.slot 40959) = false ∧ (State.reset.chip.slot 40959).fails = 0 ∧ (c.slot 40959).state ≠ 0 ∧
    (c.slot 40959).reserved < (c.slot 40959).uses + 2 ^ ((c.slot 40959).limit - 7) ∧ c.ddrHas (c.recordAt 40959) 64 = true ∧
    (from_ fun s => s.setSlot 40959 { state := 1 }).chip.ddrHas 2621376 64 = false ∧
    (from_ fun s => s.setSlot 40959 { state := 1 }).chip.recordAt 40959 = 2621376 := by decide
theorem witness_sweep_due : (sweeping 0).chip.sweepDue 1 ≤ (sweeping 0).chip.frc ∧
    (from_ fun s => { s with fwd := { s.fwd with sweepers := s.fwd.sweepers.set 1 { running := true, pos := 1048575, period := 1000 } } }).chip.frc <
      (from_ fun s => { s with fwd := { s.fwd with sweepers := s.fwd.sweepers.set 1 { running := true, pos := 1048575, period := 1000 } } }).chip.sweepDue 1 ∧
    State.reset.chip.sweepSize 1 = 1048576 ∧ (sweeping (entryWith 125)).chip.entryBad 1 0 1048574 false = false := by decide
theorem witness_reloads : let c := (slotted 40959 { state := 1 }).chip
    (c.slot 40959).state ≠ 0 ∧ (c.slot 40959).reloading = false ∧ c.poisoned (c.recordAt 40959) 64 = false ∧
    State.reset.chip.poisoned (State.reset.chip.recordAt 40959) 64 = true ∧ State.reset.chip.ciph.healthy = false ∧
    lasts (State.reset.chip.frc - State.reset.chip.ciph.lastSeed) 1000000 = false ∧ lasts (({ c with frc := 622080 } : Chip).frc - 0) 1000000 = true ∧
    (from_ fun s => { s with ciph := { s.ciph with healthy := true } }).chip.ciph.healthy = true := by decide
theorem witness_extension : let c := (from_ (piped { stage := .ext })).chip
    c.prs.pipes.get (7 : Fin 8) = [{ stage := .ext }] ∧ bit (c.reg (Cell.fwdBd (c.bridgeOf { stage := .ext }))) 35 = false ∧
    bit ((c.setReg (Cell.fwdBd (c.bridgeOf { stage := .ext })) (w64 (1 <<< 35))).reg (Cell.fwdBd (c.bridgeOf { stage := .ext }))) 35 = true ∧
    fld (c.act (Cell.fwdProfileCtrl 0)) 1 0 = 0 ∧ fld ((applied (Cell.fwdProfileCtrl 0) 1 c).act (Cell.fwdProfileCtrl 0)) 1 0 ≠ 0 := by decide
theorem witness_overflowed : let c := (queued { f := frameOf 64, inDdr := true, at_ := [(0, 64)] } { w1 := w64 (1 <<< 24) }).chip
    (c.tmQueue 0).frames = [{ f := frameOf 64, inDdr := true, at_ := [(0, 64)] }] ∧ c.poisoned 0 64 = true ∧ (served c).poisoned 0 64 = false := by decide

/-! ### Witnesses: time, gates, memory and the link -/

/-- TIME's own state changed. -/
def timed (f : TimeState → TimeState) : Chip → Chip := fun s => { s with time := f s.time }

theorem witness_ticks : let c := (from_ (with_ Reg.CLK_STATUS 1)).chip
    (0xFFFFFFFF#32) ≠ 0 ∧ State.reset.chip.flag Reg.CLK_STATUS 0 = false ∧ c.flag Reg.CLK_STATUS 0 = true ∧ c.time.stepping = false ∧
    c.frc + 1 < 18446744073709551616 ∧ (∀ t : Tree, (c.pon.ponu.get t.val).idleGo = false) ∧ c.time.adjHost ++ c.time.adjEngine ++ c.time.servoStep = [] ∧
    (from_ (timed fun t => { t with setTo := some (-1) })).chip.time.setTo = some (-1) ∧ c.time.setTo = none ∧
    (from_ (timed fun t => { t with adjHost := [-1] })).chip.time.adjHost ++ [] ++ [] = [-1] := by decide
theorem witness_rate : State.reset.chip.servoOwnsRate = false ∧ (from_ (applied Reg.TIME_SERVO_CTRL 8)).chip.servoOwnsRate = true := by decide
theorem witness_inputs : let c := (from_ (with_ (Reg.TIME_TINn_CFG 3) 1)).chip
    State.reset.chip.flag (Reg.TIME_TINn_CFG 3) 0 = false ∧ c.flag (Reg.TIME_TINn_CFG 3) 0 = true ∧ c.flag (Reg.TIME_TINn_CFG 3) 1 ≠ true ∧
    c.flag (Reg.TIME_TINn_CFG 3) 1 = false ∧ fld (c.act Reg.TIME_SERVO_CTRL) 2 0 ≠ 4 ∧ (c.time.tin.get 3).length < 16 ∧
    16 ≤ ((from_ (timed fun t => { t with tin := t.tin.set 3 (List.replicate 16 1) })).chip.time.tin.get 3).length := by decide
theorem witness_servo : let c := fun (v : Servo) => (from_ fun s => applied Reg.TIME_SERVO_CTRL 5 (timed (fun t => { t with servo := v }) s)).chip
    fld (State.reset.chip.act Reg.TIME_SERVO_CTRL) 2 0 ≠ 5 ∧ fld ((c {}).act Reg.TIME_SERVO_CTRL) 2 0 = 5 ∧
    (c { lastInput := some 0 }).time.servo.lastInput = some 0 ∧ lasts ((c {}).frc - 0) 1000000 = false ∧ (c { state := 2 }).time.servo.state = 2 ∧ (c { state := 2, outliers := 1 }).time.servo.outliers < 2 ∧
    (fld ((c {}).act Reg.TIME_SERVO_BOUND) 23 0 : Int) * ns1 < (signed 48 (fld 0x7FFFFFFFFFFF 47 0)).natAbs := by decide
theorem witness_servo_loss : let c := (from_ (applied Reg.TIME_SERVO_LIMIT (w64 (1 <<< 48)))).chip
    lasts (c.frc - c.time.servo.lossFrom) (fld (c.act Reg.TIME_SERVO_LIMIT) 63 48 * 1000000) = false ∧
    lasts (622080 - 0) (fld (c.act Reg.TIME_SERVO_LIMIT) 63 48 * 1000000) = true ∧ lasts (622079 - 0) (fld (c.act Reg.TIME_SERVO_LIMIT) 63 48 * 1000000) = false := by
  decide
theorem witness_holdover : let c := (from_ fun s => timed (fun t => { t with servo := { state := 2 } }) { s with frc := 622080000 }).chip
    c.time.servo.state = 2 ∧ State.reset.chip.secondSince 0 = false ∧ c.secondSince c.time.hold.secondFrom = true ∧ c.fitEn = false ∧ c.hoEn = false ∧ State.reset.chip.time.servo.state ≠ 2 ∧
    (from_ (timed fun t => { t with servo := { state := 3 } })).chip.time.servo.state = 3 ∧ (from_ (applied Reg.TIME_HO_CTRL 1)).chip.fitEn = true := by
  decide
theorem witness_pulses : let c := (from_ (applied (Reg.TIME_TOUTn_CTRL 7) (w64 (1 <<< 33)))).chip
    (State.reset.chip.time.pulses.get 7).active = none ∧ (State.reset.chip.time.pulses.get 7).next = none ∧
    ((from_ (timed fun t => { t with pulses := t.pulses.set 7 { active := some 0 } })).chip.time.pulses.get 7) = { active := some 0 } ∧
    (0 : Int) ≤ c.logical / ns1 ∧ c.pulseOn 7 = true ∧ c.pulseStart 7 + 0 * c.pulsePeriod 7 * ns1 ≤ c.logical ∧
    c.logical < (from_ (applied (Reg.TIME_TOUTn_START 7) 1)).chip.pulseStart 7 + 0 * c.pulsePeriod 7 * ns1 := by decide
theorem witness_cancel : let g := (from_ (timed fun t => { t with trig := t.trig.set 255 { armed := true, gen := 255, next := 1 } })).chip.time.trig.get 255
    (State.reset.chip.time.trig.get 255).armed = false ∧ g.armed = true ∧ g.gen = fld 0xFFFF 15 8 ∧ fld 0xFFFF 7 0 = 255 ∧
    State.reset.chip.logical < g.next * ns1 := by decide
theorem witness_oven : let c := (from_ fun s => applied Reg.TIME_STEER_CFG (w64 (1 + 1 <<< 11)) (applied Reg.TIME_TEMP_CFG (w64 (1 <<< 48 + 31 <<< 43 + 4 <<< 35))
      (timed (fun t => { t with steer := some 0 }) s))).chip
    State.reset.chip.time.steer = none ∧ c.time.steer = some 0 ∧ bit (c.act Reg.TIME_STEER_CFG) 0 = true ∧ bit (State.reset.chip.act Reg.TIME_STEER_CFG) 11 = false ∧
    bit (c.act Reg.TIME_STEER_CFG) 11 = true ∧ c.sensorTemp (9830400 % 2 ^ (8 * fld (c.act Reg.TIME_TEMP_CFG) 37 35)) = 150 * 65536 ∧
    150 * 65536 < c.sensorTemp (9830401 % 2 ^ (8 * fld (c.act Reg.TIME_TEMP_CFG) 37 35)) ∧ c.time.oven.seen = false ∧ c.time.oven.readAt.all c.secondSince = true ∧ (some 0).all c.secondSince = false ∧
    State.reset.chip.flag (Reg.TIME_RCLKr 1) 6 = false ∧ (from_ (with_ (Reg.TIME_RCLKr 1) 64)).chip.flag (Reg.TIME_RCLKr 1) 6 = true := by decide

/-- Flask 0 of crucible 32 as f changes it. -/
def flasked (f : Flask → Flask) : State := from_ fun s => s.updFlask 32 0 f

theorem witness_compare : let c := State.reset.chip
    (c.flask 32 0).works = true ∧ (c.gate.crus.get 32).state = 0 ∧ (c.flask 32 0).state ≠ 1 ∧ (c.flask 32 0).cope.errs c.frc = false ∧
    (c.flask 32 0).drag.errs c.frc = false ∧
    ((flasked fun x => { x with cope := { x.cope with errAt := some 0 } }).chip.flask 32 0).cope.errs 128 = true ∧
    ((flasked fun x => { x with cope := { x.cope with errAt := some 0 } }).chip.flask 32 0).cope.errs 129 = false ∧
    ((flasked fun x => { x with state := 1 }).chip.flask 32 0).state = 1 := by decide
theorem witness_halves : let s := flasked fun x => { x with drag := { role := 9, health := 128 }, cope := { role := 12, health := 160 } }
    let r := flasked fun x => { x with state := 1, cope := { role := 3 }, drag := { role := 12 } }
    (s.chip.flask 32 0).drag.role = 9 ∧ (s.chip.flask 32 0).cope.role = 12 ∧ s.chip.healthMin ≤ (s.chip.flask 32 0).cope.health - 32 ∧
    (s.chip.flask 32 0).works = true ∧ ((flasked fun x => { x with state := 3 }).chip.flask 32 0).works = false ∧
    (r.chip.flask 32 0).state = 1 ∧ (r.chip.flask 32 0).cope.role = 3 ∧ (r.chip.flask 32 0).drag.role = 12 := by decide
theorem witness_retire : let s := flasked fun x => { x with held := true }
    let t := from_ fun s => (s.updFlask 32 0 fun x => { x with held := true }).updFlask 32 32 fun x => { x with state := 3 }
    (s.chip.flask 32 0).works = true ∧ (s.chip.flask 32 0).held = true ∧ s.chip.spareOf 32 = some 32 ∧ t.chip.spareOf 32 = none ∧
    (State.reset.chip.flask 32 0).held = false := by decide
theorem witness_counters_move : (1#32).toNat ≠ (State.reset.chip.flask 32 0).cope.last1 := by decide
theorem witness_crucible_lost : let c := (from_ fun s => { s with frc := 7465 }).chip
    (c.gate.crus.get 32).state = 0 ∧ lasts (c.frc - (c.gate.crus.get 32).beatAt) 12000 = true ∧ lasts (c.frc - (c.gate.crus.get 32).probeAt) 12000 = true ∧
    lasts (c.frc - 2) 12000 = false ∧ (c.gate.crus.get 32).pathFault = false ∧
    ((from_ fun s => { s with gate := { s.gate with crus := s.gate.crus.set 32 { state := 2, bist := 1 } } }).chip.gate.crus.get 32).state ≠ 0 := by decide
theorem witness_gate_commands : let g := fun (x : GateCru) => (from_ fun s => { s with gate := { s.gate with crus := s.gate.crus.set 32 x } }).chip
    State.reset.chip.gate.command = none ∧ (from_ fun s => { s with gate := { s.gate with command := some 4 } }).chip.gate.command = some 4 ∧
    (from_ (with_ Reg.GATE_SEL (32 <<< 6 + 32))).chip.get Reg.GATE_SEL 5 0 = 32 ∧ (from_ (with_ Reg.GATE_SEL (32 <<< 6 + 32))).chip.get Reg.GATE_SEL 11 6 = 32 ∧
    (g { state := 2, bist := 1 }).cruCount 32 = 0 ∧ ((g { state := 2, bist := 1 }).gate.crus.get 32).bist = 1 ∧
    ((g { state := 3 }).gate.crus.get 32).state = 3 ∧ ((g { state := 1 }).gate.crus.get 32).state = 1 ∧
    (from_ fun s => s.setThread 32 0 { state := stReady }).chip.cruCount 32 ≠ 0 ∧
    ((flasked fun x => { x with state := 3, bist := 1 }).chip.flask 32 0).retires < 3 ∧ ((flasked fun x => { x with state := 3, bist := 2 }).chip.flask 32 0).bist = 2 ∧
    ((flasked fun x => { x with state := 4 }).chip.flask 32 0).state = 4 ∧ bit (State.reset.chip.act Reg.GATE_CFG) 16 = false := by decide
theorem witness_turnover : State.reset.chip.turnDue 32 = false ∧ (from_ fun s => { s with offset := 8192000000 * ns1 }).chip.turnDue 32 = true ∧
    (sending 77760).chip.turnTree 32 = some 0 := by decide

/-- Channels 6 and 7 set, in mirrored mode. -/
def mirroring (a b : Channel) : State := from_ fun s => applied Reg.MEM_CFG 1 (with_ Reg.MEM_CHAN_SEL 7 { s with mem := { s.mem with
  chans := (s.mem.chans.set 6 a).set 7 b } })

theorem witness_scrub : let c := (slotted 0 {}).chip
    let x : Chip := { c with active := c.active.set Reg.MEM_CFG 1 }
    c.ddrHas ((0xFFFFFF#34).toNat * 64) 64 = true ∧ State.reset.chip.ddrHas ((0#34).toNat * 64) 64 = false ∧ ({ c with active := c.active.set Reg.MEM_CFG 0 } : Chip).mirrored = false ∧
    x.mirrored = true ∧ (x.chan 6).serves = true ∧ (x.chan (partner 6)).serves = true := by decide
/-- One wrong symbol is corrected, three are not (R570). -/
theorem witness_words : w20Check 0 = .clean ∧ w20Check (255 <<< 152) = .corrected ∧ w20Check (7 + 7 <<< 8 + 7 <<< 16) = .uncorrectable ∧ w20Left (255 <<< 152) = 0 := by
  decide +kernel
theorem witness_lines : lineCount .corrected (1 <<< 639) = 1 ∧ lineCount .uncorrectable (1 <<< 639) = 0 ∧ lineLeft (1 <<< 639) = 0 ∧ lineLeft 0 = 0 ∧
    lineCount .uncorrectable 0 = 0 := by decide +kernel
theorem witness_channels : let on : Channel := { state := 3, capacity := 1 }
    State.reset.chip.mem.command = none ∧ (from_ fun s => { s with mem := { s.mem with command := some 7 } }).chip.mem.command = some 7 ∧
    (mirroring on on).chip.get Reg.MEM_CHAN_SEL 2 0 = 7 ∧ ((mirroring on on).chip.chan 7).state = 3 ∧ ((mirroring on on).chip.chan (partner 7)).state = 3 ∧
    (mirroring on on).chip.mirrored = true ∧ ((mirroring on {}).chip.chan 7).state = 0 ∧ ((mirroring {} on).chip.chan (partner 7)).state ≠ 3 ∧
    ((mirroring on { suspect := true }).chip.chan 7).suspect = true ∧ (State.reset.chip.chan 7).suspect = false ∧
    ((mirroring on { state := 2 }).chip.chan 7).state ≠ 3 ∧ State.reset.chip.mirrored = false := by decide
theorem witness_training : let c := (from_ fun s => with_ Reg.GLB_STARTUP 8 { s with mem := { s.mem with
      chans := (s.mem.chans.set 6 { state := 3, capacity := 1 }).set 7 { state := 2 }, command := some 7 } }).chip
    (c.chan 7).state = 2 ∧ c.starting = false ∧ c.mem.command = some (7 : Fin 8).val ∧ c.mirrored = false ∧ (State.reset.chip.chan 7).state ≠ 2 ∧
    ({ c with active := c.active.set Reg.MEM_CFG 1 } : Chip).mirrored = true ∧ (c.chan (partner 7)).state = 3 ∧ (c.chan (partner 7)).capacity ≤ 1 ∧
    ((mirroring { state := 3 } { state := 4 }).chip.chan 7).state = 4 := by decide

/-- GLK's own state changed. -/
def linked (f : GlkState → GlkState) : Chip → Chip := fun s => { s with glk := f s.glk }

/-- A record waits in the mirror stream. -/
def recorded (l : List W64) : State := from_ (linked fun g => { g with link := { g.link with inbox := [l] } })

theorem witness_records_in : State.reset.chip.mateOn = false ∧ (from_ (applied Reg.GLK_MATE_CFG 1)).chip.mateOn = true ∧ State.reset.chip.glk.link.inbox = [] ∧
    (∀ k ∈ [1, 2, 3, 4, 5], (recorded [w64 (k <<< 56), 0, 0]).chip.glk.link.inbox = [[w64 (k <<< 56), 0, 0]] ∧ fld (w64 (k <<< 56)) 63 56 = k) ∧
    State.reset.chip.nextFrame (recordTree 0) = none ∧ bit (State.reset.chip.act Reg.GLK_PROG_DEST) 16 = false ∧ fld (w64 (1 <<< 16)) 19 16 = 1 := by decide
theorem witness_mirror : let s := (sending 77760).chip
    let c := { applied Reg.GLK_MATE_CFG 1 s with role := 9 }
    c.nextFrame (recordTree 5) = some (5, 77760) ∧ nearFrame 5 (fld 5 31 0) = some (5, 0) ∧ c.standbyAt 5 = true := by decide
theorem witness_resend : let g := (from_ (linked fun g => { g with link := { g.link with kept := [{ seq := 65535 }] } })).chip.glk.link.kept
    g = [{ seq := 65535 }] ∧ (∀ x ∈ g, x.seq ≠ 0) := by decide
theorem witness_paths : let c := (from_ fun s => linked (fun g => { g with paths := g.paths.set 2 { seen := true } }) { s with frc := 186624 }).chip
    (c.glk.paths.get 2).seen = true ∧ lasts (c.frc - (c.glk.paths.get 2).at_) 300000 = true ∧ lasts (c.frc - 1 - (c.glk.paths.get 2).at_) 300000 = false ∧
    (State.reset.chip.glk.paths.get 2).seen = false := by decide
theorem witness_programs : let c := (from_ fun s => applied Reg.GLK_PROG_SRC (w64 (1 <<< 16 + 5 <<< 6)) (posted 5 { len := 8 } s)).chip
    bit (State.reset.chip.act Reg.GLK_PROG_SRC) 16 = false ∧ bit (c.act Reg.GLK_PROG_SRC) 16 = true ∧
    (c.queueTake (c.redirect (fld (c.act Reg.GLK_PROG_SRC) 5 0)) (fld (c.act Reg.GLK_PROG_SRC) 15 6)).isSome = true := by decide
theorem witness_turn_go : let c := (from_ fun s => { linked (fun g => { g with paths := g.paths.set 1 { seen := true, ready := true } })
      (applied Reg.GLK_MATE_CFG 1 (sending 77760).chip) with role := 12, frc := s.frc + 62208000 }).chip
    State.reset.chip.mateFrame = none ∧ c.mateFrame = some 4 ∧ c.mateOn = true ∧ c.role = 12 ∧ c.mateSteady = true ∧ c.glk.turn = none ∧
    (4 + ((240#32).toNat + 4294967296 - 4 % 4294967296) % 4294967296) % 2251799813685248 = 240 ∧ 240 % 80 = 0 ∧ earlier 240 (4 + 160) = false := by decide
/-- A link of one aligned lane that is driven, with labels to send and to expect. -/
def laned (tx expect : Nat) (f : GlkLink → GlkLink := id) : Chip :=
  (from_ fun s => linked (fun g => { g with link := f { g.link with lanes := g.link.lanes.set 0 { lock := true, place := some 0 } } })
    (applied Reg.GLK_LINK_CFG (w64 (1 <<< 29 + expect <<< 20 + tx <<< 12 + 4 <<< 7 + 3 <<< 4 + 1)) s)).chip

/-- A row of one lane frame without a payload, of a label. -/
def rowOf (label : Nat) : RowLight := { lanes := [{ headers := [2], marker := w64 (0xD25A <<< 48 + 1 <<< 24 + label <<< 16), payload := [] }] }

theorem witness_rows : let c := laned 1 2
    let d := laned 1 2 fun l => { l with resend := [{}] }
    let e := (from_ (applied Reg.GLK_LINK_CFG (w64 (1 <<< 29 + 8)))).chip
    let q := (from_ (applied Reg.GLK_LINK_CFG (w64 (1 <<< 29 + 1 <<< 28 + 8)))).chip
    c.linkAligned = true ∧ e.linkAligned = false ∧ (1#8).toNat ≠ 0xFF ∧ (1#8).toNat ≠ fld (c.act Reg.GLK_LINK_CFG) 27 20 ∧ c.glk.link.dropRow = false ∧
    bit (State.reset.chip.act Reg.GLK_LINK_CFG) 29 = false ∧ bit (e.act Reg.GLK_LINK_CFG) 29 = true ∧ bit (e.act Reg.GLK_LINK_CFG) 28 = false ∧
    bit (q.act Reg.GLK_LINK_CFG) 28 = true ∧ q.glk.link.quietSent < 16 ∧
    bit (c.act Reg.GLK_LINK_CFG) 28 = false ∧ fld (d.act Reg.GLK_LINK_CFG) 19 12 = 1 ∧ d.glk.link.resend = [{}] ∧ d.linkAligned = true := by decide
theorem witness_labels : ∀ label ∈ [1, 2, 3, 0xFF], let c := laned 1 label
    let r := c.laneFrames (rowOf label)
    let marks := ((rowOf label).lanes.zip r.2).filter fun z => isMarker (z.1.headers.headD 2) z.1.marker
    c.linkAligned = true ∧ (c.updLink fun z => { z with lanes := r.1 }).linkAligned = true ∧ marks.map (fun z => fld z.1.marker 23 16) = [label] ∧
    c.glk.link.expect = none := by decide
theorem witness_lanes : let l := fun (x : GlkLane) => (from_ (linked fun g => { g with link := { g.link with lanes := g.link.lanes.set 7 x } })).chip.glk.link.lanes.get (7 : Fin 8)
    let block := w64 (0xD25A <<< 48 + 4 <<< 24)
    let z : LaneCandidate := { place := 1023, seq := 3, count := 2 }
    (State.reset.chip.glk.link.lanes.get (7 : Fin 8)).lock = false ∧ (State.reset.chip.glk.link.lanes.get (7 : Fin 8)).run = 0 ∧ (l { lock := true }).lock = true ∧
    (l { lock := true }).aligned = false ∧ isMarker 2 block = true ∧ isMarker 1 block = false ∧ (l { lock := true, candidates := [z] }).candidates = [z] ∧
    fld block 39 24 = (z.seq + 1) % 65536 ∧ z.count + 1 = fld (State.reset.chip.act Reg.GLK_LINK_CFG) 6 4 ∧ (l { lock := true, place := some 0 }).aligned = true := by
  decide
theorem witness_seconds : let c := fun (k : Nat) => (from_ fun s => linked (fun g => { g with pm := { g.pm with next := some k } })
      { s with offset := 11 * 1000000000 * 65536 }).chip
    (c 0).glk.pm.next = some 0 ∧ 0 + 11 ≤ (c 0).second.toNat ∧ (c 1).second.toNat < 1 + 11 ∧ fld 96 6 0 ≤ 96 ∧ fld 96 8 7 = 0 ∧ ¬ fld 97 6 0 ≤ 96 := by decide
theorem witness_hierarchy : let c := (from_ fun s => applied Reg.GLK_LINK_CFG (w64 (1 <<< 29 + 2 <<< 12)) (applied Reg.GLK_HIER_CFG (w64 (1 <<< 26)) (applied Reg.GLK_HIER_SRC (w64 (1 <<< 16 + 5 <<< 6))
      (posted 5 { len := 8 } s)))).chip
    bit (State.reset.chip.act Reg.GLK_HIER_CFG) 26 = false ∧ bit (c.act Reg.GLK_HIER_CFG) 26 = true ∧ bit (c.act Reg.GLK_HIER_SRC) 16 = true ∧ c.mateOn = false ∧
    (c.queueTake (c.redirect (fld (c.act Reg.GLK_HIER_SRC) 5 0)) (fld (c.act Reg.GLK_HIER_SRC) 15 6)).isSome = true ∧ bit (c.reg (Cell.glkPeer 0 1)) 5 = false ∧
    bit ((from_ (with_ (Cell.glkPeer 0 1) 32)).chip.reg (Cell.glkPeer 0 1)) 5 = true ∧ State.reset.chip.glk.hierIn = [] ∧
    (from_ (linked fun g => { g with hierIn := [(31, {})] })).chip.glk.hierIn = [(31, {})] := by decide
theorem witness_seal : let c := (slotted 0 { state := 1, mode := 1, limit := 20, reserved := 16384 }).chip
    (c.hierSeal 0 0 0 []).1.isSome = true := by decide +kernel

/-! ### Witnesses: the host, the uplinks and the island -/

/-- A ring changed, with its CFG word, and endpoint 0's bus mastering on. -/
def ringed (key cfg : Nat) (r : Ring) : State := from_ fun s =>
  { (with_ (Cell.hifRing key 1) cfg s) with rings := s.rings.set key r, hif := { s.hif with eps := s.hif.eps.set 0 { bme := true } } }

theorem witness_rings : let en := (1 + 6 <<< 2 : Nat)
    let rx := ringKey 0 4095
    let tx := ringKey 1 4095
    let c := fun (r : Ring) => (ringed rx en r).chip
    let it : RxItem := { data := [0] }
    let d : Desc := { w2 := 1 }
    (c {}).ringSize rx = 64 ∧ 64 < ((65#16).toNat + 65536 - ((c {}).ring rx).head) % 65536 ∧ ((64#16).toNat + 65536 - ((c {}).ring rx).head) % 65536 ≤ 64 ∧
    (ringed tx en {}).chip.ringSize tx = 64 ∧ (List.replicate 64 d).length = ((64#16).toNat + 65536 - ((c {}).ring rx).tail) % 65536 ∧
    ((c {}).ring rx).inbox = [] ∧ (c {}).hostFrame 4095 = none ∧ ((c { inbox := [it] }).ring rx).inbox = [it] ∧ (c {}).ringEn rx = true ∧ (c {}).ringRuns rx = true ∧
    ((c { inbox := [it] }).ring rx).posted = [] ∧ ((c { inbox := [it], posted := [d] }).ring rx).posted = [d] ∧ it.data ≠ [] ∧ it.data.length ≤ fld d.w2 15 0 ∧
    (from_ fun s => { (with_ (Cell.hifRing rx 1) en s) with rings := s.rings }).chip.ringRuns rx = false := by decide
theorem witness_ring_settings : let c := (from_ fun s => with_ Reg.HIF_RING_SEL 8191 (with_ (Cell.hifRing 8191 1) (1 + 6 <<< 2) s)).chip
    State.reset.chip.selRing = 0 ∧ bit (State.reset.chip.ringReg 0 1) 0 = false ∧ c.selRing = 8191 ∧ bit (c.ringReg 8191 1) 0 = true ∧
    bit (State.reset.chip.ringCfgAfter 0 25) 0 = true ∧ bit (State.reset.chip.ringCfgAfter 0 24) 0 = false ∧
    fld (c.ringReg 8191 1) 5 1 ≠ fld (c.ringCfgAfter (c.ringReg 8191 1) (w64 (1 + 7 <<< 2))) 5 1 := by decide
theorem witness_transmit : let en := (1 + 6 <<< 2 : Nat)
    let tx := ringKey 1 4095
    let good : Desc := { w0 := w64 (3 <<< 16 + 14) }
    let bad : Desc := { w0 := w64 (3 <<< 16 + 13) }
    let c := fun (r : Ring) => (ringed tx en r).chip
    (c {}).ringRuns tx = true ∧ nextRun ((c {}).ring tx).posted = none ∧ nextRun ((c { posted := [good] }).ring tx).posted = some [good] ∧
    nextRun ((c { posted := [bad] }).ring tx).posted = some [bad] ∧ runOk [good] = true ∧ runOk [bad] = false ∧ runBytes [good] = 14 ∧ bit good.w0 19 = false ∧
    fld ((c {}).act Reg.TM_BUF_CFG) 19 0 + 64 + cellsOf 14 ≤ (c {}).freeCells ∧ ((c {}).ring tx).open_ = [] ∧
    ((c { open_ := [{ descs := [good], status := some 4 }] }).ring tx).open_ = [{ descs := [good], status := some 4 }] ∧
    ((c { open_ := [{}] }).ring tx).open_ = [{}] ∧ ((c {}).endpoint ((c {}).ringEp tx)).bme = true := by decide
theorem witness_moderation : let c := (ringed 0 (1 + 6 <<< 2) { unsignalled := 1 }).chip
    (c.ring 0).unsignalled ≠ 0 ∧ lasts (c.frc - (c.ring 0).oldest) (fld (c.ringReg 0 1) 41 26 * 1000) = true ∧ (State.reset.chip.ring 0).unsignalled = 0 := by decide
theorem witness_vectors : let c := fun (h : HifState → HifState) => (from_ fun s => with_ (Reg.HIF_SRC_VECk 18) (1 <<< 11 + 2047) (with_ (Reg.HIF_MB_STATUS 0) (1 <<< 27)
      { s with hif := h s.hif })).chip
    State.reset.chip.vectorActive 2047 = false ∧ (c id).vectorActive 2047 = true ∧ (c id).hif.disarmed.get 2047 = false ∧ (c id).hif.unmasked.get 2047 = false ∧
    (c fun h => { h with unmasked := h.unmasked.set 2047 true }).hif.unmasked.get 2047 = true ∧
    (c fun h => { h with disarmed := h.disarmed.set 2047 true }).hif.disarmed.get 2047 = true ∧ (c id).hif.pending.get 2047 = false := by decide
theorem witness_endpoints : State.reset.chip.split = false ∧ (from_ (with_ Reg.GLB_STRAPS 1)).chip.split = true ∧ State.reset.chip.patterns.loader.busy = false := by
  decide

theorem witness_mailbox : let c := fun (a0 a1 a2 : Nat) => (from_ fun s => with_ (Reg.HIF_MB_ARGi 1 0) a0 (with_ (Reg.HIF_MB_ARGi 1 1) a1 (with_ (Reg.HIF_MB_ARGi 1 2) a2
      { s with hif := { s.hif with eps := s.hif.eps.set 1 { bme := true } } }))).chip
    State.reset.chip.flag (Reg.HIF_MB_CMD 1) 17 = false ∧ (from_ (with_ (Reg.HIF_MB_CMD 1) (1 <<< 17))).chip.flag (Reg.HIF_MB_CMD 1) 17 = true ∧
    State.reset.chip.isl.inReset = false ∧ (c 0 0 0).mbArg 1 1 = 0 ∧ (c 0 4097 0).mbArg 1 1 = 4097 ∧ (c 0 256 0).mbArg 1 1 = 256 ∧ (c 2 0 0).mbArg 1 0 = 2 ∧
    (c 1 0 0x200000).mbArg 1 2 = 0x200000 ∧ ((c 0 0 0).endpoint 1).bme = true ∧ State.reset.chip.hif.long = none ∧
    (from_ fun s => { s with hif := { s.hif with long := some {} } }).chip.hif.long.isSome = true := by decide

/-- Subport 31 enabled, with its settings, as f changes it. -/
def uplink (f : Subport → Subport) (cfg : Nat := 1518) (egress : List TmFrame := []) : State := from_ fun s =>
  { applied (Reg.ETH_SUB_CFG 7 3) (w64 cfg) (applied (Reg.ETH_PORT_CFG 7) (w64 (128 + 2)) (s.updSub 31 f)) with
    tm := { s.tm with egress := s.tm.egress.set 95 egress } }

theorem witness_uplink : let on := (uplink fun x => { x with lock := true, link := true }).chip
    (State.reset.chip.subOn 31 = false) ∧ on.subOn 31 = true ∧ (on.sub 31).lock = true ∧ (on.sub 31).link = true ∧ on.maxLen 31 = 1518 ∧
    (List.replicate 59 0#8).length + 4 < 64 ∧ (List.replicate 1514 0#8).length + 4 ≤ on.maxLen 31 ∧ beAt (List.replicate 1514 0#8) 12 2 ≠ 0x8808 ∧
    State.reset.chip.goPending (Reg.ETH_COMMIT 7) = false ∧ (from_ fun s => { with_ (Reg.ETH_COMMIT 7) 2 s with goAt := s.goAt.set (Reg.ETH_COMMIT 7) (some 0) }).chip.goAt.get
      (Reg.ETH_COMMIT 7) ≠ none := by decide
theorem witness_sending : let f := fun (n : Nat) => ({ f := { bytes := List.replicate n 0, length := n }, cls := 7 } : TmFrame)
    let c := fun (g : TmFrame) (x : Subport) => (uplink (fun _ => x) 1518 [g]).chip
    let up : Subport := { lock := true, link := true }
    (c (f 1515) up).tm.egress.get 95 = [f 1515] ∧ (c (f 1515) up).maxLen 31 < 1515 + 4 ∧ 1514 + 4 ≤ (c (f 60) up).maxLen 31 ∧
    (c (f 60) up).ethAllows 31 7 60 = true ∧ (c (f 60) up).cuttable 31 7 = false ∧
    (c (f 60) { up with paused := Map.set [] 7 (some 1) }).ethAllows 31 7 60 = false := by decide
theorem witness_pauses : let c := (uplink (fun x => { x with lock := true, paused := x.paused.set 7 (some 0) }) (1518 + 1 <<< 42)).chip
    bit (c.subCfg 31) 42 = true ∧ bit ((uplink id).chip.subCfg 31) 42 = false ∧ (c.sub 31).paused.get 7 ≠ none ∧ c.pausedClass 31 7 = false ∧
    ((uplink id).chip.sub 31).paused.get 7 = none := by decide
theorem witness_pfc : let c := fun (x : Option Nat) (used : Nat) => (from_ fun s => { applied (Reg.ETH_PFC_CFG 7) (w64 (1 <<< 28 + 1 <<< 8)) (uplink (fun y =>
      { y with link := true, xoff := x }) (1518 + 1 <<< 43)).chip with tm := { s.tm with used := used } }).chip
    (c none 0).pfcSubs 7 = [31] ∧ (c none 524288).freeCells < fld ((c none 0).act (Reg.ETH_PFC_CFG 7)) 27 8 ∧ ((c none 0).sub 31).xoff = none ∧
    ((c (some 0) 0).sub 31).xoff = some 0 ∧ (c none 524288).freeCells < fld ((c none 0).act (Reg.ETH_PFC_CFG 7)) 47 28 ∧
    fld ((c none 0).act (Reg.ETH_PFC_CFG 7)) 47 28 ≤ (c none 0).freeCells ∧
    (c none 0).quantaTicks 31 (fld ((c none 0).act (Reg.ETH_PFC_CFG 7)) 63 48) ≤ 2 * ((c none 0).frc - 0) := by decide
theorem witness_gates : let c := (uplink (fun x => { x with gates := { on := true, cycle := 1, entries := [255] }, change := some 0, verify := 2, stamps := [(1, 2)] })
      (1518 + 1 <<< 41)).chip
    c.gated 31 = true ∧ (uplink id).chip.gated 31 = false ∧ (c.sub 31).change = some 0 ∧ ((0 : Nat) : Int) ≤ c.nowNs ∧
    c.nowNs < ((1 : Nat) : Int) ∧ (c.sub 31).verify = 2 ∧ (c.sub 31).stamps = [(1, 2)] ∧ (State.reset.chip.sub 31).verify ≠ 2 ∧
    (State.reset.chip.sub 31).change = none ∧ (State.reset.chip.sub 31).stamps = [] := by decide

/-- The island as f changes it. -/
def island (f : Island → Island) : State := from_ fun s => { s with isl := f s.isl }

theorem witness_rails : let s := fun (n : Nat) => (island fun i => { i with seq := true, core := 1, step := n, clock := 6220800, rails := 63 }).chip
    (s 4).isl.seq = true ∧ (s 4).isl.core = 1 ∧ (s 4).isl.step = (4 : Fin 6).val ∧ (s 5).isl.step = 5 ∧ State.reset.chip.isl.seq = false ∧
    bitOf (s 5).isl.good 5 = false ∧ (s 5).isl.stepAt + islTicks 10000000 ≤ (s 5).isl.clock ∧ bitOf (s 5).isl.rails (5 : Fin 6).val = true := by decide
theorem witness_resets : State.reset.chip.isl.core = 3 ∧ (island fun i => { i with resetDue := some 0 }).chip.isl.resetDue = some 0 ∧
    (from_ (with_ Reg.CLK_STATUS 1)).chip.flag Reg.CLK_STATUS 0 = true ∧ (from_ (with_ Reg.CLK_STATUS 1)).chip.flag Reg.CLK_STATUS 3 = false := by decide
theorem witness_release : let s := fun (h : Bool) => (island fun i => { i with core := 2, hold := h, good := 63 }).chip.isl
    (s false).core = 2 ∧ (s false).hold = false ∧ (s false).holdEnd = none ∧ (s false).good = 63 ∧ (s true).hold = true ∧
    (island fun i => { i with inReset := true }).chip.isl.inReset = true := by decide
theorem witness_clock : State.reset.chip.running = true ∧ State.reset.chip.starting = true ∧ State.reset.chip.get Reg.GLB_STARTUP 2 0 = 0 ∧
    (from_ (with_ Reg.CLK_STATUS 2)).chip.flag Reg.CLK_STATUS 1 = true ∧ (from_ (with_ Reg.CLK_STATUS 8)).chip.flag Reg.CLK_STATUS 3 = true ∧
    (from_ (with_ Reg.GLB_STARTUP 3)).chip.starting = true ∧ (from_ (with_ Reg.GLB_STARTUP 3)).chip.get Reg.GLB_STARTUP 2 0 = 3 := by decide
theorem witness_thermal : let c := (from_ fun s => with_ Reg.GLB_STARTUP 8 (with_ Reg.GLB_AVS 19 { s with isl := { s.isl with clock := 622080 } })).chip
    anyAbove 125 (126 * 256) 0 0 = true ∧ c.starting = false ∧ c.isl.avsAt + islTicks 1000000 ≤ c.isl.clock ∧ c.get Reg.GLB_AVS 4 0 < (20 : Fin 32).val ∧
    ((mirroring {} { state := 1 }).chip.chan 7).state = 1 := by decide

theorem witness_requests : takesRequest State.reset 31 0xFFFF ∧
    keptAnswer (island fun i => { i with answers := i.answers.set 31 (some { seq := 65535, frame := [1], at_ := 0 }), clock := 622079999 }).chip 31 65535 = some [1] ∧
    keptAnswer (island fun i => { i with answers := i.answers.set 31 (some { seq := 65535, frame := [1], at_ := 0 }), clock := 622080000 }).chip 31 65535 = none := by
  unfold takesRequest; decide
theorem witness_actions : let x : LongOp := { by_ := .node 31, op := 6 }
    let s := from_ fun s => { s with hif := { s.hif with long := some x } }
    takesRequest s 31 0 ∧ s.chip.hif.long = some x ∧ State.reset.chip.flashWriting = false ∧ (0#32) ≠ 0x3250 ∧
    takesRequest (island fun i => { i with seq := true }) 31 0 ∧ (island fun i => { i with seq := true, core := 0 }).chip.isl.core = 0 ∧
    State.reset.chip.slotIdle 7 = true ∧ State.reset.chip.patterns.loader.busy = false ∧
    (island fun i => { i with writeSlot := some (1, 0x200000) }).chip.flashWriting = true := by
  unfold takesRequest; decide
theorem witness_flash : let s := island fun i => { i with writeSlot := some (1, 0x200000) }
    takesRequest s 31 0 ∧ s.chip.isl.writeSlot = some (1, 0x200000) ∧ (0x1FFFE0#32).toNat % 32 = 0 ∧ (0x1FFFE0#32).toNat < 0x200000 ∧
    (List.replicate 32 0#8).length = 32 ∧ s.chip.hif.long = none ∧ State.reset.chip.isl.writeSlot = none ∧ State.reset.chip.slotGuarded true = false := by
  unfold takesRequest; decide
theorem witness_frames : let s := fun (f : SbFrame) => island fun i => { i with queue := [f] }
    (s {}).chip.isl.waiting = none ∧ (s {}).chip.isl.queue = [{}] ∧ (s { app := true }).chip.isl.queue = [{ app := true }] ∧
    (s { attempts := 15 }).chip.isl.queue = [{ attempts := 15 }] ∧ 16 ≤ ({ attempts := 15 } : SbFrame).attempts + 1 ∧
    State.reset.chip.flag Reg.SBY_APP_CTRL 6 = false ∧ bit (State.reset.chip.reg Reg.SBY_APP_DEST) 16 = false ∧
    bit ((from_ (with_ Reg.SBY_APP_DEST (1 <<< 16))).chip.reg Reg.SBY_APP_DEST) 16 = true := by decide
theorem witness_heartbeats : let s := from_ fun s => applied Reg.GLK_MATE_CFG 1 (with_ Reg.SBY_HB_CFG 32 { s with isl := { s.isl with
      refresh := some (1, 2, 0), clock := 5, nextBeat := 5 } })
    let t := island fun i => { i with waiting := some 0, clock := 54745 }
    s.chip.isl.inReset = false ∧ s.chip.isl.waiting = none ∧ s.chip.isl.nextBeat = s.chip.isl.clock ∧ s.chip.beatReady = some (1, 2) ∧
    t.chip.isl.waiting = some 0 ∧ islTicks 88000 < t.chip.isl.clock - 0 ∧ s.chip.mateOn = true ∧
    (1#16).toNat % 16 = fld (s.chip.act Reg.GLK_MATE_CFG) 16 13 + 1 := by decide
theorem witness_log : let s := fun (n : Nat) => island fun i => { i with buffer := [{}], bucket := n }
    (s 4095).chip.isl.buffer = [{}] ∧ (s 4095).chip.isl.suppressed = [] ∧ (s 4095).chip.isl.refilled.bucket < 4096 ∧ 4096 ≤ (s 4096).chip.isl.refilled.bucket ∧
    State.reset.chip.isl.core = 3 ∧ (from_ fun s => { s with hif := { s.hif with long := some { by_ := .node 31, op := 6 } } }).chip.hif.long =
      some { by_ := .node 31, op := 6 } ∧ (State.reset.chip.longResult { by_ := .node 31, op := 1 }).isSome = true := by decide
theorem witness_merge : let f : TmFrame := { f := { bytes := List.replicate 60 0, length := 60 } }
    let r : Preempted := { frame := f, sent := 60, parts := 1 }
    let c := (uplink fun x => { x with lock := true, link := true, preempted := some r, assembly := some { number := 3 }, verify := 2, tries := 3 }).chip
    (c.sub 31).preempted = some r ∧ c.tm.egress.get 95 = [] ∧ c.gateOpen 31 r.frame.cls = true ∧ c.expressReady 31 = false ∧
    fitsRoom (c.roomBefore 31 r.frame.cls) 4 = true ∧ (c.sub 31).assembly = some { number := 3 } ∧ smdStart 3 ≠ smdNext 3 ∧ (c.sub 31).verify = 2 ∧
    3 ≤ (c.sub 31).tries ∧ lasts (c.frc - (c.sub 31).triedAt) ((fld (c.subCfg 31) 40 34 + 1) * 1000000) = false ∧
    lasts (622080 - 0) ((0 + 1) * 1000000) = true ∧ (c.sub 30).assembly = none := by decide
theorem witness_backoff : let f : SbFrame := { from_ := 6 }
    let c := (island fun i => { i with queue := [f], clock := 5 }).chip
    (∃ g ∈ [f], c.isl.clock < g.from_) ∧ c.isl.clock < f.from_ ∧ (∀ g ∈ [({} : SbFrame)], g.from_ ≤ c.isl.clock) := by decide
theorem witness_island_time : State.reset.chip.isl.core = 3 ∧ State.reset.chip.isl.timeRead = false ∧
    (island fun i => { i with timeRead := true, clock := 622080000 }).chip.isl.timeAt + islTicks 1000000000 ≤ 622080000 ∧
    (island fun i => { i with refresh := some (1, 2, 0) }).chip.isl.clock < 0 + beatPeriod / 2 ∧ State.reset.chip.isl.refresh = none := by decide
theorem witness_tails : let en := (1 + 6 <<< 2 : Nat)
    let c := (ringed (ringKey 0 4095) en { posted := [{}, {}] }).chip
    (c.ring (ringKey 0 4095)).posted.length = 2 ∧ ((1#16).toNat + 65536 - (c.ring (ringKey 0 4095)).head) % 65536 ≤ 0 + 2 := by decide

/-! ### Tests: values worked by hand from the spec, and published vectors of the standards it names -/

/-- The part after a command; the reset part where it stops. -/
def after (i : Instr) (s : State) : Chip := match exec i s with | .next t => t.chip | _ => {}

/-- AES-128 of FIPS 197, appendix C.1. -/
theorem test_aes : numNats (aesEnc (natsBE 16 0x000102030405060708090a0b0c0d0e0f) (natsBE 16 0x00112233445566778899aabbccddeeff)) =
    0x69c4e0d86a7b0430d8cdb78070b4c55a := by decide +kernel
/-- AES-CMAC of RFC 4493, example 1: the empty message. -/
theorem test_cmac : numNats (cmac (natsBE 16 0x2b7e151628aed2a6abf7158809cf4f3c) []) = 0xbb1d6929e95937287fa37d129b756746 := by decide +kernel
/-- The check value of CRC-32C, of the digits 1 to 9, which is inverted at the end; R352's is not. -/
theorem test_crc32c : crc32c 0xFFFFFFFF#32 [0x31, 0x32, 0x33, 0x34, 0x35, 0x36, 0x37, 0x38, 0x39] = ~~~0xE3069283#32 := by decide

/-- A step or a command that goes on to a state that p holds of. -/
def goesTo (o : Host.Outcome State Fault Refusal) (p : State → Bool) : Bool := match o with | .next t => p t | _ => false

theorem test_front_first : goesTo (step { State.reset with pending := [.timeTick 5, .servoLoss] }) (fun t => t.pending = [.servoLoss] && t.chip.isl.clock = 5) = true := by
  decide
theorem test_idle : goesTo (step State.reset) (fun t => t = State.reset) = true := by decide
theorem test_outside : exec (.registerWrite (.host 0) 0x4000000 .eight 0) State.reset = .fault (.outsideBar0 0x4000000) := by rfl

/-- R17: a W1C bit written as 1 clears, and only that bit. -/
theorem test_w1c : (after (.registerWrite (.host 0) (BitVec.ofNat 32 Reg.PRS_EVENT) .eight 2) (from_ (with_ Reg.PRS_EVENT 7))).reg Reg.PRS_EVENT = 5 := by decide
/-- R22: a staged bit is written and not applied. -/
theorem test_staged : let c := after (.registerWrite (.host 0) (BitVec.ofNat 32 Reg.CLK_SPREAD) .eight 1) State.reset
    bit (c.reg Reg.CLK_SPREAD) 0 = true ∧ bit (c.act Reg.CLK_SPREAD) 0 = bit (State.reset.chip.act Reg.CLK_SPREAD) 0 := by decide

/-- The encoding that R236 works out: ADDI g5, g3, −8 is 0x04A3FFF8. -/
theorem test_addi_word : ((after (.addi 0 0 5 3 0xFFF8) (issuing 0x04A3FFF8 fun x => x.setG 3 9)).thread 0 0).g 5 = 1 := by decide
/-- A word in instruction RAM that is another instruction's lets a command do nothing. -/
theorem test_other_word : (after (.sub 0 0 3 1 2) (issuing 0x00611000)) = (issuing 0x00611000).chip := by decide
/-- A source that is the destination too, at the wrap; g0 stays 0 (R223, R224). -/
theorem test_add_wraps : ((after (.add 0 0 1 1 2) (issuing 0x00211000 fun x => (x.setG 1 (BitVec.allOnes 64)).setG 2 2)).thread 0 0).g 1 = 1 := by decide
theorem test_add_zero : ((after (.add 0 0 0 1 2) (issuing 0x00011000 fun x => (x.setG 1 1).setG 2 2)).thread 0 0).g 0 = 0 := by decide
theorem test_sub_wraps : ((after (.sub 0 0 3 1 2) (issuing 0x00611001 fun x => (x.setG 1 1).setG 2 2)).thread 0 0).g 3 = BitVec.allOnes 64 := by decide
theorem test_sra_sign : ((after (.sra 0 0 3 1 2) (issuing 0x00611007 fun x => (x.setG 1 (w64 (1 <<< 63))).setG 2 63)).thread 0 0).g 3 = BitVec.allOnes 64 := by decide
theorem test_cmplt_sign : ((after (.cmplt 0 0 3 1 2) (issuing 0x0061100A fun x => (x.setG 1 (BitVec.allOnes 64)).setG 2 1)).thread 0 0).g 3 = 1 := by decide
theorem test_addi_sign : ((after (.addi 0 0 3 1 0xFFFF) (issuing 0x0461FFFF)).thread 0 0).g 3 = BitVec.allOnes 64 := by decide
/-- A byte that returns to LDS.B is extended with its sign. -/
theorem test_load_sign : ((after (.loadDataReturn 0 0) (from_ fun s => (waiting (.load 3 0x8 1 true) id s).putLocal 0 0 8 [0x80])).thread 0 0).g 3 = ~~~0x7F#64 := by
  decide
/-- The most significant byte lies at the lowest address. -/
theorem test_store_bytes : let c := after (.stH 0 0 2 1 0) (issuing 0x64410000 fun x => (x.setG 1 8).setG 2 0x1234)
    c.localByte 0 0 8 = 0x12 ∧ c.localByte 0 0 9 = 0x34 ∧ c.localByte 0 0 10 = 0 := by decide
/-- R241: TRAP enters supervisor mode with EXL set and IE clear. -/
theorem test_trap_entry : let x := (after (.trap 0 0 7) (issuing 0xFC003800 fun x => { x with ie := true })).thread 0 0
    x.super = true ∧ x.exl = true ∧ x.ie = false ∧ x.prevIe = true := by decide
/-- ERET in user mode traps. -/
theorem test_eret_user : ((after (.eret 0 0) (issuing 0xFC000001)).thread 0 0).exl = true := by decide
/-- A flush empties the queue (R184 to R187). -/
theorem test_ploam_flush : (after (.ploamFlush 0 0) (from_ (pon fun p => { p with framers := p.framers.set 0 { queue := [{}] } }))).pon.framers.get 0 = {} := by decide
/-- A selection sets BUSY. -/
theorem test_select_busy : (after (.statSelWrite 31 0x8001) State.reset).flag (Reg.POND_STAT_SEL 31) 63 = true := by decide
/-- R505: a cancelled trigger's generation steps from 255 to 0. -/
theorem test_generation_wraps : ((after (.trigCancel 0xFFFF) (from_ (timed fun t => { t with trig := t.trig.set 255 { armed := true, gen := 255, next := 1 } }))).time.trig.get
    255).gen = 0 := by decide
/-- An erased slot is EMPTY; the load count tells its next key from the last. -/
theorem test_slot_erase : (after (.slotErase 5) (slotted 5 { state := 1, key := 7 })).slot 5 = { loads := 1 } := by decide
/-- A TAIL beyond the ring's size leaves the ring as it was. -/
theorem test_tail_refused : (after (.rxTailWrite 0 0xFFFF []) State.reset).ring 0 = {} := by decide
/-- A NOP's answer joins the queue for the bus. -/
theorem test_side_band_nop : (after (.sbNop 3 7) State.reset).isl.queue.length = 1 := by decide
/-- A word with a reserved field that is not 0 traps with ILLEGAL, cause 1 (R236): CLZ with rb 1. -/
theorem test_reserved_field : ((after (.clz 0 0 3 1 1) (issuing 0x0061080C)).thread 0 0).cause = 1 := by decide
/-- The empty message of FIPS 180-4's SHA-384. -/
theorem test_sha384 : sha384 [] = 0x38b060a751ac96384cd9327eb1b1e36a21fdb71114be07434c0cc7bf63f6e1da274edebfe76f65fbd51ad2f14898b95b := by decide +kernel


end Sys2Proof.Tests
end

section
/-! Commands and their queue: which commands can stop the part, and how a queue of the others drains. -/
namespace Sys2Proof.Machine
open Sys2Proof.Claim

/-! ### Offsets -/

/-- A command that names an offset is an access of BAR0 at it. -/
theorem exec_of_offset {i : Instr} {n : Nat} (h : i.offset = some n) :
    ∃ (a : BitVec 32) (f : Chip → Chip), a.toNat = n ∧ ∀ s : State, exec i s = s.bar0 a f := by
  unfold Instr.offset at h
  split at h
  · exact ⟨_, _, Option.some.inj h, fun _ => rfl⟩
  · exact ⟨_, _, Option.some.inj h, fun _ => rfl⟩
  · exact ⟨_, _, Option.some.inj h, fun _ => rfl⟩
  · cases h

theorem exec_beyond_bar0 {i : Instr} {n : Nat} (s : State) (h : i.offset = some n) (hn : 67108864 ≤ n) :
    exec i s = .fault (.outsideBar0 n) := by
  obtain ⟨a, f, rfl, he⟩ := exec_of_offset h
  rw [he, State.bar0_outside s f hn]

/-- A command that names no offset beyond BAR0 completes. -/
theorem runs_of_inside {i : Instr} (s : State) (h : ∀ n, i.offset = some n → n < 67108864) : ∃ x, Runs i s x := by
  cases ho : i.offset with
  | none => exact exec_completes i ho s
  | some n =>
    obtain ⟨a, f, rfl, he⟩ := exec_of_offset ho
    obtain ⟨x, hx⟩ := State.core_next s f
    exact ⟨x, by rw [Runs, he, State.bar0_inside s f (h _ ho), hx]⟩

/-- A well-formed command names no offset beyond BAR0 (R14). -/
theorem offset_lt_of_wellFormed {i : Instr} (h : i.wellFormed = true) {n : Nat} (ho : i.offset = some n) : n < 67108864 := by
  unfold Instr.offset at ho
  split at ho
  · cases ho
    simpa [Instr.wellFormed] using h
  · cases ho
    simp only [Instr.wellFormed, Bool.and_eq_true, decide_eq_true_eq] at h
    exact h.1
  · cases ho
    simp only [Instr.wellFormed, Bool.and_eq_true, decide_eq_true_eq] at h
    exact h.1
  · cases ho

/-! ### The queue -/

theorem step_empty {s : State} (h : s.pending = []) : step s = .next s := by
  unfold step; rw [h]

theorem step_cons {s : State} {i : Instr} {rest : List Instr} (h : s.pending = i :: rest) :
    step s = exec i { s with pending := rest } := by
  unfold step; rw [h]

/-- A well-formed command at the front of the queue leaves it, and the rest stays. -/
theorem step_wellFormed {s : State} {i : Instr} {rest : List Instr} (h : s.pending = i :: rest) (hi : i.wellFormed = true) :
    ∃ s', step s = .next s' ∧ s'.pending = rest := by
  obtain ⟨x, hx⟩ := runs_of_inside { s with pending := rest } fun _ => offset_lt_of_wellFormed hi
  exact ⟨_, (step_cons h).trans hx, rfl⟩

/-- A step of a queue of well-formed commands goes on, and takes one command out. -/
theorem step_drains (s : State) (h : ∀ i ∈ s.pending, i.wellFormed = true) : ∃ s', step s = .next s' ∧ s'.pending = s.pending.tail := by
  cases hp : s.pending with
  | nil => exact ⟨s, step_empty hp, hp⟩
  | cons i rest => exact step_wellFormed hp (h i (hp ▸ List.mem_cons_self))

theorem stepMany_succ {s s' : State} (n : Nat) (h : step s = .next s') : stepMany (n + 1) s = stepMany n s' := by
  rw [stepMany, h]

/-- As many steps as well-formed commands wait empty the queue. -/
theorem stepMany_drains : ∀ (l : List Instr) (s : State), s.pending = l → (∀ i ∈ l, i.wellFormed = true) →
    ∃ s', stepMany l.length s = some s' ∧ s'.pending = [] := by
  intro l
  induction l with
  | nil => exact fun s hp _ => ⟨s, rfl, hp⟩
  | cons i rest ih =>
    intro s hp h
    obtain ⟨s₁, hs, hp₁⟩ := step_wellFormed hp (h i List.mem_cons_self)
    rw [List.length_cons, stepMany_succ _ hs]
    exact ih s₁ hp₁ fun j hj => h j (List.mem_cons_of_mem i hj)

/-- Settles O3: each step takes one command out of the queue, by induction on the commands that wait. -/
theorem wellFormedQueuesDrain : Obligations.WellFormedQueuesDrain := by
  intro s h
  obtain ⟨s₁, hs, hp⟩ := step_drains s h
  refine ⟨⟨s₁, hs⟩, fun s' hs' i hi => ?_, stepMany_drains s.pending s rfl h⟩
  rw [hs] at hs'
  cases hs'
  exact h i (List.mem_of_mem_tail (hp ▸ hi))

/-- Settles O2: a command either names no offset and completes, or is an access of BAR0, which completes inside it and stops outside. -/
theorem commandsLeaveTheQueue : Obligations.CommandsLeaveTheQueue := by
  intro i s
  refine ⟨fun h => runs_of_inside s fun n hn => ?_, fun n hn hle => exec_beyond_bar0 s hn hle⟩
  rw [hn] at h
  simpa using h

/-- Settles O5: no register is listed at reset, so each reads its reset value, and every table reads its default. -/
theorem resetState : Obligations.ResetState :=
  ⟨rfl, fun _ => rfl, fun _ => rfl, rfl, rfl, rfl, fun _ _ => rfl, fun _ => rfl, fun _ => rfl, fun _ => rfl, fun _ _ => rfl, rfl, rfl⟩

end Sys2Proof.Machine
end

section
/-! Staged values: a GO, and the application of what it staged (R20 to R23). -/
namespace Sys2Proof.Machine
open Sys2Proof.Claim

/-- A command of the core completes with what it does to the part, while the core runs. -/
theorem runs_of_core {i : Instr} {s : State} {f : Chip → Chip} (he : exec i s = s.core f) (hr : s.chip.running = true) :
    Runs i s (f s.chip) :=
  he.trans (State.core_running s f hr)

/-! ### GO -/

section
variable (s : Chip) (commit : Nat)

theorem Chip.flag_goSet : (s.goSet commit).flag commit 1 = true := s.flag_setFlag_self commit true (by decide)

theorem Chip.flag_goDone : (s.goDone commit).flag commit 1 = false := s.flag_setFlag_self commit false (by decide)

theorem Chip.goAt_goSet : (s.goSet commit).goAt.get commit = some s.frc := Map.get_set_self s.goAt commit (some s.frc)

theorem Chip.reg_goSet_other {a : Nat} (h : a ≠ commit) : (s.goSet commit).reg a = s.reg a := s.reg_setReg_other _ h

theorem Chip.get_goSet_other {a : Nat} (hi lo : Nat) (h : a ≠ commit) : (s.goSet commit).get a hi lo = s.get a hi lo := by
  rw [Chip.get, Chip.get, Chip.reg_goSet_other s commit h]

end

/-- A command that a block refuses while its GO is pending or its staged values are refused, and that else leaves y. -/
theorem runs_go {i : Instr} {s : State} {f : Chip → Chip} {commit : Nat} {ok : Bool} {y : Chip} (he : exec i s = s.core f)
    (hr : s.chip.running = true) (hf : f s.chip = if s.chip.goPending commit || !ok then s.chip.stageErr commit else y) :
    (s.chip.goPending commit = true ∨ ok = false → Runs i s (s.chip.raise commit 2)) ∧
    (s.chip.goPending commit = false → ok = true → Runs i s y) := by
  have hruns := runs_of_core he hr
  rw [hf] at hruns
  refine ⟨fun h => ?_, fun hp hok => ?_⟩
  · rwa [if_pos (by simpa using h)] at hruns
  · rwa [if_neg (by simp [hp, hok])] at hruns

/-- A command that is its block's GO and nothing else. -/
theorem goRule_of_core {i : Instr} {s : State} {f : Chip → Chip} {commit : Nat} {ok : Bool} (he : exec i s = s.core f)
    (hr : s.chip.running = true) (hf : f s.chip = s.chip.go commit ok) : GoRule i s commit ok := by
  obtain ⟨hrefused, haccepted⟩ := runs_go he hr hf
  exact ⟨hrefused, fun hp hok => ⟨_, haccepted hp hok, Chip.flag_goSet _ _, Chip.goAt_goSet _ _, rfl, fun a ha => Chip.reg_goSet_other _ _ ha, rfl⟩⟩

/-! ### Ranges of registers applied -/

/-- A key that a table does not list reads its default. -/
theorem Map.look_unlisted {α : Type} (d : Nat → α) (m : Map α) {a : Nat} (h : a ∉ m.map (·.1)) : m.look d a = d a := by
  induction m with
  | nil => rfl
  | cons e m ih =>
    obtain ⟨j, v⟩ := e
    rw [List.map_cons, List.mem_cons, not_or] at h
    obtain ⟨hj, hm⟩ := h
    rw [Map.look, if_neg (Ne.symm hj)]
    exact ih hm

/-- Keys put one by one to the values that f names. -/
theorem Map.look_foldl_put {α : Type} [DecidableEq α] (d f : Nat → α) (a : Nat) (l : List Nat) : ∀ m : Map α,
    (l.foldl (fun m k => m.put d k (f k)) m).look d a = if a ∈ l then f a else m.look d a := by
  induction l with
  | nil => intro m; rfl
  | cons k l ih =>
    intro m
    rw [List.foldl_cons, ih, Map.look_put]
    by_cases hl : a ∈ l
    · rw [if_pos hl, if_pos (List.mem_cons_of_mem k hl)]
    · rw [if_neg hl]
      by_cases hk : a = k
      · subst hk
        rw [if_pos rfl, if_pos List.mem_cons_self]
      · rw [if_neg hk, if_neg (by simp [hk, hl])]

section
variable (s : Chip)

/-- The staged registers of a range that either table lists. -/
def Chip.rangeKeys (s : Chip) (lo hi : Nat) : List Nat :=
  (((s.regs.filter fun (e : Nat × W64) => decide (lo ≤ e.1) && decide (e.1 < hi)).map (·.1)) ++
    ((s.active.filter fun (e : Nat × W64) => decide (lo ≤ e.1) && decide (e.1 < hi)).map (·.1))).filter fun a => stagedBits a ≠ 0

theorem Chip.applyRange_eq (lo hi : Nat) :
    s.applyRange lo hi = { s with active := (s.rangeKeys lo hi).foldl (fun m a => m.put resetW a (s.reg a)) s.active } := rfl

theorem Chip.mem_rangeKeys {lo hi a : Nat} : a ∈ s.rangeKeys lo hi ↔
    lo ≤ a ∧ a < hi ∧ stagedBits a ≠ 0 ∧ (a ∈ s.regs.map (·.1) ∨ a ∈ s.active.map (·.1)) := by
  simp only [Chip.rangeKeys, List.mem_filter, List.mem_append, List.mem_map, Bool.and_eq_true, decide_eq_true_eq]
  constructor
  · rintro ⟨⟨e, ⟨he, h1, h2⟩, rfl⟩ | ⟨e, ⟨he, h1, h2⟩, rfl⟩, hs⟩
    · exact ⟨h1, h2, hs, .inl ⟨e, he, rfl⟩⟩
    · exact ⟨h1, h2, hs, .inr ⟨e, he, rfl⟩⟩
  · rintro ⟨h1, h2, hs, ⟨e, he, rfl⟩ | ⟨e, he, rfl⟩⟩
    · exact ⟨.inl ⟨e, ⟨he, h1, h2⟩, rfl⟩, hs⟩
    · exact ⟨.inr ⟨e, ⟨he, h1, h2⟩, rfl⟩, hs⟩

/-- Every staged register of the range takes its staged value: one that neither table lists holds its reset value in both (R22). -/
theorem Chip.act_applyRange (lo hi a : Nat) :
    (s.applyRange lo hi).act a = if lo ≤ a ∧ a < hi ∧ stagedBits a ≠ 0 then s.reg a else s.act a := by
  rw [Chip.applyRange_eq, Chip.act, Map.look_foldl_put]
  by_cases hin : lo ≤ a ∧ a < hi ∧ stagedBits a ≠ 0
  · rw [if_pos hin]
    by_cases hl : a ∈ s.regs.map (·.1) ∨ a ∈ s.active.map (·.1)
    · obtain ⟨h1, h2, h3⟩ := hin
      rw [if_pos (s.mem_rangeKeys.mpr ⟨h1, h2, h3, hl⟩)]
    · rw [if_neg fun h => hl (s.mem_rangeKeys.mp h).2.2.2]
      rw [not_or] at hl
      obtain ⟨hregs, hactive⟩ := hl
      rw [Chip.reg, Map.look_unlisted _ _ hregs, Map.look_unlisted _ _ hactive]
  · rw [if_neg hin, if_neg fun h => ?_]
    · rfl
    · obtain ⟨h1, h2, h3, _⟩ := s.mem_rangeKeys.mp h
      exact hin ⟨h1, h2, h3⟩

end

/-! ### The GO of each block -/

/-- PONU values that wait for no frame apply at the clock that is late enough after the GO (R119). -/
theorem Chip.ponuApplyIdle_due (s : Chip) (t : Tree) (hi : (s.pon.ponu.get t.val).idleGo = true) (ha : s.goAged (Reg.PONU_COMMIT t) 2000 s.frc = true) :
    s.ponuApplyIdle t = (s.ponuApply t (s.get (Reg.POND_FC_START t) 31 0) none).goDone (Reg.PONU_COMMIT t) := by
  unfold Chip.ponuApplyIdle
  rw [hi, ha]
  rfl

/-- What the application of a tree's PONU values leaves of its state. -/
theorem Chip.ponu_ponuApply (s : Chip) (t : Tree) (n : Nat) (from_ : Option Nat) :
    ((s.ponuApply t n from_).pon.ponu.get t.val).applied = true ∧ ((s.ponuApply t n from_).pon.ponu.get t.val).idleGo = false := by
  unfold Chip.ponuApply
  dsimp only
  rw [Map.get_set_self]
  exact ⟨rfl, rfl⟩

theorem Chip.idleGo_setIdleGo (s : Chip) (t : Nat) (b : Bool) : ((s.setIdleGo t b).pon.ponu.get t).idleGo = b := by
  unfold Chip.setIdleGo Map.upd
  rw [Map.get_set_self]

/-- POND_GO while the tree's timing runs is a GO and nothing else; while it does not, the values apply at once, under FC_START (R213). -/
theorem pondGo_eq (t : Tree) (s : Chip) : pondGo t s = if s.goPending (Reg.POND_COMMIT t) || !s.pondStagedOk t then s.stageErr (Reg.POND_COMMIT t)
    else if s.timingRuns t then s.goSet (Reg.POND_COMMIT t)
    else (s.goSet (Reg.POND_COMMIT t)).pondApply t (s.get (Reg.POND_FC_START t) 31 0) := by
  have hne : Reg.POND_FC_START t ≠ Reg.POND_COMMIT t := by unfold Reg.POND_FC_START Reg.POND_COMMIT; omega
  rw [← Chip.get_goSet_other s _ 31 0 hne]
  rfl

/-- ETH_GO counts the change times of its gate lists where the GO is accepted (R678). -/
theorem ethGo_eq (p : Fin 8) (s : Chip) : ethGo p s = if s.goPending (Reg.ETH_COMMIT p) || !s.ethStagedOk p then s.stageErr (Reg.ETH_COMMIT p)
    else (s.goSet (Reg.ETH_COMMIT p)).listsWait p := by
  unfold ethGo Chip.go
  cases s.goPending (Reg.ETH_COMMIT p) <;> cases s.ethStagedOk p <;> rfl

/-- Settles O34: each block's GO is one test, with what an accepted GO does by the block's own rule. -/
theorem goStagesOrRefuses : Obligations.GoStagesOrRefuses := by
  intro s t k p hr c
  have hponu := runs_go (i := .ponuGo t) (s := s) (f := ponuGo t) rfl hr rfl
  have hpond := runs_go (i := .pondGo t) (s := s) (f := pondGo t) rfl hr (pondGo_eq t s.chip)
  have halloc := runs_go (i := .allocGo) (s := s) (f := allocGo) rfl hr rfl
  have heth := runs_go (i := .ethGo p) (s := s) (f := ethGo p) rfl hr (ethGo_eq p s.chip)
  refine ⟨goRule_of_core rfl hr rfl, goRule_of_core rfl hr rfl, goRule_of_core rfl hr rfl, goRule_of_core rfl hr rfl, goRule_of_core rfl hr rfl,
    goRule_of_core rfl hr rfl, goRule_of_core rfl hr rfl, goRule_of_core rfl hr rfl, goRule_of_core rfl hr rfl, goRule_of_core rfl hr rfl,
    hponu.1, fun hp hok => ?ponu, fun hi ha => ?ponuIdle, fun ht => ?pondRuns, fun ht hp hok => ?pondIdle, halloc.2, halloc.1, heth.1, heth.2⟩
  case ponu =>
    exact ⟨_, hponu.2 hp hok, rfl, Chip.flag_goSet _ _, Chip.goAt_goSet _ _, rfl, Chip.idleGo_setIdleGo _ _ _⟩
  case ponuIdle =>
    obtain ⟨happlied, hidle⟩ := c.ponu_ponuApply t (c.get (Reg.POND_FC_START t) 31 0) none
    rw [Chip.ponuApplyIdle_due _ _ hi ha]
    exact ⟨Chip.flag_goDone _ _, happlied, hidle, fun a => c.act_applyRange _ _ a⟩
  case pondRuns =>
    refine goRule_of_core rfl hr ((pondGo_eq t s.chip).trans ?_)
    rw [if_pos ht]
    rfl
  case pondIdle =>
    have hruns := hpond.2 hp hok
    rwa [if_neg (Bool.eq_false_iff.mp ht)] at hruns

end Sys2Proof.Machine
end

section
/-! The application of staged values of GLK, and reads of FIFO registers. -/
namespace Sys2Proof.Machine
open Sys2Proof.Claim

/-! ### GLK with changed lanes -/

/-- A command leaves one part. -/
theorem runs_unique {i : Instr} {s : State} {x y : Chip} (hx : Runs i s x) (hy : Runs i s y) : x = y := by
  have h : s.withChip x = s.withChip y := Host.Outcome.next.inj (hx.symm.trans hy)
  exact congrArg State.chip h

/-- A part at reset but for GLK: LANES is staged as 4, where 8 lanes are applied, and the GO is pending. -/
def lanesPending : State :=
  { chip := (State.reset.chip.setReg Reg.GLK_COMMIT 2).setReg Reg.GLK_LINK_CFG 0x234 }

/-- GLK_APPLY with changed LANES gives up what it has applied: PENDING stays, for the part goes on from the one before the application. -/
theorem glkApply_lanesPending : (glkApply lanesPending.chip).flag Reg.GLK_COMMIT 1 = true := by decide

/-- Refutes O35: with LANES staged as 4 where 8 are applied, GLK_APPLY ends with PENDING set, and its staged values not applied. -/
theorem not_stagedValuesApplyTogether : ¬ Obligations.StagedValuesApplyTogether := by
  intro h
  obtain ⟨-, -, -, -, -, -, -, -, -, -, hglk, -⟩ := h lanesPending 0 rfl
  obtain ⟨y, hruns, -, -, hflag⟩ := hglk (by decide)
  have hy : y = glkApply lanesPending.chip := runs_unique hruns (runs_of_core rfl rfl)
  rw [hy, glkApply_lanesPending] at hflag
  cases hflag

/-! ### FIFO registers (R20) -/

section
variable (s : Chip) (e : Ep) (a : Nat) (v : W64) (l : List W64) (pop : Chip → Chip)

theorem Chip.rcRead_full_empty : s.rcRead e a .full [] pop = s.answer 0 := rfl

theorem Chip.rcRead_full : s.rcRead e a .full (v :: l) pop = (pop s).answer v := rfl

theorem Chip.rcRead_low : s.rcRead e a .low (v :: l) pop =
    { (pop s).answer (w64 (fld v 31 0)) with rcLatch := (pop s).rcLatch.set e (some (a, fld v 63 32)) } := rfl

theorem Chip.rcRead_high : s.rcRead e a .high l pop = rcHighRead e a s := rfl

theorem rcHighRead_kept {h : Nat} (hk : s.rcLatch.get e = some (a, h)) : (rcHighRead e a s).readData = w64 h := by
  unfold rcHighRead
  simp only [hk, if_true]
  rfl

theorem rcHighRead_notKept (hk : ∀ h, s.rcLatch.get e ≠ some (a, h)) : (rcHighRead e a s).readData = 0 := by
  unfold rcHighRead
  cases hl : s.rcLatch.get e with
  | none => rfl
  | some p =>
    obtain ⟨b, h⟩ := p
    have hb : b ≠ a := fun hb => hk h (by rw [hl, hb])
    simp only [hb, if_false]
    rfl

theorem rcHighRead_latch_self : (rcHighRead e a s).rcLatch.get e = none := Map.get_set_self s.rcLatch e none

theorem rcHighRead_latch_other {d : Ep} (h : d ≠ e) : (rcHighRead e a s).rcLatch.get d = s.rcLatch.get d :=
  Map.get_set_other s.rcLatch none (Fin.val_ne_of_ne h)

end

/-- What taking an entry out must leave, and do, for a register to read as a FIFO: the FIFO is a part of the state apart from the registers, what was read
and what is kept for the endpoints. -/
structure PopsFifo (fifo : Chip → List W64) (pop : Chip → Chip) : Prop where
  fifo_pop : ∀ s, fifo (pop s) = (fifo s).drop 1
  regs_pop : ∀ s, (pop s).regs = s.regs
  latch_pop : ∀ s, (pop s).rcLatch = s.rcLatch
  fifo_answer : ∀ s v, fifo (s.answer v) = fifo s
  fifo_latch : ∀ s m, fifo { s with rcLatch := m } = fifo s

/-- A read of an RC register of a FIFO, whole or by halves. -/
theorem fifoRule_of_core {i : Ep → Lanes → Instr} {s : State} {a : Nat} {fifo : Chip → List W64} {pop : Chip → Chip} (hr : s.chip.running = true)
    (he : ∀ e lanes, exec (i e lanes) s = s.core fun u => u.rcRead e a lanes (fifo u) pop) (hpop : PopsFifo fifo pop) : FifoRule i s a fifo := by
  intro e
  have hruns := fun lanes => runs_of_core (he e lanes) hr
  refine ⟨fun hnil => ?empty, fun v l hcons => ⟨?full, ?low⟩, ?high⟩
  case empty =>
    have h := hruns .full
    rw [hnil, Chip.rcRead_full_empty] at h
    exact ⟨_, h, rfl, (hpop.fifo_answer _ _).trans hnil, rfl⟩
  case full =>
    have h := hruns .full
    rw [hcons, Chip.rcRead_full] at h
    refine ⟨_, h, rfl, ?_, hpop.regs_pop _, hpop.latch_pop _⟩
    rw [hpop.fifo_answer, hpop.fifo_pop, hcons]
    rfl
  case low =>
    have h := hruns .low
    rw [hcons, Chip.rcRead_low] at h
    refine ⟨_, h, rfl, ?_, hpop.regs_pop _, Map.get_set_self (pop s.chip).rcLatch e (some (a, fld v 63 32)), fun d hd => ?_⟩
    · rw [hpop.fifo_latch, hpop.fifo_answer, hpop.fifo_pop, hcons]
      rfl
    · dsimp only
      rw [Map.get_set_other _ _ (Fin.val_ne_of_ne hd), hpop.latch_pop]
  case high =>
    have h := hruns .high
    rw [Chip.rcRead_high] at h
    exact ⟨_, h, rcHighRead_latch_self _ _ _, fun d hd => rcHighRead_latch_other _ _ _ hd, (hpop.fifo_latch _ _).trans (hpop.fifo_answer _ _), rfl,
      fun n hn => rcHighRead_kept _ _ _ hn, rcHighRead_notKept _ _ _⟩

theorem Map.get_upd_self {α : Type} [DecidableEq α] [Inhabited α] (m : Map α) (k : Nat) (f : α → α) : (m.upd k f).get k = f (m.get k) :=
  Map.get_set_self m k _

/-- Settles O36: every one of these registers reads through the same operation, each with its own FIFO. -/
theorem fifoReadsTakeTheOldest : Obligations.FifoReadsTakeTheOldest := by
  intro s t k n hr
  refine ⟨fifoRule_of_core hr (fun _ _ => rfl) ?trigLog, fifoRule_of_core hr (fun _ _ => rfl) ?halfFifo, fifoRule_of_core hr (fun _ _ => rfl) ?notices,
    fifoRule_of_core hr (fun _ _ => rfl) ?captures, fifoRule_of_core hr (fun _ _ => rfl) ?faultLog, fifoRule_of_core hr (fun _ _ => rfl) ?mismatches⟩
  case trigLog => exact ⟨fun u => Map.get_upd_self u.cru.trigLog k _, fun _ => rfl, fun _ => rfl, fun _ _ => rfl, fun _ _ => rfl⟩
  case halfFifo =>
    exact ⟨fun u => by dsimp only; rw [Map.get_upd_self], fun _ => rfl, fun _ => rfl, fun _ _ => rfl, fun _ _ => rfl⟩
  case notices => exact ⟨fun _ => rfl, fun _ => rfl, fun _ => rfl, fun _ _ => rfl, fun _ _ => rfl⟩
  case captures => exact ⟨fun u => Map.get_set_self u.time.tin n _, fun _ => rfl, fun _ => rfl, fun _ _ => rfl, fun _ _ => rfl⟩
  case faultLog => exact ⟨fun _ => rfl, fun _ => rfl, fun _ => rfl, fun _ _ => rfl, fun _ _ => rfl⟩
  case mismatches => exact ⟨fun _ => rfl, fun _ => rfl, fun _ => rfl, fun _ _ => rfl, fun _ _ => rfl⟩

end Sys2Proof.Machine
end

section
/-! Threads under the host's and time's control, and the host's access to a crucible's memories (R246, R267 to R269, R278, R279, R749). -/
namespace Sys2Proof.Machine
open Sys2Proof.Claim

/-! ### Starts of threads -/

/-- u has the threads and TIME's state of s. -/
def KeepsThreads (s u : Chip) : Prop := u.cru.threads = s.cru.threads ∧ u.time = s.time

namespace KeepsThreads
variable {s u v : Chip}

theorem trans (h : KeepsThreads s u) (g : KeepsThreads u v) : KeepsThreads s v := ⟨g.1.trans h.1, g.2.trans h.2⟩

theorem of_regsOnly (h : RegsOnly s u) : KeepsThreads s u := by
  unfold RegsOnly at h
  rw [h]
  exact ⟨rfl, rfl⟩

theorem thread_eq (h : KeepsThreads s u) (c t : Nat) : u.thread c t = s.thread c t := by rw [Chip.thread, Chip.thread, h.1]

end KeepsThreads

theorem logTrigger_keeps (s : Chip) (c t : Nat) (overrun pended : Bool) (ns : Nat) : KeepsThreads s (s.logTrigger c t overrun pended ns) := by
  unfold Chip.logTrigger
  dsimp only
  split
  · exact .of_regsOnly (regsOnly_bump s _ 1)
  · exact ⟨rfl, rfl⟩

theorem countEvent_keeps (s : Chip) (c e : Nat) (super : Bool) (code n : Nat) : KeepsThreads s (s.countEvent c e super code n) :=
  .of_regsOnly (countEvent_frame s c e super code n).1

/-- y is s with a thread started at ENTRY with g1 and g2: its mode is that of CRU_THREAD_CTRL, its other registers and every other thread stay (R240, R267). -/
def Started (s y : Chip) (c t entry : Nat) (g1 g2 : W64) : Prop :=
  (y.thread c t).state = stReady ∧ (y.thread c t).ip = entry * 4 % iramSize ∧ (y.thread c t).super = bit (s.reg (Cell.threadCtrl c t)) 4 ∧
  (y.thread c t).g 1 = g1 ∧ (y.thread c t).g 2 = g2 ∧ (y.thread c t).handler.isSome = true ∧
  (∀ n, n ≠ 1 → n ≠ 2 → (y.thread c t).g n = (s.thread c t).g n) ∧ (∀ d u, tkey d u ≠ tkey c t → y.thread d u = s.thread d u)

theorem Started.of_keeps {s u y : Chip} {c t entry : Nat} {g1 g2 : W64} (h : Started s u c t entry g1 g2) (g : KeepsThreads u y) :
    Started s y c t entry g1 g2 := by
  unfold Started
  simp only [g.thread_eq]
  exact h

/-- A register reads what was written to it, unless it is g0. -/
theorem Thread.g_setG (x : Thread) {n : Nat} (m : Nat) (v : W64) (hn : n ≠ 0) : (x.setG n v).g m = if m = n then v else x.g m := by
  unfold Thread.setG Thread.g
  rw [if_neg hn]
  dsimp only
  by_cases hm : m = n
  · subst hm
    rw [if_neg hn, if_pos rfl, Map.get_set_self]
  · rw [if_neg hm, Map.get_set_other _ _ hm]

/-- A start, from a part that differs in the thread's other fields only. -/
theorem startThread_started {s u : Chip} {c t : Nat} (entry : Nat) (g1 g2 : W64) (hregs : (u.thread c t).regs = (s.thread c t).regs)
    (hother : ∀ d v, tkey d v ≠ tkey c t → u.thread d v = s.thread d v) (hctrl : u.reg (Cell.threadCtrl c t) = s.reg (Cell.threadCtrl c t)) :
    Started s (u.startThread c t entry g1 g2) c t entry g1 g2 := by
  have hg : ∀ n, (u.thread c t).g n = (s.thread c t).g n := fun n => by rw [Thread.g, Thread.g, hregs]
  have hx : (u.startThread c t entry g1 g2).thread c t =
      ((({ u.thread c t with state := stReady, ip := entry * 4 % iramSize, super := u.flag (Cell.threadCtrl c t) 4, wait := .none
                             readyFrom := u.frc, stopReq := false } : Thread).setG 1 g1).setG 2 g2).beginHandler := Chip.thread_updThread_self _ _ _ _
  have hread : ∀ n, ((u.startThread c t entry g1 g2).thread c t).g n = if n = 2 then g2 else if n = 1 then g1 else (s.thread c t).g n := fun n => by
    rw [hx, ← hg n, ← Thread.g_setG _ n g1 (by decide), ← Thread.g_setG _ n g2 (by decide)]
    rfl
  refine ⟨?_, ?_, ?_, hread 1, hread 2, ?_, fun n h1 h2 => ?_, fun d v hd => ?_⟩
  · rw [hx]; rfl
  · rw [hx]; rfl
  · rw [hx, ← hctrl]; rfl
  · rw [hx]; rfl
  · rw [hread, if_neg h2, if_neg h1]
  · exact (Chip.thread_updThread_other _ _ hd).trans (hother d v hd)

theorem threadStart_idle {s : Chip} {c : Cru} {t : Fin 256} (hi : (s.thread c t).state = stIdle) (hv : (s.store c).contents.version ≠ none) :
    threadStart c t s = s.startThread c t (fld (s.reg (Cell.threadCtrl c t)) 47 32) 0 0 := by
  unfold threadStart Chip.hasPattern
  rw [if_neg (by simp [hi, Option.isSome_iff_ne_none.mpr hv])]

theorem threadStart_refused {s : Chip} {c : Cru} {t : Fin 256} (h : (s.thread c t).state ≠ stIdle ∨ (s.store c).contents.version = none) :
    threadStart c t s = s.raise (Reg.CRU_EVENT c) 1 := by
  unfold threadStart Chip.hasPattern
  rw [if_pos (by simpa using h)]

/-- The pending start of an IDLE thread of a crucible that serves begins (R268). -/
theorem pendingStart_started {s : Chip} {c : Cru} {t : Fin 256} {p : PendingStart} (hg : (s.gate.crus.get c).state = 0)
    (hi : (s.thread c t).state = stIdle) (hp : (s.thread c t).pending = some p) :
    Started s (pendingStart c t s) c t p.entry (w64 p.tag) (w64 p.time) ∧ ((pendingStart c t s).thread c t).pending = none := by
  have heq : pendingStart c t s = (((s.updThread c t fun y => { y with pending := none }).startThread c t p.entry (w64 p.tag)
      (w64 p.time)).logTrigger c t false true p.time).countEvent c (t / 8) (s.flag (Cell.threadCtrl c t) 4) 0x29 := by
    unfold pendingStart
    simp only [hp, hi, hg, ne_eq, not_true_eq_false, decide_false, Bool.or_self, Bool.false_eq_true, if_false]
  have hkeeps := (logTrigger_keeps ((s.updThread c t fun y => { y with pending := none }).startThread c t p.entry (w64 p.tag) (w64 p.time))
    c t false true p.time).trans (countEvent_keeps _ c (t / 8) (s.flag (Cell.threadCtrl c t) 4) 0x29 1)
  rw [heq]
  refine ⟨.of_keeps (startThread_started _ _ _ ?_ (fun d v hd => Chip.thread_updThread_other _ _ hd) rfl) hkeeps, ?_⟩
  · rw [Chip.thread_updThread_self]
  · rw [hkeeps.thread_eq, Chip.startThread, Chip.thread_updThread_self, Chip.thread_updThread_self]
    rfl

/-! ### Triggers -/

/-- What a trigger slot holds after it has fired: freed after its last start, else armed for the next one (R505 to R508). -/
def Trigger.fired (g : Trigger) : Trigger :=
  if g.period = 0 ∨ g.remaining = 1 then g.freed
  else { g with next := g.resume.getD (g.next + g.period), resume := none, remaining := g.remaining - 1 }

theorem triggerFire_due {s : Chip} {k : Fin 256} {c : Nat} (ha : (s.time.trig.get k).armed = true)
    (hl : ((s.time.trig.get k).next : Int) * ns1 ≤ s.logical) (hc : s.redirect (s.time.trig.get k).crucible = c) :
    triggerFire k s = (s.triggerStart c (s.time.trig.get k).thread (s.time.trig.get k).entry (s.time.trig.get k).tag
      (s.time.trig.get k).next).setTrigger k (s.time.trig.get k).fired := by
  unfold triggerFire Trigger.fired
  dsimp only
  rw [if_neg (by simp [ha, hl]), hc]
  by_cases h : (s.time.trig.get k).period = 0 ∨ (s.time.trig.get k).remaining = 1
  · rw [if_pos (by simpa using h), if_pos h]
  · rw [if_neg (by simpa using h), if_neg h]

theorem setTrigger_trig (s : Chip) (k : Nat) (g : Trigger) : (s.setTrigger k g).time.trig.get k = g := Map.get_set_self s.time.trig k g

/-- A trigger's start reaches an IDLE thread without a pending start at once (R267). -/
theorem triggerStart_started {s : Chip} {c t : Nat} (entry tag time : Nat) (hg : (s.gate.crus.get c).state = 0)
    (hi : (s.thread c t).state = stIdle) (hp : (s.thread c t).pending = none) :
    Started s (s.triggerStart c t entry tag time) c t entry (w64 tag) (w64 time) := by
  have heq : s.triggerStart c t entry tag time = ((s.startThread c t entry (w64 tag) (w64 time)).logTrigger c t false false time).countEvent c (t / 8)
      (s.flag (Cell.threadCtrl c t) 4) 0x29 := by
    unfold Chip.triggerStart
    simp only [hg, hi, hp, ne_eq, not_true_eq_false, if_false, Option.isNone_none, decide_true, Bool.and_self, if_true]
  rw [heq]
  exact .of_keeps (startThread_started _ _ _ rfl (fun _ _ _ => rfl) rfl) ((logTrigger_keeps _ _ _ _ _ _).trans (countEvent_keeps _ _ _ _ _ _))

/-- A trigger's start of a thread that is not IDLE pends (R268). -/
theorem triggerStart_pends {s : Chip} {c t : Nat} (entry tag time : Nat) (hg : (s.gate.crus.get c).state = 0)
    (hi : (s.thread c t).state ≠ stIdle) (hp : (s.thread c t).pending = none) :
    (s.triggerStart c t entry tag time).thread c t =
      { s.thread c t with pending := some { entry := entry, tag := tag, time := time } } := by
  unfold Chip.triggerStart
  simp only [hg, hi, hp, ne_eq, not_true_eq_false, if_false, decide_false, Bool.false_and, Bool.false_eq_true]
  exact Chip.thread_updThread_self _ _ _ _

/-! ### RESET -/

theorem unreserve_keeps (s : Chip) (r : Reserved) : KeepsThreads s (s.unreserve r) ∧ (s.unreserve r).regs = s.regs := by
  cases r <;> exact ⟨⟨rfl, rfl⟩, rfl⟩

theorem dropCtrRun_keeps (s : Chip) (c t : Nat) : KeepsThreads s (s.dropCtrRun c t) ∧ (s.dropCtrRun c t).regs = s.regs := by
  unfold Chip.dropCtrRun
  split
  · split <;> exact ⟨⟨rfl, rfl⟩, rfl⟩
  · exact ⟨⟨rfl, rfl⟩, rfl⟩

/-- A thread that holds no message has none to release. -/
theorem releaseHeld_none {s : Chip} {c t : Nat} (h : (s.thread c t).held = []) :
    (s.releaseHeld c t).thread c t = s.thread c t ∧ (s.releaseHeld c t).regs = s.regs := by
  unfold Chip.releaseHeld
  rw [h, List.foldl_nil, Chip.thread_updThread_self]
  refine ⟨?_, rfl⟩
  rw [← h]

/-- RESET of a thread that holds no message leaves it IDLE with MODE clear, from any state (R278). -/
theorem resetThread_thread {s : Chip} {c t : Nat} (h : (s.thread c t).held = []) :
    (s.resetThread c t).thread c t = { (s.thread c t).endHandler with state := stIdle, wait := .none, pending := none, super := false, ie := false,
                                                                       exl := false, stopReq := false } ∧
    (s.resetThread c t).regs = s.regs := by
  obtain ⟨hthreads, hregs⟩ := unreserve_keeps s (s.thread c t).reserved
  obtain ⟨hthreads', hregs'⟩ := dropCtrRun_keeps (s.unreserve (s.thread c t).reserved) c t
  have hx := (hthreads.trans hthreads').thread_eq c t
  obtain ⟨hy, hregs''⟩ := releaseHeld_none (s := (s.unreserve (s.thread c t).reserved).dropCtrRun c t) (hx ▸ h)
  unfold Chip.resetThread
  rw [Chip.thread_updThread_self, hy, hx]
  exact ⟨rfl, hregs''.trans (hregs'.trans hregs)⟩

/-! ### Memories -/

theorem nth_eq_getElem (l : List Byte) {i : Nat} (h : i < l.length) : nth l i = l[i] := by
  rw [nth, List.getD_eq_getElem?_getD, List.getElem?_eq_getElem h, Option.getD_some]

/-- A byte of a memory, which lies in a table from a base on, after a run of bytes was put into it. -/
theorem Map.get_putBytes (m : Map Byte) (base off : Nat) (l : List Byte) (o : Nat) :
    (m.putBytes (base + off) l).get (base + o) = if off ≤ o ∧ o < off + l.length then nth l (o - off) else m.get (base + o) := by
  by_cases h : off ≤ o ∧ o < off + l.length
  · have hlt : o - off < l.length := by omega
    have ho : base + o = base + off + (o - off) := by omega
    rw [if_pos h, nth_eq_getElem l hlt, ho, Map.get_putBytes_inside l m _ _ hlt]
  · rw [if_neg h, Map.get_putBytes_outside l m _ _ (by omega)]

/-- Bytes put into a store, within its 4 MiB. -/
theorem putStore_eq (c : Nat) (l : List Byte) : ∀ (s : Chip) (off : Nat), off + l.length ≤ 4194304 →
    s.putStore c off l = { s with msgs := { s.msgs with store := s.msgs.store.putBytes (c * 4194304 + off) l } } := by
  induction l with
  | nil => intro s off _; rfl
  | cons b l ih =>
    intro s off h
    rw [List.length_cons] at h
    rw [Chip.putStore, ih _ _ (by omega), Map.putBytes_cons, Chip.setStoreByte, Nat.mod_eq_of_lt (by omega : off < 4194304), ← Nat.add_assoc]

/-- Bytes put into instruction RAM, within its size. -/
theorem putIram_eq (c : Nat) (l : List Byte) : ∀ (s : Chip) (off : Nat), off + l.length ≤ 262144 →
    s.putIram c off l = { s with cru := { s.cru with iram := s.cru.iram.putBytes (c * 262144 + off) l } } := by
  induction l with
  | nil => intro s off _; rfl
  | cons b l ih =>
    intro s off h
    rw [List.length_cons] at h
    rw [Chip.putIram, ih _ _ (by omega), Map.putBytes_cons, Nat.mod_eq_of_lt (by omega : off < 262144), ← Nat.add_assoc]

/-- Bytes put into an engine's local data, within its 32 KiB. -/
theorem putLocal_eq (c e : Nat) (l : List Byte) : ∀ (s : Chip) (off : Nat), off + l.length ≤ 32768 →
    s.putLocal c e off l = { s with cru := { s.cru with localData := s.cru.localData.putBytes ((c * 32 + e) * 32768 + off) l } } := by
  induction l with
  | nil => intro s off _; rfl
  | cons b l ih =>
    intro s off h
    rw [List.length_cons] at h
    rw [Chip.putLocal, ih _ _ (by omega), Map.putBytes_cons, Nat.mod_eq_of_lt (by omega : off < 32768), ← Nat.add_assoc]

section
variable (s : Chip) (c : Nat)

theorem storeByte_storeBytes {off o : Nat} (l : List Byte) (h : off + l.length ≤ 4194304) (ho : o < 4194304) : (s.storeBytes c off l).storeByte c o =
    if off ≤ o ∧ o < off + l.length then nth l (o - off) else s.storeByte c o := by
  unfold Chip.storeBytes Chip.storeByte
  rw [putStore_eq c l s off h, Nat.mod_eq_of_lt ho]
  exact Map.get_putBytes s.msgs.store _ off l o

theorem iramByte_writeIram {off o : Nat} (l : List Byte) (h : off + l.length ≤ 262144) (ho : o < 262144) : (s.writeIram c off l).iramByte c o =
    if off ≤ o ∧ o < off + l.length then nth l (o - off) else s.iramByte c o := by
  unfold Chip.writeIram Chip.iramByte
  rw [putIram_eq c l s off h, Nat.mod_eq_of_lt ho]
  exact Map.get_putBytes s.cru.iram _ off l o

theorem localByte_putLocal (e : Nat) {off o : Nat} (l : List Byte) (h : off + l.length ≤ 32768) (ho : o < 32768) : (s.putLocal c e off l).localByte c e o =
    if off ≤ o ∧ o < off + l.length then nth l (o - off) else s.localByte c e o := by
  unfold Chip.localByte
  rw [putLocal_eq c e l s off h, Nat.mod_eq_of_lt ho]
  exact Map.get_putBytes s.cru.localData _ off l o

/-- Writes of a crucible's memories change no register. -/
theorem putStore_regs (l : List Byte) : ∀ (s : Chip) (off : Nat), (s.putStore c off l).regs = s.regs := by
  induction l with
  | nil => exact fun _ _ => rfl
  | cons b l ih => exact fun s off => ih (s.setStoreByte c off b) (off + 1)

theorem putIram_regs (l : List Byte) : ∀ (s : Chip) (off : Nat), (s.putIram c off l).regs = s.regs := by
  induction l with
  | nil => exact fun _ _ => rfl
  | cons b l ih => exact fun s off => ih _ (off + 1)

theorem putLocal_regs (e : Nat) (l : List Byte) : ∀ (s : Chip) (off : Nat), (s.putLocal c e off l).regs = s.regs := by
  induction l with
  | nil => exact fun _ _ => rfl
  | cons b l ih => exact fun s off => ih _ (off + 1)

theorem setMemBytes_regs (off : Nat) (l : List Byte) : (s.setMemBytes c off l).regs = s.regs := by
  unfold Chip.setMemBytes
  split
  · exact putStore_regs c l s off
  · split
    · rfl
    · exact putIram_regs c l s off
  · split
    · rfl
    · exact putLocal_regs c _ l s off
  · rfl

/-! ### CRU_MEM_DATA -/

/-- The byte at an offset of the space that a value of CRU_MEM_ADDR selects; where its OFFSET lies beyond the space, 0 (R749). -/
def Chip.memByte (y : Chip) (c : Nat) (addr : W64) (o : Nat) : Byte :=
  match fld addr 23 22 with
  | 0 => y.storeByte c o
  | 1 => if iramSize ≤ fld addr 21 0 / 8 * 8 then 0 else y.iramByte c o
  | 2 => if 32768 ≤ fld addr 21 0 / 8 * 8 then 0 else y.localByte c (fld addr 28 24) o
  | _ => 0

/-- A value of CRU_MEM_ADDR names a place inside its space. -/
def InSpace (addr : W64) : Prop :=
  fld addr 23 22 = 0 ∨ fld addr 23 22 = 1 ∧ fld addr 21 0 / 8 * 8 < iramSize ∨ fld addr 23 22 = 2 ∧ fld addr 21 0 / 8 * 8 < 32768

theorem memBytes_eq (n : Nat) : s.memBytes c (s.memOffset c) n =
    (List.range n).map fun k => s.memByte c (s.reg (Reg.CRU_MEM_ADDR c)) (s.memOffset c + k) := by
  have hoff : s.memOffset c = fld (s.reg (Reg.CRU_MEM_ADDR c)) 21 0 / 8 * 8 := rfl
  have hzero : ∀ b : Byte, List.replicate n b = (List.range n).map fun _ => b := fun b => by rw [List.map_const', List.length_range]
  unfold Chip.memBytes Chip.memByte Chip.get
  rcases fld (s.reg (Reg.CRU_MEM_ADDR c)) 23 22 with _ | _ | _ | space
  · rfl
  · simp only [← hoff]
    split
    · exact hzero 0
    · rfl
  · simp only [← hoff]
    split
    · exact hzero 0
    · rfl
  · exact hzero 0

/-- A byte of the word at OFFSET after some of its bytes were written. -/
theorem memByte_setMemBytes {lo k : Nat} {l : List Byte} (hin : InSpace (s.reg (Reg.CRU_MEM_ADDR c))) (hlo : lo < 8) (hl : lo + l.length ≤ 8) (hk : k < 8) :
    (s.setMemBytes c (s.memOffset c + lo) l).memByte c (s.reg (Reg.CRU_MEM_ADDR c)) (s.memOffset c + k) =
      if lo ≤ k ∧ k < lo + l.length then nth l (k - lo) else s.memByte c (s.reg (Reg.CRU_MEM_ADDR c)) (s.memOffset c + k) := by
  have hlt : s.memOffset c < 4194304 := by
    have := fld_lt (s.reg (Reg.CRU_MEM_ADDR c)) 21 0
    unfold Chip.memOffset Chip.get
    omega
  have h8 : s.memOffset c % 8 = 0 := Nat.mul_mod_left _ _
  have hif : ∀ x : Byte, (if s.memOffset c + lo ≤ s.memOffset c + k ∧ s.memOffset c + k < s.memOffset c + lo + l.length then
      nth l (s.memOffset c + k - (s.memOffset c + lo)) else x) = if lo ≤ k ∧ k < lo + l.length then nth l (k - lo) else x := fun x => by
    rw [Nat.add_sub_add_left]
    by_cases h : lo ≤ k ∧ k < lo + l.length
    · rw [if_pos h, if_pos (by omega)]
    · rw [if_neg h, if_neg (by omega)]
  have hspace : s.get (Reg.CRU_MEM_ADDR c) 23 22 = fld (s.reg (Reg.CRU_MEM_ADDR c)) 23 22 := rfl
  have hoff : s.memOffset c = fld (s.reg (Reg.CRU_MEM_ADDR c)) 21 0 / 8 * 8 := rfl
  unfold Chip.setMemBytes Chip.memByte
  rcases hin with h | ⟨h, hi⟩ | ⟨h, hi⟩
  · simp only [hspace, h]
    rw [storeByte_storeBytes s c l (by omega) (by omega), hif]
  · rw [← hoff] at hi
    have hi' : s.memOffset c + lo < iramSize := by unfold iramSize at hi ⊢; omega
    have hfits : s.memOffset c + 8 ≤ 262144 := by unfold iramSize at hi; omega
    simp only [hspace, h, ← hoff, Nat.not_le.mpr hi, Nat.not_le.mpr hi', if_false]
    rw [iramByte_writeIram s c l (by omega) (by omega), hif]
  · rw [← hoff] at hi
    have hi' : s.memOffset c + lo < 32768 := by omega
    simp only [hspace, h, ← hoff, Nat.not_le.mpr hi, Nat.not_le.mpr hi', if_false]
    exact (localByte_putLocal s c _ l (by omega) (by omega)).trans (hif _)

theorem memAdvance_low : s.memAdvance c .low = s := by
  unfold Chip.memAdvance
  rw [if_neg (by simp)]

/-- An access that reaches the high half moves OFFSET on by 8 under AUTOINC. -/
theorem memAdvance_moves {lanes : Lanes} (h : lanes ≠ .low) : s.memAdvance c lanes = if s.flag (Reg.CRU_MEM_ADDR c) 63 then
    s.setField (Reg.CRU_MEM_ADDR c) 21 0 ((s.get (Reg.CRU_MEM_ADDR c) 21 0 + 8) % 4194304) else s := by
  unfold Chip.memAdvance
  simp only [h, ne_eq, not_false_eq_true, decide_true, Bool.and_true]

theorem memAdvance_regs {lanes : Lanes} (h : lanes = .low ∨ s.flag (Reg.CRU_MEM_ADDR c) 63 = false) : (s.memAdvance c lanes).regs = s.regs := by
  unfold Chip.memAdvance
  rw [if_neg]
  rcases h with h | h <;> simp [h]

theorem memAdvance_offset {lanes : Lanes} (h : lanes ≠ .low) (hf : s.flag (Reg.CRU_MEM_ADDR c) 63 = true) :
    (s.memAdvance c lanes).get (Reg.CRU_MEM_ADDR c) 21 0 = (s.get (Reg.CRU_MEM_ADDR c) 21 0 + 8) % 4194304 := by
  rw [memAdvance_moves s c h, if_pos hf, Chip.get_setField_self s _ _ (by decide)]
  exact Nat.mod_mod _ _

theorem memAdvance_memByte (lanes : Lanes) (addr : W64) (o : Nat) : (s.memAdvance c lanes).memByte c addr o = s.memByte c addr o := by
  unfold Chip.memAdvance
  split <;> rfl

end

theorem cruMemDataRead_full (c : Cru) (s : Chip) : cruMemDataRead c .full s = (s.answer (s.memWord c)).memAdvance c .full := rfl

theorem cruMemDataRead_low (c : Cru) (s : Chip) : cruMemDataRead c .low s = (s.answer (w64 (fld (s.memWord c) 31 0))).memAdvance c .low := rfl

theorem cruMemDataRead_high (c : Cru) (s : Chip) : cruMemDataRead c .high s = (s.answer (w64 (fld (s.memWord c) 63 32))).memAdvance c .high := rfl

theorem length_bytesBE (n x : Nat) : (bytesBE n x).length = n := by
  induction n with
  | zero => rfl
  | succ n ih => rw [bytesBE, List.length_cons, ih]

/-- A write of CRU_MEM_DATA puts its bytes from place lo of the word at OFFSET on, and moves OFFSET on (R279, R749). -/
theorem cruMemDataWrite_runs {s : State} {c : Cru} {v : W64} {lanes : Lanes} {lo n : Nat} {l : List Byte} (hr : s.chip.running = true)
    (hw : cruMemDataWrite c lanes v s.chip = (s.chip.setMemBytes c (s.chip.memOffset c + lo) l).memAdvance c lanes) (hlen : l.length = n) (hlo : lo < 8)
    (hl : lo + n ≤ 8) :
    ∃ y, Runs (.cruMemDataWrite c lanes v) s y ∧
      (InSpace (s.chip.reg (Reg.CRU_MEM_ADDR c)) → ∀ k < 8, y.memByte c (s.chip.reg (Reg.CRU_MEM_ADDR c)) (s.chip.memOffset c + k) =
        if lo ≤ k ∧ k < lo + l.length then nth l (k - lo) else s.chip.memByte c (s.chip.reg (Reg.CRU_MEM_ADDR c)) (s.chip.memOffset c + k)) ∧
      (lanes ≠ .low → s.chip.flag (Reg.CRU_MEM_ADDR c) 63 = true →
        y.get (Reg.CRU_MEM_ADDR c) 21 0 = (s.chip.get (Reg.CRU_MEM_ADDR c) 21 0 + 8) % 4194304) ∧
      (lanes = .low ∨ s.chip.flag (Reg.CRU_MEM_ADDR c) 63 = false → y.regs = s.chip.regs) := by
  have hruns := runs_of_core (i := .cruMemDataWrite c lanes v) (f := cruMemDataWrite c lanes v) rfl hr
  rw [hw] at hruns
  have hregs := setMemBytes_regs s.chip c (s.chip.memOffset c + lo) l
  have hreg : ∀ a, (s.chip.setMemBytes c (s.chip.memOffset c + lo) l).reg a = s.chip.reg a := fun a => by rw [Chip.reg, hregs]; rfl
  refine ⟨_, hruns, fun hin k hk => ?_, fun hlanes hf => ?_, fun h => ?_⟩
  · rw [memAdvance_memByte, memByte_setMemBytes _ _ hin hlo (hlen ▸ hl) hk]
  · rw [memAdvance_offset _ _ hlanes (by rwa [Chip.flag, hreg]), Chip.get, hreg]
    rfl
  · rw [memAdvance_regs _ _ (by rwa [Chip.flag, hreg]), hregs]

/-- Settles O26: each command of the host or of time is one case of its definition, and CRU_MEM_DATA shows the word at OFFSET. -/
theorem threadsAndMemoriesUnderHostControl : Obligations.ThreadsAndMemoriesUnderHostControl := by
  refine ⟨fun s c t hr => ?threads, fun s c v hr => ?memories⟩
  case threads =>
    intro x ctrl starts
    have hstart := runs_of_core (i := .threadStart c t) (f := threadStart c t) rfl hr
    have hstop := runs_of_core (i := .threadStop c t) (f := threadStop c t) rfl hr
    have hresume := runs_of_core (i := .threadResume c t) (f := threadResume c t) rfl hr
    have hreset := runs_of_core (i := .threadReset c t) (f := threadReset c t) rfl hr
    have hpend := runs_of_core (i := .pendingStart c t) (f := pendingStart c t) rfl hr
    refine ⟨fun hi hv => ?start, fun h => ?startRefused, fun h => ?stop, fun h1 h2 => ?stopIgnored, fun h => ?resume, fun h => ?resumeIgnored,
      fun h => ?reset, fun hg => ⟨fun p hi hp => ?pending, fun k => ?trigger⟩⟩
    case start =>
      rw [threadStart_idle hi hv] at hstart
      exact ⟨_, hstart, startThread_started _ _ _ rfl (fun _ _ _ => rfl) rfl, rfl⟩
    case startRefused => rwa [threadStart_refused h] at hstart
    case stop => rwa [threadStop, if_pos (by simpa using h)] at hstop
    case stopIgnored => rwa [threadStop, if_neg (by simpa using ⟨h1, h2⟩)] at hstop
    case resume => rwa [threadResume, if_pos h] at hresume
    case resumeIgnored => rwa [threadResume, if_neg h] at hresume
    case reset =>
      obtain ⟨hx, hregs⟩ := resetThread_thread h
      exact ⟨_, hreset, hregs, hx⟩
    case pending =>
      obtain ⟨hstarted, hnone⟩ := pendingStart_started hg hi hp
      exact ⟨_, hpend, hstarted, hnone⟩
    case trigger =>
      intro g ha hl hc ht
      have hfire := runs_of_core (i := .triggerFire k) (f := triggerFire k) rfl hr
      rw [triggerFire_due ha hl hc, ht] at hfire
      refine ⟨fun hi hp => ⟨_, hfire, ?_, setTrigger_trig _ _ _⟩, fun hi hp => ⟨_, hfire, ?_⟩⟩
      · exact triggerStart_started g.entry g.tag g.next hg hi hp
      · exact triggerStart_pends g.entry g.tag g.next hg hi hp
  case memories =>
    intro addr off byte_ word moves writes
    have hread := fun lanes => runs_of_core (i := .cruMemDataRead c lanes) (f := cruMemDataRead c lanes) rfl hr
    have hword : s.chip.memWord c = word := congrArg (fun l => w64 (numBE l)) (memBytes_eq s.chip c 8)
    refine ⟨?full, ?low, ?high, ?writeFull, ?writeLow, ?writeHigh⟩
    case full =>
      have h := hread .full
      rw [cruMemDataRead_full, hword, memAdvance_moves _ _ (by decide)] at h
      exact h
    case low =>
      have h := hread .low
      rwa [cruMemDataRead_low, hword, memAdvance_low] at h
    case high =>
      have h := hread .high
      rw [cruMemDataRead_high, hword, memAdvance_moves _ _ (by decide)] at h
      exact h
    case writeFull => exact cruMemDataWrite_runs (lo := 0) hr rfl (length_bytesBE 8 _) (by decide) (by decide)
    case writeLow => exact cruMemDataWrite_runs (lo := 4) hr rfl (length_bytesBE 4 _) (by decide) (by decide)
    case writeHigh => exact cruMemDataWrite_runs (lo := 0) hr rfl (length_bytesBE 4 _) (by decide) (by decide)

end Sys2Proof.Machine
end

section
/-! Granted bursts: the one outcome of each, a frame's end and its summary (R92, R95, R98, R114). -/
namespace Sys2Proof.Machine
open Sys2Proof.Claim

/-- A command of the core completes with what its action on the part is worked out to be. -/
theorem runs_of_core_eq {i : Instr} {s : State} {f : Chip → Chip} {y : Chip} (he : exec i s = s.core f) (hr : s.chip.running = true)
    (hf : f s.chip = y) : Runs i s y :=
  hf ▸ runs_of_core he hr

/-- The burst b granted at START in frame n stands at place j of the map m, which stands at place i of the maps that the receiver expects. -/
structure Chip.Granted (s : Chip) (t : Tree) (w : Wl) (n start i j : Nat) (m : RxMap) (b : RxBurst) : Prop where
  mapAt : (s.pon.rx.get (wkey t w)).mapAt n = some i
  burstAt : m.burstAt start = some j
  map_eq : nth (s.pon.rx.get (wkey t w)).maps i = m
  burst_eq : nth m.bursts j = b

section
variable {s : Chip} {t : Tree} {w : Wl} {n start i j : Nat} {m : RxMap} {b : RxBurst} (h : s.Granted t w n start i j m b)

/-! ### What the light comes to -/

theorem Chip.burstOutcome_lost (lastEnd : Option Nat) {x : BurstHead} (codewords : List (Option Nat)) (hspot : s.findSpot t w n b x.spots = none) :
    s.burstOutcome t w n b lastEnd x codewords = (3, none) := by
  unfold Chip.burstOutcome
  rw [hspot]

theorem Chip.burstOutcome_found (lastEnd : Option Nat) {x : BurstHead} (codewords : List (Option Nat)) {q : DelimSpot}
    (hspot : s.findSpot t w n b x.spots = some q) :
    s.burstOutcome t w n b lastEnd x codewords =
      (foundOutcome (tooClose w (s.profile t w n b.profile) lastEnd (delimAt w n b.start (s.profile t w n b.profile) q.offset)) b.onu x
        (heardCodewords w (s.profile t w n b.profile) b codewords), some q.offset) := by
  unfold Chip.burstOutcome
  rw [hspot]

/-! ### Bursts of data grants (R92) -/

include h

theorem burstEnd_ended (x : BurstLight) (hres : b.result.isSome = true) : burstEnd t w n start x s = s := by
  obtain ⟨hi, hj, hm, hb⟩ := h
  simp only [burstEnd, hi, hm, hj, hb, hres, Bool.or_true, if_true]

section
variable (x : BurstLight) (hres : b.result = none) (hdata : b.ranging = false)
include hres hdata

theorem burstEnd_notAttempted (hatt : s.attempts t w n m.late j = false) :
    burstEnd t w n start x s = s.endBurst t w n i j 6 none false (knownLight x b.head) := by
  obtain ⟨hi, hj, hm, hb⟩ := h
  simp [burstEnd, hi, hm, hj, hb, hres, hdata, hatt]

variable {o : Nat} {found : Option Int} (hatt : s.attempts t w n m.late j = true)
  (hout : s.burstOutcome t w n b (s.pon.rx.get (wkey t w)).lastEnd (knownLight x b.head).head (knownLight x b.head).codewords = (o, found))
include hatt hout

/-- A burst without a PLOAMu to deliver: none was heard, its burst was discarded or lost, or another part serves the frame (R80, R602). -/
theorem burstEnd_undelivered
    (hno : heardPloamu w (s.profile t w n b.profile) b (knownLight x b.head) = none ∨ 2 < o ∨ s.servesAt t n = false) :
    burstEnd t w n start x s = s.endBurst t w n i j o found false (knownLight x b.head) := by
  obtain ⟨hi, hj, hm, hb⟩ := h
  cases hheard : heardPloamu w (s.profile t w n b.profile) b (knownLight x b.head) with
  | none => simp [burstEnd, hi, hm, hj, hb, hres, hdata, hatt, hout, hheard]
  | some bytes =>
    have hnot : ¬(o ≤ 2 ∧ s.servesAt t n = true) := by
      rintro ⟨ho, hserves⟩
      rcases hno with hnone | hlate | hother
      · cases hheard.symm.trans hnone
      · omega
      · cases hserves.symm.trans hother
    simp [burstEnd, hi, hm, hj, hb, hres, hdata, hatt, hout, hheard, hnot]

theorem burstEnd_delivered {bytes : List Byte} (hheard : heardPloamu w (s.profile t w n b.profile) b (knownLight x b.head) = some bytes)
    (ho : o ≤ 2) (hserves : s.servesAt t n = true) :
    let y := knownLight x b.head
    let d := s.ponuDeliver 1 o t w y.head.onu y.level.toNat n (arrivalOf (fld (s.ponuAt t n (Reg.PONU_TEQD t w)) 31 0) (found.getD 0))
      (stampOf (s.logicalAt y.tick)) (some bytes)
    burstEnd t w n start x s = d.2.endBurst t w n i j o found d.1 y := by
  obtain ⟨hi, hj, hm, hb⟩ := h
  simp [burstEnd, hi, hm, hj, hb, hres, hdata, hatt, hout, hheard, ho, hserves]

end

/-! ### Quiet windows (R114) -/

theorem quietWindowClose_ended (l : List BurstLight) (hres : b.result.isSome = true) : quietWindowClose t w n start l s = s := by
  obtain ⟨hi, hj, hm, hb⟩ := h
  simp only [quietWindowClose, hi, hm, hj, hb, hres, Bool.or_true, if_true]

section
variable (l : List BurstLight) (hres : b.result = none) (hranging : b.ranging = true)
include hres hranging

theorem quietWindowClose_notAttempted (hatt : s.attempts t w n m.late j = false) :
    quietWindowClose t w n start l s = (s.endBurst t w n i j 6 none false default).lostNotice t w n b.onu := by
  obtain ⟨hi, hj, hm, hb⟩ := h
  simp [quietWindowClose, hi, hm, hj, hb, hres, hranging, hatt]

variable (hatt : s.attempts t w n m.late j = true)
include hatt

theorem quietWindowClose_nothingFound (hfinds : s.quietFinds t w n b 8 (s.pon.rx.get (wkey t w)).lastEnd l = []) :
    quietWindowClose t w n start l s = (s.endBurst t w n i j 3 none false default).lostNotice t w n b.onu := by
  obtain ⟨hi, hj, hm, hb⟩ := h
  simp [quietWindowClose, hi, hm, hj, hb, hres, hranging, hatt, hfinds]

theorem quietWindowClose_oneFound {f : QuietFind} (hfinds : s.quietFinds t w n b 8 (s.pon.rx.get (wkey t w)).lastEnd l = [f]) :
    quietWindowClose t w n start l s =
      (s.endBurst t w n i j f.outcome (some f.offset) false f.light).rangingNotice t w n (fld (s.ponuAt t n (Reg.PONU_TEQD t w)) 31 0) b f := by
  obtain ⟨hi, hj, hm, hb⟩ := h
  simp [quietWindowClose, hi, hm, hj, hb, hres, hranging, hatt, hfinds]

end

end

section
variable (s : Chip) (t : Tree) (w : Wl) (n : Nat)

theorem Chip.quietFinds_nil (b : RxBurst) (k : Nat) (lastEnd : Option Nat) : s.quietFinds t w n b k lastEnd [] = [] := by
  cases k <;> rfl

/-- The light of one burst whose delimiter is found is the one find of its window. -/
theorem Chip.quietFinds_single {b : RxBurst} {k : Nat} {lastEnd : Option Nat} {x : BurstLight} {o : Nat} {off : Int}
    (hout : s.burstOutcome t w n b lastEnd x.head x.codewords = (o, some off)) :
    s.quietFinds t w n b (k + 1) lastEnd [x] = [{ light := x, offset := off, outcome := o }] := by
  rw [Chip.quietFinds, hout]
  exact congrArg _ (s.quietFinds_nil t w n b k _)

/-! ### The end of an upstream frame (R95, R96) -/

theorem Chip.updRx_congr {k : Nat} {f g : Receiver → Receiver} (hfg : f (s.pon.rx.get k) = g (s.pon.rx.get k)) : s.updRx k f = s.updRx k g := by
  unfold Chip.updRx Map.upd
  rw [hfg]

variable {i : Nat} {m : RxMap} (hi : (s.pon.rx.get (wkey t w)).mapAt n = some i) (hm : nth (s.pon.rx.get (wkey t w)).maps i = m)
include hi hm

/-- The end of a frame closes its map by f where that is what an open map takes and nothing is what a closed one does; the rest is judged the same. -/
theorem upstreamFrameEnd_closes (light : Bool) (spans : List DarkSpan) {f : Receiver → Receiver}
    (hf : f (s.pon.rx.get (wkey t w)) = if m.ended then s.pon.rx.get (wkey t w) else
      { s.pon.rx.get (wkey t w) with maps := (s.pon.rx.get (wkey t w)).maps.set i { m with ended := true, dark := s.darkTime t w spans } }) :
    upstreamFrameEnd t w n light spans s = ((((((s.updRx (wkey t w) f).judge t w).setFlag (Reg.PONU_WL_STATUS t w) 0 light).darkLight
      t w n spans).agePartials t w).updRx (wkey t w) Receiver.clean) := by
  subst hm
  simp only [upstreamFrameEnd, hi]
  rw [s.updRx_congr hf.symm]

end

/-! ### Summaries (R98, R100) -/

theorem Chip.sendDest_disabled (s : Chip) {dest : W64} (source : Nat) (body : List Byte) (hd : bit dest 16 = false) :
    s.sendDest dest source body = none := by
  rw [Chip.sendDest, if_neg (Bool.eq_false_iff.mp hd)]

theorem Chip.sendDest_enabled (s : Chip) {dest : W64} (source : Nat) (body : List Byte) (hd : bit dest 16 = true) :
    s.sendDest dest source body = some (s.sendQueue (fld dest 5 0) (fld dest 15 6) source body) := by
  rw [Chip.sendDest, if_pos hd]

/-- The part after a frame's summary went where its destination says: nowhere, to a queue, or to one that cannot accept it (R98, R100). -/
def Chip.summaryLeft (u : Chip) (t : Tree) (w : Wl) : Option (Bool × Chip) → Chip
  | none => u
  | some sent => if sent.1 then sent.2 else (sent.2.bump (Reg.PONU_SUMMARY_DROP t w)).raise (Reg.PONU_EVENT t) 5

/-- The summary of a frame whose granted bursts have all ended leaves, and its map is marked. -/
theorem burstSummary_due {s : Chip} {t : Tree} {w : Wl} {n i : Nat} {m : RxMap} (hi : (s.pon.rx.get (wkey t w)).mapAt n = some i)
    (hm : nth (s.pon.rx.get (wkey t w)).maps i = m) (spans : List DarkSpan) (hsum : m.summarised = false) (hb : m.bursts ≠ [])
    (hall : (m.bursts.all fun b => b.result.isSome) = true) :
    let u := s.updRx (wkey t w) fun r => { r with maps := r.maps.set i { m with summarised := true } }
    let dark := (if m.ended then m.dark else s.darkTime t w spans) / 16
    burstSummary t w n spans s = (u.summaryLeft t w
      (u.sendDest (u.ponuAt t n (Reg.PONU_SUMMARY_DEST t)) (deviceSource 3 (wkey t w)) (summaryBody t w dark m))).updRx (wkey t w) Receiver.clean := by
  have hdue : (m.summarised || !(m.bursts.all fun b => b.result.isSome) || decide (m.bursts = []) && !m.ended) = false := by
    simp [hsum, hall, hb]
  simp only [burstSummary, hi, hm, hdue, Bool.false_eq_true, if_false]
  generalize Chip.sendDest _ _ _ _ = sent
  rcases sent with _ | ⟨_ | _, v⟩ <;> rfl

/-- Settles O28: with the burst found at its places, each outcome is one case of the burst's end or of its window's close; the frame's end and
its summary are theirs. -/
theorem burstsEndInOneOutcome : Obligations.BurstsEndInOneOutcome := by
  intro s t w n start i j hr c rx m b p teqd hi hj
  have h : c.Granted t w n.toNat start.toNat i j m b := ⟨hi, hj, rfl, rfl⟩
  have hend (x : BurstLight) {y : Chip} (hf : burstEnd t w n.toNat start.toNat x c = y) : Runs (.burstEnd t w n start x) s y :=
    runs_of_core_eq rfl hr hf
  have hclose (l : List BurstLight) {y : Chip} (hf : quietWindowClose t w n.toNat start.toNat l c = y) :
      Runs (.quietWindowClose t w n start l) s y := runs_of_core_eq rfl hr hf
  refine ⟨fun hres => ⟨fun x => hend x (burstEnd_ended h x hres), fun l => hclose l (quietWindowClose_ended h l hres)⟩,
    fun hres hdata x => ?data, fun hres hranging => ?ranging, fun light spans => ?frameEnd, fun spans hsum hb hall => ?summary⟩
  case data =>
    refine ⟨fun hatt => hend x (burstEnd_notAttempted h x hres hdata hatt), fun hatt hspot => ?lost,
      fun q hatt hspot => ⟨fun hno => ?undelivered, fun bytes hheard ho hserves => ?delivered⟩⟩
    case lost => exact hend x (burstEnd_undelivered h x hres hdata hatt (Chip.burstOutcome_lost _ _ hspot) (.inr (.inl (by decide))))
    case undelivered => exact hend x (burstEnd_undelivered h x hres hdata hatt (Chip.burstOutcome_found _ _ hspot) hno)
    case delivered => exact hend x (burstEnd_delivered h x hres hdata hatt (Chip.burstOutcome_found _ _ hspot) hheard ho hserves)
  case ranging =>
    refine ⟨fun l hatt => hclose l (quietWindowClose_notAttempted h l hres hranging hatt), fun hatt => ?nothing, fun x q hatt hspot => ?one⟩
    case nothing => exact hclose [] (quietWindowClose_nothingFound h [] hres hranging hatt (c.quietFinds_nil t w _ b 8 _))
    case one =>
      have hone := quietWindowClose_oneFound h [x] hres hranging hatt (c.quietFinds_single t w _ (Chip.burstOutcome_found _ _ hspot))
      exact hclose [x] hone
  case frameEnd =>
    have hcloses := fun (f : Receiver → Receiver) hf => upstreamFrameEnd_closes c t w n.toNat hi rfl light spans (f := f) hf
    refine ⟨fun hended => runs_of_core_eq rfl hr (hcloses id (if_pos hended).symm), fun hopen => ?stillOpen⟩
    case stillOpen => exact runs_of_core_eq rfl hr (hcloses _ (if_neg (Bool.eq_false_iff.mp hopen)).symm)
  case summary =>
    intro u dest dark sent
    have hruns : Runs (.burstSummary t w n spans) s ((u.summaryLeft t w (u.sendDest dest _ _)).updRx (wkey t w) Receiver.clean) :=
      runs_of_core_eq rfl hr (burstSummary_due hi rfl spans hsum hb hall)
    refine ⟨fun hd => ?disabled, fun hd hsent => ?sent, fun hd hsent => ?dropped⟩
    case disabled => rwa [Chip.sendDest_disabled _ _ _ hd] at hruns
    case sent => rwa [Chip.sendDest_enabled _ _ _ hd, Chip.summaryLeft, if_pos hsent] at hruns
    case dropped => rwa [Chip.sendDest_enabled _ _ _ hd, Chip.summaryLeft, if_neg (Bool.eq_false_iff.mp hsent)] at hruns

end Sys2Proof.Machine
end

section
/-! Upstream XGEM frames: the deframer, in the order in which it judges a frame (R79, R83 to R91, R754). -/
namespace Sys2Proof.Machine
open Sys2Proof.Claim

/-! ### Frames before their headers are used (R83, R84) -/

section
variable {s : Chip} {t : Tree} {w : Wl} {n start i j a : Nat} {m : RxMap} {b : RxBurst} {g : RxGrant} {x : XgemLight} {head : BurstHead}
  (unit : UnitReport) (h : s.Granted t w n start i j m b) (hg : b.grants[a]? = some g) (hhead : b.head.getD x.head = head)
include h hg hhead

/-- A burst that is not attempted or does not pass its frames on, or an allocation whose rest is being discarded, gives no frame. -/
theorem xgemDeframe_passesNothing (hno : s.attempts t w n m.late j = false ∨ s.passes t w n b head = false ∨ g.skip = true) :
    xgemDeframe t w n start a x unit s = s := by
  obtain ⟨hi, hj, hm, hb⟩ := h
  have hstop : (!s.attempts t w n m.late j || !s.passes t w n b head || g.skip) = true := by
    rcases hno with h | h | h <;> simp [h]
  simp only [xgemDeframe, hi, hm, hj, hb, hg, hhead, hstop, if_true]

variable (hatt : s.attempts t w n m.late j = true) (hpass : s.passes t w n b head = true) (hskip : g.skip = false)
  {at_ : Nat} (hat : b.allocAt a + (if g.dbru then 32 else 0) + 8 * x.position = at_)
include hatt hpass hskip hat

/-- A header with a bit in an uncorrectable codeword ends its allocation's frames, and their partial frame. -/
theorem xgemDeframe_headerLost (hlost : lostBits w (s.profile t w n b.profile) b x.codewords at_ (at_ + 64) = true) :
    xgemDeframe t w n start a x unit s =
      ((s.updBurst t w i j fun y => { y with head := some head }).skipRest t w i j a).dropPartial t w g.allocId := by
  obtain ⟨hi, hj, hm, hb⟩ := h
  simp [xgemDeframe, hi, hm, hj, hb, hg, hhead, hatt, hpass, hskip, hat, hlost]

variable (hfound : lostBits w (s.profile t w n b.profile) b x.codewords at_ (at_ + 64) = false)
include hfound

/-- So does a header that fails its HEC, which is counted. -/
theorem xgemDeframe_headerBad (hbad : x.hec = .bad) :
    xgemDeframe t w n start a x unit s =
      (((s.updBurst t w i j fun y => { y with head := some head }).bump (Reg.PONU_HEC_UNCORR t w)).skipRest t w i j a).dropPartial t w g.allocId := by
  obtain ⟨hi, hj, hm, hb⟩ := h
  simp [xgemDeframe, hi, hm, hj, hb, hg, hhead, hatt, hpass, hskip, hat, hfound, hbad]

/-- A header that can be used is counted where it was corrected, and the frame goes on under it. -/
theorem xgemDeframe_headed (hgood : x.hec ≠ .bad) :
    let u := s.updBurst t w i j fun y => { y with head := some head }
    xgemDeframe t w n start a x unit s =
      ((if x.hec = .corrected then u.bump (Reg.PONU_HEC_CORR t w) else u).beginPayload t w g.allocId x).headed t w n i j a b g head
        (lostBits w (s.profile t w n b.profile) b x.codewords at_ (at_ + 8 * (8 + paddedLen x.pli))) x unit := by
  obtain ⟨hi, hj, hm, hb⟩ := h
  cases hhec : x.hec with
  | bad => exact absurd hhec hgood
  | good => simp [xgemDeframe, hi, hm, hj, hb, hg, hhead, hatt, hpass, hskip, hat, hfound, hhec]
  | corrected => simp [xgemDeframe, hi, hm, hj, hb, hg, hhead, hatt, hpass, hskip, hat, hfound, hhec]

end

/-! ### Frames whose headers can be used (R85 to R88) -/

section
variable {s : Chip} {t : Tree} {w : Wl} {n i j a : Nat} {b : RxBurst} {g : RxGrant} {h : BurstHead} {damaged : Bool} {x : XgemLight} {unit : UnitReport}

theorem Chip.headed_idle (hport : x.port.val = 0xFFFF) : s.headed t w n i j a b g h damaged x unit = s := by
  simp only [Chip.headed, hport, if_true]

variable (hport : x.port.val ≠ 0xFFFF)
include hport

/-- A frame that runs past its grant, on a part that does not serve it: it is counted and the rest of its allocation discarded (R602). -/
theorem Chip.headed_overrun_unserved (hover : g.size * 4 < x.position + 8 + paddedLen x.pli) (hserves : s.servesAt t n = false) :
    s.headed t w n i j a b g h damaged x unit = (s.bump (Reg.PONU_PLI_OVERRUN t w)).skipRest t w i j a := by
  simp [Chip.headed, hport, hover, hserves]

variable (hfits : x.position + 8 + paddedLen x.pli ≤ g.size * 4) (hwhole : damaged = false)
include hfits hwhole

theorem Chip.headed_unbound (hbind : s.bindPort t w x.port (b.from_ h) = none) :
    s.headed t w n i j a b g h damaged x unit = s.bump (Reg.PONU_PORT_MISMATCH t w) := by
  simp [Chip.headed, hport, Nat.not_lt.mpr hfits, hwhole, hbind]

theorem Chip.headed_bound {k : Nat} (hbind : s.bindPort t w x.port (b.from_ h) = some k) (hserves : s.servesAt t n = true) :
    s.headed t w n i j a b g h damaged x unit = s.bound t w n (b.from_ h) g.allocId k x unit := by
  simp [Chip.headed, hport, Nat.not_lt.mpr hfits, hwhole, hbind, hserves]

end

/-! ### Partial frames (R90) -/

theorem fragTimeout_due {s : Chip} {t : Tree} {w : Wl} {alloc : Fin 16384} {p : Partial}
    (hp : s.pon.partials.get (wkey t w * 16384 + alloc.val) = some p) (hidle : 8 ≤ p.idle) :
    fragTimeout t w alloc s = s.dropPartial t w alloc.val := by
  simp only [fragTimeout, hp, if_neg (Nat.not_lt.mpr hidle)]

/-- Settles O29: the deframer's judgements of a frame in turn, from its burst to its port's binding; and the time-out of a partial frame. -/
theorem upstreamFramesAreDeframed : Obligations.UpstreamFramesAreDeframed := by
  intro s t w n start a x unit i j g hr c m b p h u runs at_ hi hj hg
  have hgranted : c.Granted t w n.toNat start.toNat i j m b := ⟨hi, hj, rfl, rfl⟩
  have hruns {y : Chip} (hf : xgemDeframe t w n.toNat start.toNat a.val x unit c = y) : runs y :=
    runs_of_core_eq (f := fun z => z.demotions (xgemDeframe t w n.toNat start.toNat a.val x unit z)) rfl hr (congrArg c.demotions hf)
  refine ⟨fun hno => hruns (xgemDeframe_passesNothing unit hgranted hg rfl hno), fun hatt hpass hskip => ⟨fun hlost => ?headerLost, fun hfound =>
    ⟨fun hbad => ?headerBad, fun hgood => ?headed⟩⟩, fun alloc q hq hidle => runs_of_core_eq rfl hr (fragTimeout_due hq hidle)⟩
  case headerLost => exact hruns (xgemDeframe_headerLost unit hgranted hg rfl hatt hpass hskip rfl hlost)
  case headerBad => exact hruns (xgemDeframe_headerBad unit hgranted hg rfl hatt hpass hskip rfl hfound hbad)
  case headed =>
    intro v onu
    have hheaded := xgemDeframe_headed unit hgranted hg rfl hatt hpass hskip rfl hfound hgood
    refine ⟨fun hport => ?idle, fun hport hover hserves => ?overrun, fun hport hfits hwhole => ⟨fun hbind => ?unbound, fun k hbind hserves => ?bound⟩⟩
    case idle => exact hruns (hheaded.trans (Chip.headed_idle hport))
    case overrun => exact hruns (hheaded.trans (Chip.headed_overrun_unserved hport hover hserves))
    case unbound => exact hruns (hheaded.trans (Chip.headed_unbound hport hfits hwhole hbind))
    case bound => exact hruns (hheaded.trans (Chip.headed_bound hport hfits hwhole hbind hserves))

end Sys2Proof.Machine
end

section
/-! Maps of ALLOC: records, owners, verdicts and what POND takes (R130 to R138, R153, R165, R166). -/
namespace Sys2Proof.Machine
open Sys2Proof.Claim

/-! ### Words cut to a field -/

/-- A field put back as it reads changes nothing. -/
theorem setFld_fld (v : W64) (hi lo : Nat) : setFld v hi lo (fld v hi lo) = v := by
  apply BitVec.eq_of_getLsbD_eq
  intro k hk
  rw [getLsbD_setFld _ _ _ _ _ hk]
  split
  · next h =>
    rw [testBit_fld, Nat.add_sub_cancel' h.1]
    simp [show k - lo < hi + 1 - lo by omega]
  · rfl

theorem getLsbD_w64_fld (v : W64) (h : Nat) {k : Nat} (hk : k ≤ h) : (w64 (fld v h 0)).getLsbD k = v.getLsbD k := by
  by_cases h64 : k < 64
  · rw [w64, BitVec.getLsbD_ofNat, testBit_fld]
    simp [h64, Nat.lt_succ_of_le hk]
  · rw [BitVec.getLsbD_of_ge _ _ (by omega), BitVec.getLsbD_of_ge _ _ (by omega)]

/-- A word cut to its low bits reads as before in every field of these bits. -/
theorem fld_w64_fld (v : W64) {h hi : Nat} (lo : Nat) (hhi : hi ≤ h) : fld (w64 (fld v h 0)) hi lo = fld v hi lo := by
  apply Nat.eq_of_testBit_eq
  intro j
  rw [testBit_fld, testBit_fld]
  by_cases hj : j < hi + 1 - lo
  · rw [getLsbD_w64_fld v h (by omega)]
  · simp [hj]

theorem bit_w64_fld (v : W64) {h k : Nat} (hk : k ≤ h) : bit (w64 (fld v h 0)) k = bit v k := getLsbD_w64_fld v h hk

/-! ### Alloc records (R130, R131) -/

section
variable {s : Chip} {t : Tree} {idx : Nat} {v : W64}

/-- An Alloc-ID apart from 1,020 to 1,023 is no reserved encoding (R25). -/
theorem allocId_notReserved {id : Nat} (hid : id < 1020 ∨ 1023 < id) : (decide (1020 ≤ id) && decide (id ≤ 1023)) = false := by
  rw [← Bool.decide_and, decide_eq_false_iff_not]
  omega

/-- The Alloc-ID and the ONU-ID that a record takes over from the word written leave the word as it is. -/
theorem setFld_allocFields (v : W64) : setFld (setFld (w64 (fld v 26 0)) 13 0 (fld v 13 0)) 24 15 (fld v 24 15) = w64 (fld v 26 0) := by
  rw [← fld_w64_fld v (h := 26) 0 (by decide : 13 ≤ 26), setFld_fld, ← fld_w64_fld v 15 (by decide : 24 ≤ 26), setFld_fld]

variable (hid : fld v 13 0 < 1020 ∨ 1023 < fld v 13 0) (honu : fld v 24 15 ≤ 1019)
include hid honu

theorem Chip.writeAllocRec_disabled (hoff : bit v 26 = false) : s.writeAllocRec t idx v = s.setRec (recKey t 0 0 idx) (w64 (fld v 26 0)) := by
  simp [Chip.writeAllocRec, allocId_notReserved hid, Nat.not_lt.mpr honu, setFld_allocFields, bit_w64_fld, hoff]

variable (hon : bit v 26 = true)
include hon

/-- The write that enables a record clears its slots (R131). -/
theorem Chip.writeAllocRec_enables (hnone : s.findAlloc t (fld v 14 14) (fld v 13 0) = none)
    (hold : bit (s.pon.recs.get (recKey t 0 0 idx)) 26 = false) :
    s.writeAllocRec t idx v = ((s.setRec (recKey t 0 0 idx) (w64 (fld v 26 0))).setRec (recKey t 0 2 idx) 0).setRec (recKey t 0 3 idx) 0 := by
  simp [Chip.writeAllocRec, allocId_notReserved hid, Nat.not_lt.mpr honu, setFld_allocFields, bit_w64_fld, fld_w64_fld, hon, hnone, hold]

theorem Chip.writeAllocRec_duplicate {r : Nat × W64} (hfound : s.findAlloc t (fld v 14 14) (fld v 13 0) = some r) (hother : r.1 ≠ idx) :
    s.writeAllocRec t idx v = s.raise Reg.ALLOC_EVENT 2 := by
  simp [Chip.writeAllocRec, allocId_notReserved hid, Nat.not_lt.mpr honu, setFld_allocFields, bit_w64_fld, fld_w64_fld, hon, hfound, hother]

end

/-! ### Terminal records (R117, R132) -/

section
variable {s : Chip} {t : Tree} {w : Wl} {idx : Nat} {v : W64} (hidx : idx ≤ 1019)
include hidx

theorem Chip.writeTerminal_suspended (hnow : s.suspendedNow t w idx = true) :
    s.writeTerminal t w idx v = s.setRec (recKey t w 1 idx) (setFld (w64 (fld v 5 0)) 1 0 3) := by
  simp [Chip.writeTerminal, Nat.not_lt.mpr hidx, hnow]

variable (hnow : s.suspendedNow t w idx = false) (hold : fld (s.pon.recs.get (recKey t w 1 idx)) 1 0 = 0)
include hnow hold

theorem Chip.writeTerminal_stores (hroom : s.terminals t < 512) : s.writeTerminal t w idx v = s.setRec (recKey t w 1 idx) (w64 (fld v 5 0)) := by
  simp [Chip.writeTerminal, Nat.not_lt.mpr hidx, hnow, hold, Nat.not_le.mpr hroom]

theorem Chip.writeTerminal_full (hassigns : fld v 1 0 ≠ 0) (hfull : 512 ≤ s.terminals t) :
    s.writeTerminal t w idx v = s.raise Reg.ALLOC_EVENT 1 := by
  simp [Chip.writeTerminal, Nat.not_lt.mpr hidx, hnow, hold, hassigns, hfull]

end

/-! ### Owners (R166) -/

section
variable {s : Chip} {t : Tree} (v : W64)

theorem Chip.timingRuns_setReg (a : Nat) (t : Nat) : (s.setReg a v).timingRuns t = s.timingRuns t := by
  simp only [Chip.timingRuns, Chip.setReg_keeps]

/-- The owners take what a 64-bit write gives them, and OLD reads NEW at once where timing runs and FROM_FRAME has begun. -/
theorem allocOwnerWrite_taken (heq : fld (s.reg (Reg.ALLOC_OWNER t)) 5 0 = fld (s.reg (Reg.ALLOC_OWNER t)) 11 6) :
    allocOwnerWrite t .full v s = if s.timingRuns t = true then
        (s.setReg (Reg.ALLOC_OWNER t) (w64 (fld v 11 0 + fld v 63 32 <<< 32))).ownerHandover t (s.pon.pond.get t).fc
      else s.setReg (Reg.ALLOC_OWNER t) (w64 (fld v 11 0 + fld v 63 32 <<< 32)) := by
  simp only [allocOwnerWrite, heq, ne_eq, not_true_eq_false, decide_false, Bool.or_self, Bool.false_eq_true, if_false, Chip.timingRuns_setReg,
    Chip.setReg_keeps]

theorem allocOwnerWrite_refused {lanes : Lanes}
    (hno : lanes ≠ .full ∨ fld (s.reg (Reg.ALLOC_OWNER t)) 5 0 ≠ fld (s.reg (Reg.ALLOC_OWNER t)) 11 6) :
    allocOwnerWrite t lanes v s = s.raise Reg.ALLOC_EVENT 3 := by
  unfold allocOwnerWrite
  exact if_pos (by simpa using hno)

end

/-! ### Verdicts and deadlines (R135, R136, R138, R153) -/

section
variable {s : Chip} {t : Tree} {w : Wl}

/-- The verdict of the oldest complete map of a frame that has none, as it is kept and sent. -/
theorem mapVerdict_judges {n i : Nat}
    (hi : ((s.pon.checker.get (wkey t w)).maps.findIdx? fun m => m.frame = n && m.verdict.isNone) = some i) :
    let m := nth (s.pon.checker.get (wkey t w)).maps i
    let v := s.verdict t w n m.shadow (s.previousMap (wkey t w) n) m.entries
    mapVerdict t w n s = (s.updChecker (wkey t w) fun k => { k with maps := k.maps.set i { m with verdict := some v } }).verdictMessage t w n
      (verdictBody v.1 m.entries v.2) := by
  simp only [mapVerdict, hi]

variable {n t0 : Nat} (hnext : s.nextFrame t = some (n, t0))
include hnext

theorem checkerDeadline_late (hdue : lasts (t0 - s.frc) 6001 = false) (hnone : s.hasMap (wkey t w) n = false) :
    checkerDeadline t w s = s.verdictMessage t w n (verdictBody (verdictHeader t w n (s.standbyAt n) 1 0) [] []) := by
  simp [checkerDeadline, hnext, hdue, hnone]

theorem mapTake_active (hdue : lasts (t0 - s.frc) 3001 = false) (hnew : (s.pon.framers.get (wkey t w)).mapFrame ≠ some n)
    (hserves : s.servesAt t n = true) : mapTake t w s = (s.takeActive t w n).takePloams (wkey t w) := by
  simp [mapTake, hnext, hdue, hnew, hserves]

end

/-- Settles O30: the writes of records and owners, each with its refusal; the verdict of a map, the deadline of a frame without one, and the taking. -/
theorem mapsAreCheckedAndTaken : Obligations.MapsAreCheckedAndTaken := by
  intro s t w hr c wk
  have hruns {i : Instr} {f : Chip → Chip} {y : Chip} (he : exec i s = s.core f) (hf : f c = y) : Runs i s y := runs_of_core_eq he hr hf
  refine ⟨fun idx v hid honu => ⟨fun hoff => ?disabled, fun hon hnone hold => ?enabled⟩, fun idx v r hid honu hon hfound hother => ?duplicate,
    fun idx v hidx hnow => ?suspended, fun idx v hidx hnow hold hroom => ?stored, fun idx v hidx hnow hold hassigns hfull => ?full,
    fun v heq => ⟨fun hstill => ?owner, fun hrunning => ?handover⟩, fun v lanes hno => ?ownerErr, fun n i hi => ?verdict,
    fun n t0 hnext hdue hnone => ?late, fun n t0 hnext hdue hnew hserves => ?taken⟩
  case disabled => exact hruns rfl (Chip.writeAllocRec_disabled hid honu hoff)
  case enabled => exact hruns rfl (Chip.writeAllocRec_enables hid honu hon hnone hold)
  case duplicate => exact hruns rfl (Chip.writeAllocRec_duplicate hid honu hon hfound hother)
  case suspended => exact hruns rfl (Chip.writeTerminal_suspended hidx hnow)
  case stored => exact hruns rfl (Chip.writeTerminal_stores hidx hnow hold hroom)
  case full => exact hruns rfl (Chip.writeTerminal_full hidx hnow hold hassigns hfull)
  case owner => exact hruns rfl ((allocOwnerWrite_taken v heq).trans (if_neg (Bool.eq_false_iff.mp hstill)))
  case handover => exact hruns rfl ((allocOwnerWrite_taken v heq).trans (if_pos hrunning))
  case ownerErr => exact hruns rfl (allocOwnerWrite_refused v hno)
  case verdict => exact hruns rfl (mapVerdict_judges hi)
  case late => exact hruns rfl (checkerDeadline_late hnext hdue hnone)
  case taken => exact hruns rfl (mapTake_active hnext hdue hnew hserves)

end Sys2Proof.Machine
end

section
/-! GRANT.FILL: what ALLOC answers to a list and what becomes of it (R135 to R137, R146, R147, R270). -/
namespace Sys2Proof.Machine
open Sys2Proof.Claim

/-! ### What issue leaves of what ALLOC looks at -/

/-- The counters of engines, and the event registers of crucibles, lie beyond the windows of every other block. -/
theorem not_counterRegister_below {c e a : Nat} (ha : a < 0x1C00000) : ¬counterRegister c e a := by
  rintro (h | ⟨k, h | h⟩)
  · rw [h, Reg.CRU_EVENT] at ha
    omega
  · rw [h, Cell.ctrData, cell] at ha
    omega
  · rw [h, Cell.ctrCfg, cell] at ha
    omega

section
variable {s u : Chip}

theorem Chip.standbyAt_congr (hactive : u.active = s.active) (hglk : u.glk = s.glk) (hrole : u.role = s.role) (n : Nat) :
    u.standbyAt n = s.standbyAt n := by
  simp only [Chip.standbyAt, Chip.mateOn, Chip.act, hactive, hglk, hrole]

theorem RegsOnly.standbyAt_eq (h : RegsOnly s u) (n : Nat) : u.standbyAt n = s.standbyAt n := by
  unfold RegsOnly at h
  exact Chip.standbyAt_congr (by rw [h]) (by rw [h]) (by rw [h]) n

variable {c t : Nat} (h : OnlyThread s u c t)
include h

theorem OnlyThread.reg_eq {a : Nat} (ha : a < 0x1C00000) : u.reg a = s.reg a := by
  obtain ⟨hregs, -, -, -⟩ := h
  exact hregs a (not_counterRegister_below ha)

/-- What an instruction of a thread leaves as it was of what ALLOC and the stores hold. -/
theorem OnlyThread.keeps : u.pon = s.pon ∧ u.msgs = s.msgs ∧ u.mem = s.mem ∧ u.frc = s.frc ∧ u.offset = s.offset ∧ u.active = s.active ∧
    u.glk = s.glk ∧ u.role = s.role ∧ u.cru.localData = s.cru.localData := by
  obtain ⟨-, -, -, hrest⟩ := h
  rw [hrest]
  exact ⟨rfl, rfl, rfl, rfl, rfl, rfl, rfl, rfl, rfl⟩

theorem OnlyThread.nextFrame_eq (tree : Tree) : u.nextFrame tree = s.nextFrame tree := by
  obtain ⟨hpon, -, -, -, hoffset, -⟩ := OnlyThread.keeps h
  have hstart : u.reg (Reg.POND_START_TIME tree) = s.reg (Reg.POND_START_TIME tree) := OnlyThread.reg_eq h (by rw [Reg.POND_START_TIME]; omega)
  have hfirst : u.reg (Reg.POND_FC_START tree) = s.reg (Reg.POND_FC_START tree) := OnlyThread.reg_eq h (by rw [Reg.POND_FC_START]; omega)
  have hrate : u.reg Reg.TIME_RATE = s.reg Reg.TIME_RATE := OnlyThread.reg_eq h (by decide)
  simp only [Chip.nextFrame, Chip.tickAt, Chip.rate, Chip.get, hpon, hoffset, hstart, hfirst, hrate]

theorem OnlyThread.fillStatus_eq (d : Nat) (tree : Tree) (shadow : Bool) (low n : Nat) :
    u.fillStatus d tree shadow low n = s.fillStatus d tree shadow low n := by
  obtain ⟨hpon, -, -, hfrc, -⟩ := OnlyThread.keeps h
  have hreg : u.reg (Reg.ALLOC_OWNER tree) = s.reg (Reg.ALLOC_OWNER tree) := OnlyThread.reg_eq h (by rw [Reg.ALLOC_OWNER]; omega)
  have howner : u.owner tree = s.owner tree := funext fun m => by rw [Chip.owner, Chip.owner, hreg]
  unfold Chip.fillStatus
  rw [hpon, hfrc, howner, OnlyThread.nextFrame_eq h]

end

/-! ### Maps in the checker (R137, R271) -/

/-- The checker of a wavelength with a map begun, of which ALLOC has a list of entries (R271). -/
def CheckerWl.begins (k : CheckerWl) (n : Nat) (shadow : Bool) (list : List W64) : CheckerWl :=
  { k with parts := k.parts.filter (fun p => !p.isOf n shadow) ++ [{ frame := n, shadow := shadow, entries := list }] }

/-- The checker of a wavelength as a GRANT.FILL ends: what ALLOC has of the map is a complete one where the status is OK, and is gone in any case. -/
def CheckerWl.closed (k : CheckerWl) (st : Nat × Nat) (shadow standby : Bool) : CheckerWl :=
  match k.parts.find? (·.isOf st.2 shadow) with
  | none => k
  | some p =>
    if st.1 ≠ fillOk then { k with parts := k.parts.filter fun p => !p.isOf st.2 shadow }
    else { k with parts := k.parts.filter fun p => !p.isOf st.2 shadow
                  maps := k.maps ++ [{ frame := st.2, shadow := shadow || standby, entries := p.entries, forced := standby && !shadow }] }

section
variable (k : CheckerWl) (st : Nat × Nat) (shadow standby : Bool)

/-- With a status other than OK what ALLOC had of the map is gone, and no map is added. -/
theorem CheckerWl.closed_refused (hst : st.1 ≠ fillOk) :
    k.closed st shadow standby = { k with parts := k.parts.filter fun p => !p.isOf st.2 shadow } := by
  cases hp : k.parts.find? (·.isOf st.2 shadow) with
  | none =>
    have hkept : k.parts.filter (fun p => !p.isOf st.2 shadow) = k.parts := List.filter_eq_self.mpr (by simpa using hp)
    simp only [CheckerWl.closed, hp, hkept]
  | some p => simp only [CheckerWl.closed, hp, if_pos hst]

/-- With OK the entries of a map just begun are a complete map without a verdict. -/
theorem CheckerWl.closed_begins (list : List W64) (hst : st.1 = fillOk) : (k.begins st.2 shadow list).closed st shadow standby =
    { k with parts := k.parts.filter fun p => !p.isOf st.2 shadow
             maps := k.maps ++ [{ frame := st.2, shadow := shadow || standby, entries := list, forced := standby && !shadow }] } := by
  have hnew : ({ frame := st.2, shadow := shadow, entries := list } : PartMap).isOf st.2 shadow = true := by simp [PartMap.isOf]
  have hfound : (k.begins st.2 shadow list).parts.find? (·.isOf st.2 shadow) = some { frame := st.2, shadow := shadow, entries := list } := by
    have hnone : (k.parts.filter fun p => !p.isOf st.2 shadow).find? (·.isOf st.2 shadow) = none := by simp [List.find?_eq_none]
    rw [CheckerWl.begins, List.find?_append, hnone, Option.none_or]
    exact List.find?_cons_of_pos hnew
  have hrest : (k.begins st.2 shadow list).parts.filter (fun p => !p.isOf st.2 shadow) = k.parts.filter fun p => !p.isOf st.2 shadow := by
    simp [CheckerWl.begins, hnew]
  simp only [CheckerWl.closed, hfound, hrest, hst, ne_eq, not_true_eq_false, if_false]
  rfl

end

section
variable (s : Chip) (t : Tree) (w : Wl) (shadow : Bool) (st : Nat × Nat)

theorem Chip.checker_updChecker_self (k : Nat) (f : CheckerWl → CheckerWl) : (s.updChecker k f).pon.checker.get k = f (s.pon.checker.get k) :=
  Map.get_upd_self s.pon.checker k f

theorem Chip.checker_updChecker_other {j k : Nat} (f : CheckerWl → CheckerWl) (h : j ≠ k) :
    (s.updChecker k f).pon.checker.get j = s.pon.checker.get j := Map.get_set_other _ _ h

/-- The end of a GRANT.FILL at ALLOC closes the map in one wavelength's checker, and raises the event of a crucible that is not the owner. -/
theorem grantFill_eq : grantFill t w shadow st s =
    let s1 := s.updChecker (wkey t w) fun k => k.closed st shadow (s.standbyAt st.2)
    if st.1 = fillNotOwner then s1.raise Reg.ALLOC_EVENT 5 else s1 := rfl

theorem checker_grantFill_self : (grantFill t w shadow st s).pon.checker.get (wkey t w) =
    (s.pon.checker.get (wkey t w)).closed st shadow (s.standbyAt st.2) := by
  rw [grantFill_eq]
  dsimp only
  split <;> exact s.checker_updChecker_self _ _

theorem checker_grantFill_other {j : Nat} (hj : j ≠ wkey t w) : (grantFill t w shadow st s).pon.checker.get j = s.pon.checker.get j := by
  rw [grantFill_eq]
  dsimp only
  split <;> exact s.checker_updChecker_other _ hj

theorem grantFill_keeps : (grantFill t w shadow st s).msgs = s.msgs ∧ (grantFill t w shadow st s).cru = s.cru := by
  rw [grantFill_eq]
  dsimp only
  split <;> exact ⟨rfl, rfl⟩

theorem flag_grantFill_notOwner (hst : st.1 = fillNotOwner) : (grantFill t w shadow st s).flag Reg.ALLOC_EVENT 5 = true := by
  rw [grantFill_eq]
  dsimp only
  rw [if_pos hst]
  exact Chip.flag_setFlag_self _ _ _ (by decide)

end

/-! ### The end of the instruction -/

section
variable {s : Chip} {c t : Nat}

/-- The list of a GRANT.FILL as it stands in the crucible's store (R270). -/
def Chip.grantList (s : Chip) (c off n : Nat) : List W64 := (List.range n).map fun j => w64 (numBE (s.readStore c (off + 8 * j) 8))

/-- The part as ALLOC has answered a GRANT.FILL, before its thread takes the status. -/
def Chip.fillServed (s : Chip) (c t : Nat) (x : FillCall) : Chip :=
  let st := s.fillStatus c x.tree x.shadow x.frame x.n
  if st.1 = fillOk then grantFill x.tree x.wl x.shadow st (s.fillAccept c t x (s.fillProg c t x) x.n)
  else (grantFill x.tree x.wl x.shadow st s).count c t 0x26

theorem Chip.fillEnd_answered {r : Routine} {x : FillCall} (hcall : s.fillCall c t r = .ok x) (hsound : s.badBody c x.size (true, x.off) = false) :
    s.fillEnd c t r = (if 64 < x.n then (s.fillServed c t x).updThread c t fun y => { y with prog := 0 } else s.fillServed c t x).answered c t r
      (s.fillStatus c x.tree x.shadow x.frame x.n).1 := by
  by_cases hst : (s.fillStatus c x.tree x.shadow x.frame x.n).1 = fillOk
  · simp only [Chip.fillEnd, Chip.fillServed, hcall, hsound, Bool.false_eq_true, if_false, hst, if_true]
  · simp only [Chip.fillEnd, Chip.fillServed, hcall, hsound, Bool.false_eq_true, if_false, hst]

/-- A list of at most 1,024 entries that lies in the crucible's store is looked at whole (R270). -/
theorem Chip.fillCall_ok {r : Routine} {x : FillCall} (hctl : (s.thread c t).g r.rb = x.ctl)
    (hoff : ((s.thread c t).g r.ra).toNat = 0x2000000 + x.off) (halign : x.off % 8 = 0) (hpos : 0 < x.n) (hmax : x.n ≤ 1024)
    (hhi : x.off + 8 * x.n ≤ 0x400000) : x.size = 8 * x.n ∧ s.fillCall c t r = .ok x := by
  have hsize : x.size = 8 * x.n := by simp [FillCall.size, Nat.ne_of_gt hpos, Nat.not_lt.mpr hmax]
  have hregion : regionOf (0x2000000 + x.off) = some (.own x.off, 0x400000 - x.off) := by
    have hdata : within 0 0x8000 (0x2000000 + x.off) = none := by unfold within; simp; omega
    have hiram : within 0x1000000 0x40000 (0x2000000 + x.off) = none := by unfold within; simp; omega
    have hown : within 0x2000000 0x400000 (0x2000000 + x.off) = some x.off := by unfold within; simp; omega
    simp only [regionOf, hdata, hiram, hown]
  refine ⟨hsize, ?_⟩
  have hmod : ¬(0x2000000 + x.off) % 8 ≠ 0 := by omega
  have hroom : x.size ≤ 0x400000 - x.off := by omega
  simp only [Chip.fillCall, hctl, hoff, if_neg hmod, hregion, if_pos hroom]

/-- What ALLOC's answer leaves in the checkers: the map is complete where the status is OK, and is not there else; and a crucible that is not the owner
raises its event. -/
structure Chip.ServesFill (s v : Chip) (x : FillCall) (st : Nat × Nat) (list : List W64) : Prop where
  maps : (v.pon.checker.get (wkey x.tree x.wl)).maps = if st.1 = fillOk then (s.pon.checker.get (wkey x.tree x.wl)).maps ++
      [{ frame := st.2, shadow := x.shadow || s.standbyAt st.2, entries := list, forced := s.standbyAt st.2 && !x.shadow }]
    else (s.pon.checker.get (wkey x.tree x.wl)).maps
  parts : (v.pon.checker.get (wkey x.tree x.wl)).parts = (s.pon.checker.get (wkey x.tree x.wl)).parts.filter fun p => !p.isOf st.2 x.shadow
  others : ∀ j, j ≠ wkey x.tree x.wl → v.pon.checker.get j = s.pon.checker.get j
  event : st.1 = fillNotOwner → v.flag Reg.ALLOC_EVENT 5 = true
  msgs : v.msgs = s.msgs
  localData : v.cru.localData = s.cru.localData
  thread : ∀ d u, v.thread d u = s.thread d u

theorem RegsOnly.keeps_pon {u : Chip} (h : RegsOnly s u) : u.pon = s.pon ∧ u.msgs = s.msgs ∧ u.cru = s.cru := by
  unfold RegsOnly at h
  rw [h]
  exact ⟨rfl, rfl, rfl⟩

/-- Entries accepted from the list's start begin the map; for the rest they are counted only. -/
theorem Chip.fillAccept_all (s : Chip) (c t : Nat) (x : FillCall) : CountsOnly c (t / 8)
    (s.updChecker (wkey x.tree x.wl) fun k => k.begins (s.fillStatus c x.tree x.shadow x.frame x.n).2 x.shadow (s.grantList c x.off x.n))
    (s.fillAccept c t x 0 x.n) :=
  (count_frame _ c t 0x25 _).trans (count_frame _ c t 0x3B _)

section
variable {x : FillCall} {st : Nat × Nat} (hst : s.fillStatus c x.tree x.shadow x.frame x.n = st)
include hst

theorem Chip.fillServed_completes (hok : st.1 = fillOk) (hprog : s.fillProg c t x = 0) :
    s.ServesFill (s.fillServed c t x) x st (s.grantList c x.off x.n) := by
  have hcounts := s.fillAccept_all c t x
  rw [hst] at hcounts
  have hv : s.fillServed c t x = grantFill x.tree x.wl x.shadow st (s.fillAccept c t x 0 x.n) := by
    simp only [Chip.fillServed, hst, hprog, hok, if_true]
  rw [hv]
  generalize s.fillAccept c t x 0 x.n = u at hcounts
  obtain ⟨hpon, hmsgs, hcru⟩ := hcounts.1.keeps_pon
  have hstandby : u.standbyAt st.2 = s.standbyAt st.2 := (hcounts.1.standbyAt_eq st.2).trans (Chip.standbyAt_congr rfl rfl rfl st.2)
  obtain ⟨hmsgs', hcru'⟩ := grantFill_keeps u x.tree x.wl x.shadow st
  have hself := checker_grantFill_self u x.tree x.wl x.shadow st
  rw [hpon, s.checker_updChecker_self, hstandby, CheckerWl.closed_begins _ _ _ _ _ hok] at hself
  exact {
    maps := by rw [hself, if_pos hok]
    parts := by rw [hself]
    others := fun j hj => by rw [checker_grantFill_other _ _ _ _ _ hj, hpon, s.checker_updChecker_other _ hj]
    event := flag_grantFill_notOwner u x.tree x.wl x.shadow st
    msgs := hmsgs'.trans hmsgs
    localData := congrArg CruState.localData (hcru'.trans hcru)
    thread := fun d v => congrArg (fun y => y.threads.get (tkey d v)) (hcru'.trans hcru) }

theorem Chip.fillServed_refused (hno : st.1 ≠ fillOk) (list : List W64) : s.ServesFill (s.fillServed c t x) x st list := by
  have hcounts := count_frame (grantFill x.tree x.wl x.shadow st s) c t 0x26 1
  have hv : s.fillServed c t x = (grantFill x.tree x.wl x.shadow st s).count c t 0x26 := by
    simp only [Chip.fillServed, hst, hno, if_false]
  rw [hv]
  generalize (grantFill x.tree x.wl x.shadow st s).count c t 0x26 = v at hcounts
  obtain ⟨hpon, hmsgs, hcru⟩ := hcounts.1.keeps_pon
  obtain ⟨hmsgs', hcru'⟩ := grantFill_keeps s x.tree x.wl x.shadow st
  have hself := checker_grantFill_self s x.tree x.wl x.shadow st
  rw [← hpon, CheckerWl.closed_refused _ _ _ _ hno] at hself
  have hevent : v.reg Reg.ALLOC_EVENT = (grantFill x.tree x.wl x.shadow st s).reg Reg.ALLOC_EVENT :=
    hcounts.2 _ (not_counterRegister_below (by decide))
  exact {
    maps := by rw [hself, if_neg hno]
    parts := by rw [hself]
    others := fun j hj => by rw [hpon, checker_grantFill_other _ _ _ _ _ hj]
    event := fun h => by
      rw [Chip.flag, hevent]
      exact flag_grantFill_notOwner s x.tree x.wl x.shadow st h
    msgs := hmsgs.trans hmsgs'
    localData := congrArg CruState.localData (hcru.trans hcru')
    thread := fun d v => congrArg (fun y => y.threads.get (tkey d v)) (hcru.trans hcru') }

end

end

/-- A long instruction other than MSG.WAIT begins with counters only (R251, R275). -/
theorem longBegin_counts {s : Chip} {c t : Nat} {r : Routine} (hr : ¬(r.op = 0x31 ∧ r.fn = 1)) : CountsOnly c (t / 8) s (s.longBegin c t r) := by
  have hevent := count_frame s c t (longEvent r.op r.fn) 1
  unfold Chip.longBegin
  dsimp only
  rw [if_neg (by simpa using hr)]
  split
  · exact hevent.trans (count_frame _ c t 0x08 1)
  · exact hevent

section
variable {s : Chip} {c t : Nat} {b : Prop} [Decidable b]

/-- The thread of a long instruction that ends with a status; its PROG, where it counted, is clear. -/
theorem answered_thread {r : Routine} (st : Nat) (hprog : b → (s.thread c t).prog = 0) :
    ((if b then s.updThread c t fun y => { y with prog := 0 } else s).answered c t r st).thread c t =
      { (s.thread c t).setStatus r.rd st with ip := nextIp (s.thread c t).ip, state := stWaiting, wait := .last r.due } := by
  have hclear : (if b then s.updThread c t fun y => { y with prog := 0 } else s).thread c t = s.thread c t := by
    split
    · next hb =>
      rw [Chip.thread_updThread_self, ← hprog hb]
    · rfl
  simp only [Chip.answered, Chip.done, Chip.pause, Chip.next, Chip.thread_updThread_self, hclear]

theorem updThread_keeps (s : Chip) (c t : Nat) (f : Thread → Thread) : (s.updThread c t f).pon = s.pon ∧ (s.updThread c t f).regs = s.regs ∧
    (s.updThread c t f).msgs = s.msgs ∧ (s.updThread c t f).cru.localData = s.cru.localData := ⟨rfl, rfl, rfl, rfl⟩

theorem answered_keeps (r : Routine) (st : Nat) {y : Chip}
    (hy : y = (if b then s.updThread c t fun x => { x with prog := 0 } else s).answered c t r st) :
    y.pon = s.pon ∧ y.regs = s.regs ∧ y.msgs = s.msgs ∧ y.cru.localData = s.cru.localData := by
  subst hy
  by_cases hb : b
  · simp only [if_pos hb, Chip.answered, Chip.done, Chip.pause, Chip.next, updThread_keeps, and_self]
  · simp only [if_neg hb, Chip.answered, Chip.done, Chip.pause, Chip.next, updThread_keeps, and_self]

end

/-- A long instruction other than MSG.WAIT has changed counters, its engine's last issue and its run of CTR.RD only as its routine begins. -/
theorem longBegin_frame {s : State} {c t : Nat} {r : Routine} (hr : ¬(r.op = 0x31 ∧ r.fn = 1)) :
    OnlyThread s.chip ((issuedLong s c t).longBegin c t r) c t ∧ ∀ d u, ((issuedLong s c t).longBegin c t r).thread d u = s.chip.thread d u := by
  obtain ⟨hissue, hthreads, -⟩ := countIssue_frame s.chip c t true
  have hbegin := longBegin_counts (s := issuedLong s c t) (c := c) (t := t) hr
  exact ⟨OnlyThread.trans hissue (OnlyThread.of_counts hbegin), fun d u => (hbegin.1.thread_eq d u).trans (hthreads d u)⟩

/-- What ALLOC answers, and leaves, does not depend on what the issue of the instruction has counted. -/
theorem Chip.ServesFill.of_onlyThread {s u v : Chip} {c t : Nat} {x : FillCall} {st : Nat × Nat} {list : List W64} (g : u.ServesFill v x st list)
    (h : OnlyThread s u c t) (hthreads : ∀ d w, u.thread d w = s.thread d w) : s.ServesFill v x st list := by
  obtain ⟨hpon, hmsgs, -, -, -, hactive, hglk, hrole, hlocal⟩ := OnlyThread.keeps h
  have hstandby := Chip.standbyAt_congr hactive hglk hrole st.2
  exact {
    maps := by rw [g.maps, hpon, hstandby]
    parts := by rw [g.parts, hpon]
    others := fun j hj => by rw [g.others j hj, hpon]
    event := g.event
    msgs := g.msgs.trans hmsgs
    localData := g.localData.trans hlocal
    thread := fun d w => (g.thread d w).trans (hthreads d w) }

/-- A GRANT.FILL of a sound list that lies in the crucible's store, at the end of its routine: ALLOC answers as before the instruction's issue, and the
thread takes the status. -/
theorem fillEnd_serves {s u : Chip} {c t : Nat} {x : FillCall} {st : Nat × Nat} {r : Routine} (hu : OnlyThread s u c t)
    (hthreads : ∀ d w, u.thread d w = s.thread d w) (hctl : (s.thread c t).g r.rb = x.ctl) (hoff : ((s.thread c t).g r.ra).toNat = 0x2000000 + x.off)
    (halign : x.off % 8 = 0) (hpos : 0 < x.n) (hmax : x.n ≤ 1024) (hhi : x.off + 8 * x.n ≤ 0x400000)
    (hprog : 64 < x.n → (s.thread c t).prog = 0) (hsound : s.badBody c (8 * x.n) (true, x.off) = false)
    (hst : s.fillStatus c x.tree x.shadow x.frame x.n = st) :
    ∃ v, s.ServesFill v x st (s.grantList c x.off x.n) ∧
      u.fillEnd c t r = (if 64 < x.n then v.updThread c t fun y => { y with prog := 0 } else v).answered c t r st.1 := by
  obtain ⟨-, hmsgs, hmem, -⟩ := OnlyThread.keeps hu
  have hstatus : u.fillStatus c x.tree x.shadow x.frame x.n = st := (OnlyThread.fillStatus_eq hu c x.tree x.shadow x.frame x.n).trans hst
  have hlist : u.grantList c x.off x.n = s.grantList c x.off x.n := by simp only [Chip.grantList, Chip.readStore, Chip.storeByte, hmsgs]
  obtain ⟨hsize, hcall⟩ := Chip.fillCall_ok (s := u) (c := c) (t := t) (r := r) (by rw [hthreads, hctl]) (by rw [hthreads, hoff]) halign hpos hmax hhi
  have hbad : u.badBody c x.size (true, x.off) = false := by
    rw [hsize, ← hsound]
    simp only [Chip.badBody, hmem]
  refine ⟨u.fillServed c t x, .of_onlyThread ?_ hu hthreads, hstatus ▸ Chip.fillEnd_answered hcall hbad⟩
  by_cases hok : st.1 = fillOk
  · refine hlist ▸ Chip.fillServed_completes hstatus hok ?_
    unfold Chip.fillProg
    split
    · next hlong => rw [hthreads, hprog hlong]; rfl
    · rfl
  · exact Chip.fillServed_refused hstatus hok _

theorem longFinish_fill (s : Chip) (c : Cru) (t : Nat) {r : Routine} (hop : r.op = 0x33) (hnone : r.reserved = .none) :
    s.longFinish c t r = s.fillEnd c t r := by
  simp only [Chip.longFinish, hop, hnone, Chip.unreserve]

/-- Settles O23: the list lies in the crucible's store, ALLOC's answer depends on nothing that the instruction's issue has changed, and the thread
takes the status. -/
theorem grantFillGivesAllocTheMap : Obligations.GrantFillGivesAllocTheMap := by
  intro s c t rd ra rb now k x ctl off tree wl n list r old h hpos hmax hprog halign hlo hhi hsound
  let fill : Routine := { op := 0x33, fn := 0, rd := rd, ra := ra, rb := rb }
  let call : FillCall := { off := off, ctl := ctl }
  have hstatus : s.chip.fillStatus c call.tree call.shadow call.frame call.n = r := rfl
  clear_value r
  have hruns := long_of (i := .grantFill c t rd ra rb [] now) (pass := now) (r := fill) h rfl rfl rfl
    (fun hsuper => absurd hsuper (by decide)) rfl rfl rfl
  rw [longFinish_fill _ c t rfl rfl] at hruns
  obtain ⟨hu, hthreads⟩ := longBegin_frame (s := s) (c := c) (t := t) (r := fill) (fun hwait => absurd hwait.2 Nat.zero_ne_one)
  have hoff : (x.g ra).toNat = 0x2000000 + off := by omega
  obtain ⟨v, hserves, hend⟩ := fillEnd_serves (x := call) (r := { fill with since := s.chip.frc, cycles := k }) hu hthreads rfl
    hoff (show off % 8 = 0 by omega) hpos hmax (show off + 8 * n ≤ 0x400000 by omega) hprog hsound hstatus
  have hthread : v.thread c t = x := hserves.thread c t
  have hanswered := answered_thread (b := 64 < call.n) (r := { fill with since := s.chip.frc, cycles := k }) r.1 fun hlong => hthread ▸ hprog hlong
  rw [← hend, hthread] at hanswered
  obtain ⟨hpon, hregs, hmsgs, hlocal⟩ := answered_keeps _ _ hend
  refine ⟨_, hruns, hanswered, hpon ▸ hserves.maps, hpon ▸ hserves.parts, hpon ▸ hserves.others, fun hno => ?_,
    hmsgs.trans hserves.msgs, hlocal.trans hserves.localData⟩
  rw [Chip.flag, Chip.reg, hregs]
  exact hserves.event hno

end Sys2Proof.Machine
end

section
/-! Downstream frames: ARM, enables, PLOAM queues, the placing of SDUs and time-of-day captures (R173 to R178, R184 to R187, R205). -/
namespace Sys2Proof.Machine
open Sys2Proof.Claim

theorem wkey_injective (t : Tree) {w u : Wl} (h : wkey t w = wkey t u) : w = u := by
  unfold wkey at h
  exact Fin.ext (by omega)

section
variable (s : Chip)

theorem Chip.framer_updFramer_self (k : Nat) (f : Framer → Framer) : (s.updFramer k f).pon.framers.get k = f (s.pon.framers.get k) :=
  Map.get_upd_self s.pon.framers k f

theorem Chip.framer_updFramer_other {j k : Nat} (f : Framer → Framer) (h : j ≠ k) : (s.updFramer k f).pon.framers.get j = s.pon.framers.get j :=
  Map.get_set_other _ _ h

theorem Chip.pond_updPond_self (t : Nat) (f : PondTree → PondTree) : (s.updPond t f).pon.pond.get t = f (s.pon.pond.get t) :=
  Map.get_upd_self s.pon.pond t f

end

/-! ### ARM (R173, R174) -/

/-- A wavelength whose tree's timing is armed anew: it sends nothing, has taken no map, and its checker is as at reset. -/
def Chip.stopWavelength (s : Chip) (t : Tree) (w : Wl) : Chip :=
  (s.updFramer (wkey t w) fun f => { f with sending := false, mapFrame := none }).updChecker (wkey t w) fun _ => {}

section
variable (s : Chip) (t : Tree)

theorem Chip.stopWavelength_keeps (w : Wl) : (s.stopWavelength t w).regs = s.regs ∧ (s.stopWavelength t w).pon.pond = s.pon.pond := ⟨rfl, rfl⟩

/-- A part whose tree waits for START_TIME since a tick. -/
def Chip.armedFrom (s : Chip) (t : Tree) (since : Nat) : Chip :=
  (s.updPond t fun p => { p with timing := .armed since }).setFlag (Reg.POND_TIMING_CTRL t) 1 false

theorem Chip.armedFrom_timing (since : Nat) : ((s.armedFrom t since).pon.pond.get t.val).timing = .armed since :=
  congrArg PondTree.timing (s.pond_updPond_self t _)

theorem Chip.armedFrom_notRunning (since : Nat) : (s.armedFrom t since).flag (Reg.POND_TIMING_CTRL t) 1 = false :=
  Chip.flag_setFlag_self _ _ false (by decide)

/-- A wavelength that neither sends, nor has a map, nor has a map to check. -/
def Chip.WavelengthStopped (s : Chip) (k : Nat) : Prop :=
  (s.pon.framers.get k).sending = false ∧ (s.pon.framers.get k).mapFrame = none ∧ s.pon.checker.get k = {}

theorem Chip.stopWavelength_self (w : Wl) : (s.stopWavelength t w).WavelengthStopped (wkey t w) := by
  have hframer := s.framer_updFramer_self (wkey t w) fun f => { f with sending := false, mapFrame := none }
  exact ⟨congrArg Framer.sending hframer, congrArg Framer.mapFrame hframer, Chip.checker_updChecker_self _ _ _⟩

/-- A wavelength that is stopped stays so when either is stopped. -/
theorem Chip.stopWavelength_keeps_stopped {u : Wl} (w : Wl) (h : s.WavelengthStopped (wkey t u)) :
    (s.stopWavelength t w).WavelengthStopped (wkey t u) := by
  by_cases huw : u = w
  · exact huw ▸ s.stopWavelength_self t u
  · have hne : wkey t u ≠ wkey t w := fun e => huw (wkey_injective t e)
    obtain ⟨hsending, hmap, hchecker⟩ := h
    have hframer := s.framer_updFramer_other (fun f => { f with sending := false, mapFrame := none }) hne
    exact ⟨(congrArg Framer.sending hframer).trans hsending, (congrArg Framer.mapFrame hframer).trans hmap,
      (Chip.checker_updChecker_other _ _ hne).trans hchecker⟩

theorem Chip.stopWavelength_both (u : Wl) : ((s.stopWavelength t 0).stopWavelength t 1).WavelengthStopped (wkey t u) := by
  match u with
  | 0 => exact Chip.stopWavelength_keeps_stopped _ t 1 (s.stopWavelength_self t 0)
  | 1 => exact Chip.stopWavelength_self _ t 1

end

section
variable {s : Chip} {t : Tree}

theorem timingArm_refused (h : s.treeQuiet t = false) : timingArm t s = s.raise (Reg.POND_EVENT t) 1 := by
  simp [timingArm, h]

/-- An ARM that is taken arms the timing and then stops both wavelengths: what is left of the running timing goes first. -/
theorem timingArm_taken (h : s.treeQuiet t = true) :
    timingArm t s = (((((((s.abortRemainder t 0).abortRemainder t 1).countAnew t).goStopped t).armedFrom t s.frc).stopWavelength t 0).stopWavelength t 1) := by
  simp only [timingArm, h]
  rfl

end

/-! ### Frame starts and enables (R176, R178) -/

section
variable {s : Chip} {t : Tree} {n t0 : Nat}

theorem frameStart_early (hnext : s.nextFrame t = some (n, t0)) (hearly : s.frc < t0) : frameStart t s = s := by
  simp only [frameStart, hnext, if_pos hearly]

/-- The frames of tree 0, below which no tree runs, time the turnovers of a pair. -/
theorem frameStart_lowest (hnext : s.nextFrame t = some (n, t0)) (hdue : t0 ≤ s.frc) (ht : t.val = 0) :
    frameStart t s = (((s.beginFrame t n t0).mateTurnover n).turnAuto n).evalPermit := by
  simp [frameStart, hnext, Nat.not_lt.mpr hdue, ht]

theorem Chip.enableTx_same {w : Wl} {en : Bool} (h : s.flag (Reg.POND_CTRL t) w = en) : s.enableTx t w en = s := if_pos h

theorem Chip.enableTx_on {w : Wl} (h : s.flag (Reg.POND_CTRL t) w = false) :
    s.enableTx t w true = (s.setFlag (Reg.POND_CTRL t) w true).updFramer (wkey t w) fun f => { f with want := some s.frc } := by
  simp [Chip.enableTx, h]

/-- Wavelength 0 enabled while wavelength 1 stays disabled. -/
theorem txEnableWrite_first (h0 : s.flag (Reg.POND_CTRL t) 0 = false) (h1 : s.flag (Reg.POND_CTRL t) 1 = false) :
    txEnableWrite t true false s = (s.setFlag (Reg.POND_CTRL t) 0 true).updFramer (wkey t 0) fun f => { f with want := some s.frc } := by
  have hon := Chip.enableTx_on (s := s) (t := t) (w := 0) h0
  unfold txEnableWrite
  rw [hon]
  exact Chip.enableTx_same ((s.flag_setFlag_bit (Reg.POND_CTRL t) true (by decide) (by decide)).trans h1)

end

/-! ### PLOAM queues (R184) -/

section
variable {s : Chip} {t : Tree} {w : Wl} (bytes : List Byte)

theorem Chip.ploamPost_full (h : 256 ≤ (s.pon.framers.get (wkey t w)).queue.length) :
    s.ploamPost t w bytes = (s.bump (Reg.POND_PLOAM_FULL t w)).raise (Reg.POND_EVENT t) 2 := if_pos h

theorem Chip.ploamPost_framer (h : (s.pon.framers.get (wkey t w)).queue.length < 256) :
    (s.ploamPost t w bytes).pon.framers.get (wkey t w) =
      { s.pon.framers.get (wkey t w) with
        queue := (s.pon.framers.get (wkey t w)).queue ++ [{ bytes := bytes.take 48, tag := numBE ((bytes.drop 54).take 2) }] } := by
  unfold Chip.ploamPost
  rw [if_neg (Nat.not_le.mpr h)]
  exact s.framer_updFramer_self _ _

end

/-! ### Placing (R189 to R203) -/

/-- The part as POND finds it when it places on a wavelength that sends: the words that have passed carry idle frames, and its offers are gathered. -/
def Chip.readyToPlace (s : Chip) (t : Tree) (w : Wl) : Chip :=
  let v := s.idleTo t w (min (fsWords w) ((s.frc - (s.pon.pond.get t).t0) * fsWords w / frameTicks))
  v.gatherOffers t w (s.pondValues t w) (roomAt (s.pondValues t w) w (s.pon.pond.get t).fc (v.pon.framers.get (wkey t w)).pos)

/-- A wavelength that sends, on the part that is ready to place: its framer, the applied values and the frame under way. -/
structure Chip.Placing (s : Chip) (t : Tree) (w : Wl) (u : Chip) (g : Framer) (vals : List W64) (fc : Nat) : Prop where
  sending : (s.pon.framers.get (wkey t w)).sending = true
  timing : s.timingRuns t = true
  ready : s.readyToPlace t w = u
  framer : u.pon.framers.get (wkey t w) = g
  values : s.pondValues t w = vals
  frame : (s.pon.pond.get t).fc = fc

section
variable {s u : Chip} {t : Tree} {w : Wl} {g : Framer} {vals : List W64} {fc : Nat} (unit : UnitReport) (h : s.Placing t w u g vals fc)
include h

theorem sduPlace_frameFull (hfull : fsWords w ≤ g.pos) : sduPlace t w unit s = u := by
  obtain ⟨hsending, htiming, hready, hframer, rfl, rfl⟩ := h
  simp only [Chip.readyToPlace] at hready
  simp [sduPlace, hsending, htiming, hready, hframer, hfull]

variable (hroom : g.pos < fsWords w)
include hroom

/-- A remainder is placed where no other SDU can be and its place is not reserved. -/
theorem sduPlace_remainder {r : Remainder} (hrem : g.remainder = some r)
    (hoffer : (u.chooseOffer t w vals (roomAt vals w fc g.pos) g.pos g.remainder.isSome).1 = none)
    (hfree : (roomAt r.values w fc g.pos).reserved = false) : sduPlace t w unit s = u.placeRemainder t w r unit := by
  obtain ⟨hsending, htiming, hready, hframer, rfl, rfl⟩ := h
  simp only [Chip.readyToPlace] at hready
  simp only [hrem, Option.isSome_some] at hoffer
  simp [sduPlace, hsending, htiming, hready, hframer, Nat.not_le.mpr hroom, hrem, hoffer, hfree]

/-- Without a remainder, the offer that goes next is placed. -/
theorem sduPlace_offer {i n : Nat} {x : TmFrame} {d : Sdu} (hrem : g.remainder = none)
    (hoffer : (u.chooseOffer t w vals (roomAt vals w fc g.pos) g.pos g.remainder.isSome).1 = some (i, n, x, d)) :
    sduPlace t w unit s =
      u.placeOffer t w i n x d ((u.downKey t w d.ctx d.onu).getD none) vals (roomAt vals w fc g.pos).last unit := by
  obtain ⟨hsending, htiming, hready, hframer, rfl, rfl⟩ := h
  simp only [Chip.readyToPlace] at hready
  simp only [hrem, Option.isSome_none] at hoffer
  simp [sduPlace, hsending, htiming, hready, hframer, Nat.not_le.mpr hroom, hrem, hoffer]

end

/-! ### Time of day (R205) -/

section
variable (s : Chip) (t : Tree) (v : W64)

theorem todArm_reg : (todArm t v s).reg (Reg.POND_TOD_ARM t) = w64 (fld v 51 0 + fld v 63 63 <<< 63) := by
  simp only [todArm, Chip.updPond_registers, Chip.reg_setReg_self]

/-- The next frame is captured where the frame named is not at least 2 ahead. -/
theorem todArm_next : ((todArm t v s).pon.pond.get t.val).todNext =
    (bit v 63 && decide ((fld v 50 0 + fcMod - (s.pon.pond.get t.val).fc) % fcMod < 2)) := by
  simp only [todArm, Chip.pond_updPond_self]

end

/-- Settles O31: ARM, frame starts and enables, the PLOAM queue's entries and its flush, what goes next at a place, and the arming of a capture. -/
theorem framesAreSent : Obligations.FramesAreSent := by
  intro s t w hr c wk f
  have hruns {i : Instr} {g : Chip → Chip} {y : Chip} (he : exec i s = s.core g) (hg : g c = y) : Runs i s y := runs_of_core_eq he hr hg
  refine ⟨fun hbusy => hruns rfl (timingArm_refused hbusy), fun hquiet => ?armed, fun n t0 hnext hearly => hruns rfl (frameStart_early hnext hearly),
    fun n t0 hnext hdue ht => hruns rfl (frameStart_lowest hnext hdue ht), fun h0 h1 => ?enabled, ?flushed, fun v => ?posted,
    fun unit hsending htiming => ?placed, fun v => ?captureArmed⟩
  case armed =>
    have hv := timingArm_taken hquiet
    generalize Chip.goStopped _ t = v at hv
    obtain ⟨hregs₁, hpond₁⟩ := ((v.armedFrom t c.frc).stopWavelength t 0).stopWavelength_keeps t 1
    obtain ⟨hregs, hpond⟩ := (v.armedFrom t c.frc).stopWavelength_keeps t 0
    refine ⟨_, hruns rfl hv, ?_, ?_, Chip.stopWavelength_both _ t⟩
    · rw [hpond₁, hpond, v.armedFrom_timing]
    · rw [Chip.flag, Chip.reg, hregs₁, hregs]
      exact v.armedFrom_notRunning t _
  case enabled =>
    exact ⟨_, hruns rfl (txEnableWrite_first h0 h1), c.flag_setFlag_self _ true (by decide),
      (c.flag_setFlag_bit _ true (by decide) (by decide)).trans h1, Chip.framer_updFramer_self _ _ _⟩
  case flushed => exact ⟨_, hruns rfl rfl, c.framer_updFramer_self _ _, rfl, fun k hk => c.framer_updFramer_other _ hk⟩
  case posted =>
    exact ⟨fun hroom => ⟨_, hruns rfl rfl, Chip.ploamPost_framer (s := c.setReg _ v) _ hroom⟩,
      fun hfull => hruns rfl (Chip.ploamPost_full (s := c.setReg _ v) _ hfull)⟩
  case placed =>
    intro gone vals fc v u g room offer
    have h : c.Placing t w u g vals fc := ⟨hsending, htiming, rfl, rfl, rfl, rfl⟩
    have hplaces {y : Chip} (hy : sduPlace t w unit c = y) : Runs (.sduPlace t w unit) s (c.demotions y) :=
      runs_of_core_eq (f := fun z => z.demotions (sduPlace t w unit z)) rfl hr (congrArg c.demotions hy)
    refine ⟨fun hfull => ?full, fun r hroom hrem hoffer hfree => ?remainder, fun i n x d hroom hrem hoffer => ?offer⟩
    case full => exact hplaces (sduPlace_frameFull unit h hfull)
    case remainder => exact hplaces (sduPlace_remainder unit h hroom hrem hoffer hfree)
    case offer => exact hplaces (sduPlace_offer unit h hroom hrem hoffer)
  case captureArmed =>
    exact ⟨todArm t v c, hruns rfl rfl, todArm_reg c t v, todArm_next c t v⟩

end Sys2Proof.Machine
end

section
/-! Per-context counters: a counter's value as its DDR5 total and its accumulator make it, and what sets, shows and folds it (R207 to R211, R670). -/
namespace Sys2Proof.Machine
open Sys2Proof.Claim

/-! ### Numbers in bytes (R13) -/

theorem foldl_bytesBE (n : Nat) : ∀ a x : Nat, (bytesBE n x).foldl (fun a b => a * 256 + b.toNat) a = a * 256 ^ n + x % 256 ^ n := by
  induction n with
  | zero => intro a x; simp [bytesBE, Nat.mod_one]
  | succ n ih =>
    intro a x
    have hbyte : (BitVec.ofNat 8 (x >>> (8 * n))).toNat = x / 256 ^ n % 256 := by
      rw [BitVec.toNat_ofNat, Nat.shiftRight_eq_div_pow, Nat.pow_mul]
    rw [bytesBE, List.foldl_cons, ih, hbyte, Nat.pow_succ, Nat.mod_mul, Nat.add_mul, Nat.mul_assoc, Nat.mul_comm 256, Nat.mul_comm (256 ^ n) (_ % 256)]
    omega

theorem numBE_bytesBE (n x : Nat) : numBE (bytesBE n x) = x % 256 ^ n := by
  rw [numBE, foldl_bytesBE, Nat.zero_mul, Nat.zero_add]

/-! ### Values (R208, R670) -/

theorem withHalf_lt (old : Nat) (x : LaneWrite) : withHalf old x < 281474976710656 := by
  unfold withHalf
  split <;> exact fld_lt _ 47 0

section
variable (s : Chip) (key v : Nat)

theorem Chip.stat_lt : s.stat key < 281474976710656 := Nat.mod_lt _ (by decide)

theorem Chip.statTotal_ddrWrite_self : (s.ddrWrite (statAddr key) (bytesBE 8 v)).statTotal key = v % 256 ^ 8 := by
  have hread := s.ddrRead_ddrWrite_self (statAddr key) (bytesBE 8 v)
  rw [length_bytesBE] at hread
  rw [Chip.statTotal, hread, numBE_bytesBE]

theorem Chip.statTotal_ddrWrite_other {o : Nat} (h : o ≠ key) : (s.ddrWrite (statAddr key) (bytesBE 8 v)).statTotal o = s.statTotal o := by
  have hread := s.ddrRead_ddrWrite_apart (statAddr key) (statAddr o) 8 (bytesBE 8 v) (by rw [length_bytesBE]; unfold statAddr; omega)
  rw [Chip.statTotal, hread, Chip.statTotal]

/-- What DDR5 serves depends on its channels and on the applied settings. -/
theorem Chip.ddrHas_congr {s u : Chip} (hchans : u.mem.chans = s.mem.chans) (hactive : u.active = s.active) (off n : Nat) :
    u.ddrHas off n = s.ddrHas off n := by
  have hserved : u.stretchServed = s.stretchServed := funext fun b => by
    unfold Chip.stretchServed Chip.mirrored Chip.act
    rw [hchans, hactive]
  rw [Chip.ddrHas, Chip.ddrHas, hserved]

theorem Chip.ddrWrite_keeps (off : Nat) (l : List Byte) : (s.ddrWrite off l).regs = s.regs ∧ (s.ddrWrite off l).active = s.active ∧
    (s.ddrWrite off l).pon = s.pon ∧ (s.ddrWrite off l).mem.chans = s.mem.chans := ⟨rfl, rfl, rfl, rfl⟩

/-! ### An accumulator set -/

theorem Chip.setStatAcc_keeps : (s.setStatAcc key v).regs = s.regs ∧ (s.setStatAcc key v).pon.rx = s.pon.rx ∧
    (s.setStatAcc key v).pon.framers = s.pon.framers ∧ ∀ off n, (s.setStatAcc key v).ddrHas off n = s.ddrHas off n :=
  ⟨rfl, rfl, rfl, Chip.ddrHas_congr rfl rfl⟩

theorem Chip.statAcc_setStatAcc_self : (s.setStatAcc key v).pon.statAccs.get key = v := Map.get_set_self s.pon.statAccs key v

theorem Chip.statAcc_setStatAcc_other {o : Nat} (h : o ≠ key) : (s.setStatAcc key v).pon.statAccs.get o = s.pon.statAccs.get o :=
  Map.get_set_other s.pon.statAccs v h

theorem Chip.statTotal_setStatAcc (o : Nat) : (s.setStatAcc key v).statTotal o = s.statTotal o := by
  have hddr : (s.setStatAcc key v).ddr = s.ddr := rfl
  simp only [Chip.statTotal, Chip.ddrRead, hddr]

/-! ### A counter set -/

/-- A counter whose total DDR5 serves is set there, and its accumulator emptied. -/
theorem Chip.setStat_served (h : s.ddrHas (statAddr key) 8 = true) :
    s.setStat key v = (s.ddrWrite (statAddr key) (bytesBE 8 v)).setStatAcc key 0 := if_pos h

/-- A counter whose total DDR5 does not serve is set by its accumulator. -/
theorem Chip.setStat_unserved (h : s.ddrHas (statAddr key) 8 = false) :
    s.setStat key v = s.setStatAcc key ((v + 281474976710656 - s.statTotal key % 281474976710656) % 281474976710656) := by
  simp [Chip.setStat, h]

/-- Either way it reads what it was set to. -/
theorem Chip.stat_setStat_self (hv : v < 281474976710656) : (s.setStat key v).stat key = v := by
  cases h : s.ddrHas (statAddr key) 8 with
  | true =>
    rw [s.setStat_served key v h, Chip.stat, Chip.statTotal_setStatAcc, s.statTotal_ddrWrite_self, Chip.statAcc_setStatAcc_self, countAdd]
    omega
  | false =>
    rw [s.setStat_unserved key v h, Chip.stat, Chip.statTotal_setStatAcc, Chip.statAcc_setStatAcc_self, countAdd]
    omega

theorem Chip.statAcc_setStat_served (h : s.ddrHas (statAddr key) 8 = true) : (s.setStat key v).pon.statAccs.get key = 0 := by
  rw [s.setStat_served key v h, Chip.statAcc_setStatAcc_self]

/-- What setting a counter leaves as it was. -/
theorem Chip.setStat_keeps : (s.setStat key v).regs = s.regs ∧ (s.setStat key v).pon.rx = s.pon.rx ∧
    (s.setStat key v).pon.framers = s.pon.framers ∧ ∀ off n, (s.setStat key v).ddrHas off n = s.ddrHas off n := by
  cases h : s.ddrHas (statAddr key) 8 with
  | true =>
    rw [s.setStat_served key v h]
    obtain ⟨hregs, hactive, hpon, hchans⟩ := s.ddrWrite_keeps (statAddr key) (bytesBE 8 v)
    obtain ⟨hregs₁, hrx, hframers, hddr⟩ := (s.ddrWrite (statAddr key) (bytesBE 8 v)).setStatAcc_keeps key 0
    exact ⟨hregs₁.trans hregs, hrx.trans (congrArg Pon.rx hpon), hframers.trans (congrArg Pon.framers hpon),
      fun off n => (hddr off n).trans (Chip.ddrHas_congr hchans hactive off n)⟩
  | false =>
    rw [s.setStat_unserved key v h]
    exact s.setStatAcc_keeps key _

variable {key}

theorem Chip.statAcc_setStat_other {o : Nat} (ho : o ≠ key) : (s.setStat key v).pon.statAccs.get o = s.pon.statAccs.get o := by
  unfold Chip.setStat
  split <;> exact Chip.statAcc_setStatAcc_other _ _ _ ho

theorem Chip.stat_setStat_other {o : Nat} (ho : o ≠ key) : (s.setStat key v).stat o = s.stat o := by
  have htotal : (s.setStat key v).statTotal o = s.statTotal o := by
    unfold Chip.setStat
    split
    · exact (Chip.statTotal_setStatAcc _ _ _ _).trans (s.statTotal_ddrWrite_other key v ho)
    · exact Chip.statTotal_setStatAcc _ _ _ _
  rw [Chip.stat, htotal, s.statAcc_setStat_other v ho, Chip.stat]

end

/-! ### Folds (R208) -/

/-- u is s with the accumulators of some counters folded: every count is as it was, those accumulators that DDR5 serves are empty, and all others stay. -/
structure Chip.Folds (s : Chip) (keys : List Nat) (u : Chip) : Prop where
  stat : ∀ key, u.stat key = s.stat key
  regs : u.regs = s.regs
  rx : u.pon.rx = s.pon.rx
  framers : u.pon.framers = s.pon.framers
  ddrHas : ∀ off n, u.ddrHas off n = s.ddrHas off n
  emptied : ∀ key ∈ keys, s.ddrHas (statAddr key) 8 = true → u.pon.statAccs.get key = 0
  others : ∀ key, key ∉ keys → u.pon.statAccs.get key = s.pon.statAccs.get key

theorem Chip.Folds.nil (s : Chip) : s.Folds [] s :=
  ⟨fun _ => rfl, rfl, rfl, rfl, fun _ _ => rfl, fun _ h => absurd h List.not_mem_nil, fun _ _ => rfl⟩

theorem Chip.stat_foldOne (s : Chip) (key o : Nat) : (s.foldOne key).stat o = s.stat o := by
  by_cases ho : o = key
  · exact ho ▸ s.stat_setStat_self o _ (s.stat_lt o)
  · exact s.stat_setStat_other _ ho

/-- One accumulator more is folded. -/
theorem Chip.Folds.foldOne {s u : Chip} {keys : List Nat} (h : s.Folds keys u) (key : Nat) : s.Folds (key :: keys) (u.foldOne key) := by
  obtain ⟨hregs, hrx, hframers, hddr⟩ := u.setStat_keeps key (u.stat key)
  refine ⟨fun o => (u.stat_foldOne key o).trans (h.stat o), hregs.trans h.regs, hrx.trans h.rx, hframers.trans h.framers,
    fun off n => (hddr off n).trans (h.ddrHas off n), fun o hmem hserved => ?emptied, fun o hmem => ?others⟩
  case emptied =>
    by_cases ho : o = key
    · exact ho ▸ u.statAcc_setStat_served o _ ((h.ddrHas _ _).trans hserved)
    · exact (u.statAcc_setStat_other _ ho).trans (h.emptied o (List.mem_of_ne_of_mem ho hmem) hserved)
  case others =>
    rw [List.mem_cons, not_or] at hmem
    obtain ⟨ho, hkeys⟩ := hmem
    exact (u.statAcc_setStat_other _ ho).trans (h.others o hkeys)

theorem statFold_folds (s : Chip) (t : Tree) (ctx : Fin 32768) (dir : Fin 2) :
    s.Folds [statKey t ctx dir 2, statKey t ctx dir 1, statKey t ctx dir 0] (statFold t ctx dir s) :=
  (((Chip.Folds.nil s).foldOne _).foldOne _).foldOne _

/-! ### Selection and copy (R209) -/

theorem statReg_eq (t : Tree) {k : Nat} (hk : k < 3) : statReg t k = 0x600078 + 8 * k + t.val * 0x10000 := by
  match k, hk with
  | 0, _ => rfl
  | 1, _ => rfl
  | 2, _ => rfl

theorem statReg_ne_sel (t : Tree) {k : Nat} (hk : k < 3) : statReg t k ≠ Reg.POND_STAT_SEL t := by
  rw [statReg_eq t hk]
  unfold Reg.POND_STAT_SEL
  omega

theorem statReg_injective (t : Tree) {j k : Nat} (hj : j < 3) (hk : k < 3) (h : statReg t j = statReg t k) : j = k := by
  rw [statReg_eq t hj, statReg_eq t hk] at h
  omega

/-- The registers that show the selected counters take given values. -/
def Chip.showStats (s : Chip) (t : Tree) (val : Nat → W64) : Chip := (List.range 3).foldl (fun u k => u.setReg (statReg t k) (val k)) s

theorem Chip.reg_showStats (s : Chip) (t : Tree) (val : Nat → W64) {k : Nat} (hk : k < 3) : (s.showStats t val).reg (statReg t k) = val k := by
  have hne {j : Nat} (hj : j < 3) (h : k ≠ j) : statReg t k ≠ statReg t j := fun e => h (statReg_injective t hk hj e)
  change (((s.setReg (statReg t 0) (val 0)).setReg (statReg t 1) (val 1)).setReg (statReg t 2) (val 2)).reg (statReg t k) = val k
  match k, hk with
  | 0, _ => rw [Chip.reg_setReg_other _ _ (hne (by decide) (by decide)), Chip.reg_setReg_other _ _ (hne (by decide) (by decide)), Chip.reg_setReg_self]
  | 1, _ => rw [Chip.reg_setReg_other _ _ (hne (by decide) (by decide)), Chip.reg_setReg_self]
  | 2, _ => rw [Chip.reg_setReg_self]

section
variable {s : Chip} {t : Tree}

theorem statSelWrite_idle (v : W64) (h : s.flag (Reg.POND_STAT_SEL t) 63 = false) :
    statSelWrite t v s = s.setReg (Reg.POND_STAT_SEL t) (w64 (fld v 15 0 + 1 <<< 63)) := if_neg (Bool.eq_false_iff.mp h)

theorem statSelWrite_busy (v : W64) (h : s.flag (Reg.POND_STAT_SEL t) 63 = true) : statSelWrite t v s = s := if_pos h

theorem statCopyDone_busy (h : s.flag (Reg.POND_STAT_SEL t) 63 = true) :
    statCopyDone t s = (s.showStats t fun k => w64 (s.stat (s.selStat t k))).setFlag (Reg.POND_STAT_SEL t) 63 false := by
  simp only [statCopyDone, h]
  rfl

theorem statWrite_idle (k : Fin 3) (x : LaneWrite) (h : s.flag (Reg.POND_STAT_SEL t) 63 = false) :
    statWrite t k x s = (s.setReg (statReg t k) (w64 (withHalf (s.get (statReg t k) 47 0) x))).setStat (s.selStat t k)
      (withHalf (s.stat (s.selStat t k)) x) := if_neg (Bool.eq_false_iff.mp h)

theorem statWrite_busy (k : Fin 3) (x : LaneWrite) (h : s.flag (Reg.POND_STAT_SEL t) 63 = true) : statWrite t k x s = s := if_pos h

end

/-- Settles O32: a counter reads what it is set to, whether DDR5 or its accumulator takes it, and a fold sets it to what it reads. -/
theorem perContextCounters : Obligations.PerContextCounters := by
  intro s t hr c sel
  have hruns {i : Instr} {f : Chip → Chip} {y : Chip} (he : exec i s = s.core f) (hf : f c = y) : Runs i s y := runs_of_core_eq he hr hf
  refine ⟨fun v hidle => hruns rfl (statSelWrite_idle v hidle), fun v hbusy => hruns rfl (statSelWrite_busy v hbusy), fun hbusy => ?copied,
    fun k x hidle => ?written, fun k x hbusy => hruns rfl (statWrite_busy k x hbusy), fun ctx dir => ?folded⟩
  case copied =>
    exact ⟨_, hruns rfl (statCopyDone_busy hbusy), Chip.flag_setFlag_self _ _ false (by decide), rfl,
      fun k hk => (Chip.reg_setReg_other _ _ (statReg_ne_sel t hk)).trans (c.reg_showStats t _ hk)⟩
  case written =>
    intro key
    have hwrites := hruns (i := .statWrite t k x) rfl (statWrite_idle k x hidle)
    let u := c.setReg (statReg t k) (w64 (withHalf (c.get (statReg t k) 47 0) x))
    obtain ⟨hregs, -⟩ := u.setStat_keeps key (withHalf (c.stat key) x)
    refine ⟨hwrites, _, hwrites, ?_, u.stat_setStat_self key _ (withHalf_lt _ x), fun o ho => u.stat_setStat_other _ ho⟩
    rw [Chip.reg, hregs]
    exact c.reg_setReg_self _ _
  case folded =>
    have h := statFold_folds c t ctx dir
    refine ⟨_, hruns rfl rfl, h.stat, h.regs, h.rx, h.framers, fun k hk => h.emptied _ ?_, fun key hkey => h.others key ?_⟩
    · match k, hk with
      | 0, _ => simp
      | 1, _ => simp
      | 2, _ => simp
    · simp [hkey 0, hkey 1, hkey 2]

end Sys2Proof.Machine
end

section
/-! Patterns: the loader from GO to the last crucible, the start-up load, the reserve, and words repaired from it (R302 to R309, R313 to R318). -/
namespace Sys2Proof.Machine
open Sys2Proof.Claim

/-! ### Folds -/

/-- A fold over a list that holds i reaches P: what comes before i keeps Q, from which i makes P, and P then stays. -/
theorem foldl_reaches {σ ι : Type} {f : σ → ι → σ} {Q P : σ → Prop} {l : List ι} {i : ι} {u : σ} (hi : i ∈ l) (hu : Q u)
    (hbefore : ∀ v, ∀ j ∈ l, j ≠ i → Q v → Q (f v j)) (hmakes : ∀ v, Q v → P (f v i)) (hafter : ∀ v, ∀ j ∈ l, P v → P (f v j)) :
    P (l.foldl f u) := by
  obtain ⟨before, after, rfl, hnot⟩ := List.eq_append_cons_of_mem hi
  rw [List.foldl_append, List.foldl_cons]
  have hq : Q (before.foldl f u) := List.foldlRecOn before f hu fun v hv j hj =>
    hbefore v j (List.mem_append_left _ hj) (fun e => hnot (e ▸ hj)) hv
  exact List.foldlRecOn after f (hmakes _ hq) fun v hv j hj => hafter v j (List.mem_append_right _ (List.mem_cons_of_mem _ hj)) hv

/-- A fold over a list that holds i reaches what i makes from any state and every step keeps. -/
theorem foldl_makes {σ ι : Type} {f : σ → ι → σ} (P : σ → Prop) {l : List ι} {i : ι} {u : σ} (hi : i ∈ l) (hmakes : ∀ v, P (f v i))
    (hafter : ∀ v, ∀ j ∈ l, P v → P (f v j)) : P (l.foldl f u) :=
  foldl_reaches (Q := fun _ => True) hi trivial (fun _ _ _ _ _ => trivial) (fun v _ => hmakes v) hafter

/-- What no step of a fold changes, the fold leaves as it was. -/
theorem foldl_keeps {σ ι β : Type} {f : σ → ι → σ} (g : σ → β) (h : ∀ v i, g (f v i) = g v) (l : List ι) (u : σ) : g (l.foldl f u) = g u :=
  List.foldlRecOn (motive := fun v => g v = g u) l f rfl fun v hv i _ => (h v i).trans hv

/-! ### Stores -/

section
variable (s : Chip)

@[simp] theorem Chip.store_setStore_self (c : Nat) (x : ControlStore) : (s.setStore c x).store c = x := Map.get_set_self s.patterns.stores c x

theorem Chip.store_setStore_other {c d : Nat} (x : ControlStore) (h : d ≠ c) : (s.setStore c x).store d = s.store d :=
  Map.get_set_other s.patterns.stores x h

theorem Chip.setStore_keeps (c : Nat) (x : ControlStore) : (s.setStore c x).regs = s.regs ∧ (s.setStore c x).cru = s.cru ∧
    (s.setStore c x).patterns = { s.patterns with stores := s.patterns.stores.set c x } := ⟨rfl, rfl, rfl⟩

theorem Chip.updGateCru_keeps (c : Nat) (g : GateCru → GateCru) : (s.updGateCru c g).cru = s.cru ∧ (s.updGateCru c g).patterns = s.patterns :=
  ⟨rfl, rfl⟩

theorem Chip.setLoader_parts (f : Loader → Loader) : (s.setLoader f).cru = s.cru ∧
    (s.setLoader f).patterns = { s.patterns with loader := f s.patterns.loader } := ⟨rfl, rfl⟩

/-- The bank of the reserve in use set (R303). -/
def Chip.setBank (s : Chip) (bank : Nat) : Chip := { s with patterns := { s.patterns with bank := bank } }

theorem Chip.setBank_parts (bank : Nat) : (s.setBank bank).cru = s.cru ∧ (s.setBank bank).patterns = { s.patterns with bank := bank } := ⟨rfl, rfl⟩

theorem RegsOnly.patterns_eq {s u : Chip} (h : RegsOnly s u) : u.patterns = s.patterns := by
  rw [h]

/-! ### GO and the end of a load (R302, R307, R308) -/

theorem Chip.loadStart_idle (sideBand : Bool) (ep source : Nat) (h : s.patterns.loader.busy = false) :
    s.loadStart sideBand ep source = s.setLoader fun l =>
      { busy := true, phase := 1, source := source, sideBand := sideBand, ep := ep, result := l.result, slotB := l.slotB } :=
  if_neg (Bool.eq_false_iff.mp h)

theorem Chip.loadStart_busy (sideBand : Bool) (ep source : Nat) (h : s.patterns.loader.busy = true) :
    s.loadStart sideBand ep source = s.raise (Reg.CRU_UC_EVENT 0) 5 := if_pos h

/-- The part with SOURCE written, where its code is not the reserved one (R25, R320). -/
def Chip.sourced (s : Chip) (source : Fin 4) : Chip := if source = 3 then s else s.setField Reg.CRU_LOAD_CTRL 2 1 source.val

theorem Chip.sourced_patterns (source : Fin 4) : (s.sourced source).patterns = s.patterns := by
  unfold Chip.sourced
  split
  · rfl
  · rfl

theorem Chip.sourced_source (source : Fin 4) :
    (s.sourced source).get Reg.CRU_LOAD_CTRL 2 1 = if source = 3 then s.get Reg.CRU_LOAD_CTRL 2 1 else source.val := by
  unfold Chip.sourced
  split
  · rfl
  · rw [Chip.get_setField_self _ _ _ (by decide)]
    exact Nat.mod_eq_of_lt source.isLt

theorem loadGo_eq (e : Ep) (source : Fin 4) :
    loadGo e source s = (s.sourced source).loadStart false e.val (if source = 3 then s.get Reg.CRU_LOAD_CTRL 2 1 else source.val) :=
  congrArg ((s.sourced source).loadStart false e.val) (s.sourced_source source)

/-- The loader with its load ended at a RESULT. -/
def Loader.ended (l : Loader) (result : Nat) : Loader := { l with busy := false, phase := 0, result := result }

/-- The end of a load changes the loader, the events of crucible 0's store and the island's log. -/
theorem Chip.loadEnd_parts (result : Nat) : (s.loadEnd result).patterns = { s.patterns with loader := s.patterns.loader.ended result } ∧
    (s.loadEnd result).ddr = s.ddr ∧ (s.loadEnd result).cru = s.cru ∧
    (s.loadEnd result).flag (Reg.CRU_UC_EVENT 0) (if result = 0 then 4 else 5) = true ∧
    ∀ a, a ≠ Reg.CRU_UC_EVENT 0 → (s.loadEnd result).reg a = s.reg a := by
  unfold Chip.loadEnd
  dsimp only
  obtain ⟨l, hl⟩ := islLog_parts ((s.setLoader fun x => x.ended result).raise (Reg.CRU_UC_EVENT 0) (if result = 0 then 4 else 5)) 4 0
    [BitVec.ofNat 8 (ofBool s.patterns.loader.sideBand), BitVec.ofNat 8 result]
  have hbit : (if result = 0 then 4 else 5) < 64 := by
    split
    · decide
    · decide
  refine hl ▸ ⟨rfl, rfl, rfl, ?_, fun a ha => ?_⟩
  · exact Chip.flag_setFlag_self _ _ true hbit
  · exact Chip.reg_setReg_other _ _ ha

end

/-! ### The reserve (R303) -/

/-- The places of two words in a bank are the same or apart. -/
theorem reserveAt_apart (bank : Nat) {copy k a j : Nat} (ha : a < 16384) (hj : j < 16384) (h : ¬(copy = k ∧ a = j)) :
    reserveAt bank copy a + 16 ≤ reserveAt bank k j ∨ reserveAt bank k j + 16 ≤ reserveAt bank copy a := by
  unfold reserveAt
  omega

section
variable (s : Chip) (bank : Nat) (x : Contents)

/-- A word of a bank written, to one of its copies. -/
def Chip.reserveWriteWord (s : Chip) (bank : Nat) (x : Contents) (copy a : Nat) : Chip :=
  s.ddrWrite (reserveAt bank copy a) (bytesBE 16 (x.words.get a).toNat)

theorem Chip.reserveWrite_eq : s.reserveWrite bank x =
    (List.range 2).foldl (fun u copy => (List.range 16384).foldl (fun v a => v.reserveWriteWord bank x copy a) u) s := rfl

/-- A copy of a bank holds word a of the contents. -/
def Chip.ReserveHolds (s : Chip) (bank : Nat) (x : Contents) (copy a : Nat) : Prop :=
  s.ddrRead (reserveAt bank copy a) 16 = bytesBE 16 (x.words.get a).toNat

theorem Chip.reserveWriteWord_holds (copy a : Nat) : (s.reserveWriteWord bank x copy a).ReserveHolds bank x copy a := by
  have h := s.ddrRead_ddrWrite_self (reserveAt bank copy a) (bytesBE 16 (x.words.get a).toNat)
  rwa [length_bytesBE] at h

variable {s bank x}

/-- A word that a copy holds stays, whichever word is written next. -/
theorem Chip.ReserveHolds.writeWord {copy a k j : Nat} (h : s.ReserveHolds bank x copy a) (ha : a < 16384) (hj : j < 16384) :
    (s.reserveWriteWord bank x k j).ReserveHolds bank x copy a := by
  by_cases he : copy = k ∧ a = j
  · obtain ⟨rfl, rfl⟩ := he
    exact s.reserveWriteWord_holds bank x copy a
  · refine Eq.trans (s.ddrRead_ddrWrite_apart _ _ _ _ ?_) h
    rw [length_bytesBE]
    exact reserveAt_apart bank ha hj he

variable (s bank x)

theorem Chip.reserveWrite_holds {copy a : Nat} (hcopy : copy < 2) (ha : a < 16384) : (s.reserveWrite bank x).ReserveHolds bank x copy a := by
  rw [Chip.reserveWrite_eq]
  refine foldl_makes (fun u : Chip => u.ReserveHolds bank x copy a) (List.mem_range.mpr hcopy) (fun u => ?written) fun u k _ hu => ?kept
  case written =>
    exact foldl_makes (fun v : Chip => v.ReserveHolds bank x copy a) (List.mem_range.mpr ha)
      (fun v => v.reserveWriteWord_holds bank x copy a) fun v j hj hv => hv.writeWord ha (List.mem_range.mp hj)
  case kept =>
    exact List.foldlRecOn (motive := fun v : Chip => v.ReserveHolds bank x copy a) _ _ hu fun v hv j hj => hv.writeWord ha (List.mem_range.mp hj)

theorem Chip.reserveWrite_keeps : (s.reserveWrite bank x).patterns = s.patterns ∧ (s.reserveWrite bank x).regs = s.regs := by
  have hkeeps {β : Type} (g : Chip → β) (h : ∀ u copy a, g (u.reserveWriteWord bank x copy a) = g u) : g (s.reserveWrite bank x) = g s := by
    rw [Chip.reserveWrite_eq]
    exact foldl_keeps g (fun u copy => foldl_keeps g (fun v a => h v copy a) _ u) _ s
  exact ⟨hkeeps Chip.patterns fun _ _ _ => rfl, hkeeps Chip.regs fun _ _ _ => rfl⟩

end

/-! ### The checks of a load (R302) -/

section
variable {s : Chip}

theorem Chip.loadChecks_unfetched : s.loadChecks none = (1, false, {}, none) := rfl

variable (img : List Byte) (hsource : s.patterns.loader.source = 0)
include hsource

theorem Chip.loadChecks_bmeOff (hbme : (s.hif.eps.get s.patterns.loader.ep).bme = false) : s.loadChecks (some img) = (1, false, {}, none) := by
  unfold Chip.loadChecks
  simp only [hsource, hbme, Bool.not_false, if_true]

variable (hbme : (s.hif.eps.get s.patterns.loader.ep).bme = true)
include hbme

theorem Chip.loadChecks_badLength (hn : s.get Reg.CRU_LOAD_LEN 20 0 = 0 ∨ 1048576 < s.get Reg.CRU_LOAD_LEN 20 0) :
    s.loadChecks (some img) = (2, false, {}, none) := by
  unfold Chip.loadChecks
  simp only [hsource, hbme, Bool.not_true, Bool.false_eq_true, if_false, if_true]
  exact if_pos (by simpa using hn)

theorem Chip.loadChecks_checked (hpos : 0 < s.get Reg.CRU_LOAD_LEN 20 0) (hlen : s.get Reg.CRU_LOAD_LEN 20 0 ≤ 1048576) :
    let r := checkImage (s.store 32).contents (img.take (s.get Reg.CRU_LOAD_LEN 20 0))
    ∃ written, s.loadChecks (some img) = (r.1, decide (r.1 = 0), r.2, written) := by
  unfold Chip.loadChecks
  simp only [hsource, hbme, Bool.not_true, Bool.false_eq_true, if_false, if_true]
  exact ⟨_, if_neg (by simp only [Bool.or_eq_true, decide_eq_true_eq]; omega)⟩

end

section
variable {s : Chip} {img : Option (List Byte)} {r : Nat} {new : Contents} {written : Option (List Nat)}
  (hbusy : s.patterns.loader.busy = true) (hphase : s.patterns.loader.phase = 1)
include hbusy hphase

theorem loadChecked_refused (h : s.loadChecks img = (r, false, new, written)) : loadChecked img s = s.loadEnd r := by
  unfold loadChecked
  simp [hbusy, hphase, h]

theorem loadChecked_passes (h : s.loadChecks img = (r, true, new, written)) : loadChecked img s =
    (s.setLoader fun l => { l with phase := 3, new := new, written := written, status := r, done := 0, since := s.frc }).reserveWrite
      (1 - s.patterns.bank) new := by
  unfold loadChecked
  simp [hbusy, hphase, h]

/-- A load that passes its checks is kept in the bank not in use, and the crucibles have yet to take it (R303). -/
theorem loadChecked_reserves (h : s.loadChecks img = (r, true, new, written)) :
    (loadChecked img s).patterns.stores = s.patterns.stores ∧ (loadChecked img s).patterns.bank = s.patterns.bank ∧
    (loadChecked img s).patterns.loader.new = new ∧ (loadChecked img s).patterns.loader.phase = 3 ∧
    (loadChecked img s).patterns.loader.done = 0 ∧ (loadChecked img s).regs = s.regs ∧
    ∀ copy < 2, ∀ a < 16384, (loadChecked img s).ReserveHolds (1 - s.patterns.bank) new copy a := by
  obtain ⟨hpat, hregs⟩ := Chip.reserveWrite_keeps
    (s.setLoader fun l => { l with phase := 3, new := new, written := written, status := r, done := 0, since := s.frc }) (1 - s.patterns.bank) new
  rw [loadChecked_passes hbusy hphase h, hpat]
  exact ⟨rfl, rfl, rfl, rfl, rfl, hregs, fun copy hcopy a ha => Chip.reserveWrite_holds _ _ _ hcopy ha⟩

end

/-! ### Crucibles held (R304 to R307) -/

section
variable {s : Chip} {c : Cru}

/-- With no tree's timing running, every crucible's application point has come (R304). -/
theorem Chip.holdDue_stopped (h : ∀ t : Tree, (s.pon.pond.get t).timing = .stopped) (d : Nat) : s.holdDue d = true := by
  unfold Chip.holdDue
  simp [h]

/-- A routine in its prepare phase. -/
def Wait.prepares : Wait → Bool
  | .routine r => !r.commit
  | _ => false

/-- The abandonment of a crucible's thread t, if its routine is in its prepare phase. -/
def Chip.abandonPrepare (s : Chip) (c t : Nat) : Chip := if (s.thread c t).wait.prepares then s.abandon c t else s

theorem Chip.abandonAll_eq (c : Nat) : s.abandonAll c = (List.range 256).foldl (fun u t => u.abandonPrepare c t) s := by
  unfold Chip.abandonAll
  congr 1
  funext u t
  unfold Chip.abandonPrepare
  cases (u.thread c t).wait with
  | routine r => cases h : r.commit <;> simp [Wait.prepares, h]
  | _ => rfl

theorem Chip.abandon_patterns (c t : Nat) : (s.abandon c t).patterns = s.patterns := by
  unfold Chip.abandon
  cases (s.thread c t).reserved <;> rfl

theorem Chip.abandonAll_patterns (c : Nat) : (s.abandonAll c).patterns = s.patterns := by
  rw [Chip.abandonAll_eq]
  refine foldl_keeps Chip.patterns (fun u t => ?_) _ s
  unfold Chip.abandonPrepare
  split
  · exact u.abandon_patterns c t
  · rfl

theorem Chip.thread_abandon_self (c t : Nat) : (s.abandon c t).thread c t = { s.thread c t with state := stReady, wait := .none, readyFrom := s.frc } := by
  obtain ⟨hthreads, -⟩ := unreserve_keeps s (s.thread c t).reserved
  unfold Chip.abandon
  rw [Chip.thread_updThread_self, hthreads.thread_eq]

theorem Chip.thread_abandonPrepare_other {c t u : Nat} (h : u ≠ t) : (s.abandonPrepare c t).thread c u = s.thread c u := by
  obtain ⟨hthreads, -⟩ := unreserve_keeps s (s.thread c t).reserved
  unfold Chip.abandonPrepare
  split
  · refine (Chip.thread_updThread_other _ _ fun e => h ?_).trans (hthreads.thread_eq c u)
    exact Nat.add_left_cancel e
  · rfl

/-- A thread is READY, waits for nothing, and is at an instruction. -/
def Thread.ReadyAt (x : Thread) (ip : Nat) : Prop := x.state = stReady ∧ x.wait = .none ∧ x.ip = ip

/-- A routine held in its prepare phase is abandoned: its thread is READY at the instruction again (R294, R305). -/
theorem Chip.abandonAll_readies (c : Nat) {t : Nat} (ht : t < 256) (h : (s.thread c t).wait.prepares = true) :
    ((s.abandonAll c).thread c t).ReadyAt (s.thread c t).ip := by
  rw [Chip.abandonAll_eq]
  refine foldl_reaches (Q := fun u : Chip => u.thread c t = s.thread c t) (P := fun u : Chip => (u.thread c t).ReadyAt (s.thread c t).ip)
    (List.mem_range.mpr ht) rfl (fun u j _ hj hu => ?before) (fun u hu => ?abandoned) fun u j _ hu => ?after
  case before => exact (u.thread_abandonPrepare_other hj.symm).trans hu
  case abandoned =>
    rw [Chip.abandonPrepare, if_pos (hu ▸ h), Chip.thread_abandon_self, hu]
    exact ⟨rfl, rfl, rfl⟩
  case after =>
    by_cases hj : t = j
    · obtain ⟨-, hwait, -⟩ := id hu
      rwa [← hj, Chip.abandonPrepare, hwait, if_neg (by decide)]
    · rwa [u.thread_abandonPrepare_other hj]

/-- The part with a crucible's prepare phases abandoned, its hold noted, and its store as the load leaves it. -/
def Chip.heldFor (s : Chip) (c : Nat) (g : GateCru → GateCru) (x : ControlStore) : Chip :=
  (((s.abandonAll c).updGateCru c g).setStore c x).setLoader fun l => { l with done := l.done + 1, since := s.frc }

theorem Chip.heldFor_parts (d : Nat) (g : GateCru → GateCru) (x : ControlStore) : (s.heldFor d g x).cru = (s.abandonAll d).cru ∧
    (s.heldFor d g x).patterns = { s.patterns with
      stores := s.patterns.stores.set d x
      loader := { s.patterns.loader with done := s.patterns.loader.done + 1, since := s.frc } } := by
  obtain ⟨hgate, hpat⟩ := (s.abandonAll d).updGateCru_keeps d g
  obtain ⟨-, hstore, hpat'⟩ := Chip.setStore_keeps ((s.abandonAll d).updGateCru d g) d x
  obtain ⟨hloader, hpat''⟩ := Chip.setLoader_parts (((s.abandonAll d).updGateCru d g).setStore d x) fun l =>
    { l with done := l.done + 1, since := s.frc }
  rw [hpat', hpat, s.abandonAll_patterns d] at hpat''
  exact ⟨hloader.trans (hstore.trans hgate), hpat''⟩

theorem crucibleHold_due (hphase : s.patterns.loader.phase = 3) (hdone : s.patterns.loader.done = c.val) (hdue : s.holdDue c = true) :
    ∃ g x, x.contents = s.patterns.loader.new ∧ crucibleHold c s = (if c.val ≠ 32 then s.heldFor c g x else
      ((s.heldFor c g x).setBank (1 - (s.heldFor c g x).patterns.bank)).loadEnd s.patterns.loader.status) := by
  unfold crucibleHold
  dsimp only
  rw [if_neg (by simp [hphase, hdone, hdue])]
  exact ⟨_, _, rfl, rfl⟩

/-- A crucible whose turn has come takes the load. -/
theorem crucibleHold_takes (hphase : s.patterns.loader.phase = 3) (hdone : s.patterns.loader.done = c.val) (hdue : s.holdDue c = true) :
    (∃ x, x.contents = s.patterns.loader.new ∧ (crucibleHold c s).patterns.stores = s.patterns.stores.set c x) ∧
    (crucibleHold c s).patterns.loader.done = c.val + 1 ∧ (crucibleHold c s).cru = (s.abandonAll c).cru ∧
    (c.val = 32 → (crucibleHold c s).patterns.bank = 1 - s.patterns.bank ∧ (crucibleHold c s).patterns.loader.busy = false ∧
      (crucibleHold c s).patterns.loader.result = s.patterns.loader.status) := by
  obtain ⟨g, x, hx, heq⟩ := crucibleHold_due hphase hdone hdue
  obtain ⟨hcru, hpat⟩ := s.heldFor_parts c g x
  rw [heq]
  split
  next hmore =>
    rw [hcru, hpat]
    exact ⟨⟨x, hx, rfl⟩, congrArg (· + 1) hdone, rfl, fun hlast => absurd hlast hmore⟩
  next =>
    obtain ⟨hbank, hpat'⟩ := (s.heldFor c g x).setBank_parts (1 - (s.heldFor c g x).patterns.bank)
    obtain ⟨hend, -, hsame, -⟩ := ((s.heldFor c g x).setBank (1 - (s.heldFor c g x).patterns.bank)).loadEnd_parts s.patterns.loader.status
    rw [hend, hsame, hbank, hcru, hpat', hpat]
    exact ⟨⟨x, hx, rfl⟩, congrArg (· + 1) hdone, rfl, fun _ => ⟨rfl, rfl, rfl⟩⟩

end

/-! ### The start-up load (R309, R738) -/

section
variable {s : Chip}

/-- Every crucible's store set. -/
def Chip.fillStores (s : Chip) (x : ControlStore) : Chip := (List.range 33).foldl (fun u c => u.setStore c x) s

theorem Chip.store_fillStores (x : ControlStore) (c : Cru) : (s.fillStores x).store c = x :=
  foldl_makes (fun u : Chip => u.store c = x) (List.mem_range.mpr c.isLt) (fun u => u.store_setStore_self c x) fun u d _ hu => by
    by_cases h : c.val = d
    · rw [h, Chip.store_setStore_self]
    · rwa [u.store_setStore_other x h]

theorem Chip.fillStores_loader (x : ControlStore) : (s.fillStores x).patterns.loader = s.patterns.loader :=
  foldl_keeps (f := fun (u : Chip) c => u.setStore c x) (fun u => u.patterns.loader) (fun _ _ => rfl) _ s

/-- The loader after the start-up load has given a slot's contents to every crucible. -/
def bootLoader (slotB : Bool) (new : Contents) : Loader :=
  { source := if slotB then 2 else 1, boot := true, slotB := slotB, new := new, done := 33 }

/-- The start-up load ended at a RESULT, with the contents given out written to bank 0. -/
def Chip.bootEnded (s : Chip) (result : Nat) (new : Contents) : Chip := (((s.setBank 0).reserveWrite 0 new).loadEnd result).startStage 3

theorem Chip.startStage_patterns (n : Nat) : (s.startStage n).patterns = s.patterns := by
  unfold Chip.startStage
  split
  · rfl
  · rfl

theorem Chip.bootEnded_patterns (result : Nat) (new : Contents) : (s.bootEnded result new).patterns =
    { s.patterns with bank := 0, loader := s.patterns.loader.ended result } := by
  obtain ⟨-, hbank⟩ := s.setBank_parts 0
  obtain ⟨hreserve, -⟩ := (s.setBank 0).reserveWrite_keeps 0 new
  obtain ⟨hend, -⟩ := ((s.setBank 0).reserveWrite 0 new).loadEnd_parts result
  rw [Chip.bootEnded, Chip.startStage_patterns, hend, hreserve, hbank]

/-- The part after the start-up load from a slot that loads. -/
def Chip.booted (s : Chip) (slotB : Bool) (result : Nat) (new : Contents) : Chip :=
  ((s.setLoader fun _ => bootLoader slotB new).fillStores { contents := new }).bootEnded result new

theorem bootLoad_slotA (readB : Bool) (h : (s.checkSlot false).1 = true) :
    bootLoad true readB s = s.booted false (s.checkSlot false).2.1 (s.checkSlot false).2.2 := by
  unfold bootLoad Chip.booted Chip.bootEnded Chip.setBank Chip.fillStores bootLoader
  simp [h]

theorem bootLoad_slotB {readA : Bool} (ha : readA = false ∨ (s.checkSlot false).1 = false) (h : (s.checkSlot true).1 = true) :
    bootLoad readA true s = s.booted true (s.checkSlot true).2.1 (s.checkSlot true).2.2 := by
  have hrefused : (if readA then s.checkSlot false else (false, 1, {})).1 = false := by
    cases readA
    · rfl
    · simpa using ha
  unfold bootLoad Chip.booted Chip.bootEnded Chip.setBank Chip.fillStores bootLoader
  simp [hrefused, h]

theorem bootLoad_neither : (bootLoad false false s).patterns =
      { s.patterns with loader := { source := 2, boot := true, slotB := true, result := 1 } } ∧
    (bootLoad false false s).reg Reg.GLB_STARTUP = s.reg Reg.GLB_STARTUP := by
  have heq : bootLoad false false s = (s.setLoader fun _ => { source := 2, boot := true, slotB := true }).loadEnd 1 := by
    unfold bootLoad
    simp only [Bool.false_eq_true, if_false, Bool.not_false, if_true]
  obtain ⟨-, hset⟩ := s.setLoader_parts fun _ => { source := 2, boot := true, slotB := true }
  obtain ⟨hreg, -⟩ := s.setLoader_registers fun _ => { source := 2, boot := true, slotB := true }
  obtain ⟨hend, -, -, -, hregs⟩ := (s.setLoader fun _ => { source := 2, boot := true, slotB := true }).loadEnd_parts 1
  rw [heq, hend, hset]
  exact ⟨rfl, (hregs _ (by decide)).trans (hreg _)⟩

theorem Chip.booted_takes (slotB : Bool) (result : Nat) (new : Contents) :
    (∀ c : Cru, (s.booted slotB result new).store c = { contents := new }) ∧
    (s.booted slotB result new).patterns.loader = (bootLoader slotB new).ended result := by
  obtain ⟨-, hset⟩ := s.setLoader_parts fun _ => bootLoader slotB new
  have hpat := ((s.setLoader fun _ => bootLoader slotB new).fillStores { contents := new }).bootEnded_patterns result new
  refine ⟨fun c => ?_, ?_⟩
  · rw [Chip.store, Chip.booted, hpat]
    exact Chip.store_fillStores _ c
  · rw [Chip.booted, hpat, Chip.fillStores_loader, hset]

/-- A start-up load from a slot that loads gives its contents to every crucible, and start-up goes on. -/
theorem startupLoad_takes {readA readB slotB : Bool} {result : Nat} {new : Contents} (hstart : s.starting = true)
    (hboot : bootLoad readA readB s = s.booted slotB result new) :
    (∀ c : Cru, (startupLoad readA readB s).store c = { contents := new }) ∧
    (startupLoad readA readB s).patterns.loader = (bootLoader slotB new).ended result := by
  obtain ⟨hstores, hloader⟩ := s.booted_takes slotB result new
  have heq : startupLoad readA readB s = s.booted slotB result new := by
    unfold startupLoad
    rw [hboot, if_neg (by simp [hstart]), if_pos (by rw [hloader]; rfl)]
  rw [heq]
  exact ⟨hstores, hloader⟩

theorem startupLoad_failed {readA readB : Bool} (hstart : s.starting = true) (hdone : (bootLoad readA readB s).patterns.loader.done ≠ 33) :
    startupLoad readA readB s = startupFail 1 (bootLoad readA readB s) := by
  unfold startupLoad
  simp [hstart, hdone]

theorem Chip.linksUp_keeps : s.linksUp.patterns = s.patterns ∧ s.linksUp.regs = s.regs := ⟨rfl, rfl⟩

/-- Start-up under way ends with its cause (R738). -/
theorem startupFail_fails (code : Fin 4) (hstart : s.starting = true) : (startupFail code s).patterns = s.patterns ∧
    (startupFail code s).flag Reg.GLB_STARTUP 4 = true ∧ (startupFail code s).get Reg.GLB_STARTUP 15 8 = code.val + 1 := by
  let u := ((s.setFlag Reg.GLB_STARTUP 4 true).setField Reg.GLB_STARTUP 15 8 (code.val + 1)).setField Reg.GLB_STARTUP 63 32 s.startupMs
  have heq : startupFail code s = (u.raise Reg.GLB_OWN_EVENT 2).linksUp := by
    unfold startupFail
    rw [if_neg (by simp [hstart])]
  obtain ⟨hpat, hregs⟩ := (u.raise Reg.GLB_OWN_EVENT 2).linksUp_keeps
  have honly : RegsOnly s (u.raise Reg.GLB_OWN_EVENT 2) :=
    (((regsOnly_setReg s _ _).trans (regsOnly_setReg _ _ _)).trans (regsOnly_setReg _ _ _)).trans (regsOnly_raise _ _ _)
  have hreg : (startupFail code s).reg Reg.GLB_STARTUP = u.reg Reg.GLB_STARTUP := by
    rw [heq, Chip.reg, hregs]
    exact Chip.reg_setReg_other _ _ (by decide)
  refine ⟨?_, ?_, ?_⟩
  · rw [heq, hpat, honly.patterns_eq]
  · rw [Chip.flag, hreg, ← Chip.flag, Chip.flag_setField _ _ _ (by decide), if_neg (by decide), Chip.flag_setField _ _ _ (by decide),
      if_neg (by decide), Chip.flag_setFlag_self _ _ _ (by decide)]
  · rw [Chip.get, hreg, ← Chip.get, Chip.get_setField_field _ _ _ (by decide) (by decide), Chip.get_setField_self _ _ _ (by decide)]
    exact Nat.mod_eq_of_lt (by omega)

/-- With neither slot readable start-up fails for want of a pattern, and no store is written. -/
theorem startupLoad_neither (hstart : s.starting = true) : (startupLoad false false s).patterns.stores = s.patterns.stores ∧
    (startupLoad false false s).patterns.loader.result = 1 ∧ (startupLoad false false s).flag Reg.GLB_STARTUP 4 = true ∧
    (startupLoad false false s).get Reg.GLB_STARTUP 15 8 = 2 := by
  obtain ⟨hboot, hreg⟩ := bootLoad_neither (s := s)
  have hstarting : (bootLoad false false s).starting = true := by
    unfold Chip.starting Chip.flag at hstart ⊢
    rwa [hreg]
  obtain ⟨hpat, hflag, hcause⟩ := startupFail_fails 1 hstarting
  rw [startupLoad_failed hstart (by simp [hboot]), hpat, hboot]
  exact ⟨rfl, rfl, hflag, hcause⟩

end

/-! ### Words repaired (R315 to R318) -/

section
variable {s : Chip} {c word : Nat}

theorem Chip.reserveWord_first {bank : Nat} (h : s.copyReads bank 0 word = true) :
    s.reserveWord bank word = some (BitVec.ofNat 128 (numBE (s.ddrRead (reserveAt bank 0 word) 16))) := by
  unfold Chip.reserveWord
  rw [show List.range 2 = [0, 1] from rfl, List.find?_cons_of_pos (p := fun copy => s.copyReads bank copy word) h]
  rfl

/-- What the reserve holds does not rest on registers. -/
theorem RegsOnly.reserveWord_eq {u : Chip} (h : RegsOnly s u) (c word : Nat) :
    u.reserveWord (u.bankOf c) word = s.reserveWord (s.bankOf c) word := by
  rw [h]
  rfl

/-- The store of crucible c in y is that of s with a word sound again; every other store is as it was. -/
def Chip.Repaired (s y : Chip) (c word : Nat) (w : BitVec 128) : Prop :=
  (y.store c).contents.words.get word = w ∧ (y.store c).wrong.get word = 0 ∧ (y.store c).broken = (s.store c).broken.erase word ∧
  ∀ d, d ≠ c → y.store d = s.store d

/-- The part with a word of a crucible's store written anew, sound. -/
def Chip.withWord (s : Chip) (c word : Nat) (w : BitVec 128) : Chip := s.setStore c
  { contents := { (s.store c).contents with words := (s.store c).contents.words.set word w }
    wrong := (s.store c).wrong.set word 0
    broken := (s.store c).broken.erase word }

theorem Chip.repairWord_eq (reserveBad : Bool) : s.repairWord c word reserveBad =
    (if reserveBad then none else s.reserveWord (s.bankOf c) word).elim ((s.raise (Reg.CRU_UC_EVENT c) 2).crucibleGone c true)
      (s.withWord c word) := by
  unfold Chip.repairWord
  dsimp only
  cases (if reserveBad then none else s.reserveWord (s.bankOf c) word) with
  | none => rfl
  | some w => rfl

theorem Chip.repairWord_repairs {w : BitVec 128} (h : s.reserveWord (s.bankOf c) word = some w) :
    s.Repaired (s.repairWord c word false) c word w ∧ (s.repairWord c word false).regs = s.regs := by
  have heq : s.repairWord c word false = s.withWord c word w :=
    (Chip.repairWord_eq false).trans (congrArg (Option.elim · _ _) ((if_neg Bool.false_ne_true).trans h))
  rw [heq, Chip.withWord]
  refine ⟨⟨?_, ?_, ?_, fun d hd => s.store_setStore_other _ hd⟩, (s.setStore_keeps c _).1⟩
  · rw [Chip.store_setStore_self, Map.get_set_self]
  · rw [Chip.store_setStore_self, Map.get_set_self]
  · rw [Chip.store_setStore_self]

theorem Chip.ucUncorr_parts (engine : Nat) (scrub : Bool) : RegsOnly s (s.ucUncorr c word engine scrub) ∧
    (s.ucUncorr c word engine scrub).flag (Reg.CRU_UC_EVENT c) 1 = true :=
  ⟨((regsOnly_setReg s _ _).trans (regsOnly_bump _ _ _)).trans (regsOnly_raise _ _ _), Chip.flag_setFlag_self _ _ true (by decide)⟩

theorem csScrub_repairs {c : Cru} {word : Fin 16384} {w : BitVec 128} (h : s.reserveWord (s.bankOf c) word = some w) :
    s.Repaired (csScrub c word false s) c word w ∧ (csScrub c word false s).flag (Reg.CRU_UC_EVENT c) 1 = true := by
  obtain ⟨honly, hflag⟩ := s.ucUncorr_parts (c := c) (word := word) 31 true
  obtain ⟨hrepaired, hregs⟩ := Chip.repairWord_repairs ((honly.reserveWord_eq c word).trans h)
  refine ⟨?_, ?_⟩
  · unfold Chip.Repaired Chip.store at hrepaired ⊢
    rwa [honly.patterns_eq] at hrepaired
  · rw [Chip.flag, Chip.reg] at hflag ⊢
    rwa [csScrub, hregs]

end

/-- Settles O27: each step of a load as the loader's state decides it, the start-up load by the slot that passes, and a word's repair from the first
copy of the bank its crucible runs. -/
theorem patternsAreLoaded : Obligations.PatternsAreLoaded := by
  intro s hr l refused
  have hruns {i : Instr} {f : Chip → Chip} {y : Chip} (he : exec i s = s.core f) (hf : f s.chip = y) : Runs i s y := runs_of_core_eq he hr hf
  have hrefused {img : Option (List Byte)} {r : Nat} {new : Contents} {written : Option (List Nat)} (hbusy : l.busy = true) (hphase : l.phase = 1)
      (h : s.chip.loadChecks img = (r, false, new, written)) : refused img r := by
    obtain ⟨hpat, hddr, -, hflag, -⟩ := s.chip.loadEnd_parts r
    exact ⟨_, hruns rfl (loadChecked_refused hbusy hphase h), by rw [hpat], hddr, by rw [hpat]; rfl, hflag⟩
  refine ⟨fun e source => ?go, fun hbusy hphase => ⟨hrefused hbusy hphase Chip.loadChecks_unfetched,
      fun img hsource hbme => hrefused hbusy hphase (Chip.loadChecks_bmeOff img hsource hbme), fun img hsource hbme => ⟨fun hn =>
        hrefused hbusy hphase (Chip.loadChecks_badLength img hsource hbme hn), fun hpos hlen => ?checked⟩⟩,
    fun c hphase hdone hdue => ?hold, fun hstart => ?boot, fun c word hreads => ?repair⟩
  case go =>
    have hpat := s.chip.sourced_patterns source
    exact ⟨fun hidle => hruns rfl ((loadGo_eq _ e source).trans (Chip.loadStart_idle _ _ _ _ (hpat ▸ hidle))),
      fun hbusy => hruns rfl ((loadGo_eq _ e source).trans (Chip.loadStart_busy _ _ _ _ (hpat ▸ hbusy)))⟩
  case checked =>
    obtain ⟨written, hchecks⟩ := Chip.loadChecks_checked img hsource hbme hpos hlen
    refine ⟨fun hbad => ?_, fun hok => ?_⟩
    · rw [decide_eq_false hbad] at hchecks
      exact hrefused hbusy hphase hchecks
    · rw [decide_eq_true hok] at hchecks
      exact ⟨_, hruns rfl rfl, loadChecked_reserves hbusy hphase hchecks⟩
  case hold =>
    obtain ⟨⟨x, hx, hstores⟩, hnext, hcru, hlast⟩ := crucibleHold_takes hphase hdone (hdue.elim (fun h => Chip.holdDue_stopped h c) id)
    refine ⟨_, hruns rfl rfl, ?_, hnext, hlast, fun d hd => ?_, fun t ht r hwait hprepare => ?_⟩
    · rw [Chip.store, hstores, Map.get_set_self, hx]
    · rw [Chip.store, hstores]
      exact Map.get_set_other _ _ hd
    · have hready := s.chip.abandonAll_readies c ht (by rw [hwait, Wait.prepares, hprepare]; rfl)
      rw [Chip.thread, hcru]
      exact hready
  case boot =>
    refine ⟨fun readB ha => ?_, fun readA ha hb => ?_, ⟨_, hruns rfl rfl, startupLoad_neither hstart⟩⟩
    · obtain ⟨hstores, hloader⟩ := startupLoad_takes hstart (bootLoad_slotA readB ha)
      exact ⟨_, hruns rfl rfl, hstores, by rw [hloader]; rfl, by rw [hloader]; rfl, by rw [hloader]; rfl⟩
    · obtain ⟨hstores, hloader⟩ := startupLoad_takes hstart (bootLoad_slotB ha hb)
      exact ⟨_, hruns rfl rfl, hstores, by rw [hloader]; rfl⟩
  case repair =>
    intro w sound
    have hw := Chip.reserveWord_first hreads
    refine ⟨fun hbroken => ?_, ⟨_, hruns rfl rfl, csScrub_repairs hw⟩⟩
    exact ⟨_, hruns (i := .csRepair c word false) rfl (if_pos hbroken), Chip.repairWord_repairs hw⟩

end Sys2Proof.Machine
end

section
/-! Passes of a pipe half: what is restaged when an epoch drains, and how a half's one frame is parsed, looked up, forwarded, recirculated or shed
(R326 to R337, R344, R347, R349, R383). -/
namespace Sys2Proof.Machine
open Sys2Proof.Claim

/-! ### Epochs drained (R343, R344) -/

section
variable (s : Chip)

/-- Registers set one by one to their applied values. -/
theorem Chip.foldl_setReg_act (l : List Nat) : ∀ s : Chip, l.foldl (fun u a => u.setReg a (u.act a)) s =
    { s with regs := l.foldl (fun m a => m.put resetW a (s.act a)) s.regs } := by
  induction l with
  | nil => intro s; rfl
  | cons a l ih => intro s; exact ih _

theorem Chip.restage_eq (lo hi : Nat) :
    s.restage lo hi = { s with regs := (s.rangeKeys lo hi).foldl (fun m a => m.put resetW a (s.act a)) s.regs } := by
  have hkeys : s.restage lo hi = (s.rangeKeys lo hi).foldl (fun u a => u.setReg a (u.act a)) s := by
    simp only [Chip.restage, Chip.rangeKeys, List.filter_append, List.filter_map, List.filter_filter, Function.comp_def, Bool.and_comm]
  rw [hkeys, Chip.foldl_setReg_act]

theorem Chip.regsOnly_restage (lo hi : Nat) : RegsOnly s (s.restage lo hi) := by
  rw [RegsOnly, Chip.restage_eq]

/-- Every staged register of the range takes its applied value: one that neither table lists holds its reset value in both (R22). -/
theorem Chip.reg_restage (lo hi a : Nat) :
    (s.restage lo hi).reg a = if lo ≤ a ∧ a < hi ∧ stagedBits a ≠ 0 then s.act a else s.reg a := by
  rw [Chip.restage_eq, Chip.reg, Map.look_foldl_put]
  by_cases hkey : a ∈ s.rangeKeys lo hi
  · obtain ⟨h1, h2, h3, -⟩ := s.mem_rangeKeys.mp hkey
    rw [if_pos hkey, if_pos ⟨h1, h2, h3⟩]
  rw [if_neg hkey]
  split
  · next hin =>
    obtain ⟨h1, h2, h3⟩ := hin
    have hunlisted : ¬(a ∈ s.regs.map (·.1) ∨ a ∈ s.active.map (·.1)) := fun h => hkey (s.mem_rangeKeys.mpr ⟨h1, h2, h3, h⟩)
    obtain ⟨hregs, hactive⟩ := not_or.mp hunlisted
    rw [Chip.act, Map.look_unlisted _ _ hregs, Map.look_unlisted _ _ hactive]
  · rfl

/-- PRS's staged registers and tables hold their applied values again (R344). -/
def Chip.prsRestaged (s : Chip) : Chip := (s.restage 0xA00000 0xC00000).restage (cell 6 0) (cell 12 0)

theorem Chip.regsOnly_prsRestaged : RegsOnly s s.prsRestaged := (s.regsOnly_restage _ _).trans (Chip.regsOnly_restage _ _ _)

theorem Chip.reg_prsRestaged {a : Nat} (ha : (0xA00000 ≤ a ∧ a < 0xC00000) ∨ (cell 6 0 ≤ a ∧ a < cell 12 0)) (hstaged : stagedBits a ≠ 0) :
    s.prsRestaged.reg a = s.act a := by
  rw [Chip.prsRestaged, Chip.reg_restage, Chip.reg_restage]
  rcases ha with ⟨h1, h2⟩ | ⟨h1, h2⟩
  · rw [if_neg fun h => absurd (Nat.lt_of_le_of_lt h.1 h2) (by decide), if_pos ⟨h1, h2, hstaged⟩]
  · rw [if_pos ⟨h1, h2, hstaged⟩, Chip.act, Chip.act, s.regsOnly_restage]

variable {s}

theorem epochDrained_none (h : s.prs.draining = none) : epochDrained s = s := by
  rw [epochDrained, h]

theorem epochDrained_waits {e : Nat} (h : s.prs.draining = some e) (hn : s.inFlight e ≠ 0) : epochDrained s = s := by
  simp only [epochDrained, h, if_pos hn]

theorem epochDrained_ends {e : Nat} (h : s.prs.draining = some e) (hn : s.inFlight e = 0) : epochDrained s =
    ((s.prsRestaged.goDone Reg.PRS_COMMIT).raise Reg.PRS_EVENT 7).updPrs fun p => { p with draining := none, old := [] } := by
  simp only [epochDrained, h, if_neg (not_not_intro hn), Chip.prsRestaged]

/-- The end of a drain: PENDING clears, DRAINED sets, and the staged values are the applied ones. -/
theorem epochDrained_parts {e : Nat} (h : s.prs.draining = some e) (hn : s.inFlight e = 0) : (epochDrained s).flag Reg.PRS_COMMIT 1 = false ∧
    (epochDrained s).flag Reg.PRS_EVENT 7 = true ∧ (epochDrained s).prs = { s.prs with draining := none, old := [] } ∧
    (epochDrained s).active = s.active ∧
    ∀ a, (0xA00000 ≤ a ∧ a < 0xC00000) ∨ (cell 6 0 ≤ a ∧ a < cell 12 0) → stagedBits a ≠ 0 → (epochDrained s).reg a = s.act a := by
  have honly := s.regsOnly_prsRestaged
  rw [epochDrained_ends h hn]
  refine ⟨?_, Chip.flag_setFlag_self _ _ true (by decide), ?_, ?_, fun a ha hstaged => ?_⟩
  · exact (Chip.flag_setFlag_reg _ 1 7 true (by decide)).trans (Chip.flag_goDone _ _)
  · rw [honly]; rfl
  · rw [honly]; rfl
  · have hevent : a ≠ Reg.PRS_EVENT := fun e => hstaged (e ▸ rfl)
    have hcommit : a ≠ Reg.PRS_COMMIT := fun e => hstaged (e ▸ rfl)
    exact (Chip.reg_setReg_other _ _ hevent).trans ((Chip.reg_setReg_other _ _ hcommit).trans (s.reg_prsRestaged ha hstaged))

end

/-! ### Rule results and lookups (R336, R337, R347, R365, R383) -/

section
variable {s : Chip} {half bd : Nat} {f : PipeFrame} {faults : LookupFaults} {again : Bool}

theorem Chip.fwdFrame_separated (h : bit (s.reg (Cell.fwdBd (s.bridgeOf f))) 35 = false) :
    s.fwdFrame half f faults again = (none, s.fwdDrop f Reg.FWD_SEP_DROP (some 5)) := by
  simp only [Chip.fwdFrame, h, Bool.not_false, if_true]

theorem Chip.fwdFrame_l2 (h : bit (s.reg (Cell.fwdBd (s.bridgeOf f))) 35 = true)
    (hl2 : fld (s.act (Cell.fwdProfileCtrl f.profile)) 1 0 = 0 ∨ (again && f.extL2) = true) :
    s.fwdFrame half f faults again = s.l2Stage half f (s.bridgeOf f) faults again := by
  have htest : (decide (fld (s.act (Cell.fwdProfileCtrl f.profile)) 1 0 = 0) || (again && f.extL2)) = true := by simpa using hl2
  rw [Chip.fwdFrame, h, if_neg (by decide), if_pos htest]

theorem Chip.fwdFrame_flow (h : bit (s.reg (Cell.fwdBd (s.bridgeOf f))) 35 = true)
    (hmode : fld (s.act (Cell.fwdProfileCtrl f.profile)) 1 0 ≠ 0) (hflow : f.extL2 = false) :
    s.fwdFrame half f faults again = s.flowStage half f (s.bridgeOf f) faults again := by
  simp [Chip.fwdFrame, h, hmode, hflow]

theorem Chip.takeAction_slow (h : f.action = 0) : s.takeAction half f faults = (none, s.slowFrame half f (fld f.result 6 2)) := by
  simp only [Chip.takeAction, h]

theorem Chip.takeAction_forward (h : f.action = 1) : s.takeAction half f faults = s.fwdFrame half f faults false := by
  simp only [Chip.takeAction, h]

theorem Chip.takeAction_drop (h : f.action = 2) : s.takeAction half f faults = (none, s.pipeDrop f) := by
  simp only [Chip.takeAction, h]

theorem Chip.takeAction_loop (h : f.action = 3) (hpasses : f.passes = 2) :
    s.takeAction half f faults = (none, ((s.bump Reg.PRS_LOOP).raise Reg.PRS_EVENT 3).slowFrame half f 9) := by
  simp only [Chip.takeAction, h, if_pos hpasses]

theorem Chip.takeAction_recirculates (h : f.action = 3) (hpasses : f.passes ≠ 2) : s.takeAction half f faults =
    (some { f with stage := .recirc, node := fld f.result 14 7, offset := fld f.result 23 15, profile := fld f.result 27 24 }, s) := by
  simp only [Chip.takeAction, h, if_neg hpasses]

/-! ### A pass (R331 to R333) -/

theorem Chip.runPass_malformedDropped (hbad : (s.parse f).2.malformed = true) (hslow : (s.parse f).2.toSlow = false) :
    s.runPass half f faults = (none, ((s.bump Reg.PRS_MALFORMED).raise Reg.PRS_EVENT 0).pipeDrop (s.parse f).1) := by
  simp only [Chip.runPass, hbad, hslow, if_true, Bool.false_eq_true, if_false]

theorem Chip.runPass_malformedSlow (hbad : (s.parse f).2.malformed = true) (hslow : (s.parse f).2.toSlow = true) :
    s.runPass half f faults = (none, ((s.bump Reg.PRS_MALFORMED).raise Reg.PRS_EVENT 0).slowFrame half (s.parse f).1 5) := by
  simp only [Chip.runPass, hbad, hslow, if_true]

theorem Chip.runPass_deep {l : PipeFrame × Chip} (hok : (s.parse f).2.malformed = false) (hdepth : (s.parse f).2.depth = true)
    (hl : s.ruleLookup (s.parse f).1 faults.rule = l) :
    s.runPass half f faults = (none, ((l.2.bump Reg.PRS_DEPTH).raise Reg.PRS_EVENT 1).slowFrame half l.1 4) := by
  simp only [Chip.runPass, hok, hdepth, hl, if_true, Bool.false_eq_true, if_false]

theorem Chip.runPass_acts {l : PipeFrame × Chip} (hok : (s.parse f).2.malformed = false) (hdepth : (s.parse f).2.depth = false)
    (hfrag : (s.parse f).2.fragment = false) (hl : s.ruleLookup (s.parse f).1 faults.rule = l) :
    s.runPass half f faults = l.2.takeAction half l.1 faults := by
  simp only [Chip.runPass, hok, hdepth, hfrag, hl, Bool.false_and, Bool.false_eq_true, if_false]

end

/-! ### A half with one frame (R342, R349, R384) -/

section
variable {s u : Chip} {half : Nat} {f : PipeFrame} {left : Option PipeFrame} {faults : LookupFaults}

theorem Chip.onFrame_empty (sel : PipeFrame → Bool) (act : PipeFrame → Option PipeFrame × Chip) (h : s.prs.pipes.get half = []) :
    s.onFrame half sel act = s := by
  simp only [Chip.onFrame, h, List.findIdx?_nil]

theorem pipeEntry_empty (h : s.prs.pipes.get half = []) : pipeEntry half faults s = s := by
  rw [pipeEntry, Chip.onFrame_empty _ _ h]

/-- What a step leaves of a half's one frame is put back, and the slow-path frame is released that no other holds back (R384). -/
theorem Chip.onFrame_single {sel : PipeFrame → Bool} {act : PipeFrame → Option PipeFrame × Chip} (h : s.prs.pipes.get half = [f])
    (hsel : sel f = true) (hact : act f = (left, u)) : s.onFrame half sel act = (u.putBack half 0 left).releaseSlow half 1 := by
  have hidx : [f].findIdx? sel = some 0 := by rw [List.findIdx?_cons, hsel, if_pos rfl]
  have hnth : nth [f] 0 = f := rfl
  simp only [Chip.onFrame, h, hidx, hnth, hact, List.length_singleton]

/-- A half's one frame begins its first pass: line traffic or not, no other goes before it (R49). -/
theorem pipeEntry_single (h : s.prs.pipes.get half = [f]) (hstage : f.stage = .first) (hdirect : f.direct = none)
    (hrun : s.runPass half { s.atSource f with epoch := s.prs.epoch } faults = (left, u)) :
    pipeEntry half faults s = (u.putBack half 0 left).releaseSlow half 1 := by
  have hsel : (decide (f.stage = .first) && (!([f].any fun f => f.stage = .first && f.srcKind < 2) || decide (f.srcKind < 2))) = true := by
    rw [List.any_cons, List.any_nil, hstage, decide_eq_true rfl, Bool.true_and, Bool.or_false, Bool.true_and, Bool.not_or_self]
  rw [pipeEntry, h]
  refine Chip.onFrame_single h hsel ?_
  rw [hdirect]
  exact hrun

theorem recircPass_single (h : s.prs.pipes.get half = [f]) (hstage : f.stage = .recirc)
    (hrun : (s.bump Reg.PRS_RECIRC).runPass half { f with passes := f.passes + 1, stage := .first } faults = (left, u)) :
    recircPass half faults s = (u.putBack half 0 left).releaseSlow half 1 :=
  Chip.onFrame_single h (decide_eq_true hstage) hrun

theorem recircShed_single (h : s.prs.pipes.get half = [f]) (hstage : f.stage = .recirc) : recircShed half s =
    ((((s.bump Reg.PRS_RECIRC_SHED).raise Reg.PRS_EVENT 4).slowFrame half f 10).putBack half 0 none).releaseSlow half 1 :=
  Chip.onFrame_single h (decide_eq_true hstage) rfl

theorem extLookup_single (h : s.prs.pipes.get half = [f]) (hstage : f.stage = .ext) (hfwd : s.fwdFrame half f faults true = (left, u)) :
    extLookup half faults s = (u.putBack half 0 left).releaseSlow half 1 :=
  Chip.onFrame_single h (decide_eq_true hstage) hfwd

end

/-- Settles O37: a half with one frame takes one step, which is the frame's pass, its shedding or its lookup in the extension; a pass is decided by the walk
and then by the rule's action. -/
theorem framesAreParsedAndActedOn : Obligations.FramesAreParsedAndActedOn := by
  intro s half faults hr c
  have hruns {i : Instr} {f : Chip → Chip} {y : Chip} (he : exec i s = s.core f) (hf : f c = y) : Runs i s y := runs_of_core_eq he hr hf
  refine ⟨fun h => hruns rfl (epochDrained_none h), fun e h hn => hruns rfl (epochDrained_waits h hn),
    fun e h hn => ⟨_, hruns rfl rfl, epochDrained_parts h hn⟩, fun h => ?empty, fun f h hstage hdirect => ?first,
    fun f h hstage => ?recirc, fun f h hstage => ?ext⟩
  case empty =>
    exact ⟨hruns rfl (pipeEntry_empty h), hruns rfl (Chip.onFrame_empty _ _ h), hruns rfl (Chip.onFrame_empty _ _ h),
      hruns rfl (Chip.onFrame_empty _ _ h)⟩
  case first =>
    intro g p w l
    have hpass {left : Option PipeFrame} {u : Chip} (hrun : c.runPass half g faults = (left, u)) :
        Runs (.pipeEntry half faults) s ((u.putBack half 0 left).releaseSlow half 1) := hruns rfl (pipeEntry_single h hstage hdirect hrun)
    refine ⟨fun hbad hslow => hpass (Chip.runPass_malformedDropped hbad hslow), fun hbad hslow => hpass (Chip.runPass_malformedSlow hbad hslow),
      fun hok hdepth => hpass (Chip.runPass_deep hok hdepth rfl), fun hok hdepth hfrag => ?acts⟩
    have hact {left : Option PipeFrame} {u : Chip} (haction : l.2.takeAction half l.1 faults = (left, u)) :
        Runs (.pipeEntry half faults) s ((u.putBack half 0 left).releaseSlow half 1) :=
      hpass ((Chip.runPass_acts hok hdepth hfrag rfl).trans haction)
    exact ⟨fun h0 => hact (Chip.takeAction_slow h0),
      fun h1 hbd => hact ((Chip.takeAction_forward h1).trans (Chip.fwdFrame_separated hbd)),
      fun h1 hbd hmode => hact ((Chip.takeAction_forward h1).trans (Chip.fwdFrame_l2 hbd (.inl hmode))),
      fun h2 => hact (Chip.takeAction_drop h2),
      fun h3 hpasses => hact (Chip.takeAction_loop h3 hpasses),
      fun h3 hpasses => hact (Chip.takeAction_recirculates h3 hpasses)⟩
  case recirc =>
    exact ⟨hruns rfl (recircShed_single h hstage), hruns rfl (recircPass_single h hstage rfl), Chip.runPass_malformedDropped⟩
  case ext =>
    intro bd
    have hlookup {left : Option PipeFrame} {u : Chip} (hfwd : c.fwdFrame half f faults true = (left, u)) :
        Runs (.extLookup half faults) s ((u.putBack half 0 left).releaseSlow half 1) := hruns rfl (extLookup_single h hstage hfwd)
    exact ⟨fun hbd => hlookup (Chip.fwdFrame_separated hbd), fun hbd hl2 => hlookup (Chip.fwdFrame_l2 hbd hl2),
      fun hbd hmode hflow => hlookup (Chip.fwdFrame_flow hbd hmode hflow)⟩

end Sys2Proof.Machine
end

section
/-! Commands on the rule banks: how one begins and ends, what it looks at, and what CLEAR and COPY leave of the banks (R338, R339, R341). -/
namespace Sys2Proof.Machine
open Sys2Proof.Claim

/-! ### Tables filtered and copied -/

section
variable {α : Type}

/-- A table kept by its keys only: a key that is kept reads as before, another its default. -/
theorem Map.look_filter_keys (d : Nat → α) (q : Nat → Bool) (m : Map α) (k : Nat) :
    Map.look d (m.filter fun e => q e.1 : Map α) k = if q k then m.look d k else d k := by
  induction m with
  | nil => exact (ite_self _).symm
  | cons e m ih =>
    obtain ⟨j, v⟩ := e
    cases hq : q j with
    | true =>
      rw [List.filter_cons_of_pos (p := fun e : Nat × α => q e.1) hq, Map.look, Map.look, ih]
      split
      · next hj => rw [← hj, hq, if_pos rfl]
      · rfl
    | false =>
      rw [List.filter_cons_of_neg (p := fun e : Nat × α => q e.1) (Bool.eq_false_iff.mp hq), ih]
      split
      · next hk =>
        have hj : j ≠ k := fun e => Bool.false_ne_true (hq.symm.trans (e ▸ hk))
        rw [Map.look, if_neg hj]
      · rfl

variable [DecidableEq α]

theorem Map.wfFrom_le (d : Nat → α) (m : Map α) : ∀ lo, Map.wfFrom d lo m = true → ∀ e ∈ m, lo ≤ e.1 := by
  induction m with
  | nil => intro lo _ e he; cases he
  | cons x m ih =>
    intro lo h e he
    simp only [Map.wfFrom, Bool.and_eq_true, decide_eq_true_eq] at h
    obtain ⟨hlo, -, hm⟩ := h
    rcases List.mem_cons.mp he with rfl | he
    · exact hlo
    · exact Nat.le_trans (Nat.le_succ_of_le hlo) (ih _ hm e he)

variable [Inhabited α]

/-- The entries of m put into n, each at the key that g makes of its own. -/
def Map.copied (g : Nat → Nat) (m n : Map α) : Map α := m.foldl (fun n e => n.set (g e.1) e.2) n

theorem Map.get_copied_other (g : Nat → Nat) {m n : Map α} {k : Nat} (h : ∀ e ∈ m, g e.1 ≠ k) : (m.copied g n).get k = n.get k :=
  List.foldlRecOn (motive := fun x : Map α => x.get k = n.get k) m _ rfl fun x hx e he => (Map.get_set_other x _ (h e he).symm).trans hx

/-- Where n holds nothing, what g makes of a key reads what m holds at the key. -/
theorem Map.get_copied (g : Nat → Nat) {k : Nat} (m : Map α) : ∀ (n : Map α) (lo : Nat), Map.wfFrom (fun _ => default) lo m = true →
    (∀ e ∈ m, e.1 ≠ k → g e.1 ≠ g k) → n.get (g k) = default → (m.copied g n).get (g k) = m.get k := by
  induction m with
  | nil => intro n lo _ _ hn; exact hn
  | cons e m ih =>
    obtain ⟨j, v⟩ := e
    intro n lo hwf hinj hn
    simp only [Map.wfFrom, Bool.and_eq_true, decide_eq_true_eq] at hwf
    obtain ⟨-, -, hm⟩ := hwf
    have hinjm : ∀ e ∈ m, e.1 ≠ k → g e.1 ≠ g k := fun e he => hinj e (List.mem_cons_of_mem _ he)
    change Map.get (Map.copied g m (n.set (g j) v)) (g k) = _
    change _ = if j = k then v else Map.get m k
    split
    · next hj =>
      subst hj
      rw [Map.get_copied_other g fun e he => hinjm e he (Nat.ne_of_gt (Map.wfFrom_le _ m _ hm e he)), Map.get_set_self]
    · next hj =>
      exact ih _ _ hm hinjm ((Map.get_set_other n v (hinj _ List.mem_cons_self hj).symm).trans hn)

end

/-! ### A command begun and ended (R339) -/

/-- PRS_RS_CMD as a command begins: OP, BANK and DST as written, and RUNNING set. -/
def Chip.rsBegun (s : Chip) (op bank dst : Nat) : Chip :=
  (s.setField Reg.PRS_RS_CMD 8 0 (op + bank <<< 3 + dst <<< 6)).setFlag Reg.PRS_RS_CMD 10 true

/-- A command waits with the status that it will show. -/
def Chip.rsEnded (s : Chip) (st : Nat) : Chip := s.updPrs fun p => { p with command := some st }

section
variable {s u : Chip} {op bank dst st : Nat} {run : Chip → Nat × Chip}

theorem Chip.rsCmd_busy (h : s.prs.command.isSome = true) : s.rsCmd op bank dst run = s.raise Reg.PRS_EVENT 6 := if_pos h

theorem Chip.rsCmd_idle (h : s.prs.command = none) (hrun : run (s.rsBegun op bank dst) = (st, u)) : s.rsCmd op bank dst run = u.rsEnded st := by
  rw [Chip.rsBegun] at hrun
  simp only [Chip.rsCmd, h, Option.isSome_none, Bool.false_eq_true, if_false, hrun, Chip.rsEnded]

theorem Chip.rsBegun_parts : (s.rsBegun op bank dst).prs = s.prs ∧ (s.rsBegun op bank dst).active = s.active := ⟨rfl, rfl⟩

theorem Chip.reg_rsBegun {a : Nat} (h : a ≠ Reg.PRS_RS_CMD) : (s.rsBegun op bank dst).reg a = s.reg a :=
  (Chip.reg_setReg_other _ _ h).trans (Chip.reg_setReg_other _ _ h)

@[simp] theorem Chip.result_rsBegun : (s.rsBegun op bank dst).reg Reg.PRS_RS_RESULT = s.reg Reg.PRS_RS_RESULT := Chip.reg_rsBegun (by decide)

@[simp] theorem Chip.rsKey_rsBegun : (s.rsBegun op bank dst).rsKey = s.rsKey := by
  have hkey (i : Nat) : (s.rsBegun op bank dst).reg (Reg.PRS_RS_KEYk i) = s.reg (Reg.PRS_RS_KEYk i) :=
    Chip.reg_rsBegun (by unfold Reg.PRS_RS_KEYk Reg.PRS_RS_CMD; omega)
  simp only [Chip.rsKey, hkey]

@[simp] theorem Chip.findRule_rsBegun (b key : Nat) : (s.rsBegun op bank dst).findRule b key = s.findRule b key := rfl

@[simp] theorem Chip.bankInUse_rsBegun (b : Nat) : (s.rsBegun op bank dst).bankInUse b = s.bankInUse b := rfl

/-! ### FIND, INSERT and DELETE (R338, R341) -/

theorem rsFind_missing (h : s.prs.command = none) (hfind : s.findRule bank s.rsKey = none) :
    rsFind bank dst s = (s.rsBegun 0 bank dst).rsEnded 3 := Chip.rsCmd_idle h (by simp [hfind])

theorem rsFind_found {p : Nat × Nat} (h : s.prs.command = none) (hfind : s.findRule bank s.rsKey = some p) : rsFind bank dst s =
    ((s.rsBegun 0 bank dst).setReg Reg.PRS_RS_RESULT (s.prs.rules.get (rulePlace bank p.1 p.2)).result).rsEnded 0 :=
  Chip.rsCmd_idle h (by simp [hfind, Chip.rsBegun_parts])

theorem rsInsert_reserved (h : s.prs.command = none) (hres : reservedResult (s.reg Reg.PRS_RS_RESULT) = true) :
    rsInsert bank dst s = (s.rsBegun 1 bank dst).rsEnded 5 := Chip.rsCmd_idle h (by simp [hres])

theorem rsInsert_inUse (h : s.prs.command = none) (hres : reservedResult (s.reg Reg.PRS_RS_RESULT) = false) (huse : s.bankInUse bank = true) :
    rsInsert bank dst s = (s.rsBegun 1 bank dst).rsEnded 4 := Chip.rsCmd_idle h (by simp [hres, huse])

section
variable (h : s.prs.command = none) (hres : reservedResult (s.reg Reg.PRS_RS_RESULT) = false) (huse : s.bankInUse bank = false)
include h hres huse

theorem rsInsert_present (hfind : (s.findRule bank s.rsKey).isSome = true) : rsInsert bank dst s = (s.rsBegun 1 bank dst).rsEnded 2 :=
  Chip.rsCmd_idle h (by simp [hres, huse, hfind])

theorem rsInsert_full (hfind : s.findRule bank s.rsKey = none)
    (hfull : (s.rsBegun 1 bank dst).insertRule bank s.rsKey (s.reg Reg.PRS_RS_RESULT) = none) :
    rsInsert bank dst s = (s.rsBegun 1 bank dst).rsEnded 1 := Chip.rsCmd_idle h (by simp [hres, huse, hfind, hfull])

theorem rsInsert_inserted (hfind : s.findRule bank s.rsKey = none)
    (hins : (s.rsBegun 1 bank dst).insertRule bank s.rsKey (s.reg Reg.PRS_RS_RESULT) = some u) :
    rsInsert bank dst s = u.rsEnded 0 := Chip.rsCmd_idle h (by simp [hres, huse, hfind, hins])

end

/-- A rule goes to the first slot of its first bucket while that slot is free (R377). -/
theorem Chip.insertRule_firstSlot {key : Nat} {result : W64} (h : (s.prs.rules.get (rulePlace bank (ruleBuckets key).1 0)).valid = false) :
    s.insertRule bank key result = some (s.setRule bank ((ruleBuckets key).1, 0) { key := key, result := result, valid := true }) := by
  have hfree {other : Nat → Nat → Option Nat} {a : Nat} (h0 : other a 0 = none) (b depth : Nat) : insertPlan other a b depth = some ([], (a, 0)) := by
    have : freeIn other a = some 0 := List.find?_range_eq_some.mpr ⟨by rw [h0]; rfl, by decide, fun j hj => absurd hj (Nat.not_lt_zero j)⟩
    rw [insertPlan, this]
  rw [Chip.insertRule]
  dsimp only
  rw [hfree (by rw [h]; rfl)]
  rfl

theorem rsDelete_inUse (h : s.prs.command = none) (huse : s.bankInUse bank = true) : rsDelete bank dst s = (s.rsBegun 2 bank dst).rsEnded 4 :=
  Chip.rsCmd_idle h (by simp [huse])

theorem rsDelete_missing (h : s.prs.command = none) (huse : s.bankInUse bank = false) (hfind : s.findRule bank s.rsKey = none) :
    rsDelete bank dst s = (s.rsBegun 2 bank dst).rsEnded 3 := Chip.rsCmd_idle h (by simp [huse, hfind])

theorem rsDelete_deleted {p : Nat × Nat} (h : s.prs.command = none) (huse : s.bankInUse bank = false) (hfind : s.findRule bank s.rsKey = some p) :
    rsDelete bank dst s = ((s.rsBegun 2 bank dst).setRule bank p {}).rsEnded 0 := Chip.rsCmd_idle h (by simp [huse, hfind])

/-! ### CLEAR and COPY (R339, R341) -/

/-- A bank emptied. -/
def Chip.cleared (s : Chip) (bank : Nat) : Chip := s.updPrs fun p => { p with rules := p.rules.filter fun e => e.1 / 16384 ≠ bank }

theorem rsClear_inUse (h : s.prs.command = none) (huse : s.bankInUse bank = true) : rsClear bank dst s = (s.rsBegun 3 bank dst).rsEnded 4 :=
  Chip.rsCmd_idle h (by simp [huse])

theorem rsClear_clears (h : s.prs.command = none) (huse : s.bankInUse bank = false) :
    rsClear bank dst s = ((s.rsBegun 3 bank dst).cleared bank).rsEnded 0 := Chip.rsCmd_idle h (by simp [huse, Chip.cleared])

/-- A place lies in the bank that its number names (R334). -/
theorem inBank_eq {b k : Nat} : (decide (b * 16384 ≤ k) && decide (k < (b + 1) * 16384)) = decide (k / 16384 = b) := by
  rw [← Bool.decide_and, decide_eq_decide]
  omega

theorem Chip.bankRules_eq (b : Nat) : s.bankRules b = s.prs.rules.filter fun e => decide (e.1 / 16384 = b) := by
  simp only [Chip.bankRules, inBank_eq]

theorem Chip.bankRules_cleared_self : (s.cleared bank).bankRules bank = [] := by
  rw [Chip.bankRules_eq]
  simp [Chip.cleared, Chip.updPrs]

theorem Chip.bankRules_cleared_other {b : Nat} (hb : b ≠ bank) : (s.cleared bank).bankRules b = s.bankRules b := by
  rw [Chip.bankRules_eq, Chip.bankRules_eq, Chip.cleared, Chip.updPrs, List.filter_filter]
  refine List.filter_congr fun e _ => ?_
  by_cases he : e.1 / 16384 = b
  · simp [he, hb]
  · simp [he]

theorem Chip.get_bankRules {b k : Nat} (hk : k / 16384 = b) : (s.bankRules b).get k = s.prs.rules.get k := by
  rw [Chip.bankRules_eq]
  exact (Map.look_filter_keys _ (fun j => decide (j / 16384 = b)) s.prs.rules k).trans (if_pos (decide_eq_true hk))

theorem Chip.rules_cleared (k : Nat) : (s.cleared bank).prs.rules.get k = if k / 16384 ≠ bank then s.prs.rules.get k else default :=
  (Map.look_filter_keys _ (fun j => decide (j / 16384 ≠ bank)) s.prs.rules k).trans (by simp only [decide_eq_true_eq]; rfl)

/-- The place that a rule at place k of its own bank takes in bank DST (R339). -/
def copyPlace (dst k : Nat) : Nat := dst * 16384 + k % 16384

/-- Bank DST takes the rules of bank BANK, each at its own place. -/
def Chip.bankCopied (s : Chip) (bank dst : Nat) : Chip :=
  (s.cleared dst).updPrs fun p => { p with rules := Map.copied (copyPlace dst) (s.bankRules bank) p.rules }

theorem rsCopy_inUse (h : s.prs.command = none) (huse : s.bankInUse dst = true) : rsCopy bank dst s = (s.rsBegun 4 bank dst).rsEnded 4 :=
  Chip.rsCmd_idle h (by simp [huse])

theorem rsCopy_copies (h : s.prs.command = none) (huse : s.bankInUse dst = false) :
    rsCopy bank dst s = ((s.rsBegun 4 bank dst).bankCopied bank dst).rsEnded 0 :=
  Chip.rsCmd_idle h (by simp [huse, Chip.bankCopied, Chip.cleared, Map.copied, copyPlace])

theorem Chip.rules_bankCopied_other {k : Nat} (hk : k / 16384 ≠ dst) : (s.bankCopied bank dst).prs.rules.get k = s.prs.rules.get k := by
  have hcopied : (s.bankCopied bank dst).prs.rules.get k = (s.cleared dst).prs.rules.get k :=
    Map.get_copied_other (copyPlace dst) fun e _ => by unfold copyPlace; omega
  rw [hcopied, Chip.rules_cleared, if_pos hk]

theorem Chip.rules_bankCopied {k : Nat} (hcanon : s.prs.rules.canon = true) (hk : k < 16384) :
    (s.bankCopied bank dst).prs.rules.get (dst * 16384 + k) = s.prs.rules.get (bank * 16384 + k) := by
  have hplace : copyPlace dst (bank * 16384 + k) = dst * 16384 + k := by unfold copyPlace; omega
  have hempty : (s.cleared dst).prs.rules.get (copyPlace dst (bank * 16384 + k)) = default := by
    rw [Chip.rules_cleared, if_neg (by omega)]
  have hapart : ∀ e ∈ s.bankRules bank, e.1 ≠ bank * 16384 + k → copyPlace dst e.1 ≠ copyPlace dst (bank * 16384 + k) := by
    intro e he hne
    rw [Chip.bankRules_eq] at he
    have hbank : e.1 / 16384 = bank := of_decide_eq_true (List.mem_filter.mp he).2
    unfold copyPlace
    omega
  have hcopied := Map.get_copied (copyPlace dst) (s.bankRules bank) _ 0 (Map.wfFrom_filter _ _ _ 0 hcanon) hapart hempty
  rw [hplace, Chip.get_bankRules (by omega)] at hcopied
  exact hcopied

/-! ### The end of a command (R339) -/

theorem rsCmdDone_idle (h : s.prs.command = none) : rsCmdDone s = s := by
  rw [rsCmdDone, h]

theorem rsCmdDone_parts (h : s.prs.command = some st) : (rsCmdDone s).get Reg.PRS_RS_CMD 18 16 = st % 8 ∧
    (rsCmdDone s).flag Reg.PRS_RS_CMD 10 = false ∧ (rsCmdDone s).prs = { s.prs with command := none } ∧
    ∀ a, a ≠ Reg.PRS_RS_CMD → (rsCmdDone s).reg a = s.reg a := by
  rw [rsCmdDone, h]
  refine ⟨?_, Chip.flag_setFlag_self _ _ false (by decide), rfl, fun a ha => ?_⟩
  · exact (Chip.get_setFlag_bit _ _ false (by decide) (by decide)).trans (Chip.get_setField_self _ _ st (by decide))
  · exact (Chip.reg_setReg_other _ _ ha).trans (Chip.reg_setReg_other _ _ ha)

end

/-- Settles O38: one command runs at a time, each ends with the status of its own case, CLEAR and COPY by what they leave of each bank's entries. -/
theorem ruleBankCommandsRun : Obligations.RuleBankCommandsRun := by
  intro s bank dst hr c begun ends key
  have hruns {i : Instr} {f : Chip → Chip} {y : Chip} (he : exec i s = s.core f) (hf : f c = y) : Runs i s y := runs_of_core_eq he hr hf
  refine ⟨fun hbusy => ?busy, fun hidle => ⟨fun hfind => hruns rfl (rsFind_missing hidle hfind), fun p hfind => hruns rfl (rsFind_found hidle hfind),
    fun hres => hruns rfl (rsInsert_reserved hidle hres), fun hres huse => hruns rfl (rsInsert_inUse hidle hres huse), fun hres huse => ?insert,
    fun huse => ⟨hruns rfl (rsDelete_inUse hidle huse), hruns rfl (rsClear_inUse hidle huse)⟩,
    fun huse hfind => hruns rfl (rsDelete_missing hidle huse hfind), fun p huse hfind => hruns rfl (rsDelete_deleted hidle huse hfind),
    fun huse => ?clear, fun huse => hruns rfl (rsCopy_inUse hidle huse), fun huse _ => ?copy, hruns rfl (rsCmdDone_idle hidle)⟩,
    fun st hst => ⟨_, hruns rfl rfl, rsCmdDone_parts hst⟩⟩
  case busy =>
    exact ⟨hruns rfl (Chip.rsCmd_busy hbusy), hruns rfl (Chip.rsCmd_busy hbusy), hruns rfl (Chip.rsCmd_busy hbusy),
      hruns rfl (Chip.rsCmd_busy hbusy), hruns rfl (Chip.rsCmd_busy hbusy)⟩
  case insert =>
    exact ⟨fun hfind => hruns rfl (rsInsert_present hidle hres huse hfind), fun hfind hfull => hruns rfl (rsInsert_full hidle hres huse hfind hfull),
      fun hfind hfree => hruns rfl (rsInsert_inserted hidle hres huse hfind (Chip.insertRule_firstSlot hfree)),
      fun v hfind hins => hruns rfl (rsInsert_inserted hidle hres huse hfind hins)⟩
  case clear =>
    exact ⟨_, hruns rfl (rsClear_clears hidle huse), Chip.bankRules_cleared_self, fun b hb => Chip.bankRules_cleared_other hb, rfl⟩
  case copy =>
    exact ⟨_, hruns rfl (rsCopy_copies hidle huse), rfl, fun k hk => Chip.rules_bankCopied_other hk,
      fun hcanon k hk => Chip.rules_bankCopied hcanon hk⟩

end Sys2Proof.Machine
end

section
/-! TBL instructions (R386 to R388, R400): words of local data, what a table operation leaves of the threads and local data, and how the routine ends. -/
namespace Sys2Proof.Machine
open Sys2Proof.Claim

/-! ### Words of local data (R225, R544) -/

section
variable {s u : Chip} {c t : Nat}

/-- Bytes and words of local data are those of the crucible's local data memory. -/
theorem Chip.localByte_congr (h : u.cru.localData = s.cru.localData) (e o : Nat) : u.localByte c e o = s.localByte c e o := by
  rw [Chip.localByte, Chip.localByte, h]

theorem Chip.localWord_congr (h : u.cru.localData = s.cru.localData) (off i : Nat) : u.localWord c t off i = s.localWord c t off i := by
  simp only [Chip.localWord, Chip.localByte_congr h]

/-- A thread outside a handler keeps no copy of a line that it writes (R544). -/
theorem Chip.keepLine_noHandler (h : (s.thread c t).handler = none) (line : Nat) : s.keepLine c t line = s := by
  simp only [Chip.keepLine, h, Option.isNone_none, Bool.true_or, if_true]

theorem Chip.keepLines_noHandler (h : (s.thread c t).handler = none) (lines : List Nat) : lines.foldl (fun u n => u.keepLine c t n) s = s := by
  induction lines with
  | nil => rfl
  | cons n lines ih => rw [List.foldl_cons, Chip.keepLine_noHandler h, ih]

theorem Chip.writeLocal_noHandler (h : (s.thread c t).handler = none) (off : Nat) (l : List Byte) :
    s.writeLocal c t off l = s.putLocal c (t / 8) off l := by
  rw [Chip.writeLocal, Chip.keepLines_noHandler h]

/-- A word written to local data outside a handler changes local data only. -/
theorem Chip.setLocalWord_keeps (h : (s.thread c t).handler = none) {off i : Nat} (hroom : off + 8 * i + 8 ≤ 0x8000) (v : W64) :
    (s.setLocalWord c t off i v).cru.threads = s.cru.threads ∧ (s.setLocalWord c t off i v).fwd = s.fwd := by
  rw [Chip.setLocalWord, Chip.writeLocal_noHandler h, putLocal_eq _ _ _ _ _ (by rw [wordBytes, length_bytesBE]; exact hroom)]
  exact ⟨rfl, rfl⟩

theorem Chip.setLocalWord_thread (h : (s.thread c t).handler = none) {off i : Nat} (hroom : off + 8 * i + 8 ≤ 0x8000) (v : W64) :
    (s.setLocalWord c t off i v).thread c t = s.thread c t := by
  rw [Chip.thread, Chip.thread, (Chip.setLocalWord_keeps h hroom v).1]

theorem Chip.localByte_setLocalWord (h : (s.thread c t).handler = none) {off i o : Nat} (hroom : off + 8 * i + 8 ≤ 0x8000) (ho : o < 0x8000) (v : W64) :
    (s.setLocalWord c t off i v).localByte c (t / 8) o =
      if off + 8 * i ≤ o ∧ o < off + 8 * i + 8 then nth (wordBytes v) (o - (off + 8 * i)) else s.localByte c (t / 8) o := by
  have hlen : (wordBytes v).length = 8 := length_bytesBE 8 v.toNat
  rw [Chip.setLocalWord, Chip.writeLocal_noHandler h, localByte_putLocal s c (t / 8) (wordBytes v) (by rw [hlen]; exact hroom) ho, hlen]

/-- The eight bytes of a word spell it. -/
theorem numBE_wordBytes (v : W64) : w64 (numBE ((List.range 8).map fun k => nth (wordBytes v) k)) = v := by
  have hlen : (wordBytes v).length = 8 := length_bytesBE 8 v.toNat
  have hbytes : ((List.range 8).map fun k => nth (wordBytes v) k) = wordBytes v := by
    refine List.ext_getElem (by simp [hlen]) fun k _ hk => ?_
    rw [List.getElem_map, List.getElem_range, nth_eq_getElem _ hk]
  have hlt : v.toNat < 256 ^ 8 := v.isLt
  rw [hbytes, wordBytes, numBE_bytesBE, Nat.mod_eq_of_lt hlt, w64, BitVec.ofNat_toNat, BitVec.setWidth_eq]

/-- A word of local data reads what was written there. -/
theorem Chip.localWord_setLocalWord_self (h : (s.thread c t).handler = none) {off i : Nat} (hroom : off + 8 * i + 8 ≤ 0x8000) (v : W64) :
    (s.setLocalWord c t off i v).localWord c t off i = v := by
  refine Eq.trans (congrArg (fun l => w64 (numBE l)) (List.map_congr_left fun k hk => ?_)) (numBE_wordBytes v)
  have hk8 : k < 8 := List.mem_range.mp hk
  rw [Chip.localByte_setLocalWord h hroom (by omega), if_pos (by omega), Nat.add_sub_cancel_left]

theorem Chip.localWord_setLocalWord_other (h : (s.thread c t).handler = none) {off i j : Nat} (hroom : off + 8 * i + 8 ≤ 0x8000)
    (hj : off + 8 * j + 8 ≤ 0x8000) (hij : j ≠ i) (v : W64) : (s.setLocalWord c t off i v).localWord c t off j = s.localWord c t off j := by
  refine congrArg (fun l => w64 (numBE l)) (List.map_congr_left fun k hk => ?_)
  have hk8 : k < 8 := List.mem_range.mp hk
  rw [Chip.localByte_setLocalWord h hroom (by omega), if_neg (by omega)]

end

/-! ### What a table operation leaves of the crucibles -/

section
variable (s : Chip)

theorem Chip.setEntry_cru (table x i : Nat) (e : Entry) : (s.setEntry table x i e).cru = s.cru := by
  unfold Chip.setEntry
  dsimp only
  split <;> rfl

theorem Chip.putStore_cru (c : Nat) (l : List Byte) : ∀ (s : Chip) (off : Nat), (s.putStore c off l).cru = s.cru := by
  induction l with
  | nil => exact fun _ _ => rfl
  | cons b l ih => exact fun s off => ih (s.setStoreByte c off b) (off + 1)

theorem Chip.queuePut_cru (c q source : Nat) (body : List Byte) : (s.queuePut c q source body).cru = s.cru := by
  unfold Chip.queuePut
  dsimp only
  split
  · rfl
  · exact Chip.putStore_cru c body s _

theorem Chip.queueDrop_cru (c q : Nat) : (s.queueDrop c q).cru = s.cru := by
  unfold Chip.queueDrop
  split
  · exact (regsOnly_bump s _ 1).keeps_pon.2.2
  · rfl

theorem Chip.sendQueue_cru (c q source : Nat) (body : List Byte) : (s.sendQueue c q source body).2.cru = s.cru := by
  unfold Chip.sendQueue
  dsimp only
  split
  · exact s.queuePut_cru _ _ _ _
  · exact s.queueDrop_cru _ _

/-- A report to the program changes queues, stores and registers, and no thread (R396). -/
theorem Chip.report_cru (kind table key oldDest : Nat) (e : Entry) (stamp : Nat) : (s.report kind table key oldDest e stamp).cru = s.cru := by
  unfold Chip.report Chip.reportTry
  dsimp only
  split
  · rfl
  · unfold Chip.sendDest
    split
    · next h =>
      obtain ⟨-, h⟩ := Option.ite_none_right_eq_some.mp h
      have hu := s.sendQueue_cru _ _ _ _ |>.symm.trans (congrArg (fun p => p.2.cru) (Option.some.inj h))
      exact ((Chip.bump_keeps _ _ _).2.2.1).trans hu.symm
    · next h =>
      obtain ⟨-, h⟩ := Option.ite_none_right_eq_some.mp h
      have hu := s.sendQueue_cru _ _ _ _ |>.symm.trans (congrArg (fun p => p.2.cru) (Option.some.inj h))
      exact hu.symm
    · rfl

theorem Chip.entryErr_cru (table x i stamp : Nat) : (s.entryErr table x i stamp).cru = s.cru := by
  unfold Chip.entryErr
  dsimp only
  rw [Chip.report_cru]
  exact (regsOnly_bump _ _ 1).keeps_pon.2.2.trans (s.setEntry_cru _ _ _ _)

theorem Chip.ageStep_cru (table x i : Nat) : (s.ageStep table x i).2.cru = s.cru := by
  unfold Chip.ageStep
  dsimp only
  split
  · rfl
  split
  · exact s.setEntry_cru _ _ _ _
  split
  · exact s.setEntry_cru _ _ _ _
  · rw [Chip.report_cru]
    exact (regsOnly_bump _ _ 1).keeps_pon.2.2.trans (s.setEntry_cru _ _ _ _)

theorem Chip.insertIn_cru {table x i : Nat} {e : Entry} {u : Chip} (h : s.insertIn table x e = some (i, u)) : u.cru = s.cru := by
  obtain ⟨⟨moves, slot⟩, -, h⟩ := Option.map_eq_some_iff.mp h
  cases h
  refine (Chip.setEntry_cru _ _ _ _ _).trans (foldl_keeps Chip.cru (fun v m => ?_) moves s)
  exact (Chip.setEntry_cru _ _ _ _ _).trans (Chip.setEntry_cru _ _ _ _ _)

theorem Chip.insertBoth_cru {table x i : Nat} {e : Entry} {ext : Bool} {u : Chip} (h : s.insertBoth table e ext = some (x, i, u)) : u.cru = s.cru := by
  unfold Chip.insertBoth at h
  split at h
  · next hin =>
    cases h
    exact s.insertIn_cru hin
  · obtain ⟨-, h⟩ := Option.ite_none_right_eq_some.mp h
    obtain ⟨⟨j, v⟩, hin, h⟩ := Option.map_eq_some_iff.mp h
    cases h
    exact s.insertIn_cru hin

variable (flags : Nat) (e : Entry) (fault : Bool)

theorem Chip.tblOn_cru {act : Nat → Nat → Entry → TblAnswer} (h : ∀ x i g, (act x i g).chip.cru = s.cru) :
    (s.tblOn flags e fault act).chip.cru = s.cru := by
  unfold Chip.tblOn
  split
  · rfl
  · split
    · exact s.entryErr_cru _ _ _ _
    · exact h _ _ _

theorem Chip.tblFind_cru : (s.tblFind flags e fault).chip.cru = s.cru := by
  refine s.tblOn_cru _ _ _ fun x i g => ?_
  dsimp only
  split
  · exact s.setEntry_cru _ _ _ _
  · rfl

theorem Chip.tblDelete_cru : (s.tblDelete flags e fault).chip.cru = s.cru := s.tblOn_cru _ _ _ fun _ _ _ => s.setEntry_cru _ _ _ _

theorem Chip.tblAge_cru : (s.tblAge flags e fault).chip.cru = s.cru := s.tblOn_cru _ _ _ fun _ _ _ => s.ageStep_cru _ _ _

theorem Chip.tblInsert_cru : (s.tblInsert flags e fault).chip.cru = s.cru := by
  unfold Chip.tblInsert
  dsimp only
  split
  · rfl
  split
  · split
    · exact s.entryErr_cru _ _ _ _
    split
    · exact s.setEntry_cru _ _ _ _
    · rfl
  · split
    · next h =>
      have hcru := Chip.insertBoth_cru _ h
      exact hcru
    · rfl

/-- A table operation changes no thread and no local data. -/
theorem Chip.tblOp_cru (fn : Nat) : (s.tblOp fn flags e fault).chip.cru = s.cru := by
  unfold Chip.tblOp
  split
  · exact s.tblFind_cru _ _ _
  · exact s.tblInsert_cru _ _ _
  · exact s.tblDelete_cru _ _ _
  · exact s.tblAge_cru _ _ _

end

/-! ### The end of the routine (R386, R387) -/

/-- Outside a replay an output passes the gate and joins the thread's record (R545). -/
theorem Chip.gatePass_noReplay {s : Chip} {c t : Nat} (h : (s.thread c t).expected = none) (out : List Byte) (act : Chip → W64 × Chip) :
    s.gatePass c t out act =
      ((act s).1, (act s).2.updThread c t fun y => y.recordOutput (crc32c 0xFFFFFFFF#32 out) (act s).1) := by
  rw [Chip.gatePass, h]

/-- A table operation ends: word 3 of its request block receives a location, a TBL.INS that fails is counted, and the thread takes the status. -/
def Chip.tblDone (s : Chip) (c t off : Nat) (r : Routine) (status loc : Nat) : Chip :=
  let s1 := s.setLocalWord c t off 3 (w64 loc)
  (if r.fn = 1 && status ≠ 0 then s1.count c t 0x17 else s1).answered c t r status

/-- An entry that TBL.FIND found written to words 1 and 2 of the request block. -/
def Chip.putFound (s : Chip) (c t off : Nat) (f : Entry) : Chip :=
  (s.setLocalWord c t off 1 (w64 (efld f 127 64))).setLocalWord c t off 2 (w64 (efld f 63 0))

/-- TBL.FIND's answer in the request block, and a hit counted. -/
def TblAnswer.served (a : TblAnswer) (c t off : Nat) : Chip :=
  let s1 := match a.entry with
    | some f => a.chip.putFound c t off f
    | none => a.chip
  if a.status = 0 then s1.count c t 0x15 else s1

/-- The entry that words 1 and 2 of a request block hold (R386). -/
def Chip.requestEntry (s : Chip) (c t off : Nat) : Entry :=
  BitVec.ofNat 128 ((s.localWord c t off 1).toNat <<< 64 + (s.localWord c t off 2).toNat)

/-- The check by which the gate knows an operation of a FN and its request block (R545). -/
def Chip.requestCrc (s : Chip) (c t fn off : Nat) : BitVec 32 :=
  crc32c 0xFFFFFFFF#32 (BitVec.ofNat 8 fn :: wordsBytes [s.localWord c t off 0, s.localWord c t off 1, s.localWord c t off 2])

section
variable {s : Chip} {c t : Nat} {r : Routine} {off : Nat} (hoff : ((s.thread c t).g r.ra).toNat = off) (halign : off % 8 = 0) (hroom : off + 32 ≤ 0x8000)
include hoff halign hroom

theorem Chip.localBlock_inside (act : Nat → Chip) : s.localBlock c t r.ra 32 act = act off := by
  simp only [Chip.localBlock, hoff, halign, Nat.not_lt.mpr hroom, ne_eq, not_true_eq_false, if_false]

theorem Chip.tblEnd_reserved (hw : fld (s.localWord c t off 0) 63 5 ≠ 0) : s.tblEnd c t r = s.tblDone c t off r 5 0 := by
  rw [Chip.tblEnd, Chip.localBlock_inside hoff halign hroom]
  dsimp only
  rw [if_pos hw]
  rfl

variable (hw : fld (s.localWord c t off 0) 63 5 = 0)
include hw

theorem Chip.tblEnd_find (hfn : r.fn = 0) {a : TblAnswer}
    (ha : s.tblFind (fld (s.localWord c t off 0) 4 0) (s.requestEntry c t off) r.fault = a) :
    s.tblEnd c t r = (a.served c t off).tblDone c t off r a.status a.loc := by
  subst ha
  rw [Chip.tblEnd, Chip.localBlock_inside hoff halign hroom]
  dsimp only
  rw [if_neg (Decidable.not_not.mpr hw), if_pos hfn]
  rfl

/-- An operation that writes passes the gate, with its status in the low byte of the gate's value and its location above it (R545). -/
theorem Chip.tblEnd_writes (hfn : r.fn ≠ 0) (hexpected : (s.thread c t).expected = none) {a : TblAnswer} {v : W64}
    (ha : (s.count c t 0x3A).tblOp r.fn (fld (s.localWord c t off 0) 4 0) (s.requestEntry c t off) r.fault = a)
    (hv : w64 (a.status + a.loc <<< 8) = v) :
    s.tblEnd c t r = (a.chip.updThread c t fun y => y.recordOutput (s.requestCrc c t r.fn off) v).tblDone c t off r (fld v 7 0) (fld v 63 8) := by
  subst ha hv
  have hthread : ((s.count c t 0x3A).thread c t).expected = none := by rw [count_thread, hexpected]
  rw [Chip.tblEnd, Chip.localBlock_inside hoff halign hroom]
  dsimp only
  rw [if_neg (Decidable.not_not.mpr hw), if_neg hfn, Chip.gatePass_noReplay hthread]
  rfl

end

section
variable {s u : Chip} {c t : Nat}

/-- A part with the local data, and one thread, of another. -/
structure Chip.SameThread (s u : Chip) (c t : Nat) : Prop where
  thread : u.thread c t = s.thread c t
  localData : u.cru.localData = s.cru.localData

theorem Chip.SameThread.trans {v : Chip} (h : s.SameThread u c t) (g : u.SameThread v c t) : s.SameThread v c t :=
  ⟨g.thread.trans h.thread, g.localData.trans h.localData⟩

theorem Chip.SameThread.of_cru (h : u.cru = s.cru) : s.SameThread u c t := ⟨by rw [Chip.thread, Chip.thread, h], by rw [h]⟩

theorem CountsOnly.sameThread {e : Nat} (h : CountsOnly c e s u) : s.SameThread u c t := .of_cru h.1.keeps_pon.2.2

/-- An output recorded outside a handler leaves the thread as it was. -/
theorem Chip.SameThread.recordOutput (h : (s.thread c t).handler = none) (crc : BitVec 32) (v : W64) :
    s.SameThread (s.updThread c t fun y => y.recordOutput crc v) c t :=
  ⟨by rw [Chip.thread_updThread_self, Thread.recordOutput, h]; rfl, rfl⟩

/-- Counting changes no table. -/
theorem CountsOnly.fwd_eq {e : Nat} (h : CountsOnly c e s u) : u.fwd = s.fwd := by
  obtain ⟨h, -⟩ := h
  unfold RegsOnly at h
  rw [h]

theorem OnlyThread.fwd_eq (h : OnlyThread s u c t) : u.fwd = s.fwd := by
  obtain ⟨-, -, -, hrest⟩ := h
  rw [hrest]

theorem count_ite_frame (s : Chip) (c t code : Nat) {p : Prop} [Decidable p] : CountsOnly c (t / 8) s (if p then s.count c t code else s) := by
  split
  · exact count_frame s c t code 1
  · exact .refl c (t / 8) s

theorem Thread.g_setStatus (x : Thread) (rd st : Nat) : (x.setStatus rd st).g rd = if rd = 0 then 0 else setFld (x.g rd) 7 0 st := by
  unfold Thread.setStatus
  by_cases hrd : rd = 0
  · rw [hrd]
    rfl
  · rw [Thread.g_setG x rd _ hrd, if_pos rfl, if_neg hrd]

/-- The thread x complete with a status but for the cycles of its words: it waits for them at the next instruction. -/
def Thread.Completes (x y : Thread) (rd : Fin 32) (status due : Nat) : Prop :=
  y.state = stWaiting ∧ y.wait = .last due ∧ y.ip = nextIp x.ip ∧ y.g rd = if rd = 0 then 0 else setFld (x.g rd) 7 0 status

theorem Chip.answered_completes (s : Chip) (c t : Nat) {r : Routine} {rd : Fin 32} (hrd : r.rd = rd.val) (status : Nat) :
    (s.thread c t).Completes ((s.answered c t r status).thread c t) rd status r.due := by
  simp only [Chip.answered, Chip.done, Chip.pause, Chip.next, Chip.thread_updThread_self]
  refine ⟨rfl, rfl, rfl, ?_⟩
  simp only [Fin.ext_iff, ← hrd]
  exact Thread.g_setStatus _ _ _

/-- A table operation ends as any long instruction does that answers a status, once word 3 is written and a failed TBL.INS counted. -/
theorem Chip.tblDone_answered (s : Chip) (c t off : Nat) (r : Routine) (status loc : Nat) : ∃ v,
    CountsOnly c (t / 8) (s.setLocalWord c t off 3 (w64 loc)) v ∧ s.tblDone c t off r status loc = v.answered c t r status :=
  ⟨_, count_ite_frame _ c t 0x17, rfl⟩

section
variable (h : (s.thread c t).handler = none) {off : Nat} (hroom : off + 32 ≤ 0x8000)
include h hroom

/-- The end of a table operation outside a handler: the thread is complete, and only word 3 of the request block changes in local data. -/
theorem Chip.tblDone_parts {r : Routine} {rd : Fin 32} (hrd : r.rd = rd.val) (status loc : Nat) :
    (s.thread c t).Completes ((s.tblDone c t off r status loc).thread c t) rd status r.due ∧ (s.tblDone c t off r status loc).fwd = s.fwd ∧
      (s.tblDone c t off r status loc).cru.localData = (s.setLocalWord c t off 3 (w64 loc)).cru.localData := by
  obtain ⟨v, hcounts, hdone⟩ := s.tblDone_answered c t off r status loc
  have hsame : (s.setLocalWord c t off 3 (w64 loc)).SameThread v c t := hcounts.sameThread
  have hcompletes := v.answered_completes c t hrd status
  rw [hsame.thread, Chip.setLocalWord_thread h (off := off) (by omega)] at hcompletes
  rw [hdone]
  exact ⟨hcompletes, hcounts.fwd_eq.trans (Chip.setLocalWord_keeps h (off := off) (by omega) _).2, hsame.localData⟩

theorem Chip.localWord_tblDone (r : Routine) (status loc : Nat) :
    (s.tblDone c t off r status loc).localWord c t off 3 = w64 loc ∧
      ∀ i, i < 3 → (s.tblDone c t off r status loc).localWord c t off i = s.localWord c t off i := by
  obtain ⟨v, hcounts, hdone⟩ := s.tblDone_answered c t off r status loc
  have hsame : (s.setLocalWord c t off 3 (w64 loc)).SameThread v c t := hcounts.sameThread
  rw [hdone]
  exact ⟨(Chip.localWord_congr hsame.localData off 3).trans (Chip.localWord_setLocalWord_self h (by omega) _), fun i hi =>
    (Chip.localWord_congr hsame.localData off i).trans (Chip.localWord_setLocalWord_other h (by omega) (by omega) (by omega) _)⟩

/-- An entry found reads back from words 1 and 2. -/
theorem Chip.putFound_parts (f : Entry) : (s.putFound c t off f).thread c t = s.thread c t ∧ (s.putFound c t off f).fwd = s.fwd ∧
    (s.putFound c t off f).localWord c t off 1 = w64 (efld f 127 64) ∧ (s.putFound c t off f).localWord c t off 2 = w64 (efld f 63 0) := by
  have hthread := Chip.setLocalWord_thread h (off := off) (i := 1) (by omega) (w64 (efld f 127 64))
  have hnext : ((s.setLocalWord c t off 1 (w64 (efld f 127 64))).thread c t).handler = none := by rw [hthread, h]
  refine ⟨(Chip.setLocalWord_thread hnext (off := off) (by omega) _).trans hthread,
    (Chip.setLocalWord_keeps hnext (off := off) (by omega) _).2.trans (Chip.setLocalWord_keeps h (off := off) (by omega) _).2,
    (Chip.localWord_setLocalWord_other hnext (by omega) (by omega) (by decide) _).trans (Chip.localWord_setLocalWord_self h (by omega) _),
    Chip.localWord_setLocalWord_self hnext (by omega) _⟩

end

theorem TblAnswer.served_parts {a : TblAnswer} (h : (a.chip.thread c t).handler = none) {off : Nat} (hroom : off + 32 ≤ 0x8000) :
    (a.served c t off).thread c t = a.chip.thread c t ∧ (a.served c t off).fwd = a.chip.fwd ∧ ∀ f, a.entry = some f →
      (a.served c t off).localWord c t off 1 = w64 (efld f 127 64) ∧ (a.served c t off).localWord c t off 2 = w64 (efld f 63 0) := by
  have hcounts (v : Chip) : CountsOnly c (t / 8) v (if a.status = 0 then v.count c t 0x15 else v) := count_ite_frame v c t 0x15
  unfold TblAnswer.served
  cases ha : a.entry with
  | none => exact ⟨(hcounts a.chip).sameThread.thread, (hcounts a.chip).fwd_eq, fun f hf => by cases hf⟩
  | some g =>
    obtain ⟨hthread, hfwd, hhigh, hlow⟩ := Chip.putFound_parts h hroom g
    have hlocal := (hcounts (a.chip.putFound c t off g)).sameThread (t := t) |>.localData
    refine ⟨(hcounts _).sameThread.thread.trans hthread, (hcounts _).fwd_eq.trans hfwd, fun f hf => ?_⟩
    cases hf
    exact ⟨(Chip.localWord_congr hlocal off 1).trans hhigh, (Chip.localWord_congr hlocal off 2).trans hlow⟩

end

/-! ### What the end of the routine leaves -/

/-- The gate's value of a table operation holds the status's low byte in its own (R387, R545). -/
theorem fld_gateValue (status loc : Nat) : fld (w64 (status + loc <<< 8)) 7 0 = status % 256 := by
  simp only [fld, bitsOf, w64, BitVec.toNat_ofNat, Nat.shiftLeft_eq]
  omega

section
variable {s : Chip} {c t : Nat} {r : Routine} {rd : Fin 32} {off : Nat} {a : TblAnswer} (hrd : r.rd = rd.val)
  (hoff : ((s.thread c t).g r.ra).toNat = off) (halign : off % 8 = 0) (hroom : off + 32 ≤ 0x8000) (h : (s.thread c t).handler = none)
include hrd hoff halign hroom h

/-- A request with a reserved bit set answers BAD_REQ, with location 0, and changes nothing but word 3 (R386, R387). -/
theorem Chip.tblEnd_refuses (hw : fld (s.localWord c t off 0) 63 5 ≠ 0) :
    (s.thread c t).Completes ((s.tblEnd c t r).thread c t) rd 5 r.due ∧ (s.tblEnd c t r).fwd = s.fwd ∧
      (s.tblEnd c t r).localWord c t off 3 = 0 ∧
      ∀ o < 0x8000, (o < off + 24 ∨ off + 32 ≤ o) → (s.tblEnd c t r).localByte c (t / 8) o = s.localByte c (t / 8) o := by
  obtain ⟨hdone, hfwd, hlocal⟩ := Chip.tblDone_parts h hroom hrd 5 0
  rw [Chip.tblEnd_reserved hoff halign hroom hw]
  refine ⟨hdone, hfwd, (Chip.localWord_tblDone h hroom r 5 0).1, fun o ho hout => ?_⟩
  rw [Chip.localByte_congr hlocal, Chip.localByte_setLocalWord h (by omega) ho, if_neg (by omega)]

variable (hw : fld (s.localWord c t off 0) 63 5 = 0)
include hw

/-- TBL.FIND answers its status, the location, and in words 1 and 2 the entry found. -/
theorem Chip.tblEnd_finds (hfn : r.fn = 0) (ha : s.tblFind (fld (s.localWord c t off 0) 4 0) (s.requestEntry c t off) r.fault = a) :
    (s.thread c t).Completes ((s.tblEnd c t r).thread c t) rd a.status r.due ∧ (s.tblEnd c t r).fwd = a.chip.fwd ∧
      (s.tblEnd c t r).localWord c t off 3 = w64 a.loc ∧ ∀ f, a.entry = some f →
        (s.tblEnd c t r).localWord c t off 1 = w64 (efld f 127 64) ∧ (s.tblEnd c t r).localWord c t off 2 = w64 (efld f 63 0) := by
  have hkept : s.SameThread a.chip c t := .of_cru (by rw [← ha, Chip.tblFind_cru])
  rw [Chip.tblEnd_find hoff halign hroom hw hfn ha]
  obtain ⟨hthread, hfwd, hfound⟩ := TblAnswer.served_parts ((congrArg Thread.handler hkept.thread).trans h) hroom
  have hserved := hthread.trans hkept.thread
  have hnone := (congrArg Thread.handler hserved).trans h
  obtain ⟨hdone, hfwd', -⟩ := Chip.tblDone_parts hnone hroom hrd a.status a.loc
  obtain ⟨hloc, hwords⟩ := Chip.localWord_tblDone hnone hroom r a.status a.loc
  refine ⟨hserved ▸ hdone, hfwd'.trans hfwd, hloc, fun f hf => ?_⟩
  obtain ⟨hhigh, hlow⟩ := hfound f hf
  exact ⟨(hwords 1 (by decide)).trans hhigh, (hwords 2 (by decide)).trans hlow⟩

/-- TBL.INS, TBL.DEL and TBL.AGE answer their status and the location as the gate's value holds them. -/
theorem Chip.tblEnd_answers (hfn : r.fn ≠ 0) (hexpected : (s.thread c t).expected = none)
    (ha : (s.count c t 0x3A).tblOp r.fn (fld (s.localWord c t off 0) 4 0) (s.requestEntry c t off) r.fault = a) :
    (s.thread c t).Completes ((s.tblEnd c t r).thread c t) rd (a.status % 256) r.due ∧ (s.tblEnd c t r).fwd = a.chip.fwd ∧
      (s.tblEnd c t r).localWord c t off 3 = w64 (fld (w64 (a.status + a.loc <<< 8)) 63 8) := by
  have hkept : s.SameThread a.chip c t := (count_frame s c t 0x3A 1).sameThread.trans (.of_cru (by rw [← ha, Chip.tblOp_cru]))
  have hnone := (congrArg Thread.handler hkept.thread).trans h
  rw [Chip.tblEnd_writes hoff halign hroom hw hfn hexpected ha rfl, fld_gateValue]
  have hrecorded := hkept.trans (.recordOutput hnone (s.requestCrc c t r.fn off) (w64 (a.status + a.loc <<< 8)))
  have hnone' := (congrArg Thread.handler hrecorded.thread).trans h
  obtain ⟨hdone, hfwd, -⟩ := Chip.tblDone_parts hnone' hroom hrd (a.status % 256) (fld (w64 (a.status + a.loc <<< 8)) 63 8)
  exact ⟨hrecorded.thread ▸ hdone, hfwd, (Chip.localWord_tblDone hnone' hroom _ _ _).1⟩

end

/-! ### TBL instructions (R386 to R388, R400) -/

/-- The routine of a TBL instruction as it begins. -/
def tblRoutine (fn : Nat) (rd ra : Fin 32) (fault : Bool) : Routine := { op := 0x30, fn := fn, rd := rd, ra := ra, fault := fault }

section
variable {i : Instr} {s : State} {c : Cru} {t : Fin 256} {rd ra : Fin 32} {fault : Bool} {fn k : Nat}

theorem tbl_runs (h : IssuesLong s c t (wordR 0x30 rd ra 0 fn) 0x30 fn k)
    (he : exec i s = s.core fun y => y.issueLong c t (wordR 0x30 rd ra 0 fn) [] 0 (tblRoutine fn rd ra fault))
    (hsuper : fn ≠ 0 → (s.chip.thread c t).super = true) :
    Runs i s ((begun s c t 0x30 fn).tblEnd c t { tblRoutine fn rd ra fault with since := s.chip.frc, cycles := k }) := by
  have hbegin : (issuedLong s c t).longBegin c t (tblRoutine fn rd ra fault) = begun s c t 0x30 fn :=
    longBegin_begun rfl rfl (fun hwait => absurd hwait.1 (by decide)) (.inr ⟨by decide, by decide⟩)
  have hruns := long_of h he rfl rfl (fun hl => hsuper (by rintro rfl; cases hl)) rfl rfl rfl
  rw [hbegin] at hruns
  exact hruns

end

/-- Issue and begin change neither the thread nor local data nor the tables. -/
theorem begun_sameThread (s : State) (c t op fn : Nat) :
    s.chip.SameThread (begun s c t op fn) c t ∧ (begun s c t op fn).fwd = s.chip.fwd := by
  obtain ⟨hframe, hthreads, -⟩ := begun_frame s c t op fn
  obtain ⟨-, -, -, -, -, -, -, -, hlocal⟩ := OnlyThread.keeps hframe
  exact ⟨⟨hthreads c t, hlocal⟩, OnlyThread.fwd_eq hframe⟩

/-- Settles O19: the routine ends at a request block in local data, issue has changed nothing that a table operation looks at, and the operation leaves the
thread and local data as they were. -/
theorem tableInstructionsAnswer : Obligations.TableInstructionsAnswer := by
  intro s c t rd ra fault k x off w e issues done halign hroom hhandler hexpected
  let routine (fn : Nat) : Routine := { tblRoutine fn rd ra fault with since := s.chip.frc, cycles := k }
  have hbegun (fn : Nat) := begun_sameThread s c t 0x30 fn
  have hthread (fn : Nat) : (begun s c t 0x30 fn).thread c t = x := (hbegun fn).1.thread
  have hword (fn i : Nat) : (begun s c t 0x30 fn).localWord c t off i = w i := Chip.localWord_congr (hbegun fn).1.localData off i
  have hentry (fn : Nat) : (begun s c t 0x30 fn).requestEntry c t off = e := by rw [Chip.requestEntry, hword, hword]
  have hbase (fn : Nat) : (((begun s c t 0x30 fn).thread c t).g (routine fn).ra).toNat = off := by rw [hthread]; rfl
  have hnone (fn : Nat) : ((begun s c t 0x30 fn).thread c t).handler = none := by rw [hthread, hhandler]
  refine ⟨fun hres => ?reserved, fun hok => ?served⟩
  case reserved =>
    have hrefuses {fn : Nat} {i : Instr} (hruns : Runs i s ((begun s c t 0x30 fn).tblEnd c t (routine fn))) :
        ∃ y, Runs i s y ∧ done y 5 ∧ y.fwd = s.chip.fwd ∧ y.localWord c t off 3 = 0 ∧
          ∀ o < 0x8000, (o < off + 24 ∨ off + 32 ≤ o) → y.localByte c (t / 8) o = s.chip.localByte c (t / 8) o := by
      obtain ⟨hdone, hfwd, hloc, hbytes⟩ := Chip.tblEnd_refuses (rd := rd) rfl (hbase fn) halign hroom (hnone fn) (by rw [hword]; exact hres)
      rw [hthread] at hdone
      exact ⟨_, hruns, hdone, hfwd.trans (hbegun fn).2, hloc,
        fun o ho hout => (hbytes o ho hout).trans (Chip.localByte_congr (hbegun fn).1.localData _ o)⟩
    exact ⟨fun h => hrefuses (tbl_runs h rfl fun h0 => absurd rfl h0), fun hsuper => ⟨fun h => hrefuses (tbl_runs h rfl fun _ => hsuper),
      fun h => hrefuses (tbl_runs h rfl fun _ => hsuper), fun h => hrefuses (tbl_runs h rfl fun _ => hsuper)⟩⟩
  case served =>
    have hanswers {fn : Nat} {i : Instr} {a : TblAnswer} (hfn : fn ≠ 0)
        (ha : ((begun s c t 0x30 fn).count c t 0x3A).tblOp fn (fld (w 0) 4 0) e fault = a)
        (hruns : Runs i s ((begun s c t 0x30 fn).tblEnd c t (routine fn))) : ∃ y, Runs i s y ∧ done y (a.status % 256) ∧ y.fwd = a.chip.fwd ∧
          y.localWord c t off 3 = w64 (fld (w64 (a.status + a.loc <<< 8)) 63 8) := by
      obtain ⟨hdone, hfwd, hloc⟩ := Chip.tblEnd_answers (a := a) (rd := rd) rfl (hbase fn) halign hroom (hnone fn) (by rw [hword, hok]) hfn
        (by rw [hthread, hexpected]) (by rw [hword, hentry]; exact ha)
      rw [hthread] at hdone
      exact ⟨_, hruns, hdone, hfwd, hloc⟩
    refine ⟨fun h => ?find, fun hsuper => ⟨fun h => hanswers (by decide) rfl (tbl_runs h rfl fun _ => hsuper),
      fun h => hanswers (by decide) rfl (tbl_runs h rfl fun _ => hsuper), fun h => hanswers (by decide) rfl (tbl_runs h rfl fun _ => hsuper)⟩⟩
    obtain ⟨hdone, hfwd, hloc, hfound⟩ := Chip.tblEnd_finds (a := (begun s c t 0x30 0).tblFind (fld (w 0) 4 0) e fault) (r := routine 0) (rd := rd) rfl
      (hbase 0) halign hroom (hnone 0) (by rw [hword, hok]) rfl (by rw [hword, hentry]; rfl)
    rw [hthread] at hdone
    exact ⟨_, tbl_runs h rfl fun h0 => absurd rfl h0, hdone, hfwd, hloc, hfound⟩

end Sys2Proof.Machine
end

section
/-! The forwarding tables: learn events, visits of the sweepers, and the host's table commands (R386 to R388, R392 to R395, R398 to R400, R402, R752). -/
namespace Sys2Proof.Machine
open Sys2Proof.Claim

/-- The entry that a lookup finds is the one at the place where it is found (R375). -/
theorem Chip.entry_of_found {s : Chip} {table key x i : Nat} {ext : Bool} {e : Entry} (h : s.found table key ext = some (x, i, e)) :
    s.entry table x i = e := by
  obtain ⟨⟨y, j⟩, -, h⟩ := Option.map_eq_some_iff.mp h
  cases h
  rfl

/-! ### Learning (R392 to R395) -/

/-- The part with a partition's oldest learn event taken. -/
def Chip.learnTaken (s : Chip) (part : Nat) (rest : List LearnEvent) : Chip := s.updFwd fun f => { f with learn := f.learn.set part rest }

/-- What learning makes of an event, once a faulty entry of its address is gone: an absent address is installed, and a station that has moved is followed,
unless its entry is static (R392, R393). -/
def Chip.learns (s : Chip) (ev : LearnEvent) : Chip :=
  match s.found 0 ev.key true with
  | none => s.install ev
  | some (x, i, e) => if e.static || e.dest = ev.dest then s else s.stationMove x i e ev

section
variable {s : Chip} {part : Nat} {ev : LearnEvent} {rest : List LearnEvent}

theorem learnEvent_idle (h : s.fwd.learn.get part = []) : learnEvent part s = s := by
  rw [learnEvent, h]

variable (h : s.fwd.learn.get part = ev :: rest)
include h

theorem learnEvent_reports (hcfg : bit (s.act Reg.FWD_LEARN_CFG) 0 = true) :
    learnEvent part s = (s.learnTaken part rest).learnRequest part ev := by
  simp only [learnEvent, h, hcfg, if_true, Chip.learnTaken]

variable (hcfg : bit (s.act Reg.FWD_LEARN_CFG) 0 = false) {v : Chip} (hv : ((s.learnTaken part rest).faultAt 0 ev.key true false ev.stamp).2 = v)
include hcfg hv

theorem learnEvent_learns : learnEvent part s = v.learns ev := by
  subst hv
  simp only [learnEvent, h, hcfg, Bool.false_eq_true, if_false]
  rfl

end

section
variable {s : Chip} {x i : Nat} {e : Entry} {ev : LearnEvent}

theorem Chip.learns_absent (h : s.found 0 ev.key true = none) : s.learns ev = s.install ev := by
  rw [Chip.learns, h]

theorem Chip.learns_unmoved (h : s.found 0 ev.key true = some (x, i, e)) (he : e.static = true ∨ e.dest = ev.dest) : s.learns ev = s := by
  rw [Chip.learns, h]
  exact if_pos (by simpa using he)

theorem Chip.learns_moved (h : s.found 0 ev.key true = some (x, i, e)) (hstatic : e.static = false) (hdest : e.dest ≠ ev.dest) :
    s.learns ev = s.stationMove x i e ev := by
  rw [Chip.learns, h]
  exact if_neg (by simp [hstatic, hdest])

theorem Chip.stationMove_flapping (h : e.flapping = true) : s.stationMove x i e ev = s.bump Reg.FWD_MOVE_IGNORED := if_pos h

/-- A move that comes after the window of moves begins to count anew (R393). -/
theorem Chip.stationMove_late (h : e.flapping = false) (hlate : fld (s.act Reg.FWD_LEARN_CFG) 19 7 ≤ (s.moveTime + 16384 - efld e 45 32) % 16384) :
    s.stationMove x i e ev = s.moveTo x i (setEfld (setEfld e 45 32 s.moveTime) 49 46 1) ev := by
  simp only [Chip.stationMove, h, Bool.false_eq_true, if_false, if_pos hlate]

end

/-! ### Ageing (R398 to R400, R752) -/

section
variable {s : Chip} {table x i : Nat}

theorem Chip.ageStep_skips (h : (s.entry table x i).valid = false ∨ (s.entry table x i).static = true) : s.ageStep table x i = (3, s) :=
  if_pos (by simpa using h)

section
variable (hvalid : (s.entry table x i).valid = true) (hstatic : (s.entry table x i).static = false)
include hvalid hstatic

theorem Chip.ageStep_hit (hhit : (s.entry table x i).hit = true) :
    s.ageStep table x i = (0, s.setEntry table x i (setEfld (s.entry table x i) 125 124 0)) := by
  simp [Chip.ageStep, hvalid, hstatic, hhit]

variable (hhit : (s.entry table x i).hit = false)
include hhit

theorem Chip.ageStep_unused (haged : (s.entry table x i).aged = false) :
    s.ageStep table x i = (1, s.setEntry table x i (setEfld (s.entry table x i) 124 124 1)) := by
  simp [Chip.ageStep, hvalid, hstatic, hhit, haged]

theorem Chip.ageStep_aged (haged : (s.entry table x i).aged = true) : s.ageStep table x i =
    (2, ((s.setEntry table x i 0).bump Reg.FWD_AGED_OUT).report 4 table (entryKey table (s.entry table x i)) 0 (s.entry table x i) 0) := by
  simp [Chip.ageStep, hvalid, hstatic, hhit, haged]

end

/-- What a sweeper's visit does with an entry: one that fails its check is removed and reported, any other ages (R382, R398). -/
def Chip.visited (s : Chip) (table x i : Nat) : Chip :=
  if (s.entry table x i).valid && s.entryBad table x i false then s.entryErr table x i 0 else (s.ageStep table x i).2

theorem Chip.visited_bad (hvalid : (s.entry table x i).valid = true) (hbad : s.entryBad table x i false = true) :
    s.visited table x i = s.entryErr table x i 0 := if_pos (by simp [hvalid, hbad])

theorem Chip.visited_ages (h : (s.entry table x i).valid = false ∨ s.entryBad table x i false = false) {a : Nat} {u : Chip}
    (hage : s.ageStep table x i = (a, u)) : s.visited table x i = u :=
  (if_neg (by rcases h with h | h <;> simp [h])).trans (congrArg Prod.snd hage)

/-- The part with a table's sweeper changed. -/
def Chip.setSweeper (s : Chip) (table : Nat) (w : Sweeper) : Chip := s.updFwd fun f => { f with sweepers := f.sweepers.set table w }

theorem Chip.sweeper_setSweeper (w : Sweeper) : (s.setSweeper table w).fwd.sweepers.get table = w := Map.get_set_self s.fwd.sweepers table w

theorem sweepVisit_waits (h : (s.fwd.sweepers.get table).running = false ∨ s.frc < s.sweepDue table) : sweepVisit table s = s :=
  if_pos (by simpa using h)

theorem Chip.sweepSize_onDie : 1048576 ≤ s.sweepSize table := Nat.le_add_right _ _

variable {w : Sweeper} (hw : s.fwd.sweepers.get table = w) (hrun : w.running = true) (hdue : s.sweepDue table ≤ s.frc) {u : Chip}
  (hu : s.visited table 0 w.pos = u)
include hw hrun hdue hu

/-- A visit of an entry on-die before the last one is followed by a visit of the next entry. -/
theorem sweepVisit_goesOn (hpos : w.pos < 1048575) : sweepVisit table s = u.setSweeper table { w with pos := w.pos + 1 } := by
  subst hw hu
  have hmore : (s.fwd.sweepers.get table).pos + 1 < s.sweepSize table := Nat.lt_of_lt_of_le (by omega) Chip.sweepSize_onDie
  have hdie : (s.fwd.sweepers.get table).pos < 1048576 := by omega
  simp only [sweepVisit, hrun, Nat.not_lt.mpr hdue, hmore, hdie, if_true, Bool.not_true, decide_false, Bool.or_self, Bool.false_eq_true, if_false]
  rfl

/-- The visit of the last entry ends the sweep, and the next one begins under the period then set. -/
theorem sweepVisit_ends (hpos : w.pos = 1048575) (hsize : s.sweepSize table = 1048576) :
    sweepVisit table s =
      (u.setField (Reg.FWD_SWEEPn table) 63 32 (fld (u.reg (Reg.FWD_SWEEPn table)) 63 32 + 1)).setSweeper table
        { w with pos := 0, period := fld (u.reg (Reg.FWD_SWEEPn table)) 31 0, since := w.since + w.period * 622080 } := by
  subst hw hu
  have hdie : (s.fwd.sweepers.get table).pos < 1048576 := by omega
  have hlast : ¬(s.fwd.sweepers.get table).pos + 1 < s.sweepSize table := by omega
  simp only [sweepVisit, hrun, Nat.not_lt.mpr hdue, hlast, hdie, if_true, Bool.not_true, decide_false, Bool.or_self, Bool.false_eq_true, if_false]
  rfl

end

section
variable {s : Chip} {table : Nat} {v : W64}

/-- A write of PERIOD is what the register shows, whatever it does to the sweeper (R752). -/
theorem sweepPeriodWrite_period : (sweepPeriodWrite table v s).get (Reg.FWD_SWEEPn table) 31 0 = fld v 31 0 := by
  have hset : (s.setField (Reg.FWD_SWEEPn table) 31 0 (fld v 31 0)).get (Reg.FWD_SWEEPn table) 31 0 = fld v 31 0 :=
    (Chip.get_setField_self s _ _ (by decide)).trans (Nat.mod_eq_of_lt (fld_lt v 31 0))
  unfold sweepPeriodWrite
  dsimp only
  split
  · exact hset
  split
  · exact hset
  · exact hset

theorem sweepPeriodWrite_stops (h : fld v 31 0 = 0) : (sweepPeriodWrite table v s).fwd.sweepers.get table = {} := by
  rw [sweepPeriodWrite, if_pos h]
  exact Map.get_set_self s.fwd.sweepers table {}

theorem sweepPeriodWrite_running (h : fld v 31 0 ≠ 0) (hrun : (s.fwd.sweepers.get table).running = true) : (sweepPeriodWrite table v s).fwd = s.fwd := by
  rw [sweepPeriodWrite, if_neg h, if_pos hrun]
  rfl

theorem sweepPeriodWrite_starts (h : fld v 31 0 ≠ 0) (hrun : (s.fwd.sweepers.get table).running = false) :
    (sweepPeriodWrite table v s).fwd.sweepers.get table = { running := true, pos := 0, period := fld v 31 0, since := s.frc } := by
  rw [sweepPeriodWrite, if_neg h, if_neg (by simp [hrun])]
  exact Chip.sweeper_setSweeper _

end

/-! ### What a table operation answers (R386 to R388, R400) -/

section
variable {s : Chip} {flags : Nat} {e : Entry} {fault : Bool}

section
variable {act : Nat → Nat → Entry → TblAnswer}

theorem Chip.tblOn_missing (h : s.found (tblTable flags) (entryKey (tblTable flags) e) (tblExt flags) = none) :
    s.tblOn flags e fault act = { status := 1, chip := s } := by
  rw [Chip.tblOn, h]

variable {x i : Nat} {g : Entry} (h : s.found (tblTable flags) (entryKey (tblTable flags) e) (tblExt flags) = some (x, i, g))
include h

theorem Chip.tblOn_bad (hbad : s.entryBad (tblTable flags) x i fault = true) :
    s.tblOn flags e fault act = { status := 4, loc := locOf x i, chip := s.entryErr (tblTable flags) x i 0 } := by
  rw [Chip.tblOn, h]
  exact if_pos hbad

theorem Chip.tblOn_found (hgood : s.entryBad (tblTable flags) x i fault = false) : s.tblOn flags e fault act = act x i g := by
  rw [Chip.tblOn, h]
  exact if_neg (Bool.eq_false_iff.mp hgood)

end

/-- TBL.AGE of an entry used since the last sweep clears its HIT, which is AGE_ACTION 0 (R398, R400). -/
theorem Chip.tblAge_hit {x i : Nat} {g : Entry} (h : s.found (tblTable flags) (entryKey (tblTable flags) e) (tblExt flags) = some (x, i, g))
    (hgood : s.entryBad (tblTable flags) x i fault = false) (hvalid : g.valid = true) (hstatic : g.static = false) (hhit : g.hit = true) :
    s.tblAge flags e fault = { loc := locOf x i, chip := s.setEntry (tblTable flags) x i (setEfld g 125 124 0) } := by
  have hg := Chip.entry_of_found h
  rw [Chip.tblAge, Chip.tblOn_found h hgood, Chip.ageStep_hit (hg ▸ hvalid) (hg ▸ hstatic) (hg ▸ hhit), hg]
  simp only [Nat.zero_shiftLeft, Nat.add_zero]

/-- TBL.FIND without TOUCH returns the entry and changes nothing. -/
theorem Chip.tblFind_untouched {x i : Nat} {g : Entry}
    (h : s.found (tblTable flags) (entryKey (tblTable flags) e) (tblExt flags) = some (x, i, g))
    (hgood : s.entryBad (tblTable flags) x i fault = false) (htouch : tblTouch flags = false) :
    s.tblFind flags e fault = { entry := some g, loc := locOf x i, chip := s } := by
  rw [Chip.tblFind, Chip.tblOn_found h hgood, htouch]
  rfl

theorem Chip.tblInsert_reserved (h : reservedDest e.dest = true) : s.tblInsert flags e fault = { status := 5, chip := s } := if_pos h

section
variable (hdest : reservedDest e.dest = false) {x i : Nat} {g : Entry}
  (h : s.found (tblTable flags) (entryKey (tblTable flags) e) (tblExt flags) = some (x, i, g))
  (hgood : s.entryBad (tblTable flags) x i fault = false)
include hdest h hgood

theorem Chip.tblInsert_present (hreplace : tblReplace flags = false) :
    s.tblInsert flags e fault = { status := 3, loc := locOf x i, chip := s } := by
  simp only [Chip.tblInsert, hdest, h, hgood, hreplace, Bool.false_eq_true, if_false]

theorem Chip.tblInsert_replaces (hreplace : tblReplace flags = true) {now : Nat} (hnow : s.moveTime = now) : s.tblInsert flags e fault =
    { loc := locOf x i, chip := s.setEntry (tblTable flags) x i (replaced (tblTable flags) g (tblStatic flags) e.dest now) } := by
  subst hnow
  simp only [Chip.tblInsert, hdest, h, hgood, hreplace, Bool.false_eq_true, if_false, if_true]

end

/-- An insert returns no entry. -/
theorem Chip.tblInsert_entry : (s.tblInsert flags e fault).entry = none := by
  unfold Chip.tblInsert
  dsimp only
  split
  · rfl
  split
  · split
    · rfl
    split <;> rfl
  · split <;> rfl

theorem Chip.tblInsert_parts : s.tblInsert flags e fault =
    { status := (s.tblInsert flags e fault).status, loc := (s.tblInsert flags e fault).loc, chip := (s.tblInsert flags e fault).chip } :=
  congrArg (fun n => { s.tblInsert flags e fault with entry := n }) Chip.tblInsert_entry

end

/-! ### A host command begun and ended (R402) -/

/-- FWD_TBL_CMD as a command begins: OP and flags as written, and RUNNING set. -/
def Chip.tblBegun (s : Chip) (op flags : Nat) : Chip := (s.setField Reg.FWD_TBL_CMD 6 0 (op + flags <<< 2)).setFlag Reg.FWD_TBL_CMD 8 true

/-- A command waits with the status and the location that it will show. -/
def Chip.tblEnded (s : Chip) (status loc : Nat) : Chip := s.updFwd fun f => { f with command := some (status, w64 loc) }

section
variable {s : Chip} {op flags : Nat} {run : Chip → Entry → TblAnswer}

theorem Chip.reg_tblBegun {r : Nat} (h : r ≠ Reg.FWD_TBL_CMD) : (s.tblBegun op flags).reg r = s.reg r :=
  (Chip.reg_setReg_other _ _ h).trans (Chip.reg_setReg_other _ _ h)

theorem Chip.tblEntry_tblBegun : (s.tblBegun op flags).tblEntry = s.tblEntry := by
  rw [Chip.tblEntry, Chip.tblEntry, Chip.reg_tblBegun (by decide), Chip.reg_tblBegun (by decide)]

theorem Chip.moveTime_tblBegun : (s.tblBegun op flags).moveTime = s.moveTime := by
  have hrate : (s.tblBegun op flags).reg Reg.TIME_RATE = s.reg Reg.TIME_RATE := Chip.reg_tblBegun (by decide)
  have hlogical : (s.tblBegun op flags).logical = s.logical := by
    simp only [Chip.logical, Chip.logicalAt, Chip.rate, Chip.get, hrate]
    rfl
  rw [Chip.moveTime, Chip.moveTime, hlogical]

theorem Chip.tblCmd_busy (h : s.fwd.command.isSome = true) : s.tblCmd op flags run = s.raise Reg.FWD_EVENT 8 := if_pos h

section
variable {u : Chip} {status loc : Nat} (h : s.fwd.command = none)
include h

/-- A command that returns no entry leaves the entry registers. -/
theorem Chip.tblCmd_answers (hrun : run (s.tblBegun op flags) s.tblEntry = { status := status, loc := loc, chip := u }) :
    s.tblCmd op flags run = u.tblEnded status loc := by
  rw [← Chip.tblEntry_tblBegun (op := op) (flags := flags), Chip.tblBegun] at hrun
  simp only [Chip.tblCmd, h, Option.isSome_none, Bool.false_eq_true, if_false, hrun]
  rfl

/-- An entry that a command returns goes to the entry registers. -/
theorem Chip.tblCmd_returns {g : Entry} (hrun : run (s.tblBegun op flags) s.tblEntry = { status := status, entry := some g, loc := loc, chip := u }) :
    s.tblCmd op flags run =
      ((u.setReg Reg.FWD_TBL_ENTRY_HI (w64 (efld g 127 64))).setReg Reg.FWD_TBL_ENTRY_LO (w64 (efld g 63 0))).tblEnded status loc := by
  rw [← Chip.tblEntry_tblBegun (op := op) (flags := flags), Chip.tblBegun] at hrun
  simp only [Chip.tblCmd, h, Option.isSome_none, Bool.false_eq_true, if_false, hrun]
  rfl

end

theorem fwdCmdDone_idle (h : s.fwd.command = none) : fwdCmdDone s = s := by
  rw [fwdCmdDone, h]

theorem fwdCmdDone_parts {st : Nat} {loc : W64} (h : s.fwd.command = some (st, loc)) :
    (fwdCmdDone s).get Reg.FWD_TBL_CMD 11 9 = st % 8 ∧ (fwdCmdDone s).flag Reg.FWD_TBL_CMD 8 = false ∧
      (fwdCmdDone s).reg Reg.FWD_TBL_LOC = loc ∧ (fwdCmdDone s).fwd = { s.fwd with command := none } := by
  rw [fwdCmdDone, h]
  have hloc (u : Chip) : (u.setReg Reg.FWD_TBL_LOC loc).reg Reg.FWD_TBL_CMD = u.reg Reg.FWD_TBL_CMD := Chip.reg_setReg_other _ _ (by decide)
  refine ⟨?_, ?_, Chip.reg_setReg_self _ _ _, rfl⟩
  · refine (congrArg (fld · 11 9) (hloc _)).trans ?_
    exact (Chip.get_setFlag_bit _ _ false (by decide) (by decide)).trans (Chip.get_setField_self _ _ st (by decide))
  · exact (congrArg (bit · 8) (hloc _)).trans (Chip.flag_setFlag_self _ _ false (by decide))

end

/-- Settles O39: an event by what the lookup finds, a visit by the entry's state, and a host command by the answer of the table operation that it runs. -/
theorem forwardingTablesAreKept : Obligations.ForwardingTablesAreKept := by
  intro s part table flags fault v hr c w visit next
  have hruns {i : Instr} {f : Chip → Chip} {y : Chip} (he : exec i s = s.core f) (hf : f c = y) : Runs i s y := runs_of_core_eq he hr hf
  refine ⟨fun hl => hruns rfl (learnEvent_idle hl), ?learn, fun hstop => hruns rfl (sweepVisit_waits (.inl hstop)),
    fun hearly => hruns rfl (sweepVisit_waits (.inr hearly)),
    fun hrun hdue hpos hvalid hbad => hruns rfl (sweepVisit_goesOn rfl hrun hdue (Chip.visited_bad hvalid hbad) hpos),
    fun hrun hdue hpos hsize hvalid => hruns rfl
      (sweepVisit_ends rfl hrun hdue (Chip.visited_ages (.inl hvalid) (Chip.ageStep_skips (.inl hvalid))) hpos hsize),
    ?ages, ⟨_, hruns rfl rfl, sweepPeriodWrite_period, sweepPeriodWrite_stops, sweepPeriodWrite_running, sweepPeriodWrite_starts⟩,
    fun hbusy => ⟨hruns rfl (Chip.tblCmd_busy hbusy), hruns rfl (Chip.tblCmd_busy hbusy), hruns rfl (Chip.tblCmd_busy hbusy),
      hruns rfl (Chip.tblCmd_busy hbusy)⟩,
    ?commands, fun st loc hst => ⟨_, hruns rfl rfl, fwdCmdDone_parts hst⟩⟩
  case learn =>
    intro ev rest hl u
    have hlearns (hcfg : bit (c.act Reg.FWD_LEARN_CFG) 0 = false) {y : Chip} (hy : (u.faultAt 0 ev.key true false ev.stamp).2.learns ev = y) :
        Runs (.learnEvent part) s y := hruns rfl ((learnEvent_learns hl hcfg rfl).trans hy)
    exact ⟨fun hcfg => hruns rfl (learnEvent_reports hl hcfg), fun hcfg hfound => hlearns hcfg (Chip.learns_absent hfound),
      fun x i e hcfg hfound he => hlearns hcfg (Chip.learns_unmoved hfound he),
      fun x i e hcfg hfound hstatic hdest hflap => hlearns hcfg
        ((Chip.learns_moved hfound hstatic hdest).trans (Chip.stationMove_flapping hflap)),
      fun x i e hcfg hfound hstatic hdest hflap hlate => hlearns hcfg
        ((Chip.learns_moved hfound hstatic hdest).trans (Chip.stationMove_late hflap hlate))⟩
  case ages =>
    intro hrun hdue hpos hgood
    have hvisits {a : Nat} {u : Chip} (hage : c.ageStep table 0 w.pos = (a, u)) : Runs (.sweepVisit table) s (next u) :=
      hruns rfl (sweepVisit_goesOn rfl hrun hdue (Chip.visited_ages (.inr hgood) hage) hpos)
    exact ⟨fun hskip => hvisits (Chip.ageStep_skips hskip), fun hvalid hstatic hhit => hvisits (Chip.ageStep_hit hvalid hstatic hhit),
      fun hvalid hstatic hhit haged => hvisits (Chip.ageStep_unused hvalid hstatic hhit haged),
      fun hvalid hstatic hhit haged => hvisits (Chip.ageStep_aged hvalid hstatic hhit haged)⟩
  case commands =>
    intro hidle begun ends t e hit
    have hnow : (c.tblBegun 1 flags).moveTime = c.moveTime := Chip.moveTime_tblBegun
    refine ⟨fun hmiss => ?missing, fun x i g hfound hbad => ?bad, fun x i g hfound hgood => ?found,
      hruns rfl (Chip.tblCmd_answers hidle Chip.tblInsert_parts),
      fun hdest => hruns rfl (Chip.tblCmd_answers hidle (Chip.tblInsert_reserved hdest)),
      fun x i g hdest hfound hgood hkeep => hruns rfl (Chip.tblCmd_answers hidle (Chip.tblInsert_present hdest hfound hgood hkeep)),
      fun x i g hdest hfound hgood hreplace => hruns rfl (Chip.tblCmd_answers hidle
        (Chip.tblInsert_replaces (s := c.tblBegun 1 flags) hdest hfound hgood hreplace hnow)), hruns rfl (fwdCmdDone_idle hidle)⟩
    case missing =>
      exact ⟨hruns rfl (Chip.tblCmd_answers hidle (Chip.tblOn_missing hmiss)), hruns rfl (Chip.tblCmd_answers hidle (Chip.tblOn_missing hmiss)),
        hruns rfl (Chip.tblCmd_answers hidle (Chip.tblOn_missing hmiss))⟩
    case bad =>
      exact ⟨hruns rfl (Chip.tblCmd_answers hidle (Chip.tblOn_bad hfound hbad)), hruns rfl (Chip.tblCmd_answers hidle (Chip.tblOn_bad hfound hbad))⟩
    case found =>
      exact ⟨fun htouch => hruns rfl (Chip.tblCmd_returns hidle (Chip.tblFind_untouched hfound hgood htouch)),
        hruns rfl (Chip.tblCmd_answers hidle (Chip.tblOn_found hfound hgood)),
        fun hvalid hstatic hhit => hruns rfl (Chip.tblCmd_answers hidle (Chip.tblAge_hit hfound hgood hvalid hstatic hhit))⟩

end Sys2Proof.Machine
end

section
/-! TM: staged records, the steps of admission, the choice of a frame, returns from DDR5, releases, drains, samples and refills (R407 to R443). -/
namespace Sys2Proof.Machine
open Sys2Proof.Claim

/-- Two words agree in a field when they agree in both parts of it. -/
theorem fld_eq_of_parts {v w : W64} {hi mid lo : Nat} (hhigh : fld v hi (mid + 1) = fld w hi (mid + 1)) (hlow : fld v mid lo = fld w mid lo) :
    fld v hi lo = fld w hi lo := by
  apply Nat.eq_of_testBit_eq
  intro j
  rw [testBit_fld, testBit_fld]
  by_cases hj : lo + j ≤ mid
  · have hbit := congrArg (Nat.testBit · j) hlow
    simp only [testBit_fld, show j < mid + 1 - lo by omega, decide_true, Bool.true_and] at hbit
    rw [hbit]
  · by_cases hin : j < hi + 1 - lo
    · have hbit := congrArg (Nat.testBit · (lo + j - (mid + 1))) hhigh
      simp only [testBit_fld, show lo + j - (mid + 1) < hi + 1 - (mid + 1) by omega, decide_true, Bool.true_and,
        show mid + 1 + (lo + j - (mid + 1)) = lo + j by omega] at hbit
      rw [hbit]
    · simp [hin]

/-! ### Staged records (R443) -/

theorem recPush_refused {s : Chip} (h : s.goPending Reg.TM_COMMIT = true ∨ 64 ≤ s.tm.staged.length ∨
    kindCount (fld (s.reg Reg.TM_REC_SEL) 2 0) ≤ fld (s.reg Reg.TM_REC_SEL) 23 3) : recPush s = s.raise Reg.TM_COMMIT 2 :=
  if_pos (by simpa [or_assoc] using h)

theorem recPush_stages {s : Chip} (hgo : s.goPending Reg.TM_COMMIT = false) (hroom : s.tm.staged.length < 64)
    (hsel : fld (s.reg Reg.TM_REC_SEL) 23 3 < kindCount (fld (s.reg Reg.TM_REC_SEL) 2 0)) :
    recPush s = s.updTm fun t => { t with
      staged := (t.staged.filter fun e => e.1 ≠ tmKey (fld (s.reg Reg.TM_REC_SEL) 2 0) (fld (s.reg Reg.TM_REC_SEL) 23 3)) ++
        [(tmKey (fld (s.reg Reg.TM_REC_SEL) 2 0) (fld (s.reg Reg.TM_REC_SEL) 23 3),
          { w0 := s.reg (Reg.TM_REC_STGk 0), w1 := s.reg (Reg.TM_REC_STGk 1), w2 := s.reg (Reg.TM_REC_STGk 2) })] } :=
  if_neg (by simp [hgo, hroom, hsel])

/-! ### Admission (R407, R409, R416, R417, R430) -/

section
variable {s : Chip} {f : PipeFrame} {k : Nat} {ovfBusy : Bool}

theorem Chip.police_unpoliced {len : Nat} (h : s.policed k = false) : s.police k len = (true, s) :=
  if_pos (by rw [h]; rfl)

theorem Chip.police_short {len : Nat} (h : s.policed k = true)
    (hshort : s.tokens kPolicer (fld (s.tmRec kQueue k).w0 44 27) < (len : Int) * tokenByte) : s.police k len = (false, s) := by
  rw [Chip.police, h]
  exact if_neg (Int.not_le.mpr hshort)

theorem Chip.admitSteps_unmapped (h : s.mapQueue f = none) : s.admitSteps f ovfBusy = (some (Reg.TM_DROP_MAP, none), s) := by
  rw [Chip.admitSteps, h]

section
variable (h : s.mapQueue f = some k)
include h

theorem Chip.admitSteps_closed (hclosed : (s.tmRec kQueue k).qEn = false ∨ (s.tmRec kQueue k).qAccept = false) :
    s.admitSteps f ovfBusy = (some (Reg.TM_DROP_ACCEPT, some k), s) := by
  rw [Chip.admitSteps, h]
  exact if_pos (by simpa using hclosed)

variable (hen : (s.tmRec kQueue k).qEn = true) (haccept : (s.tmRec kQueue k).qAccept = true)
include hen haccept

theorem Chip.admitSteps_policed (hpol : s.policed k = true)
    (hshort : s.tokens kPolicer (fld (s.tmRec kQueue k).w0 44 27) < (f.length : Int) * tokenByte) :
    s.admitSteps f ovfBusy = (some (Reg.TM_DROP_POLICER, some k), s) := by
  simp [Chip.admitSteps, h, hen, haccept, Chip.police_short hpol hshort]

variable (hpol : s.policed k = false)
include hpol

theorem Chip.admitSteps_deep (hdeep : fld (s.tmRec kQueue k).w1 23 0 * 1024 < (s.tmQueue k).depth + s.admitLen f) :
    s.admitSteps f ovfBusy = (some (Reg.TM_DROP_DEPTH, some k), s) := by
  simp [Chip.admitSteps, h, hen, haccept, Chip.police_unpoliced hpol, hdeep]

variable (hdepth : (s.tmQueue k).depth + s.admitLen f ≤ fld (s.tmRec kQueue k).w1 23 0 * 1024)
include hdepth

/-- The steps that follow the test of the depth: the room in DDR5 of a frame that goes there, the free cells of another (R416, R430). -/
theorem Chip.admitSteps_placed :
    s.admitSteps f ovfBusy = if s.toDdr k then
        if ovfBusy || fld (s.act Reg.TM_OVF_SIZE) 17 0 * 1048576 < s.ovfUsed + f.length then (some (Reg.TM_DROP_OVF, some k), s.raise Reg.TM_EVENT 4)
        else (none, s)
      else if s.freeCells < cellsTested f (s.admitLen f) + (if (s.tmRec kQueue k).qExpress then 0 else fld (s.act Reg.TM_BUF_CFG) 19 0)
        then (some (Reg.TM_DROP_BUFFER, some k), s) else (none, s) := by
  simp [Chip.admitSteps, h, hen, haccept, Chip.police_unpoliced hpol, Nat.not_lt.mpr hdepth]

theorem Chip.admitSteps_ovfFull (hddr : s.toDdr k = true)
    (hfull : ovfBusy = true ∨ fld (s.act Reg.TM_OVF_SIZE) 17 0 * 1048576 < s.ovfUsed + f.length) :
    s.admitSteps f ovfBusy = (some (Reg.TM_DROP_OVF, some k), s.raise Reg.TM_EVENT 4) := by
  rw [Chip.admitSteps_placed h hen haccept hpol hdepth, if_pos hddr, if_pos (by simpa using hfull)]

theorem Chip.admitSteps_ovfFits (hddr : s.toDdr k = true) (hidle : ovfBusy = false)
    (hfits : s.ovfUsed + f.length ≤ fld (s.act Reg.TM_OVF_SIZE) 17 0 * 1048576) : s.admitSteps f ovfBusy = (none, s) := by
  rw [Chip.admitSteps_placed h hen haccept hpol hdepth, if_pos hddr, if_neg (by simpa [hidle] using hfits)]

theorem Chip.admitSteps_bufferFull (hdie : s.toDdr k = false) (hfull : s.freeCells <
      cellsTested f (s.admitLen f) + (if (s.tmRec kQueue k).qExpress = true then 0 else fld (s.act Reg.TM_BUF_CFG) 19 0)) :
    s.admitSteps f ovfBusy = (some (Reg.TM_DROP_BUFFER, some k), s) := by
  rw [Chip.admitSteps_placed h hen haccept hpol hdepth, if_neg (Bool.eq_false_iff.mp hdie), if_pos hfull]

theorem Chip.admitSteps_bufferFits (hdie : s.toDdr k = false)
    (hfits : cellsTested f (s.admitLen f) + (if (s.tmRec kQueue k).qExpress = true then 0 else fld (s.act Reg.TM_BUF_CFG) 19 0) ≤ s.freeCells) :
    s.admitSteps f ovfBusy = (none, s) := by
  rw [Chip.admitSteps_placed h hen haccept hpol hdepth, if_neg (Bool.eq_false_iff.mp hdie), if_neg (Nat.not_lt.mpr hfits)]

end
end

section
variable {s v : Chip} {half : Nat} {f : PipeFrame} {ovfBusy : Bool}

theorem tmAdmit_empty (h : s.prs.pipes.get half = []) : tmAdmit half ovfBusy s = s := by
  have hnone : s.nextReady half = none := by rw [Chip.nextReady, h]; rfl
  rw [tmAdmit, hnone]

/-- The part with a half's oldest frame taken out of its pipe. -/
def Chip.oldestTaken (s : Chip) (half : Nat) : Chip := s.updPrs fun p => { p with pipes := p.pipes.upd half (·.eraseIdx 0) }

variable (h : s.prs.pipes.get half = [f]) (hstage : f.stage = .ready)
include h hstage

theorem Chip.nextReady_single : s.nextReady half = some 0 := by
  simp [Chip.nextReady, h, nth, hstage, heldBack]

/-- A half's one frame meets the steps of admission with the half empty; the slow-path frame that it held back follows it (R384, R416). -/
theorem tmAdmit_unmapped {ctr : Nat} (hsteps : (s.oldestTaken half).admitSteps f ovfBusy = (some (ctr, none), v)) :
    tmAdmit half ovfBusy s = ((v.bump ctr).tmDiscard f false).releaseSlow half 1 := by
  have hnth : nth [f] 0 = f := rfl
  rw [Chip.oldestTaken] at hsteps
  simp only [tmAdmit, Chip.nextReady_single h hstage, h, hnth, hsteps, List.length_singleton]

theorem tmAdmit_drops {ctr k : Nat} (hsteps : (s.oldestTaken half).admitSteps f ovfBusy = (some (ctr, some k), v)) :
    tmAdmit half ovfBusy s = (((v.bump ctr).queueDropped k).tmDiscard f false).releaseSlow half 1 := by
  have hnth : nth [f] 0 = f := rfl
  rw [Chip.oldestTaken] at hsteps
  simp only [tmAdmit, Chip.nextReady_single h hstage, h, hnth, hsteps, List.length_singleton]

theorem tmAdmit_deposits {k : Nat} (hmap : v.mapQueue f = some k) (hsteps : (s.oldestTaken half).admitSteps f ovfBusy = (none, v)) :
    tmAdmit half ovfBusy s = (v.deposit k f).releaseSlow half 1 := by
  have hnth : nth [f] 0 = f := rfl
  rw [Chip.oldestTaken] at hsteps
  simp only [tmAdmit, Chip.nextReady_single h hstage, h, hnth, hsteps, hmap, List.length_singleton]

end

/-! ### The choice of a frame (R424, R425) -/

theorem Chip.pick_nil (s : Chip) (l node : Nat) (st : TmState) : s.pick [] (l + 1) node st = none := by
  simp [Chip.pick]

section
variable {s : Chip} {ask : EgressAsk}

theorem Chip.eligible_noQueues (h : s.tm.queues = []) : s.eligible ask = [] := by
  rw [Chip.eligible, h]
  rfl

theorem Chip.tmChoose_noneEligible (h : s.eligible ask = []) (ch : Nat) : s.tmChoose ch ask = s := by
  simp [Chip.tmChoose, h, Chip.pick_nil]

theorem Chip.dropLongHeads_noQueues (h : s.tm.queues = []) (t : Tree) (w : Wl) : s.dropLongHeads t w = s := by
  rw [Chip.dropLongHeads, h]
  rfl

theorem Chip.countHolds_noneEligible (h : s.eligible {} = []) (k : Nat) : s.countHolds k = s := by
  rw [Chip.countHolds, h]
  rfl

/-- The frame that the host's port chooses leaves its queue for its channel's egress. -/
theorem Chip.tmChoose_hostPort {ch k : Nat} {st : TmState} {x : TmFrame} {rest : List TmFrame} (hch : 96 ≤ ch)
    (hpick : s.pick ((s.eligible ask).filter fun p => 96 ≤ p.2.2.2) 4 40 s.tm = some (k, st)) (hframes : (s.tmQueue k).frames = x :: rest) :
    s.tmChoose ch ask = ((({ s with tm := { s.tm with deficits := st.deficits, pointers := st.pointers } } : Chip).setTmQueue k
      { s.tmQueue k with frames := rest }).handOver k x).clearDeficits k := by
  simp only [Chip.tmChoose, if_pos hch, hpick, hframes, List.headD_cons, List.drop_one, List.tail_cons]

end

section
variable {s : Chip} {ch : Fin 104}

theorem tmSelect_wavelength {t : Tree} {w : Wl} (hch : ch.val = wkey t w) :
    tmSelect ch s = ((s.dropLongHeads t w).pondAsk t w).elim (s.dropLongHeads t w) ((s.dropLongHeads t w).tmChoose ch) := by
  have hkey : ch.val = t.val * 2 + w.val := hch
  have ht : (⟨ch.val / 2 % 32, Nat.mod_lt _ (by decide)⟩ : Tree) = t := Fin.ext (by dsimp only; omega)
  have hw : (⟨ch.val % 2, Nat.mod_lt _ (by decide)⟩ : Wl) = w := Fin.ext (by dsimp only; omega)
  rw [tmSelect, if_pos (by omega), ht, hw]
  dsimp only
  cases (s.dropLongHeads t w).pondAsk t w with
  | none => rfl
  | some ask => rfl

section
variable (hlow : 64 ≤ ch.val) (hhigh : ch.val < 96)
include hlow hhigh

theorem tmSelect_uplinkWaits (h : s.subOn (ch.val - 64) = false ∨ (s.sub (ch.val - 64)).link = false ∨ s.tm.egress.get ch ≠ []) :
    tmSelect ch s = s := by
  rw [tmSelect, if_neg (Nat.not_lt.mpr hlow), if_pos hhigh]
  refine if_pos ?_
  rcases h with h | h | h <;> simp [h]

theorem tmSelect_uplinkAsks (hon : s.subOn (ch.val - 64) = true) (hlink : (s.sub (ch.val - 64)).link = true) (hnone : s.tm.egress.get ch = []) :
    tmSelect ch s = ((s.countHolds (ch.val - 64)).tmChoose ch { uplink := some (ch.val - 64) }).trimHolds (ch.val - 64) := by
  rw [tmSelect, if_neg (Nat.not_lt.mpr hlow), if_pos hhigh]
  exact if_neg (by simp [hon, hlink, hnone])

end

theorem tmSelect_host (hch : 96 ≤ ch.val) : tmSelect ch s = s.tmChoose ch {} := by
  rw [tmSelect, if_neg (by omega), if_neg (Nat.not_lt.mpr hch)]

theorem tmSelect_noQueues (h : s.tm.queues = []) : (tmSelect ch s).tm = s.tm := by
  have hnothing (ask : EgressAsk) : s.tmChoose ch ask = s := Chip.tmChoose_noneEligible (Chip.eligible_noQueues h) ch
  have hranges : ch.val < 64 ∨ (64 ≤ ch.val ∧ ch.val < 96) ∨ 96 ≤ ch.val := by omega
  obtain hwavelength | ⟨hlow, hhigh⟩ | hhost := hranges
  · have hch : ch.val = wkey ⟨ch.val / 2, by omega⟩ ⟨ch.val % 2, by omega⟩ := by unfold wkey; dsimp only; omega
    rw [tmSelect_wavelength hch, Chip.dropLongHeads_noQueues h]
    cases s.pondAsk ⟨ch.val / 2, by omega⟩ ⟨ch.val % 2, by omega⟩ with
    | none => rfl
    | some ask => exact congrArg Chip.tm (hnothing ask)
  · by_cases hwaits : s.subOn (ch.val - 64) = false ∨ (s.sub (ch.val - 64)).link = false ∨ s.tm.egress.get ch ≠ []
    · rw [tmSelect_uplinkWaits hlow hhigh hwaits]
    · obtain ⟨hon, hlink, hnone⟩ : s.subOn (ch.val - 64) = true ∧ (s.sub (ch.val - 64)).link = true ∧ s.tm.egress.get ch = [] := by
        simpa [not_or] using hwaits
      rw [tmSelect_uplinkAsks hlow hhigh hon hlink hnone, Chip.countHolds_noneEligible (Chip.eligible_noQueues h), hnothing]
      rfl
  · rw [tmSelect_host hhost, hnothing]

end

/-! ### Returns from DDR5 (R430) -/

section
variable {s : Chip} {q : Nat} {x : TmFrame}

theorem Chip.takeCells_tmQueue (n : Nat) : (s.takeCells n).tmQueue q = s.tmQueue q := by
  unfold Chip.takeCells Chip.raiseLow
  split
  · rfl
  · rfl

theorem TmQueue.onDie_ofDdr {y : TmQueue} (h : y.frames = [x]) (hddr : x.inDdr = true) : y.onDie = 0 := by
  simp [TmQueue.onDie, h, hddr]

theorem ovfReturn_empty (h : (s.tmQueue q).frames = []) : ovfReturn q s = (s.setTmQueue q (s.tmQueue q)).clearDeficits q := by
  have hqueue : ({ s.tmQueue q with frames := [] } : TmQueue) = s.tmQueue q := by rw [← h]
  rw [ovfReturn, h, List.foldl_nil]
  exact congrArg (fun y => (s.setTmQueue q y).clearDeficits q) hqueue

section
variable (h : (s.tmQueue q).frames = [x]) (hddr : x.inDdr = true) (hlimit : 0 < fld (s.tmRec kQueue q).w1 47 24)
  (hroom : cellsNeeded x.f x.f.length ≤ s.freeCells)
include h hddr hlimit hroom

/-- What holds a frame back in DDR5 does not hold for a queue's only frame while its limit is not 0 and there is room (R430). -/
theorem Chip.ovfReturn_notHeldBack : (false || decide (fld (s.tmRec kQueue q).w1 47 24 * 512 ≤ (s.tmQueue q).onDie) ||
    decide (s.freeCells < cellsNeeded x.f x.f.length)) = false := by
  have hhalf : ¬fld (s.tmRec kQueue q).w1 47 24 * 512 ≤ (s.tmQueue q).onDie := by
    rw [TmQueue.onDie_ofDdr h hddr]
    omega
  rw [decide_eq_false hhalf, decide_eq_false (Nat.not_lt.mpr hroom)]
  rfl

theorem ovfReturn_returns (hread : (x.at_.any fun p => s.poisoned p.1 p.2) = false) :
    ovfReturn q s = ((s.takeCells (cellsNeeded x.f x.f.length)).setTmQueue q
      { s.tmQueue q with frames := [{ x with inDdr := false, at_ := [], f := { x.f with bytes := s.ovfRead x.at_ } }] }).clearDeficits q := by
  have hmoves := Chip.ovfReturn_notHeldBack h hddr hlimit hroom
  rw [ovfReturn]
  dsimp only
  rw [h, List.foldl_cons, List.foldl_nil]
  simp only [hddr, Bool.not_true, Bool.false_eq_true, if_false, hmoves, hread, List.nil_append, Chip.takeCells_tmQueue]

theorem ovfReturn_drops (hlost : (x.at_.any fun p => s.poisoned p.1 p.2) = true) :
    ovfReturn q s = (((s.queueDropped q).tmDiscard x.f false).setTmQueue q
      { ((s.queueDropped q).tmDiscard x.f false).tmQueue q with frames := [] }).clearDeficits q := by
  have hmoves := Chip.ovfReturn_notHeldBack h hddr hlimit hroom
  rw [ovfReturn]
  dsimp only
  rw [h, List.foldl_cons, List.foldl_nil]
  simp only [hddr, Bool.not_true, Bool.false_eq_true, if_false, hmoves, hlost, if_true]

end
end

/-! ### Releases (R433) -/

section
variable {s : Chip}

theorem releaseRetry_none (h : s.tm.releases = []) : releaseRetry s = s := by
  have hsame : (s.updTm fun t => { t with releases := [] }) = s := by rw [Chip.updTm, ← h]
  rw [releaseRetry, h, List.foldl_nil, hsame]

variable {r : Release} {u : Chip} (h : s.tm.releases = [r])
include h

theorem releaseRetry_taken
    (hsend : (s.updTm fun t => { t with releases := [] }).sendQueue r.crucible r.queue (deviceSource 8 0) (wordBytes r.word) = (true, u)) :
    releaseRetry s = u := by
  rw [releaseRetry, h, List.foldl_cons, List.foldl_nil, hsend]

theorem releaseRetry_refused
    (hsend : (s.updTm fun t => { t with releases := [] }).sendQueue r.crucible r.queue (deviceSource 8 0) (wordBytes r.word) = (false, u)) :
    releaseRetry s = u.updTm fun t => { t with releases := t.releases ++ [r] } := by
  rw [releaseRetry, h, List.foldl_cons, List.foldl_nil, hsend]

end

/-! ### Drains (R437, R438) -/

section
variable {s : Chip} {v : W64}

theorem drainGo_refused (h : s.flag Reg.TM_DRAIN_CMD 37 = true ∨ fld v 35 20 = 0) : drainGo v s = s.raise Reg.TM_EVENT 5 := by
  unfold drainGo
  by_cases hrun : s.flag Reg.TM_DRAIN_CMD 37 = true
  · exact if_pos hrun
  · exact (if_neg hrun).trans (if_pos (h.resolve_left hrun))

/-- The part with TM_DRAIN_CMD as a drain that runs shows it: QUEUE and TIMEOUT as written, RUNNING, not TIMED_OUT (R437). -/
def Chip.drainRuns (s : Chip) (v : W64) : Chip :=
  (((s.setField Reg.TM_DRAIN_CMD 19 0 (fld v 19 0)).setField Reg.TM_DRAIN_CMD 35 20 (fld v 35 20)).setFlag Reg.TM_DRAIN_CMD 37 true).setFlag
    Reg.TM_DRAIN_CMD 38 false

theorem drainGo_starts (hidle : s.flag Reg.TM_DRAIN_CMD 37 = false) (htimeout : fld v 35 20 ≠ 0) : drainGo v s =
    ((s.drainRuns v).setTmRec kQueue (fld v 19 0)
      { s.tmRec kQueue (fld v 19 0) with w0 := setBit (s.tmRec kQueue (fld v 19 0)).w0 22 false }).updTm fun t =>
        { t with draining := some (fld v 19 0, s.frc) } := by
  unfold drainGo
  exact (if_neg (Bool.eq_false_iff.mp hidle)).trans (if_neg htimeout)

theorem Chip.drainRuns_command : (s.drainRuns v).get Reg.TM_DRAIN_CMD 35 0 = fld v 35 0 := by
  refine fld_eq_of_parts (mid := 19) ?timeout ?queue
  case timeout =>
    calc (s.drainRuns v).get Reg.TM_DRAIN_CMD 35 20
      _ = fld v 35 20 % 2 ^ (35 + 1 - 20) := by
        rw [Chip.drainRuns, Chip.get_setFlag_bit _ _ _ (by decide) (by decide), Chip.get_setFlag_bit _ _ _ (by decide) (by decide),
          Chip.get_setField_self _ _ _ (by decide)]
      _ = fld v 35 20 := Nat.mod_eq_of_lt (fld_lt v 35 20)
  case queue =>
    calc (s.drainRuns v).get Reg.TM_DRAIN_CMD 19 0
      _ = fld v 19 0 % 2 ^ (19 + 1 - 0) := by
        rw [Chip.drainRuns, Chip.get_setFlag_bit _ _ _ (by decide) (by decide), Chip.get_setFlag_bit _ _ _ (by decide) (by decide),
          Chip.get_setField_field _ _ _ (by decide) (by decide), Chip.get_setField_self _ _ _ (by decide)]
      _ = fld v 19 0 := Nat.mod_eq_of_lt (fld_lt v 19 0)

theorem Chip.drainRuns_running : (s.drainRuns v).flag Reg.TM_DRAIN_CMD 37 = true :=
  (Chip.flag_setFlag_bit _ _ _ (by decide) (by decide)).trans (Chip.flag_setFlag_self _ _ _ (by decide))

theorem Chip.drainRuns_notTimedOut : (s.drainRuns v).flag Reg.TM_DRAIN_CMD 38 = false := Chip.flag_setFlag_self _ _ _ (by decide)

theorem drainGo_parts (hidle : s.flag Reg.TM_DRAIN_CMD 37 = false) (htimeout : fld v 35 20 ≠ 0) :
    (drainGo v s).get Reg.TM_DRAIN_CMD 35 0 = fld v 35 0 ∧ (drainGo v s).flag Reg.TM_DRAIN_CMD 37 = true ∧
    (drainGo v s).flag Reg.TM_DRAIN_CMD 38 = false ∧ (drainGo v s).tm.draining = some (fld v 19 0, s.frc) ∧
    ((drainGo v s).tmRec kQueue (fld v 19 0)).qAccept = false ∧ (drainGo v s).tm.queues = s.tm.queues := by
  rw [drainGo_starts hidle htimeout]
  simp only [Chip.setTmRec, Chip.updTm_registers]
  exact ⟨Chip.drainRuns_command, Chip.drainRuns_running, Chip.drainRuns_notTimedOut, rfl,
    (congrArg TmRec.qAccept (Map.get_set_self _ _ _)).trans (bit_setBit_self _ _ (by decide)), rfl⟩

theorem Chip.drainEnd_parts : (s.drainEnd.raise Reg.TM_EVENT 0).flag Reg.TM_DRAIN_CMD 37 = false ∧
    (s.drainEnd.raise Reg.TM_EVENT 0).flag Reg.TM_EVENT 0 = true ∧ (s.drainEnd.raise Reg.TM_EVENT 0).tm = { s.tm with draining := none } :=
  ⟨(Chip.flag_setFlag_reg _ _ _ _ (by decide)).trans (Chip.flag_setFlag_self _ _ _ (by decide)), Chip.flag_setFlag_self _ _ _ (by decide), rfl⟩

theorem drainDone_none (h : s.tm.draining = none) : drainDone s = s := by
  rw [drainDone, h]

theorem drainTimeout_none (h : s.tm.draining = none) : drainTimeout s = s := by
  rw [drainTimeout, h]

variable {k since : Nat} (h : s.tm.draining = some (k, since))
include h

theorem drainTimeout_empty (hempty : (s.tmQueue k).frames = []) : drainTimeout s = s := by
  rw [drainTimeout, h]
  exact if_pos (by rw [hempty]; rfl)

theorem drainDone_waits (hframes : (s.tmQueue k).frames ≠ []) : drainDone s = s := by
  rw [drainDone, h]
  exact if_neg (by simpa using hframes)

theorem drainDone_empty (hempty : (s.tmQueue k).frames = []) : drainDone s = s.drainEnd.raise Reg.TM_EVENT 0 := by
  rw [drainDone, h]
  exact if_pos (by rw [hempty]; rfl)

theorem drainTimeout_drops {x : TmFrame} (hframes : (s.tmQueue k).frames = [x])
    (hdue : since + s.get Reg.TM_DRAIN_CMD 35 20 * frameTicks ≤ s.frc) : drainTimeout s =
      ((((((s.setTmQueue k { frames := [], drops := countAdd (s.tmQueue k).drops 1 }).tmDiscard x.f (!x.inDdr)).bump Reg.TM_DRAIN_DROPS).setFlag
        Reg.TM_DRAIN_CMD 38 true).drainEnd.raise Reg.TM_EVENT 1).clearDeficits k) := by
  rw [drainTimeout, h]
  dsimp only
  rw [hframes]
  exact if_neg (by simpa using hdue)

end

/-! ### Samples (R440) -/

section
variable {s : Chip} {q : Nat}

theorem Chip.tm_ddrWrite (off : Nat) (l : List Byte) : (s.ddrWrite off l).tm = s.tm := rfl

theorem queueSample_off (h : bit (s.act Reg.TM_SAMPLE_CFG) 4 = false ∨ (s.tmRec kQueue q).qEn = false) : queueSample q s = s :=
  if_pos (by simpa using h)

variable (hon : bit (s.act Reg.TM_SAMPLE_CFG) 4 = true) (hen : (s.tmRec kQueue q).qEn = true)
include hon hen

theorem queueSample_lost (hfull : (s.get (Reg.TM_SRING_PRODr (q / 131072)) 31 0 + 4294967296 - s.get (Reg.TM_SRING_CONSr (q / 131072)) 31 0) % 4294967296 =
    2 ^ fld (s.act (Reg.TM_SRING_CTRLr (q / 131072))) 4 0) : queueSample q s = (s.bump Reg.TM_SAMPLE_LOST).raise Reg.TM_EVENT 2 :=
  (if_neg (by simp [hon, hen])).trans (if_pos hfull)

theorem queueSample_written
    (hroom : (s.get (Reg.TM_SRING_PRODr (q / 131072)) 31 0 + 4294967296 - s.get (Reg.TM_SRING_CONSr (q / 131072)) 31 0) % 4294967296 ≠
      2 ^ fld (s.act (Reg.TM_SRING_CTRLr (q / 131072))) 4 0) :
    (queueSample q s).reg (Reg.TM_SRING_PRODr (q / 131072)) = w64 ((s.get (Reg.TM_SRING_PRODr (q / 131072)) 31 0 + 1) % 4294967296) ∧
    (queueSample q s).tm = s.tm := by
  unfold queueSample
  rw [if_neg (by simp [hon, hen])]
  dsimp only
  rw [if_neg hroom]
  exact ⟨Chip.reg_setReg_self _ _ _, by simp [Chip.tm_ddrWrite]⟩

end

/-! ### Refills (R425) -/

/-- A bucket refilled now holds the same when it is asked again at the same tick. -/
theorem refill_refill (rate burst : Nat) (b : Bucket) (now : Nat) :
    refill rate burst { level := refill rate burst b now, at_ := now } now = refill rate burst b now := by
  simp [refill]

section
variable {s : Chip} {kind i : Nat}

theorem Chip.tokens_refilled : (s.setTokens kind i (s.tokens kind i)).tokens kind i = s.tokens kind i := by
  have hbucket : (s.setTokens kind i (s.tokens kind i)).tm.buckets.get (tmKey kind i) = { level := s.tokens kind i, at_ := s.frc } :=
    Map.get_set_self _ _ _
  rw [Chip.tokens, hbucket]
  exact refill_refill _ _ _ _

theorem shaperEligible_waits (h : s.shaped kind i = false ∨ s.tokens kind i ≤ 0) : shaperEligible kind i s = s := by
  refine if_neg fun hboth => ?_
  obtain ⟨hon, hpos⟩ := Bool.and_eq_true_iff.mp hboth
  obtain hoff | hempty := h
  · exact Bool.false_ne_true (hoff.symm.trans hon)
  · exact absurd (of_decide_eq_true hpos) (Int.not_lt.mpr hempty)

theorem shaperEligible_refills (hon : s.shaped kind i = true) (htokens : 0 < s.tokens kind i) :
    shaperEligible kind i s = s.setTokens kind i (s.tokens kind i) :=
  if_pos (by simp [hon, htokens])

theorem Chip.refilled_parts (htokens : 0 < s.tokens kind i) :
    (s.setTokens kind i (s.tokens kind i)).tm.buckets.get (tmKey kind i) = { level := s.tokens kind i, at_ := s.frc } ∧
    (s.setTokens kind i (s.tokens kind i)).tokens kind i = s.tokens kind i ∧
    (s.setTokens kind i (s.tokens kind i)).shaperOpen kind i = true ∧ (s.setTokens kind i (s.tokens kind i)).regs = s.regs := by
  refine ⟨Map.get_set_self _ _ _, Chip.tokens_refilled, ?_, rfl⟩
  rw [Chip.shaperOpen, Chip.tokens_refilled, decide_eq_true htokens, Bool.or_true]

end

/-- Settles O40: a frame admitted by the step at which it fails, a choice by what the egress asks, and every other command of TM by the state of what it acts
on. -/
theorem queuesAdmitDrainAndSample : Obligations.QueuesAdmitDrainAndSample := by
  intro s half ovfBusy q v hr c sel key
  have hruns {i : Instr} {f : Chip → Chip} {y : Chip} (he : exec i s = s.core f) (hf : f c = y) : Runs i s y := runs_of_core_eq he hr hf
  refine ⟨fun h => hruns rfl (recPush_refused h), fun hgo hroom hsel => ⟨_, hruns rfl (recPush_stages hgo hroom hsel), rfl, rfl, rfl⟩,
    fun h => hruns rfl (tmAdmit_empty h), fun f h hstage => ?admission,
    fun ch h => ⟨_, hruns rfl rfl, tmSelect_noQueues h⟩, fun ch hch => hruns rfl (tmSelect_host hch), fun ch hlow hhigh => ?uplink,
    fun t w ch hch => ?wavelength,
    fun ch k st x rest hch hpick hframes => hruns rfl ((tmSelect_host hch).trans (Chip.tmChoose_hostPort hch hpick hframes)),
    fun h => hruns rfl (ovfReturn_empty h), fun x h hddr hlimit hroom => ?overflow,
    fun h => hruns rfl (releaseRetry_none h), fun r h => ?release,
    fun h => hruns rfl (drainGo_refused h), fun hidle htimeout => ?drainStarts,
    fun h => ⟨hruns rfl (drainDone_none h), hruns rfl (drainTimeout_none h)⟩, fun k since h => ?draining, ?sample, fun kind place => ?refill⟩
  case admission =>
    intro u runs drops
    have hdrops {ctr k : Nat} {y : Chip} (hsteps : u.admitSteps f ovfBusy = (some (ctr, some k), y)) : drops y ctr k :=
      hruns rfl (tmAdmit_drops h hstage hsteps)
    have hdeposits {k : Nat} (hmap : c.mapQueue f = some k) (hsteps : u.admitSteps f ovfBusy = (none, u)) : runs (u.deposit k f) :=
      hruns rfl (tmAdmit_deposits h hstage hmap hsteps)
    refine ⟨fun hmap => hruns rfl (tmAdmit_unmapped h hstage (Chip.admitSteps_unmapped hmap)), fun k hmap => ?mapped⟩
    refine ⟨fun hclosed => hdrops (Chip.admitSteps_closed hmap hclosed), fun hen haccept => ?accepted⟩
    refine ⟨fun hpol hshort => hdrops (Chip.admitSteps_policed hmap hen haccept hpol hshort), fun hpol => ?unpoliced⟩
    refine ⟨fun hdeep => hdrops (Chip.admitSteps_deep hmap hen haccept hpol hdeep), fun hdepth => ?placed⟩
    exact ⟨fun hddr hfull => hdrops (Chip.admitSteps_ovfFull hmap hen haccept hpol hdepth hddr hfull),
      fun hddr hidle hfits => hdeposits hmap (Chip.admitSteps_ovfFits hmap hen haccept hpol hdepth hddr hidle hfits),
      fun hdie hfull => hdrops (Chip.admitSteps_bufferFull hmap hen haccept hpol hdepth hdie hfull),
      fun hdie hfits => hdeposits hmap (Chip.admitSteps_bufferFits hmap hen haccept hpol hdepth hdie hfits)⟩
  case uplink =>
    exact ⟨fun h => hruns rfl (tmSelect_uplinkWaits hlow hhigh h),
      fun hon hlink hnone => hruns rfl (tmSelect_uplinkAsks hlow hhigh hon hlink hnone)⟩
  case wavelength =>
    exact ⟨fun hask => hruns rfl ((tmSelect_wavelength hch).trans (by rw [hask]; rfl)),
      fun ask hask => hruns rfl ((tmSelect_wavelength hch).trans (by rw [hask]; rfl))⟩
  case overflow =>
    exact ⟨fun hread => hruns rfl (ovfReturn_returns h hddr hlimit hroom hread),
      fun hlost => hruns rfl (ovfReturn_drops h hddr hlimit hroom hlost)⟩
  case release =>
    exact ⟨fun hsent => hruns rfl (releaseRetry_taken h (Prod.ext hsent rfl)), fun hsent => hruns rfl (releaseRetry_refused h (Prod.ext hsent rfl))⟩
  case drainStarts =>
    exact ⟨_, hruns rfl rfl, drainGo_parts hidle htimeout⟩
  case draining =>
    exact ⟨fun hempty => ⟨hruns rfl (drainTimeout_empty h hempty), _, hruns rfl (drainDone_empty h hempty), Chip.drainEnd_parts⟩,
      fun hframes => hruns rfl (drainDone_waits h hframes), fun x hframes hdue => hruns rfl (drainTimeout_drops h hframes hdue)⟩
  case sample =>
    exact ⟨fun h => hruns rfl (queueSample_off h), fun hon hen => ⟨fun hfull => hruns rfl (queueSample_lost hon hen hfull),
      fun hroom => ⟨_, hruns rfl rfl, queueSample_written hon hen hroom⟩⟩⟩
  case refill =>
    exact ⟨fun h => hruns rfl (shaperEligible_waits h),
      fun hon htokens => ⟨_, hruns rfl (shaperEligible_refills hon htokens), Chip.refilled_parts htokens⟩⟩

end Sys2Proof.Machine
end

section
/-! Key slots and cipher units: what a load, a record's writing and a slot command do, and every command of the slots and units (R452, R453, R457, R460, R461,
R473 to R475, R478, R481, R486). -/
namespace Sys2Proof.Machine
open Sys2Proof.Claim

/-! ### Slots and their keys (R452, R460) -/

theorem RegsOnly.slot_eq {s u : Chip} (h : RegsOnly s u) (k : Nat) : u.slot k = s.slot k := by
  unfold RegsOnly at h
  rw [h]
  rfl

section
variable (s : Chip) {j k : Nat} (x : Slot)

@[simp] theorem Chip.slot_setSlot_self : (s.setSlot k x).slot k = x := Map.get_set_self s.ciph.slots k x

theorem Chip.slot_setSlot_other (h : j ≠ k) : (s.setSlot k x).slot j = s.slot j := Map.get_set_other s.ciph.slots x h

theorem Chip.slot_eraseSlot_self : (s.eraseSlot k).slot k = { loads := (s.slot k).loads + 1 } := s.slot_setSlot_self _

theorem Chip.slot_eraseSlot_other (h : j ≠ k) : (s.eraseSlot k).slot j = s.slot j := s.slot_setSlot_other _ h

end

/-! ### The key store (R461, R473, R474) -/

section
variable {s v : Chip} {k : Nat} {x : Slot}

theorem Chip.writeRecord_unserved (h : s.ddrHas (s.recordAt k) 64 = false) : s.writeRecord k x = none := by
  rw [Chip.writeRecord, h, if_neg Bool.false_ne_true]

theorem Chip.writeRecord_served (h : s.ddrHas (s.recordAt k) 64 = true) : ∃ v, s.writeRecord k x = some v := by
  rw [Chip.writeRecord, if_pos h]
  exact ⟨_, rfl⟩

/-- A record's writing draws masks and changes DDR5: slots, registers and threads stay. -/
theorem Chip.writeRecord_keeps (h : s.writeRecord k x = some v) : v.ciph.slots = s.ciph.slots ∧ v.regs = s.regs ∧ v.cru = s.cru := by
  obtain ⟨-, h⟩ := Option.ite_none_right_eq_some.mp h
  cases h
  exact ⟨rfl, rfl, rfl⟩

theorem Chip.slot_of_slots (h : v.ciph.slots = s.ciph.slots) (j : Nat) : v.slot j = s.slot j := by rw [Chip.slot, Chip.slot, h]

/-- The slot that a load makes of what it is given and the key (R461). -/
def Chip.freshSlot (s : Chip) (k mode limit : Nat) (saveOk : Bool) (label : W64) (key : Nat) : Slot :=
  { state := 1, mode := mode, limit := limit, saveOk := saveOk, label := label, key := key ^^^ s.keyMask.1, mask := s.keyMask.1,
    reserved := 2 ^ (limit - 6), loads := (s.slot k).loads + 1 }

section
variable (mode limit : Nat) (saveOk : Bool) (label : W64) (key : Nat)

/-- The key held under its mask reads back whole (R452). -/
theorem Chip.plainKey_freshSlot : (s.freshSlot k mode limit saveOk label key).plainKey = key := by
  rw [Slot.plainKey, Chip.freshSlot, Nat.xor_assoc, Nat.xor_self, Nat.xor_zero]

/-- A load is its record written and the slot set (R461, R474). -/
theorem Chip.loadSlot_eq : s.loadSlot k mode limit saveOk label key =
    (s.keyMask.2.writeRecord k (s.freshSlot k mode limit saveOk label key)).map fun v => v.setSlot k (s.freshSlot k mode limit saveOk label key) := rfl

theorem Chip.loadSlot_unserved (h : s.ddrHas (s.recordAt k) 64 = false) : s.loadSlot k mode limit saveOk label key = none := by
  rw [Chip.loadSlot_eq, Chip.writeRecord_unserved (s := s.keyMask.2) h, Option.map_none]

theorem Chip.loadSlot_served (h : s.ddrHas (s.recordAt k) 64 = true) : ∃ v, s.loadSlot k mode limit saveOk label key = some v ∧
    v.slot k = s.freshSlot k mode limit saveOk label key ∧ ∀ j, j ≠ k → v.slot j = s.slot j := by
  obtain ⟨v, hv⟩ := Chip.writeRecord_served (s := s.keyMask.2) (x := s.freshSlot k mode limit saveOk label key) h
  obtain ⟨hslots, -⟩ := Chip.writeRecord_keeps hv
  exact ⟨_, by rw [Chip.loadSlot_eq, hv, Option.map_some], v.slot_setSlot_self _, fun j hj =>
    (v.slot_setSlot_other _ hj).trans (Chip.slot_of_slots (s := s) hslots j)⟩

end

theorem Chip.raiseReserve_served (n : Nat) (h : s.ddrHas (s.recordAt k) 64 = true) : ∃ v, s.raiseReserve k n = some v ∧
    v.slot k = { s.slot k with reserved := (s.slot k).reserved + n * 2 ^ ((s.slot k).limit - 6) } ∧ (∀ j, j ≠ k → v.slot j = s.slot j) ∧
    v.regs = s.regs := by
  obtain ⟨v, hv⟩ := Chip.writeRecord_served (x := { s.slot k with reserved := (s.slot k).reserved + n * 2 ^ ((s.slot k).limit - 6) }) h
  obtain ⟨hslots, hregs, -⟩ := Chip.writeRecord_keeps hv
  exact ⟨_, by rw [Chip.raiseReserve, hv, Option.map_some], v.slot_setSlot_self _, fun j hj =>
    (v.slot_setSlot_other _ hj).trans (Chip.slot_of_slots hslots j), hregs⟩

theorem Chip.raiseReserve_unserved (n : Nat) (h : s.ddrHas (s.recordAt k) 64 = false) : s.raiseReserve k n = none := by
  rw [Chip.raiseReserve, Chip.writeRecord_unserved h, Option.map_none]

theorem keystoreRewrite_notDue (h : (s.slot k).state = 0 ∨ (s.slot k).uses + 2 ^ ((s.slot k).limit - 7) ≤ (s.slot k).reserved) :
    keystoreRewrite k s = s := by
  refine if_neg fun hdue => ?_
  simp only [Bool.and_eq_true, decide_eq_true_eq] at hdue
  obtain ⟨hstate, hlow⟩ := hdue
  exact h.elim hstate (Nat.not_le.mpr hlow)

theorem keystoreRewrite_due (hstate : (s.slot k).state ≠ 0) (hlow : (s.slot k).reserved < (s.slot k).uses + 2 ^ ((s.slot k).limit - 7)) :
    keystoreRewrite k s = (s.raiseReserve k 1).getD s := if_pos (by simp only [hstate, hlow, ne_eq, not_false_eq_true, decide_true, Bool.and_self])

end

/-! ### The failure window (R481) -/

section
variable {s : Chip} {k : Nat}

theorem failWindowClose_closes (hfails : (s.slot k).fails ≠ 0) (hstate : (s.slot k).state ≠ 4) (hover : s.failWindowOver (s.slot k) = true) :
    failWindowClose k s = s.setSlot k { s.slot k with fails := 0 } :=
  if_pos (by simp only [hfails, hstate, hover, ne_eq, not_false_eq_true, decide_true, Bool.and_self])

theorem failWindowClose_stays (h : (s.slot k).fails = 0 ∨ (s.slot k).state = 4 ∨ s.failWindowOver (s.slot k) = false) : failWindowClose k s = s := by
  refine if_neg fun hdue => ?_
  simp only [Bool.and_eq_true, decide_eq_true_eq] at hdue
  obtain ⟨⟨hfails, hstate⟩, hover⟩ := hdue
  exact h.elim hfails fun h => h.elim hstate fun h => Bool.false_ne_true (h.symm.trans hover)

end

/-! ### A slot that has lost its key (R475) -/

section
variable {s : Chip} {k : Nat}

theorem slotReload_empty (hstate : (s.slot k).state = 0) (hwait : (s.slot k).reloading = false) : slotReload k s = s := by
  have hbad : s.slotBad k = s := if_pos (by rw [hstate]; rfl)
  simp only [slotReload, hbad, hwait, Bool.not_false, if_true]

/-- The part with the error of a slot counted and reported, and the slot as it was. -/
def Chip.errorFound (s : Chip) (k : Nat) : Chip :=
  (((s.setSlot k { s.slot k with reloading := true }).bump Reg.CIPH_SLOT_RELOAD).raise Reg.CIPH_EVENT 4).setSlot k (s.slot k)

/-- What a slot takes back from the bytes of its record, under a mask (R475). -/
def Slot.restored (x : Slot) (b : List Nat) (m : Nat) : Slot :=
  let a := w64 (numNats (b.drop 40))
  { x with mode := fld a 63 62, limit := fld a 61 56, saveOk := bit a 55, reserved := fld a 54 0, label := w64 (numNats ((b.drop 32).take 8))
           key := numNats (b.take (modeBytes (fld a 63 62))) ^^^ m, mask := m }

/-- The part with a slot restored from the bytes of its record, its USES at USES_RESERVED. -/
def Chip.slotRestored (s : Chip) (k : Nat) (x : Slot) (b : List Nat) : Chip :=
  let m := (s.drawMasks (kwBlocks 48)).keyMask
  (m.2.setSlot k (x.restored b m.1)).setUses k (x.restored b m.1).reserved

theorem Chip.slot_errorFound : (s.errorFound k).slot k = s.slot k := Chip.slot_setSlot_self _ _

section
variable (hstate : (s.slot k).state ≠ 0) (hwait : (s.slot k).reloading = false)
include hstate hwait

theorem Chip.slotBad_reports : s.slotBad k =
    ((s.setSlot k { s.slot k with reloading := true }).bump Reg.CIPH_SLOT_RELOAD).raise Reg.CIPH_EVENT 4 :=
  if_neg (by simp only [hstate, hwait, decide_false, Bool.or_self, Bool.false_eq_true, not_false_eq_true])

theorem Chip.slot_slotBad : (s.slotBad k).slot k = { s.slot k with reloading := true } := by
  rw [Chip.slotBad_reports hstate hwait]
  exact (((regsOnly_bump _ _ 1).trans (regsOnly_raise _ _ _)).slot_eq k).trans (s.slot_setSlot_self _)

theorem Chip.setSlot_slotBad : (s.slotBad k).setSlot k { (s.slotBad k).slot k with reloading := false } = s.errorFound k := by
  rw [Chip.slot_slotBad hstate hwait, Chip.errorFound, ← Chip.slotBad_reports hstate hwait]
  congr 1
  rw [← hwait]

theorem slotReload_lost (h : (s.errorFound k).readRecord k = none) : slotReload k s = ((s.errorFound k).endSlot k 4).raise Reg.CIPH_EVENT 5 := by
  have hreloading : ((s.slotBad k).slot k).reloading = true := by rw [Chip.slot_slotBad hstate hwait]
  simp only [slotReload, hreloading, Bool.not_true, Bool.false_eq_true, if_false, Chip.setSlot_slotBad hstate hwait, h]

theorem slotReload_restores {b : List Nat} (h : (s.errorFound k).readRecord k = some b) : slotReload k s = (s.errorFound k).slotRestored k (s.slot k) b := by
  have hreloading : ((s.slotBad k).slot k).reloading = true := by rw [Chip.slot_slotBad hstate hwait]
  have hslot : (((s.errorFound k).drawMasks (kwBlocks 48)).keyMask.2).slot k = s.slot k := Chip.slot_errorFound
  simp only [slotReload, hreloading, Bool.not_true, Bool.false_eq_true, if_false, Chip.setSlot_slotBad hstate hwait, h, hslot]
  rfl

end

/-- The report of an error moves no record and mends no line (R475). -/
theorem Chip.readRecord_poisoned (h : s.poisoned (s.recordAt k) 64 = true) : (s.errorFound k).readRecord k = none := by
  obtain ⟨r, hr⟩ := (s.setSlot k { s.slot k with reloading := true }).bump_eq Reg.CIPH_SLOT_RELOAD 1
  rw [Chip.errorFound, hr]
  exact if_pos h

end

/-! ### Slot commands (R486) -/

/-- CIPH_SLOT_CMD as a command on a slot begins: SLOT and OP as written, and RUNNING set. -/
def Chip.slotBegun (s : Chip) (slot op : Nat) : Chip :=
  ((s.setField Reg.CIPH_SLOT_CMD 15 0 slot).setField Reg.CIPH_SLOT_CMD 17 16 op).setFlag Reg.CIPH_SLOT_CMD 19 true

/-- A command waits with the status that it will show. -/
def Chip.slotEnded (s : Chip) (st : Nat) : Chip := s.updCiph fun d => { d with command := some st }

section
variable {s u : Chip} {slot op st : Nat} {run : Chip → Nat × Chip}

theorem Chip.slotCmd_busy (h : s.ciph.command.isSome = true) : s.slotCmd slot op run = s.raise Reg.CIPH_EVENT 7 := if_pos h

theorem Chip.slotCmd_idle (h : s.ciph.command = none) (hslot : slot ≤ 40959) (hrun : run (s.slotBegun slot op) = (st, u)) :
    s.slotCmd slot op run = u.slotEnded st := by
  rw [Chip.slotBegun] at hrun
  simp only [Chip.slotCmd, h, Option.isSome_none, Bool.false_eq_true, if_false, Nat.not_lt.mpr hslot, hrun, Chip.slotEnded]

/-- A reserved SLOT answers BAD_REQ, with SLOT as it was. -/
theorem Chip.slotCmd_reserved (h : s.ciph.command = none) (hslot : 40960 ≤ slot) : s.slotCmd slot op run =
    ((s.setField Reg.CIPH_SLOT_CMD 17 16 op).setFlag Reg.CIPH_SLOT_CMD 19 true).slotEnded 1 := by
  simp only [Chip.slotCmd, h, Option.isSome_none, Bool.false_eq_true, if_false, if_pos (show 40959 < slot from hslot), Chip.slotEnded]

theorem Chip.reg_slotBegun {a : Nat} (h : a ≠ Reg.CIPH_SLOT_CMD) : (s.slotBegun slot op).reg a = s.reg a :=
  (Chip.reg_setReg_other _ _ h).trans ((Chip.reg_setReg_other _ _ h).trans (Chip.reg_setReg_other _ _ h))

/-- The key that IMPORT takes from the import registers for a mode. -/
def Chip.importKey (s : Chip) (mode : Nat) : Nat :=
  numBE ((List.range 4).flatMap fun i => wordBytes (s.reg (Reg.CIPH_IMPORTi i))) >>> (256 - 8 * modeBytes mode)

@[simp] theorem Chip.attr_slotBegun : (s.slotBegun slot op).reg Reg.CIPH_SLOT_ATTR = s.reg Reg.CIPH_SLOT_ATTR := Chip.reg_slotBegun (by decide)

@[simp] theorem Chip.label_slotBegun : (s.slotBegun slot op).reg Reg.CIPH_IMPORT_LABEL = s.reg Reg.CIPH_IMPORT_LABEL := Chip.reg_slotBegun (by decide)

@[simp] theorem Chip.importKey_slotBegun (mode : Nat) : (s.slotBegun slot op).importKey mode = s.importKey mode := by
  have hkey (i : Nat) : (s.slotBegun slot op).reg (Reg.CIPH_IMPORTi i) = s.reg (Reg.CIPH_IMPORTi i) :=
    Chip.reg_slotBegun (by unfold Reg.CIPH_IMPORTi Reg.CIPH_SLOT_CMD; omega)
  simp only [Chip.importKey, hkey]

section
variable (hidle : s.ciph.command = none) (hslot : slot ≤ 40959)
include hidle hslot

theorem slotImport_badLimit (hlimit : fld (s.reg Reg.CIPH_SLOT_ATTR) 7 2 < 20 ∨ 48 < fld (s.reg Reg.CIPH_SLOT_ATTR) 7 2) :
    slotImport slot s = (s.slotBegun slot 0).slotEnded 1 :=
  Chip.slotCmd_idle hidle hslot (if_pos (by rw [Chip.attr_slotBegun]; exact hlimit))

theorem slotRetire_ended (hlow : 3 ≤ (s.slot slot).state) (hhigh : (s.slot slot).state ≤ 4) : slotRetire slot s = (s.slotBegun slot 2).slotEnded 0 := by
  refine Chip.slotCmd_idle hidle hslot (congrArg (Prod.mk 0) ?_)
  split
  · rfl
  · next h =>
    have hretired : ((s.slotBegun slot 2).slot slot).state = 4 := Nat.le_antisymm hhigh (Nat.lt_of_le_of_ne hlow (Ne.symm h))
    exact if_pos hretired

theorem slotRetire_retires (h : (s.slot slot).state < 3) : slotRetire slot s =
    (((s.slotBegun slot 2).setSlot slot { s.slot slot with state := 4 }).slotNotice slot 4).slotEnded 0 := by
  have hkept : (s.slotBegun slot 2).slot slot = s.slot slot := rfl
  refine Chip.slotCmd_idle hidle hslot (congrArg (Prod.mk 0) ?_)
  rw [Chip.endSlot, hkept, if_neg (Nat.ne_of_lt h), if_neg (Nat.ne_of_lt (Nat.lt_succ_of_lt h))]

theorem slotErase_erases : slotErase slot s = ((s.slotBegun slot 1).eraseSlot slot).slotEnded 0 := Chip.slotCmd_idle hidle hslot rfl

variable (hlow : 20 ≤ fld (s.reg Reg.CIPH_SLOT_ATTR) 7 2) (hhigh : fld (s.reg Reg.CIPH_SLOT_ATTR) 7 2 ≤ 48)
include hlow hhigh

/-- IMPORT of a LIMIT_LOG2 that is allowed ends with STORE_FAIL where the record cannot be written (R474). -/
theorem slotImport_unserved (h : s.ddrHas (s.recordAt slot) 64 = false) : slotImport slot s = (s.slotBegun slot 0).slotEnded 7 := by
  have hlimit : ¬(fld (s.reg Reg.CIPH_SLOT_ATTR) 7 2 < 20 ∨ 48 < fld (s.reg Reg.CIPH_SLOT_ATTR) 7 2) := by omega
  refine Chip.slotCmd_idle hidle hslot ?_
  simp only [Chip.attr_slotBegun, hlimit, if_false]
  rw [Chip.loadSlot_unserved (s := s.slotBegun slot 0) _ _ _ _ _ h]

theorem slotImport_served (h : s.ddrHas (s.recordAt slot) 64 = true) : ∃ v : Chip, slotImport slot s = v.slotEnded 0 ∧
    v.slot slot = (s.slotBegun slot 0).freshSlot slot (fld (s.reg Reg.CIPH_SLOT_ATTR) 1 0) (fld (s.reg Reg.CIPH_SLOT_ATTR) 7 2)
      (bit (s.reg Reg.CIPH_SLOT_ATTR) 8) (s.reg Reg.CIPH_IMPORT_LABEL) (s.importKey (fld (s.reg Reg.CIPH_SLOT_ATTR) 1 0)) ∧
    ∀ j, j ≠ slot → v.slot j = s.slot j := by
  have hlimit : ¬(fld (s.reg Reg.CIPH_SLOT_ATTR) 7 2 < 20 ∨ 48 < fld (s.reg Reg.CIPH_SLOT_ATTR) 7 2) := by omega
  obtain ⟨v, hload, hloaded⟩ := Chip.loadSlot_served (s := s.slotBegun slot 0) (fld (s.reg Reg.CIPH_SLOT_ATTR) 1 0)
    (fld (s.reg Reg.CIPH_SLOT_ATTR) 7 2) (bit (s.reg Reg.CIPH_SLOT_ATTR) 8) (s.reg Reg.CIPH_IMPORT_LABEL)
    (s.importKey (fld (s.reg Reg.CIPH_SLOT_ATTR) 1 0)) h
  refine ⟨v, Chip.slotCmd_idle hidle hslot ?_, hloaded⟩
  rw [← Chip.importKey_slotBegun (slot := slot) (op := 0), Chip.importKey] at hload
  simp only [Chip.attr_slotBegun, Chip.label_slotBegun, hlimit, if_false]
  rw [hload]

end

theorem slotCmdDone_idle (h : s.ciph.command = none) : slotCmdDone s = s := by
  rw [slotCmdDone, h]

/-- The part with the import registers cleared. -/
def Chip.importCleared (s : Chip) : Chip := (List.range 4).foldl (fun u i => u.setReg (Reg.CIPH_IMPORTi i) 0) s

theorem Chip.reg_importCleared_other {a : Nat} (h : ∀ i, a ≠ Reg.CIPH_IMPORTi i) : s.importCleared.reg a = s.reg a :=
  List.foldlRecOn (motive := fun u : Chip => u.reg a = s.reg a) _ _ rfl fun u hu i _ => (u.reg_setReg_other 0 (h i)).trans hu

theorem Chip.reg_importCleared {i : Nat} (hi : i < 4) : s.importCleared.reg (Reg.CIPH_IMPORTi i) = 0 := by
  refine foldl_makes (fun u : Chip => u.reg (Reg.CIPH_IMPORTi i) = 0) (List.mem_range.mpr hi) (fun u => u.reg_setReg_self _ 0) fun u j _ hu => ?_
  rw [Chip.reg_setReg, hu, ite_self]

theorem slotCmdDone_parts (h : s.ciph.command = some st) : (slotCmdDone s).get Reg.CIPH_SLOT_CMD 22 20 = st % 8 ∧
    (slotCmdDone s).flag Reg.CIPH_SLOT_CMD 19 = false ∧ (∀ i < 4, (slotCmdDone s).reg (Reg.CIPH_IMPORTi i) = 0) ∧
    (slotCmdDone s).ciph = { s.ciph with command := none } := by
  let shown := (s.setField Reg.CIPH_SLOT_CMD 22 20 st).setFlag Reg.CIPH_SLOT_CMD 19 false
  have hdone : slotCmdDone s = shown.importCleared.updCiph fun d => { d with command := none } := by rw [slotCmdDone, h]; rfl
  have hcmd : (slotCmdDone s).reg Reg.CIPH_SLOT_CMD = shown.reg Reg.CIPH_SLOT_CMD := by
    rw [hdone]
    exact Chip.reg_importCleared_other fun i => by unfold Reg.CIPH_IMPORTi Reg.CIPH_SLOT_CMD; omega
  refine ⟨?_, ?_, fun i hi => ?_, ?_⟩
  · exact (congrArg (fld · 22 20) hcmd).trans ((Chip.get_setFlag_bit _ _ false (by decide) (by decide)).trans (Chip.get_setField_self _ _ st (by decide)))
  · exact (congrArg (bit · 19) hcmd).trans (Chip.flag_setFlag_self _ _ false (by decide))
  · rw [hdone]
    exact Chip.reg_importCleared hi
  · rw [hdone]
    rfl

end

/-! ### Cipher units and the mask generator (R452, R453, R457) -/

section
variable {s u : Chip}

/-- No cause of R596 arises where no pair is lost and channels and links stay: the part does not demote itself. -/
theorem Chip.demotions_none (hpairs : s.ciph.units.pairs.length ≤ u.ciph.units.pairs.length) (hmem : u.mem = s.mem) (hactive : u.active = s.active)
    (hsubs : u.subs = s.subs) : s.demotions u = u := by
  have hlow : (u.pairsLow && !s.pairsLow) = false := by simp [Chip.pairsLow]; omega
  have hddr : u.ddrFailed = s.ddrFailed := by rw [Chip.ddrFailed, Chip.ddrFailed, Chip.act, Chip.act, hmem, hactive]
  have hlinks : u.linksLost = s.linksLost := by rw [Chip.linksLost, Chip.linksLost, hsubs]
  simp only [Chip.demotions, hlow, hddr, hlinks, Bool.and_not_self, Bool.false_eq_true, if_false]

theorem spareJoin_none (h : s.ciph.units.joining = []) : spareJoin s = s := by
  simp only [spareJoin, Chip.updUnits, Chip.updCiph, h]

theorem spareJoin_joins {a p : Nat} {rest : List (Nat × Nat)} (h : s.ciph.units.joining = (a, p) :: rest) : spareJoin s =
    s.updUnits fun u => { u with joining := rest, pairs := u.pairs ++ [(p, a)] } := by
  simp only [spareJoin, Chip.updUnits, Chip.updCiph, h]

theorem drbgReseed_early (hhealthy : s.ciph.healthy = true) (hearly : lasts (s.frc - s.ciph.lastSeed) 1000000 = false) : drbgReseed s = s :=
  if_pos (by rw [hhealthy, hearly]; rfl)

theorem drbgReseed_due (h : s.ciph.healthy = false ∨ lasts (s.frc - s.ciph.lastSeed) 1000000 = true) : drbgReseed s =
    (s.tick.2.updDrbg (·.reseed (Config.seed s.tick.1))).updCiph fun d => { d with healthy := true, restarting := false, lastSeed := s.frc } :=
  if_neg (by rcases h with h | h <;> simp [h])

end

/-- Settles O41: a command on a slot by its status and what it leaves of the slots, and every other command by the state of the slot, unit or generator that it
acts on. -/
theorem keySlotsAreKept : Obligations.KeySlotsAreKept := by
  intro s slot k hr c begun ends attr key x
  have hruns {i : Instr} {f : Chip → Chip} {y : Chip} (he : exec i s = s.core f) (hf : f c = y) : Runs i s y := runs_of_core_eq he hr hf
  refine ⟨fun hbusy => ⟨hruns rfl (Chip.slotCmd_busy hbusy), hruns rfl (Chip.slotCmd_busy hbusy), hruns rfl (Chip.slotCmd_busy hbusy)⟩,
    fun hidle hslot => ?command, fun hidle hslot => hruns rfl (Chip.slotCmd_reserved hidle hslot), fun st hst => ⟨_, hruns rfl rfl, slotCmdDone_parts hst⟩,
    fun hfails hstate hover => ⟨_, hruns rfl (failWindowClose_closes hfails hstate hover), c.slot_setSlot_self _,
      fun j hj => c.slot_setSlot_other _ hj, rfl⟩,
    fun h => hruns rfl (failWindowClose_stays h), fun h => hruns rfl (keystoreRewrite_notDue h), fun hstate hlow hserved => ?rewrite,
    fun hstate hlow hserved => hruns rfl ((keystoreRewrite_due hstate hlow).trans (by rw [Chip.raiseReserve_unserved 1 hserved, Option.getD_none])),
    fun hstate hwait => hruns rfl (slotReload_empty hstate hwait), fun hstate hwait => ?reload,
    fun h => ?noSpare, fun a p rest h => ?spare, fun hhealthy hearly => hruns rfl (drbgReseed_early hhealthy hearly),
    fun hdue => ⟨_, hruns rfl (drbgReseed_due hdue), rfl, rfl⟩,
    ⟨_, hruns rfl rfl, rfl, Chip.flag_setFlag_self _ _ true (by decide), fun a ha => Chip.reg_setReg_other _ _ ha⟩⟩
  case command =>
    refine ⟨fun hlimit => hruns rfl (slotImport_badLimit hidle hslot hlimit),
      fun hlow hhigh hserved => hruns rfl (slotImport_unserved hidle hslot hlow hhigh hserved), fun hlow hhigh hserved => ?loads,
      ⟨_, hruns rfl (slotErase_erases hidle hslot), rfl, (c.slotBegun slot 1).slot_eraseSlot_self,
        fun j hj => (c.slotBegun slot 1).slot_eraseSlot_other hj, rfl⟩,
      fun hlow hhigh => hruns rfl (slotRetire_ended hidle hslot hlow hhigh), fun h => hruns rfl (slotRetire_retires hidle hslot h),
      hruns rfl (slotCmdDone_idle hidle)⟩
    obtain ⟨v, hv, hslot', hothers⟩ := slotImport_served hidle hslot hlow hhigh hserved
    have hloaded : (v.slotEnded 0).slot slot = _ := hslot'
    refine ⟨_, hruns rfl hv, rfl, ?_, ?_, hothers⟩
    · rw [hloaded]
      exact Chip.plainKey_freshSlot _ _ _ _ _
    · rw [hloaded]
      rfl
  case rewrite =>
    obtain ⟨v, hv, hslot, hothers, hregs⟩ := Chip.raiseReserve_served 1 hserved
    rw [Nat.one_mul] at hslot
    exact ⟨v, hruns rfl ((keystoreRewrite_due hstate hlow).trans (by rw [hv, Option.getD_some])), hslot, hothers, hregs⟩
  case reload =>
    refine ⟨fun hpoisoned => hruns rfl (slotReload_lost hstate hwait (Chip.readRecord_poisoned hpoisoned)), ?_⟩
    split
    · next h => exact hruns rfl (slotReload_lost hstate hwait h)
    · next b h => exact hruns rfl (slotReload_restores hstate hwait h)
  case noSpare =>
    exact hruns (f := fun y => y.demotions (spareJoin y)) rfl (by
      rw [spareJoin_none h]
      exact Chip.demotions_none (Nat.le_refl _) rfl rfl rfl)
  case spare =>
    refine hruns (f := fun y => y.demotions (spareJoin y)) rfl ?_
    rw [spareJoin_joins h]
    exact Chip.demotions_none (by simp [Chip.updUnits, Chip.updCiph]) rfl rfl rfl

end Sys2Proof.Machine
end

section
/-! CRYPT instructions (R470 to R472, R482, R484): what a key operation leaves of the crucibles, and how the routine ends on its request block. -/
namespace Sys2Proof.Machine
open Sys2Proof.Claim

/-! ### What a key operation leaves of the crucibles -/

section
variable (s : Chip) {v : Chip} (k : Nat)

theorem RegsOnly.cru_eq {s u : Chip} (h : RegsOnly s u) : u.cru = s.cru := by
  obtain ⟨-, -, hcru⟩ := h.keeps_pon
  exact hcru

theorem Chip.writeRecord_cru {x : Slot} (h : s.writeRecord k x = some v) : v.cru = s.cru := by
  obtain ⟨-, -, hcru⟩ := Chip.writeRecord_keeps h
  exact hcru

theorem Chip.keyMask_cru : s.keyMask.2.cru = s.cru := by
  unfold Chip.keyMask Chip.updDrbg
  rfl

theorem Chip.drawMasks_cru (n : Nat) : (s.drawMasks n).cru = s.cru := by
  unfold Chip.drawMasks Chip.updDrbg
  rfl

theorem Chip.remask_cru : (s.remask k).cru = s.cru := s.keyMask_cru

theorem Chip.slotNotice_cru (state : Nat) : (s.slotNotice k state).cru = s.cru := by
  unfold Chip.slotNotice
  extract_lets e s1 s2
  have hs : s2.cru = s.cru := by
    unfold s2 s1
    split
    · exact (regsOnly_bump s _ 1).cru_eq
    · rfl
  split
  · next h =>
    obtain ⟨-, h⟩ := Option.ite_none_right_eq_some.mp h
    exact (congrArg (fun p => p.2.cru) (Option.some.inj h)).symm.trans ((s2.sendQueue_cru _ _ _ _).trans hs)
  · exact hs

theorem Chip.endSlot_cru (state : Nat) : (s.endSlot k state).cru = s.cru := by
  unfold Chip.endSlot
  split
  · rfl
  · exact Chip.slotNotice_cru _ k state

theorem Chip.setUses_cru (n : Nat) : (s.setUses k n).cru = s.cru := by
  unfold Chip.setUses
  dsimp only
  split
  · exact Chip.slotNotice_cru _ k 2
  · rfl

theorem Chip.raiseReserve_cru {n : Nat} (h : s.raiseReserve k n = some v) : v.cru = s.cru := by
  obtain ⟨u, hu, rfl⟩ := Option.map_eq_some_iff.mp h
  have hcru := s.writeRecord_cru k hu
  exact hcru

theorem Chip.addUses_cru {n : Nat} (h : s.addUses k n = some v) : v.cru = s.cru := by
  unfold Chip.addUses at h
  dsimp only at h
  split at h
  · cases h
    exact s.setUses_cru k _
  · obtain ⟨u, hu, rfl⟩ := Option.map_eq_some_iff.mp h
    exact (u.setUses_cru k _).trans (s.raiseReserve_cru k hu)

theorem Chip.reqLoad_cru (w0 label : W64) (key : Nat) : (s.reqLoad w0 label key).2.2.cru = s.cru := by
  unfold Chip.reqLoad
  split
  · next h =>
    rw [Chip.loadSlot_eq] at h
    obtain ⟨u, hu, rfl⟩ := Option.map_eq_some_iff.mp h
    exact (Chip.writeRecord_cru _ _ hu).trans s.keyMask_cru
  · rfl

/-- A key operation that tests for a refusal leaves the crucibles as they were where each of its outcomes does. -/
theorem KeyAnswer.ite_cru {s : Chip} {p : Prop} [Decidable p] {a b : KeyAnswer} (ha : a.2.2.cru = s.cru) (hb : b.2.2.cru = s.cru) :
    (if p then a else b).2.2.cru = s.cru := by
  split
  · exact ha
  · exact hb

theorem Chip.restoreState_cru (b : List Nat) : (s.restoreState k b).2.2.cru = s.cru := by
  refine KeyAnswer.ite_cru rfl (KeyAnswer.ite_cru rfl ?_)
  split
  · next h => exact s.addUses_cru k h
  · rfl

variable (w0 w1 : W64) (data : List Nat)

theorem Chip.kekUse_cru (n : Nat) : (s.kekUse w0 n).cru = s.cru := (Chip.drawMasks_cru _ n).trans (s.remask_cru _)

theorem opDerive_cru : (opDerive w0 w1 s).2.2.cru = s.cru := KeyAnswer.ite_cru rfl ((Chip.reqLoad_cru _ _ _ _).trans (s.drawMasks_cru _))

theorem opCmacDerive_cru : (opCmacDerive w0 w1 data s).2.2.cru = s.cru :=
  KeyAnswer.ite_cru rfl (KeyAnswer.ite_cru rfl (KeyAnswer.ite_cru rfl ((Chip.reqLoad_cru _ _ _ _).trans (s.kekUse_cru w0 _))))

theorem opMic_cru : (opMic w0 data s).2.2.cru = s.cru := KeyAnswer.ite_cru rfl (KeyAnswer.ite_cru rfl (s.kekUse_cru w0 _))

theorem opErase_cru : (opErase w0 s).2.2.cru = s.cru := KeyAnswer.ite_cru rfl rfl

theorem opUnwrap_cru : (opUnwrap w0 w1 data s).2.2.cru = s.cru := by
  refine KeyAnswer.ite_cru rfl (KeyAnswer.ite_cru rfl (KeyAnswer.ite_cru rfl ?_))
  split
  · exact s.kekUse_cru w0 _
  · exact (Chip.reqLoad_cru _ _ _ _).trans (s.kekUse_cru w0 _)

theorem opEcbImport_cru : (opEcbImport w0 w1 data s).2.2.cru = s.cru :=
  KeyAnswer.ite_cru rfl (KeyAnswer.ite_cru rfl (KeyAnswer.ite_cru rfl ((Chip.reqLoad_cru _ _ _ _).trans (s.kekUse_cru w0 _))))

theorem opWrapOut_cru : (opWrapOut w0 s).2.2.cru = s.cru :=
  KeyAnswer.ite_cru rfl (KeyAnswer.ite_cru rfl (KeyAnswer.ite_cru rfl ((Chip.remask_cru _ _).trans (s.kekUse_cru w0 _))))

theorem opStateSave_cru : (opStateSave w0 s).2.2.cru = s.cru :=
  KeyAnswer.ite_cru rfl (KeyAnswer.ite_cru rfl (KeyAnswer.ite_cru rfl (KeyAnswer.ite_cru (KeyAnswer.ite_cru rfl rfl) (s.kekUse_cru w0 _))))

theorem opStateRestore_cru : (opStateRestore w0 data s).2.2.cru = s.cru := by
  refine KeyAnswer.ite_cru rfl (KeyAnswer.ite_cru (KeyAnswer.ite_cru (s.restoreState_cru _ _) rfl) (KeyAnswer.ite_cru rfl ?_))
  split
  · exact s.kekUse_cru w0 _
  · exact (Chip.restoreState_cru _ _ _).trans (s.kekUse_cru w0 _)

/-- A key operation changes no thread and no local data. -/
theorem Chip.keyOp_cru (wrap : Bool) : (s.keyOp wrap w0 w1 data).2.2.cru = s.cru := by
  unfold Chip.keyOp
  split
  · exact opDerive_cru s w0 w1
  · exact opCmacDerive_cru s w0 w1 data
  · exact opMic_cru s w0 data
  · exact opErase_cru s w0
  · exact opUnwrap_cru s w0 w1 data
  · exact opEcbImport_cru s w0 w1 data
  · exact opWrapOut_cru s w0
  · exact opStateSave_cru s w0
  · exact opStateRestore_cru s w0 data
  · rfl

end

/-- An OP of CRYPT.WRAP, or of neither instruction, is BAD_REQ for CRYPT.KD (R471). -/
theorem Chip.keyOp_notKd (s : Chip) {w0 : W64} (w1 : W64) (data : List Nat) (h : 3 < fld w0 3 0) : s.keyOp false w0 w1 data = (1, [], s) := by
  obtain ⟨m, hm⟩ : ∃ m, fld w0 3 0 = m + 4 := ⟨fld w0 3 0 - 4, by omega⟩
  unfold Chip.keyOp
  rw [hm]
  rfl

/-- An OP of CRYPT.KD is BAD_REQ for CRYPT.WRAP (R471). -/
theorem Chip.keyOp_notWrap (s : Chip) {w0 : W64} (w1 : W64) (data : List Nat) (h : fld w0 3 0 < 4) : s.keyOp true w0 w1 data = (1, [], s) := by
  unfold Chip.keyOp
  generalize fld w0 3 0 = op at h
  match op, h with
  | 0, _ | 1, _ | 2, _ | 3, _ => rfl

/-! ### Request blocks (R470) -/

/-- Bytes that lie wholly in local data. -/
theorem bodyPlace_local {a n : Nat} (ha : a < 0x8000) (hn : n ≤ 0x8000 - a) : bodyPlace a n = some (false, a) := by
  have hdata : within 0 0x8000 a = some a := by simp [within, ha]
  simp only [bodyPlace, regionOf, hdata, hn, if_true]

theorem Chip.bodyRead_local {s u : Chip} (h : u.cru.localData = s.cru.localData) (c t n a : Nat) :
    u.bodyRead c t n (false, a) = s.bodyRead c t n (false, a) :=
  List.map_congr_left fun _ _ => Chip.localByte_congr h _ _

/-- DATA of a request block in local data, for an OP that reads it; nothing for another (R471). -/
def Chip.requestData (s : Chip) (c t off : Nat) : List Nat :=
  natsOf (s.bodyRead c t (if readsData (fld (s.localWord c t off 0) 3 0) then fld (s.localWord c t off 2) 47 32 else 0)
    (false, fld (s.localWord c t off 2) 31 0))

section
variable {s : Chip} {c t : Nat} {r : Routine} {off : Nat} (hoff : ((s.thread c t).g r.ra).toNat = off) (halign : off % 8 = 0) (hroom : off + 32 ≤ 0x8000)
  (hdata : fld (s.localWord c t off 2) 31 0 < 0x8000)
  (hfit : fld (s.localWord c t off 2) 31 0 + fld (s.localWord c t off 2) 47 32 ≤ 0x8000)
include hoff halign hroom hdata hfit

/-- A request whose block and DATA lie in local data is carried out. -/
theorem Chip.cryptEnd_local : s.cryptEnd c t r =
    Chip.cryptEnd.run s c t r off (s.localWord c t off 0) (s.localWord c t off 3) (s.requestData c t off) := by
  have hplace : bodyPlace (fld (s.localWord c t off 2) 31 0)
      (if readsData (fld (s.localWord c t off 0) 3 0) then fld (s.localWord c t off 2) 47 32 else 0) =
      some (false, fld (s.localWord c t off 2) 31 0) := bodyPlace_local hdata (by split <;> omega)
  rw [Chip.cryptEnd, Chip.localBlock_inside hoff halign hroom]
  dsimp only
  rw [hplace]
  rfl

variable {q : KeyAnswer} (hq : s.keyOp (r.fn = 1) (s.localWord c t off 0) (s.localWord c t off 1) (s.requestData c t off) = q)
include hq

theorem Chip.cryptEnd_noOutput (hnone : q.2.1 = []) : s.cryptEnd c t r = q.2.2.answered c t r q.1 := by
  rw [Chip.cryptEnd_local hoff halign hroom hdata hfit, Chip.cryptEnd.run, hq]
  exact if_pos (List.isEmpty_iff.mpr hnone)

theorem Chip.cryptEnd_output (hsome : q.2.1 ≠ []) (hout : fld (s.localWord c t off 3) 31 0 < 0x8000)
    (houtFit : q.2.1.length ≤ 0x8000 - fld (s.localWord c t off 3) 31 0) : s.cryptEnd c t r =
    ((q.2.2.bodyWrite c t (false, fld (s.localWord c t off 3) 31 0) (bytesOf q.2.1)).setLocalWord c t off 3
      (setFld (s.localWord c t off 3) 47 32 q.2.1.length)).answered c t r q.1 := by
  rw [Chip.cryptEnd_local hoff halign hroom hdata hfit, Chip.cryptEnd.run, hq]
  refine (if_neg fun h => hsome (List.isEmpty_iff.mp h)).trans ?_
  rw [bodyPlace_local hout houtFit]

end

/-- Bytes written to local data outside a handler change local data only. -/
theorem Chip.bodyWrite_local {s : Chip} {c t : Nat} (h : (s.thread c t).handler = none) {a : Nat} {l : List Byte} (hroom : a + l.length ≤ 0x8000) :
    (s.bodyWrite c t (false, a) l).cru.threads = s.cru.threads ∧ (s.bodyWrite c t (false, a) l).ciph = s.ciph := by
  unfold Chip.bodyWrite
  split
  · exact ⟨rfl, rfl⟩
  · rw [if_neg Bool.false_ne_true, Chip.writeLocal_noHandler h, putLocal_eq _ _ _ _ _ hroom]
    exact ⟨rfl, rfl⟩

theorem Chip.setLocalWord_ciph {s : Chip} {c t : Nat} (h : (s.thread c t).handler = none) {off i : Nat} (hroom : off + 8 * i + 8 ≤ 0x8000) (v : W64) :
    (s.setLocalWord c t off i v).ciph = s.ciph := by
  rw [Chip.setLocalWord, Chip.writeLocal_noHandler h, putLocal_eq _ _ _ _ _ (by rw [wordBytes, length_bytesBE]; exact hroom)]

/-! ### The end of the routine (R470 to R472) -/

theorem Chip.answered_parts (s : Chip) (c t : Nat) (r : Routine) (status : Nat) : OnlyThread s (s.answered c t r status) c t ∧
    (s.answered c t r status).ciph = s.ciph ∧ (s.answered c t r status).cru.localData = s.cru.localData :=
  ⟨OnlyThread.trans (OnlyThread.updThread s c t _) (OnlyThread.updThread _ c t _), rfl, rfl⟩

section
variable {s : Chip} {c t : Nat} {r : Routine} {rd : Fin 32} {off : Nat} (hrd : r.rd = rd.val) (hoff : ((s.thread c t).g r.ra).toNat = off)
  (halign : off % 8 = 0) (hroom : off + 32 ≤ 0x8000) (h : (s.thread c t).handler = none)
  (hdata : fld (s.localWord c t off 2) 31 0 < 0x8000) (hfit : fld (s.localWord c t off 2) 31 0 + fld (s.localWord c t off 2) 47 32 ≤ 0x8000)
  {q : KeyAnswer} (hq : s.keyOp (r.fn = 1) (s.localWord c t off 0) (s.localWord c t off 1) (s.requestData c t off) = q)
include hrd hoff halign hroom h hdata hfit hq

/-- CRYPT.KD and CRYPT.WRAP answer the operation's status, with the slots as it leaves them; the length of what it gives out goes to word 3. -/
theorem Chip.cryptEnd_answers (hout : fld (s.localWord c t off 3) 31 0 < 0x8000) (houtFit : q.2.1.length ≤ 0x8000 - fld (s.localWord c t off 3) 31 0) :
    (s.thread c t).Completes ((s.cryptEnd c t r).thread c t) rd q.1 r.due ∧ (s.cryptEnd c t r).ciph = q.2.2.ciph ∧
      (q.2.1 ≠ [] → (s.cryptEnd c t r).localWord c t off 3 = setFld (s.localWord c t off 3) 47 32 q.2.1.length) := by
  have hkept : s.SameThread q.2.2 c t := .of_cru (by rw [← hq, Chip.keyOp_cru])
  have hnone : (q.2.2.thread c t).handler = none := by rw [hkept.thread, h]
  by_cases hempty : q.2.1 = []
  · obtain ⟨-, hciph, -⟩ := q.2.2.answered_parts c t r q.1
    rw [Chip.cryptEnd_noOutput hoff halign hroom hdata hfit hq hempty]
    exact ⟨hkept.thread ▸ Chip.answered_completes q.2.2 c t hrd q.1, hciph, fun hsome => absurd hempty hsome⟩
  · have hlen : fld (s.localWord c t off 3) 31 0 + (bytesOf q.2.1).length ≤ 0x8000 := by
      rw [bytesOf, List.length_map]
      omega
    obtain ⟨hthreads, hbody⟩ := Chip.bodyWrite_local hnone hlen
    rw [Chip.cryptEnd_output hoff halign hroom hdata hfit hq hempty hout houtFit]
    generalize q.2.2.bodyWrite c t (false, fld (s.localWord c t off 3) 31 0) (bytesOf q.2.1) = u at hthreads hbody
    have hthread : u.thread c t = s.thread c t := by
      rw [Chip.thread, hthreads]
      exact hkept.thread
    have hnone' : (u.thread c t).handler = none := by rw [hthread, h]
    let v := setFld (s.localWord c t off 3) 47 32 q.2.1.length
    have hcompletes := (u.setLocalWord c t off 3 v).answered_completes c t hrd q.1
    rw [(Chip.setLocalWord_thread hnone' (by omega) v).trans hthread] at hcompletes
    obtain ⟨-, hciph, hlocal⟩ := (u.setLocalWord c t off 3 v).answered_parts c t r q.1
    exact ⟨hcompletes, hciph.trans ((Chip.setLocalWord_ciph hnone' (by omega) v).trans hbody),
      fun _ => (Chip.localWord_congr hlocal off 3).trans (Chip.localWord_setLocalWord_self hnone' (by omega) v)⟩

end

theorem OnlyThread.ciph_eq {s u : Chip} {c t : Nat} (h : OnlyThread s u c t) : u.ciph = s.ciph := by
  obtain ⟨-, -, -, hrest⟩ := h
  rw [hrest]

/-! ### CRYPT instructions (R470) -/

/-- The routine of CRYPT.KD (FN 0) or CRYPT.WRAP (FN 1) as it begins. -/
def cryptRoutine (fn : Nat) (rd ra : Fin 32) : Routine := { op := 0x35, fn := fn, rd := rd, ra := ra }

theorem crypt_runs {i : Instr} {s : State} {c : Cru} {t : Fin 256} {rd ra : Fin 32} {fn k : Nat}
    (h : IssuesLong s c t (wordR 0x35 rd ra 0 fn) 0x35 fn k)
    (he : exec i s = s.core fun y => y.crypt c t rd ra fn []) (hsuper : (s.chip.thread c t).super = true) :
    Runs i s ((begun s c t 0x35 fn).cryptEnd c t { cryptRoutine fn rd ra with since := s.chip.frc, cycles := k }) := by
  have hbegin : (issuedLong s c t).longBegin c t (cryptRoutine fn rd ra) = begun s c t 0x35 fn :=
    longBegin_begun rfl rfl (fun hwait => absurd hwait.1 (by decide)) (.inr ⟨by decide, by decide⟩)
  have hruns := long_of (r := cryptRoutine fn rd ra) (pass := 0) h he rfl rfl (fun _ => hsuper) rfl rfl rfl
  rw [hbegin] at hruns
  exact hruns

/-- Settles O25: the routine ends at a request block in local data, issue has changed nothing that a key operation looks at, and the operation leaves the
thread and local data as they were. -/
theorem keyServiceAnswers : Obligations.KeyServiceAnswers := by
  intro s c t rd ra k x off w n data done answers refuses halign hroom hsuper hhandler hdata hfit hout
  let routine (fn : Nat) : Routine := { cryptRoutine fn rd ra with since := s.chip.frc, cycles := k }
  have hbegun (fn : Nat) := (begun_sameThread s c t 0x35 fn).1
  have hthread (fn : Nat) : (begun s c t 0x35 fn).thread c t = x := (hbegun fn).thread
  have hword (fn i : Nat) : (begun s c t 0x35 fn).localWord c t off i = w i := Chip.localWord_congr (hbegun fn).localData off i
  have hnone (fn : Nat) : ((begun s c t 0x35 fn).thread c t).handler = none := by rw [hthread, hhandler]
  have hread (fn : Nat) (h : readsData (fld (w 0) 3 0) = true) : (begun s c t 0x35 fn).requestData c t off = data := by
    simp only [Chip.requestData, hword, h, if_true, Chip.bodyRead_local (hbegun fn).localData]
    rfl
  have hanswers {fn : Nat} (wrap : Bool) {i : Instr} {code : Nat} {q : KeyAnswer} (h : IssuesLong s c t (wordR 0x35 rd ra 0 fn) 0x35 fn k)
      (he : exec i s = s.core fun y => y.crypt c t rd ra fn []) (hwrap : decide (fn = 1) = wrap)
      (hq : fld (w 0) 3 0 = code → (begun s c t 0x35 fn).keyOp wrap (w 0) (w 1) ((begun s c t 0x35 fn).requestData c t off) = q) :
      answers i code q := by
    intro hcode hlen
    subst hwrap
    have hend := Chip.cryptEnd_answers (s := begun s c t 0x35 fn) (r := routine fn) (rd := rd) (off := off) (q := q) rfl
      (by rw [hthread]; rfl) halign hroom (hnone fn) (by rw [hword]; exact hdata) (by rw [hword]; exact hfit) (by rw [hword, hword]; exact hq hcode)
      (by rw [hword]; exact hout) (by rw [hword]; exact hlen)
    rw [hthread, hword] at hend
    obtain ⟨⟨hstate, hwait, hip, hrd⟩, hciph, hlength⟩ := hend
    exact ⟨_, crypt_runs h he hsuper, ⟨hip, hstate, hwait, hrd⟩, hciph, hlength⟩
  have hrefuses {fn : Nat} {i : Instr} (h : IssuesLong s c t (wordR 0x35 rd ra 0 fn) 0x35 fn k)
      (he : exec i s = s.core fun y => y.crypt c t rd ra fn [])
      (hq : ∀ l, (begun s c t 0x35 fn).keyOp (fn = 1) (w 0) (w 1) l = (1, [], begun s c t 0x35 fn)) : refuses i := by
    have hframe := (begun_frame s c t 0x35 fn).1
    obtain ⟨honly, hciph, -⟩ := (begun s c t 0x35 fn).answered_parts c t (routine fn) 1
    have hruns := crypt_runs h he hsuper
    rw [Chip.cryptEnd_noOutput (r := routine fn) (off := off) (q := (1, [], begun s c t 0x35 fn)) (by rw [hthread]; rfl) halign hroom
      (by rw [hword]; exact hdata) (by rw [hword]; exact hfit) (by rw [hword, hword]; exact hq _) rfl] at hruns
    have hcompletes := (begun s c t 0x35 fn).answered_completes c t (r := routine fn) (rd := rd) rfl 1
    rw [hthread] at hcompletes
    obtain ⟨hstate, hwait, hip, hrd⟩ := hcompletes
    exact ⟨_, hruns, ⟨hip, hstate, hwait, hrd⟩, hciph.trans (OnlyThread.ciph_eq hframe), OnlyThread.trans hframe honly⟩
  refine ⟨fun h => ?kd, fun h => ?wrap⟩
  case kd =>
    refine ⟨hanswers false h rfl rfl fun hcode => ?_, hanswers false h rfl rfl fun hcode => ?_, hanswers false h rfl rfl fun hcode => ?_,
      hanswers false h rfl rfl fun hcode => ?_, fun hcode => ?_⟩
    · simp only [Chip.keyOp, hcode]
    · simp only [Chip.keyOp, hcode, hread 0 (by rw [hcode]; rfl)]
    · simp only [Chip.keyOp, hcode, hread 0 (by rw [hcode]; rfl)]
    · simp only [Chip.keyOp, hcode]
    · have hq (l : List Nat) := (begun s c t 0x35 0).keyOp_notKd (w 1) l hcode
      exact ⟨hrefuses h rfl hq, hrefuses h rfl hq, hrefuses h rfl hq, hrefuses h rfl hq⟩
  case wrap =>
    refine ⟨hanswers true h rfl rfl fun hcode => ?_, hanswers true h rfl rfl fun hcode => ?_, hanswers true h rfl rfl fun hcode => ?_,
      hanswers true h rfl rfl fun hcode => ?_, hanswers true h rfl rfl fun hcode => ?_, fun hcode => ?_⟩
    · simp only [Chip.keyOp, hcode, hread 1 (by rw [hcode]; rfl)]
    · simp only [Chip.keyOp, hcode, hread 1 (by rw [hcode]; rfl)]
    · simp only [Chip.keyOp, hcode]
    · simp only [Chip.keyOp, hcode]
    · simp only [Chip.keyOp, hcode, hread 1 (by rw [hcode]; rfl)]
    · have hq (l : List Nat) := (begun s c t 0x35 1).keyOp_notWrap (w 1) l hcode
      exact ⟨hrefuses h rfl hq, hrefuses h rfl hq, hrefuses h rfl hq, hrefuses h rfl hq, hrefuses h rfl hq⟩

end Sys2Proof.Machine
end

section
/-! Ticks (R489, R493): what the engines' cycles leave of TIME, and the steps of logical time that a tick carries out. -/
namespace Sys2Proof.Machine

/-! ### The clock: what logical time is read from -/

/-- u has the clock of s: FRC, OFFSET, RATE, the target of a TIME_SET that waits, and STEPPED of the events. -/
structure Chip.SameClock (s u : Chip) : Prop where
  frc : u.frc = s.frc
  offset : u.offset = s.offset
  rate : u.rate = s.rate
  setTo : u.time.setTo = s.time.setTo
  stepped : u.flag Reg.TIME_EVENT 3 = s.flag Reg.TIME_EVENT 3

section
variable {s u v : Chip}

theorem Chip.SameClock.refl (s : Chip) : s.SameClock s := ⟨rfl, rfl, rfl, rfl, rfl⟩

theorem Chip.SameClock.trans (h : s.SameClock u) (g : u.SameClock v) : s.SameClock v :=
  ⟨g.frc.trans h.frc, g.offset.trans h.offset, g.rate.trans h.rate, g.setTo.trans h.setTo, g.stepped.trans h.stepped⟩

theorem Chip.SameClock.foldl {ι : Type} {f : Chip → ι → Chip} (h : ∀ (u : Chip) (i : ι), u.SameClock (f u i)) (l : List ι) (s : Chip) : s.SameClock (l.foldl f s) :=
  List.foldlRecOn (motive := fun u => s.SameClock u) l f (.refl s) fun u hu i _ => hu.trans (h u i)

theorem Chip.SameClock.logical_eq (h : s.SameClock u) : u.logical = s.logical := by
  rw [Chip.logical, Chip.logical, Chip.logicalAt, Chip.logicalAt, h.frc, h.rate, h.offset]

end

section
variable (s : Chip)

theorem Chip.rate_setReg_other {a : Nat} (v : W64) (h : Reg.TIME_RATE ≠ a) : (s.setReg a v).rate = s.rate := by
  rw [Chip.rate, Chip.get, Chip.reg_setReg_other s v h]
  rfl

theorem Chip.sameClock_setReg {a : Nat} (v : W64) (hrate : Reg.TIME_RATE ≠ a) (hevent : Reg.TIME_EVENT ≠ a) : s.SameClock (s.setReg a v) :=
  ⟨rfl, rfl, s.rate_setReg_other v hrate, rfl, by rw [Chip.flag, Chip.reg_setReg_other s v hevent]; rfl⟩

/-- An event of TIME but STEPPED. -/
theorem Chip.sameClock_raise {k : Nat} (h : 3 ≠ k) : s.SameClock (s.raise Reg.TIME_EVENT k) :=
  ⟨rfl, rfl, s.rate_setReg_other _ (by decide), rfl, s.flag_setFlag_bit Reg.TIME_EVENT true (by decide) h⟩

/-- A counter of TIME, with its COUNTER_HALF (R671). -/
theorem Chip.sameClock_bump {a : Nat} (n : Nat) (hhalf : halfEvent a = some (Reg.TIME_EVENT, 13)) (hrate : Reg.TIME_RATE ≠ a)
    (hevent : Reg.TIME_EVENT ≠ a) : s.SameClock (s.bump a n) := by
  have hset := s.sameClock_setReg (w64 (countAdd (s.get a 47 0) n)) hrate hevent
  unfold Chip.bump
  dsimp only
  split
  · next e k _ hk =>
    cases hhalf.symm.trans hk
    exact hset.trans (Chip.sameClock_raise _ (by decide))
  · exact hset

/-- What a step passes over is counted and reported, if there is any (R504, R508). -/
theorem Chip.SameClock.counted {s u : Chip} {a n k : Nat} (h : s.SameClock u) (hhalf : halfEvent a = some (Reg.TIME_EVENT, 13)) (hrate : Reg.TIME_RATE ≠ a)
    (hevent : Reg.TIME_EVENT ≠ a) (hk : 3 ≠ k) : s.SameClock (if n = 0 then u else (u.bump a n).raise Reg.TIME_EVENT k) := by
  split
  · exact h
  · exact h.trans ((u.sameClock_bump n hhalf hrate hevent).trans (Chip.sameClock_raise _ hk))

/-! ### Outputs and triggers after a step (R504, R508) -/

theorem Chip.sameClock_pulseStop (n : Nat) : s.SameClock (s.pulseStop n) := by
  unfold Chip.pulseStop
  split
  · exact .refl s
  · exact ⟨rfl, rfl, rfl, rfl, rfl⟩

theorem Chip.sameClock_pulseSchedule (n : Nat) : s.SameClock (s.pulseSchedule n) := by
  unfold Chip.pulseSchedule
  dsimp only
  split
  · refine (s.sameClock_pulseStop n).trans ?_
    exact ⟨rfl, rfl, rfl, rfl, rfl⟩
  · exact Chip.SameClock.counted ⟨rfl, rfl, rfl, rfl, rfl⟩ rfl (by decide) (by decide) (by decide)

/-- No trigger touches the target of a TIME_SET. -/
theorem Chip.sameClock_trigSkip : s.SameClock s.trigSkip := by
  unfold Chip.trigSkip
  dsimp only
  exact Chip.SameClock.counted ⟨rfl, rfl, rfl, rfl, rfl⟩ rfl (by decide) (by decide) (by decide)

/-! ### The steps of a tick -/

/-- OFFSET after the steps that wait: what TIME_SET makes it, or as it was, and every addition (R493). -/
def Chip.steppedOffset (s : Chip) : Int :=
  (match s.time.setTo with
    | some x => x - scaledTicks s.frc s.rate
    | none => s.offset) + (s.time.adjHost ++ s.time.adjEngine ++ s.time.servoStep).sum

/-- The part with the waiting steps made, before outputs and triggers follow. -/
def Chip.stepMade (s : Chip) : Chip :=
  ({ s with offset := s.steppedOffset, time := { s.time with setTo := none, adjHost := [], adjEngine := [], servoStep := [] } } : Chip).raise Reg.TIME_EVENT 3

theorem Chip.applySteps_eq : s.applySteps =
    let u := s.stepMade.pulsesSchedule.pmMark true
    if s.logical < u.logical then u.trigSkip else u := rfl

/-- What follows a step leaves the clock as the step made it. -/
theorem Chip.sameClock_applySteps : s.stepMade.SameClock s.applySteps := by
  have hschedule : s.stepMade.SameClock (s.stepMade.pulsesSchedule.pmMark true) :=
    (Chip.SameClock.foldl (fun u n => u.sameClock_pulseSchedule n) _ _).trans ⟨rfl, rfl, rfl, rfl, rfl⟩
  rw [Chip.applySteps_eq]
  dsimp only
  split
  · exact hschedule.trans (Chip.sameClock_trigSkip _)
  · exact hschedule

theorem Chip.rate_stepMade : s.stepMade.rate = s.rate := Chip.rate_setReg_other _ _ (by decide)

theorem Chip.logical_stepMade : s.stepMade.logical = scaledTicks s.frc s.rate + s.steppedOffset := by
  rw [Chip.logical, Chip.logicalAt, Chip.rate_stepMade]
  rfl

theorem Chip.logical_stepMade_set {x : Int} (hset : s.time.setTo = some x) (hadd : s.time.adjHost ++ s.time.adjEngine ++ s.time.servoStep = []) :
    s.stepMade.logical = x := by
  rw [Chip.logical_stepMade, Chip.steppedOffset, hset, hadd, List.sum_nil]
  dsimp only
  omega

theorem Chip.logical_stepMade_adjust {d : Int} (hset : s.time.setTo = none) (hadd : s.time.adjHost ++ s.time.adjEngine ++ s.time.servoStep = [d]) :
    s.stepMade.logical = s.logical + d := by
  rw [Chip.logical_stepMade, Chip.steppedOffset, hset, hadd, List.sum_singleton, ← add_assoc]
  rfl

theorem Chip.flag_stepMade : s.stepMade.flag Reg.TIME_EVENT 3 = true := Chip.flag_setFlag_self _ _ true (by decide)

/-- A tick in which a step waits carries the step out (R493). -/
theorem timeTick_steps (hstep : s.time.stepping = true) (hroom : s.frc + 1 < 18446744073709551616) :
    ({ s with frc := s.frc + 1 } : Chip).stepMade.SameClock (timeTick 1 s) := by
  have happly := Chip.sameClock_applySteps { s with frc := s.frc + 1 }
  have heq : timeTick 1 s = { ({ s with frc := s.frc + 1 } : Chip).applySteps with frc := s.frc + 1 } := by
    unfold timeTick
    rw [if_neg Nat.one_ne_zero]
    dsimp only
    rw [if_pos hstep, Nat.mod_eq_of_lt hroom]
  rw [heq]
  exact ⟨rfl, happly.offset, happly.rate, happly.setTo, happly.stepped⟩

/-- Ticks with no step waiting move FRC alone (R489). -/
theorem timeTick_plain {n : Nat} (hn : n ≠ 0) (hstep : s.time.stepping = false) :
    timeTick n s = { s with frc := (s.frc + n) % 18446744073709551616 } := by
  unfold timeTick
  rw [if_neg hn]
  dsimp only
  rw [if_neg (by simp [hstep])]

/-! ### The engines' cycles -/

/-- What neither the cycle count, a fresh open value nor a register of the crucibles touches, the engines' cycles leave as it was. -/
theorem cycleTick_keeps {β : Type} (g : Chip → β) (hcount : ∀ u i x, g { u with fresh := i, cru := x } = g u)
    (hreg : ∀ u a v, 0x1C00000 ≤ a → g (u.setReg a v) = g u) (n : Nat) : g (cycleTick n s) = g s := by
  have hdata (c e k : Nat) : 0x1C00000 ≤ Cell.ctrData c e k := by unfold Cell.ctrData cell; omega
  have hcfg (c e k : Nat) : 0x1C00000 ≤ Cell.ctrCfg c e k := by unfold Cell.ctrCfg cell; omega
  have hevent (c : Nat) : 0x1C00000 ≤ Reg.CRU_EVENT c := by unfold Reg.CRU_EVENT; omega
  have hadd (u : Chip) (c e k m : Nat) : g (u.ctrAdd c e k m) = g u := by
    unfold Chip.ctrAdd
    dsimp only
    split
    · exact hreg _ _ _ (hdata c e k)
    · exact (hreg _ _ _ (hevent c)).trans ((hreg _ _ _ (hcfg c e k)).trans (hreg _ _ _ (hdata c e k)))
  have hwrap (u : Chip) : g u.cyclesWrap = g u :=
    foldl_keeps g (fun v c => (hreg _ _ _ (hevent c)).trans (foldl_keeps g (fun w e => hreg w _ _ (hcfg c e 0)) _ v)) _ u
  have hite {p : Prop} [Decidable p] {u x y : Chip} (hx : g x = g u) (hy : g y = g u) : g (if p then x else y) = g u := by
    split
    · exact hx
    · exact hy
  unfold cycleTick
  dsimp only [Chip.tick]
  refine (foldl_keeps g (fun u p => ?_) _ _).trans ?_
  · have htick : g u.tick.2 = g u := hcount u _ u.cru
    exact hite htick ((hadd _ _ _ _ _).trans htick)
  · exact hite (hcount s _ _) ((hwrap _).trans (hcount s _ _))

section
variable (n : Nat)

theorem cycleTick_frc : (cycleTick n s).frc = s.frc := cycleTick_keeps s (·.frc) (fun _ _ _ => rfl) (fun _ _ _ _ => rfl) n

theorem cycleTick_offset : (cycleTick n s).offset = s.offset := cycleTick_keeps s (·.offset) (fun _ _ _ => rfl) (fun _ _ _ _ => rfl) n

theorem cycleTick_time : (cycleTick n s).time = s.time := cycleTick_keeps s (·.time) (fun _ _ _ => rfl) (fun _ _ _ _ => rfl) n

theorem cycleTick_pon : (cycleTick n s).pon = s.pon := cycleTick_keeps s (·.pon) (fun _ _ _ => rfl) (fun _ _ _ _ => rfl) n

theorem cycleTick_rate : (cycleTick n s).rate = s.rate :=
  cycleTick_keeps s Chip.rate (fun _ _ _ => rfl) (fun u a v ha => u.rate_setReg_other v (by unfold Reg.TIME_RATE; omega)) n

end

/-! ### A receiver's GO given while its timing does not run (R119) -/

theorem Chip.ponuApplyIdle_none (t : Tree) (h : (s.pon.ponu.get t.val).idleGo = false) : s.ponuApplyIdle t = s := by
  unfold Chip.ponuApplyIdle
  rw [if_neg (by simp [h])]

theorem Chip.sameClock_ponuApplyIdle (t : Tree) : s.SameClock (s.ponuApplyIdle t) := by
  unfold Chip.ponuApplyIdle
  split
  · have hrate : Reg.TIME_RATE ≠ Reg.PONU_COMMIT t := by unfold Reg.TIME_RATE Reg.PONU_COMMIT; omega
    have hevent : Reg.TIME_EVENT ≠ Reg.PONU_COMMIT t := by unfold Reg.TIME_EVENT Reg.PONU_COMMIT; omega
    have happly (n : Nat) : s.SameClock (s.ponuApply t n none) := by
      have h := (s.applyRange (ponuBase t) (ponuBase t + 0x10000)).sameClock_setReg
        (setFld ((s.applyRange (ponuBase t) (ponuBase t + 0x10000)).reg (Reg.PONU_COMMIT t)) 63 32 n) hrate hevent
      exact ⟨h.frc, h.offset, h.rate, h.setTo, h.stepped⟩
    have hdone (u : Chip) : u.SameClock (u.goDone (Reg.PONU_COMMIT t)) := by
      have h := u.sameClock_setReg (setBit (u.reg (Reg.PONU_COMMIT t)) 1 false) hrate hevent
      exact ⟨h.frc, h.offset, h.rate, h.setTo, h.stepped⟩
    exact (happly _).trans (hdone _)
  · exact .refl s

/-! ### Ticks of the part -/

/-- The part with the island's crystal n ticks on. -/
def Chip.crystalOn (s : Chip) (n : Nat) : Chip := { s with isl := { s.isl with clock := s.isl.clock + n } }

theorem tick_stopped (n : Nat) (h : s.flag Reg.CLK_STATUS 0 = false) : tick n s = s.crystalOn n := by
  have hflag : (s.crystalOn n).flag Reg.CLK_STATUS 0 = false := h
  change (if (s.crystalOn n).running && (s.crystalOn n).flag Reg.CLK_STATUS 0 then _ else s.crystalOn n) = _
  rw [hflag, Bool.and_false, if_neg Bool.false_ne_true]

theorem tick_counting (n : Nat) (hr : s.running = true) (h : s.flag Reg.CLK_STATUS 0 = true) :
    tick n s = (List.finRange 32).foldl Chip.ponuApplyIdle (timeTick n (cycleTick n (s.crystalOn n))) := by
  have hrun : (s.crystalOn n).running = true := hr
  have hflag : (s.crystalOn n).flag Reg.CLK_STATUS 0 = true := h
  change (if (s.crystalOn n).running && (s.crystalOn n).flag Reg.CLK_STATUS 0 then _ else _) = _
  rw [hrun, hflag, Bool.and_true, if_pos rfl]
  rfl

theorem tick_plain {n : Nat} (hn : n ≠ 0) (hr : s.running = true) (h : s.flag Reg.CLK_STATUS 0 = true) (hstep : s.time.stepping = false)
    (hidle : ∀ t : Tree, (s.pon.ponu.get t.val).idleGo = false) :
    tick n s = { cycleTick n (s.crystalOn n) with frc := (s.frc + n) % 18446744073709551616 } := by
  rw [tick_counting s n hr h, timeTick_plain _ hn (by rw [cycleTick_time]; exact hstep), cycleTick_frc]
  generalize hu : ({ cycleTick n (s.crystalOn n) with frc := ((s.crystalOn n).frc + n) % 18446744073709551616 } : Chip) = u
  have hpon : u.pon = s.pon := by rw [← hu]; exact cycleTick_pon _ n
  exact (List.foldlRecOn (motive := fun v => v = u) _ Chip.ponuApplyIdle rfl fun v hv t _ =>
    hv ▸ Chip.ponuApplyIdle_none u t (by rw [hpon]; exact hidle t)).trans hu.symm

/-- One tick in which a step waits: the clock is as the step made it on the part one tick on. -/
theorem tick_steps (hr : s.running = true) (h : s.flag Reg.CLK_STATUS 0 = true) (hroom : s.frc + 1 < 18446744073709551616)
    (hstep : s.time.stepping = true) : ∃ u : Chip, u.stepMade.SameClock (tick 1 s) ∧ u.frc = s.frc + 1 ∧ u.time = s.time ∧
      u.logical = s.logicalAt (s.frc + 1) := by
  have htime : (cycleTick 1 (s.crystalOn 1)).time = s.time := cycleTick_time _ 1
  have hfrc : (cycleTick 1 (s.crystalOn 1)).frc = s.frc := cycleTick_frc _ 1
  have hclock := (timeTick_steps _ (by rw [htime]; exact hstep) (by rw [hfrc]; exact hroom)).trans
    (Chip.SameClock.foldl Chip.sameClock_ponuApplyIdle (List.finRange 32) _)
  rw [← tick_counting s 1 hr h] at hclock
  refine ⟨_, hclock, congrArg (· + 1) hfrc, htime, ?_⟩
  rw [← hfrc, Chip.logical, Chip.logicalAt, Chip.logicalAt]
  exact congrArg₂ (scaledTicks ((cycleTick 1 (s.crystalOn 1)).frc + 1) · + ·) (cycleTick_rate _ 1) (cycleTick_offset _ 1)

/-- A TIME_SET alone takes logical time to its target at the tick (R492). -/
theorem tick_set {x : Int} (hr : s.running = true) (h : s.flag Reg.CLK_STATUS 0 = true) (hroom : s.frc + 1 < 18446744073709551616)
    (hset : s.time.setTo = some x) (hadd : s.time.adjHost ++ s.time.adjEngine ++ s.time.servoStep = []) :
    (tick 1 s).frc = s.frc + 1 ∧ (tick 1 s).logical = x ∧ (tick 1 s).flag Reg.TIME_EVENT 3 = true ∧ (tick 1 s).time.setTo = none := by
  obtain ⟨u, hclock, hfrc, htime, -⟩ := tick_steps s hr h hroom (by simp [TimeState.stepping, hset])
  refine ⟨hclock.frc.trans hfrc, hclock.logical_eq.trans ?_, hclock.stepped.trans u.flag_stepMade, hclock.setTo⟩
  exact u.logical_stepMade_set (htime ▸ hset) (htime ▸ hadd)

/-- An addition alone moves logical time by itself at the tick (R493). -/
theorem tick_adjust {d : Int} (hr : s.running = true) (h : s.flag Reg.CLK_STATUS 0 = true) (hroom : s.frc + 1 < 18446744073709551616)
    (hset : s.time.setTo = none) (hadd : s.time.adjHost ++ s.time.adjEngine ++ s.time.servoStep = [d]) :
    (tick 1 s).logical = s.logicalAt (s.frc + 1) + d ∧ (tick 1 s).flag Reg.TIME_EVENT 3 = true := by
  obtain ⟨u, hclock, -, htime, hlogical⟩ := tick_steps s hr h hroom (by simp [TimeState.stepping, hadd])
  refine ⟨hclock.logical_eq.trans ?_, hclock.stepped.trans u.flag_stepMade⟩
  rw [u.logical_stepMade_adjust (htime ▸ hset) (htime ▸ hadd), hlogical]

end
end Sys2Proof.Machine
end

section
/-! Logical time read, set and steered (R490 to R494, R512), capture inputs (R499, R500), the outputs (R502), triggers and recovered clocks
(R509, R526). -/
namespace Sys2Proof.Machine

section
variable (s : Chip)

/-! ### Counts, as TIME sees them -/

theorem RegsOnly.time_eq {s u : Chip} (h : RegsOnly s u) : u.time = s.time := by
  unfold RegsOnly at h
  rw [h]

theorem RegsOnly.offset_eq {s u : Chip} (h : RegsOnly s u) : u.offset = s.offset := by
  unfold RegsOnly at h
  rw [h]

@[simp] theorem Chip.bump_time (a n : Nat) : (s.bump a n).time = s.time := (regsOnly_bump s a n).time_eq

@[simp] theorem Chip.bump_offset (a n : Nat) : (s.bump a n).offset = s.offset := (regsOnly_bump s a n).offset_eq

@[simp] theorem Chip.flag_raise_self (a : Nat) {k : Nat} (hk : k < 64) : (s.raise a k).flag a k = true := s.flag_setFlag_self a true hk

/-! ### Reads of logical time (R494) -/

/-- The part with one tick's time captured. -/
def Chip.nowCaptured (s : Chip) : Chip :=
  ((s.setReg Reg.TIME_NOW_NS (w64 (nsOf s.logical))).setReg Reg.TIME_NOW_FRAC (w64 (fracOf s.logical))).setReg Reg.TIME_NOW_FRC (w64 s.frc)

theorem timeNowRead_full : timeNowRead .full s = s.nowCaptured.answer (w64 (nsOf s.logical)) := rfl

theorem timeNowRead_low : timeNowRead .low s = s.nowCaptured.answer (w64 (nsOf s.logical % 4294967296)) := rfl

theorem Chip.nowCaptured_parts : s.nowCaptured.reg Reg.TIME_NOW_NS = w64 (nsOf s.logical) ∧
    s.nowCaptured.reg Reg.TIME_NOW_FRAC = w64 (fracOf s.logical) ∧ s.nowCaptured.reg Reg.TIME_NOW_FRC = w64 s.frc := by
  unfold Chip.nowCaptured
  refine ⟨?_, ?_, Chip.reg_setReg_self _ _ _⟩
  · rw [Chip.reg_setReg_other _ _ (by decide), Chip.reg_setReg_other _ _ (by decide), Chip.reg_setReg_self]
  · rw [Chip.reg_setReg_other _ _ (by decide), Chip.reg_setReg_self]

/-! ### A step that is to come (R492, R493) -/

theorem timeSet_parts (v : W64) : (timeSet v s).offset = s.offset ∧ (timeSet v s).time.setTo =
    if bit v 16 = true then some (((s.reg Reg.TIME_SET_NS).toNat * 65536 + fld v 15 0 : Nat) : Int) else s.time.setTo := by
  unfold timeSet
  dsimp only
  split
  · exact ⟨rfl, by simp [Chip.updTime, ns1]⟩
  · exact ⟨rfl, rfl⟩

/-! ### A change of RATE (R491, R512) -/

theorem timeRateWrite_denied {v : W64} (h : s.servoOwnsRate = true) : timeRateWrite v s = s.raise Reg.TIME_EVENT 12 := if_pos h

theorem timeRateWrite_sets {v : W64} (h : s.servoOwnsRate = false) : timeRateWrite v s = s.setRate (signed 40 (fld v 39 0)) :=
  if_neg (by simp [h])

theorem fld_w64 {n hi : Nat} (h : n < 2 ^ (hi + 1)) (h64 : hi < 64) : fld (w64 n) hi 0 = n := by
  have hle : 2 ^ (hi + 1) ≤ 2 ^ 64 := Nat.pow_le_pow_right (by decide) (by omega)
  rw [fld, bitsOf, w64, BitVec.toNat_ofNat, Nat.mod_eq_of_lt (Nat.lt_of_lt_of_le h hle), Nat.shiftRight_zero]
  exact Nat.mod_eq_of_lt h

theorem wrapInt_lt (w : Nat) (x : Int) : wrapInt w x < 2 ^ w := by
  have hpos : (0 : Int) < ((2 ^ w : Nat) : Int) := Int.natCast_pos.mpr (Nat.two_pow_pos w)
  have hlo := Int.emod_nonneg x hpos.ne'
  have hhi := Int.emod_lt_of_pos x hpos
  unfold wrapInt
  omega

/-- A signed number survives the field of its own width. -/
theorem signed_wrapInt_signed {w : Nat} (n : Nat) : signed w (wrapInt w (signed w n)) = signed w n := by
  have hmod : wrapInt w (signed w n) = n % 2 ^ w := by
    have hlt : n % 2 ^ w < 2 ^ w := Nat.mod_lt _ (Nat.two_pow_pos w)
    have hself : ((n % 2 ^ w : Nat) : Int) % ((2 ^ w : Nat) : Int) = ((n % 2 ^ w : Nat) : Int) :=
      Int.emod_eq_of_lt (Int.natCast_nonneg _) (Int.ofNat_lt.mpr hlt)
    unfold wrapInt signed
    split
    · rw [hself, Int.toNat_natCast]
    · rw [Int.sub_emod_right, hself, Int.toNat_natCast]
  rw [hmod, signed, signed, Nat.mod_mod]

theorem Chip.rate_setRate (n : Nat) : (s.setRate (signed 40 n)).rate = signed 40 n := by
  have hreg : (s.setRate (signed 40 n)).reg Reg.TIME_RATE = w64 (wrapInt 40 (signed 40 n)) := Chip.reg_setReg_self _ _ _
  rw [Chip.rate, Chip.get, hreg, fld_w64 (wrapInt_lt 40 _) (by decide), signed_wrapInt_signed]

/-- What OFFSET gains to make up for a new RATE is out by at most one unit: the old reading is the quotient of the two parts' sum, the new one the sum of their
quotients, one rounded down and one to the nearest. -/
theorem floor_add_roundDiv_near (a b : Int) :
    (a / 79228162514264337593543950336 + roundDiv b 79228162514264337593543950336 - (a + b) / 79228162514264337593543950336).natAbs ≤ 1 := by
  unfold roundDiv
  omega

theorem Chip.logical_setRate_near (n : Nat) : ((s.setRate (signed 40 n)).logical - s.logical).natAbs ≤ 1 := by
  have hnear := floor_add_roundDiv_near ((s.frc * tickP : Nat) * (281474976710656 + signed 40 n)) ((s.frc * tickP : Nat) * (s.rate - signed 40 n))
  have hsum : ((s.frc * tickP : Nat) : Int) * (281474976710656 + signed 40 n) + (s.frc * tickP : Nat) * (s.rate - signed 40 n) =
      (s.frc * tickP : Nat) * (281474976710656 + s.rate) := by ring
  rw [hsum] at hnear
  have hnew : (s.setRate (signed 40 n)).logical = scaledTicks s.frc (signed 40 n) +
      (s.offset + roundDiv ((s.frc * tickP : Nat) * (s.rate - signed 40 n)) 79228162514264337593543950336) := by
    rw [Chip.logical, Chip.logicalAt, Chip.rate_setRate]
    rfl
  rw [hnew, Chip.logical, Chip.logicalAt, scaledTicks, scaledTicks]
  omega

/-! ### Capture inputs (R499 to R501) -/

theorem tinCapture_ignored {n : Fin 4} {rising : Bool} {k : Fin 8}
    (h : s.flag (Reg.TIME_TINn_CFG n) 0 = false ∨ s.flag (Reg.TIME_TINn_CFG n) 1 = rising) : tinCapture n rising k s = s :=
  if_pos (by simpa using h)

/-- The time of a captured edge: the eighth of the tick less the input's delay (R499). -/
def Chip.edgeTime (s : Chip) (n : Fin 4) (k : Fin 8) : Int := s.logicalEighth k - signed 32 (s.get (Reg.TIME_TINn_DELAY n) 31 0)

/-- An input that the servo does not take its measurements from measures nothing. -/
theorem Chip.detect_other {n : Nat} (at_ : Int) (h : fld (s.act Reg.TIME_SERVO_CTRL) 2 0 ≠ n + 1) : s.detect n at_ = s := by
  unfold Chip.detect
  dsimp only
  rw [if_pos (by simp [h])]

theorem tinCapture_captures {n : Fin 4} {rising : Bool} {k : Fin 8} (hon : s.flag (Reg.TIME_TINn_CFG n) 0 = true)
    (hedge : s.flag (Reg.TIME_TINn_CFG n) 1 ≠ rising) (hservo : fld (s.act Reg.TIME_SERVO_CTRL) 2 0 ≠ n.val + 1) :
    tinCapture n rising k s = if 16 ≤ (s.time.tin.get n).length then (s.bump (Reg.TIME_TINn_LOST n)).raise Reg.TIME_EVENT 9
      else s.updTime fun t => { t with tin := t.tin.set n (s.time.tin.get n ++ [w64 (9223372036854775808 + stampOf (s.edgeTime n k))]) } := by
  unfold tinCapture
  rw [if_neg (by simp [hon, hedge])]
  dsimp only
  split
  · have hact : ((s.bump (Reg.TIME_TINn_LOST n)).raise Reg.TIME_EVENT 9).act Reg.TIME_SERVO_CTRL = s.act Reg.TIME_SERVO_CTRL :=
      congrArg (Map.look resetW · Reg.TIME_SERVO_CTRL) (by simp [Chip.raise])
    exact Chip.detect_other _ _ (by rw [hact]; exact hservo)
  · exact Chip.detect_other _ _ hservo

theorem tinCapture_stores {n : Fin 4} {rising : Bool} {k : Fin 8} (hon : s.flag (Reg.TIME_TINn_CFG n) 0 = true)
    (hedge : s.flag (Reg.TIME_TINn_CFG n) 1 ≠ rising) (hservo : fld (s.act Reg.TIME_SERVO_CTRL) 2 0 ≠ n.val + 1)
    (hroom : (s.time.tin.get n).length < 16) : (tinCapture n rising k s).regs = s.regs ∧
      (tinCapture n rising k s).time.tin.get n = s.time.tin.get n ++ [w64 (9223372036854775808 + stampOf (s.edgeTime n k))] := by
  rw [tinCapture_captures s hon hedge hservo, if_neg (by omega)]
  exact ⟨rfl, Map.get_set_self _ _ _⟩

theorem tinCapture_lost {n : Fin 4} {rising : Bool} {k : Fin 8} (hon : s.flag (Reg.TIME_TINn_CFG n) 0 = true)
    (hedge : s.flag (Reg.TIME_TINn_CFG n) 1 ≠ rising) (hservo : fld (s.act Reg.TIME_SERVO_CTRL) 2 0 ≠ n.val + 1)
    (hfull : 16 ≤ (s.time.tin.get n).length) : tinCapture n rising k s = (s.bump (Reg.TIME_TINn_LOST n)).raise Reg.TIME_EVENT 9 :=
  (tinCapture_captures s hon hedge hservo).trans (if_pos hfull)

/-! ### Outputs (R502) -/

/-- The time of edge k of an output. -/
def Chip.edgeAt (s : Chip) (n k : Nat) : Int := s.pulseStart n + k * s.pulsePeriod n * ns1

theorem toutEdge_idle {n : Fin 8} (hactive : (s.time.pulses.get n).active = none) (hnext : (s.time.pulses.get n).next = none) : toutEdge n s = s := by
  simp only [toutEdge, hactive, hnext, Bool.false_eq_true, if_false]

theorem toutEdge_ends {n : Fin 8} {e : Nat} (hactive : (s.time.pulses.get n).active = some e) (hover : e ≤ s.logical / ns1)
    (hnext : (s.time.pulses.get n).next = none) : (toutEdge n s).out = .pulseEnd n (s.pulseIdle n) :: s.out ∧
      (toutEdge n s).time.pulses.get n = { s.time.pulses.get n with active := none } := by
  have heq : toutEdge n s = s.pulseStop n := by simp only [toutEdge, hactive, hnext, hover, decide_true, if_true]
  rw [heq, Chip.pulseStop, hactive, if_neg (by simp)]
  exact ⟨rfl, Map.get_set_self _ _ _⟩

theorem toutEdge_early {n : Fin 8} {k : Nat} (hactive : (s.time.pulses.get n).active = none) (hnext : (s.time.pulses.get n).next = some k)
    (hearly : s.logical < s.edgeAt n k) : toutEdge n s = s := by
  have hlt : s.logical < s.pulseStart n + k * s.pulsePeriod n * ns1 := hearly
  simp only [toutEdge, hactive, hnext, hlt, Bool.false_eq_true, if_false, decide_true, Bool.or_true, if_true]

/-- The output's state once it has driven edge k. -/
def Chip.pulseDriven (s : Chip) (n k : Nat) : Pulse :=
  { last := some k, next := if s.pulsePeriod n = 0 then none else some (k + 1)
    active := some ((s.edgeAt n k / ns1).toNat + fld (s.act (Reg.TIME_TOUTn_CTRL n)) 31 0) }

theorem toutEdge_drives {n : Fin 8} {k : Nat} (hactive : (s.time.pulses.get n).active = none) (hnext : (s.time.pulses.get n).next = some k)
    (hdue : s.edgeAt n k ≤ s.logical) (hon : s.pulseOn n = true) :
    toutEdge n s = (s.updTime fun t => { t with pulses := t.pulses.set n (s.pulseDriven n k) }).emit
      (.pulse n k (fld (s.act (Reg.TIME_TOUTn_CTRL n)) 31 0) (!s.pulseIdle n)) := by
  have hnot : ¬s.logical < s.pulseStart n + k * s.pulsePeriod n * ns1 := not_lt.mpr hdue
  simp only [toutEdge, hactive, hnext, hon, hnot, Bool.false_eq_true, if_false, decide_false, Bool.not_true, Bool.or_false]
  rfl

/-! ### Triggers (R505, R509) -/

theorem trigCancel_ignored {v : W64} (h : (s.time.trig.get (fld v 7 0)).armed = false ∨ (s.time.trig.get (fld v 7 0)).gen ≠ fld v 15 8) :
    trigCancel v s = s :=
  if_pos (by simpa using h)

theorem trigCancel_frees {v : W64} (harmed : (s.time.trig.get (fld v 7 0)).armed = true) (hgen : (s.time.trig.get (fld v 7 0)).gen = fld v 15 8)
    (hearly : s.logical < (s.time.trig.get (fld v 7 0)).next * ns1) :
    trigCancel v s = s.setTrigger (fld v 7 0) (s.time.trig.get (fld v 7 0)).freed := by
  unfold trigCancel
  dsimp only
  rw [if_neg (by simp [harmed, hgen]), if_neg (not_le.mpr hearly)]

/-! ### Recovered clocks (R526) -/

theorem rclkSquelch_off {r : Fin 2} (locked : Bool) (h : s.flag (Reg.TIME_RCLKr r) 6 = false) : rclkSquelch r locked s = s := if_neg (by simp [h])

theorem rclkSquelch_acts {r : Fin 2} (locked : Bool) (h : s.flag (Reg.TIME_RCLKr r) 6 = true) :
    rclkSquelch r locked s = (s.setFlag (Reg.TIME_RCLKr r) 7 (!locked)).emit
      (.rclk r (if locked = true then some (s.get (Reg.TIME_RCLKr r) 4 0, s.flag (Reg.TIME_RCLKr r) 5) else none)) := if_pos h

end
end Sys2Proof.Machine
end

section
/-! The servo, holdover, the steering port and the oscillator's temperature (R510 to R515, R518 to R525). -/
namespace Sys2Proof.Machine

section
variable (s : Chip)

/-! ### Measurements that a program supplies (R510, R515) -/

theorem servoInputWrite_denied {v : W64} (h : fld (s.act Reg.TIME_SERVO_CTRL) 2 0 ≠ 5) : servoInputWrite v s = s.raise Reg.TIME_EVENT 12 := if_pos h

theorem servoInputWrite_dropped {v : W64} {at_ : Nat} (h : fld (s.act Reg.TIME_SERVO_CTRL) 2 0 = 5) (hlast : s.time.servo.lastInput = some at_)
    (hearly : lasts (s.frc - at_) 1000000 = false) : servoInputWrite v s = s.bump Reg.TIME_INPUT_DROP := by
  unfold servoInputWrite
  simp only [h, hlast, hearly, ne_eq, not_true_eq_false, if_false, Bool.not_false, if_true]

theorem Chip.measure_locked (e at_ : Int) (h : s.time.servo.state = 2) :
    s.measure e at_ = (s.updServo fun x => { x with lastErr := e }).track e at_ := by
  simp only [Chip.measure, h]

/-- The first measurement that a program supplies reaches the servo now (R510). -/
theorem servoInputWrite_first {v : W64} (h : fld (s.act Reg.TIME_SERVO_CTRL) 2 0 = 5) (hlast : s.time.servo.lastInput = none) :
    servoInputWrite v s = (s.updServo fun x => { x with lastInput := some s.frc }).measure (signed 48 (fld v 47 0)) s.logical := by
  unfold servoInputWrite
  simp only [h, hlast, ne_eq, not_true_eq_false, if_false, Bool.false_eq_true]

/-- The part with a supplied measurement noted. -/
def Chip.inputNoted (s : Chip) (e : Int) : Chip := s.updServo fun x => { x with lastInput := some s.frc, lastErr := e }

theorem servoInputWrite_locked {v : W64} (h : fld (s.act Reg.TIME_SERVO_CTRL) 2 0 = 5) (hlast : s.time.servo.lastInput = none)
    (hstate : s.time.servo.state = 2) : servoInputWrite v s = (s.inputNoted (signed 48 (fld v 47 0))).track (signed 48 (fld v 47 0)) s.logical :=
  (servoInputWrite_first s h hlast).trans (Chip.measure_locked _ _ _ hstate)

/-- An outlier that is not yet the third in a row is counted, and that is all (R515). -/
theorem Chip.track_outlier {e : Int} (at_ : Int) (hbig : (fld (s.act Reg.TIME_SERVO_BOUND) 23 0 : Int) * ns1 < e.natAbs)
    (hfew : s.time.servo.outliers < 2) : s.track e at_ = (s.bump Reg.TIME_OUTLIERS).updServo fun x => { x with outliers := x.outliers + 1 } := by
  have hthird : ((s.bump Reg.TIME_OUTLIERS).updServo fun x => { x with outliers := x.outliers + 1 }).time.servo.outliers < 3 := by
    change (s.bump Reg.TIME_OUTLIERS).time.servo.outliers + 1 < 3
    rw [Chip.bump_time]
    omega
  unfold Chip.track
  rw [if_pos hbig]
  exact if_pos hthird

theorem servoInputWrite_outlier {v : W64} (h : fld (s.act Reg.TIME_SERVO_CTRL) 2 0 = 5) (hlast : s.time.servo.lastInput = none)
    (hstate : s.time.servo.state = 2) (hfew : s.time.servo.outliers < 2)
    (hbig : (fld (s.act Reg.TIME_SERVO_BOUND) 23 0 : Int) * ns1 < (signed 48 (fld v 47 0)).natAbs) :
    (servoInputWrite v s).time.servo = { s.time.servo with
      lastInput := some s.frc, lastErr := signed 48 (fld v 47 0), outliers := s.time.servo.outliers + 1 } ∧
    (servoInputWrite v s).offset = s.offset := by
  rw [servoInputWrite_locked s h hlast hstate, (s.inputNoted _).track_outlier s.logical hbig hfew]
  simp [Chip.inputNoted, Chip.updServo, Chip.updTime]

/-! ### The loss of measurements (R513) -/

theorem servoLoss_early (h : lasts (s.frc - s.time.servo.lossFrom) (fld (s.act Reg.TIME_SERVO_LIMIT) 63 48 * 1000000) = false) : servoLoss s = s :=
  if_pos (by simp [h])

theorem servoLoss_acquire (h : lasts (s.frc - s.time.servo.lossFrom) (fld (s.act Reg.TIME_SERVO_LIMIT) 63 48 * 1000000) = true)
    (hstate : s.time.servo.state = 1) : servoLoss s = s.updServo fun x => { x with state := 0 } := by
  simp [servoLoss, h, hstate]

theorem servoLoss_locked (h : lasts (s.frc - s.time.servo.lossFrom) (fld (s.act Reg.TIME_SERVO_LIMIT) 63 48 * 1000000) = true)
    (hstate : s.time.servo.state = 2) : servoLoss s = s.enterHoldover := by
  simp [servoLoss, h, hstate]

@[simp] theorem Chip.accrue_servo : s.accrue.time.servo = s.time.servo := by
  unfold Chip.accrue
  split <;> rfl

theorem Chip.enterHoldover_parts : s.enterHoldover.time.servo = { s.time.servo with state := 3 } ∧ s.enterHoldover.flag Reg.TIME_EVENT 1 = true := by
  refine ⟨?_, Chip.flag_raise_self _ _ (by decide)⟩
  rw [← s.accrue_servo]
  rfl

/-! ### Seconds of LOCKED (R518) -/

/-- The sum of y over the present second of LOCKED, up to now. -/
theorem Chip.accrue_locked (h : s.time.servo.state = 2) : s.accrue =
    s.updHold fun g => { g with acc := g.acc + s.time.servo.y * (s.frc - g.accFrom : Nat), accFrom := s.frc } := if_neg (not_not.mpr h)

theorem Chip.accrue_secondSince : s.accrue.secondSince s.accrue.time.hold.secondFrom = s.secondSince s.time.hold.secondFrom := by
  unfold Chip.accrue
  split <;> rfl

theorem fitSample_notDue (h : s.time.servo.state ≠ 2 ∨ s.secondSince s.time.hold.secondFrom = false) : fitSample s = s := by
  unfold fitSample
  dsimp only
  rw [s.accrue_servo, s.accrue_secondSince]
  exact if_pos (by simpa using h)

/-- HO_READY needs a fit (R521). -/
theorem Chip.hoReady_noFit (h : s.fitEn = false) : s.hoReady = s := by
  unfold Chip.hoReady
  dsimp only
  rw [h]
  exact if_neg (by simp)

theorem Chip.fitting_noFit (h : s.fitEn = false) : s.fitting = false := by
  unfold Chip.fitting
  rw [h]
  rfl

/-- The second of LOCKED that ends now. -/
def Chip.secondEnding (s : Chip) : Second :=
  { y := mkRat (s.time.hold.acc + s.time.servo.y * (s.frc - s.time.hold.accFrom : Nat)) (s.frc - s.time.hold.secondFrom)
    temp := s.time.oven.temp, at_ := s.logical / (1000000000 * ns1) }

theorem fitSample_records (hstate : s.time.servo.state = 2) (hdue : s.secondSince s.time.hold.secondFrom = true) (hfit : s.fitEn = false) :
    fitSample s = s.updHold fun g => { g with
      acc := 0, accFrom := s.frc, secondFrom := s.frc, seconds := (s.secondEnding :: g.seconds).take 65535 } := by
  unfold fitSample
  dsimp only
  rw [s.accrue_servo, s.accrue_secondSince, if_neg (by simp [hstate, hdue]), s.accrue_locked hstate]
  have hidle (f : Holdover → Holdover) : (s.updHold f).fitting = false := Chip.fitting_noFit _ hfit
  refine (congrArg Chip.hoReady (if_pos ?_)).trans (Chip.hoReady_noFit _ hfit)
  rw [hidle]
  rfl

/-! ### Holdover (R519, R521) -/

theorem holdoverUpdate_notDue (h : s.time.servo.state ≠ 3 ∨ s.secondSince s.time.hold.secondFrom = false) : holdoverUpdate s = s :=
  if_pos (by simpa using h)

/-- The part with TEMP_OUT and TEMP_FAST given, and the event of each that holds (R521). -/
def Chip.ovenFlagged (s : Chip) (out fast : Bool) : Chip :=
  let u := s.updHold fun g => { g with tempOut := out, tempFast := fast }
  let w := if out then u.raise Reg.TIME_EVENT 6 else u
  if fast then w.raise Reg.TIME_EVENT 7 else w

theorem Chip.ovenFlags_eq : ∃ out fast, s.ovenFlags = s.ovenFlagged out fast := ⟨_, _, rfl⟩

theorem Chip.ovenFlags_servo : s.ovenFlags.time.servo = s.time.servo := by
  obtain ⟨out, fast, h⟩ := s.ovenFlags_eq
  rw [h]
  cases out <;> cases fast <;> rfl

theorem Chip.ovenFlags_oven : s.ovenFlags.time.oven = s.time.oven := by
  obtain ⟨out, fast, h⟩ := s.ovenFlags_eq
  rw [h]
  cases out <;> cases fast <;> rfl

/-- HO_READY sets, or nothing happens (R521). -/
theorem Chip.hoReady_eq_or : s.hoReady = (s.updHold fun h => { h with ready := true }).raise Reg.TIME_EVENT 8 ∨ s.hoReady = s := ite_eq_or_eq _ _ _

theorem Chip.hoReady_servo : s.hoReady.time.servo = s.time.servo := by
  rcases s.hoReady_eq_or with h | h
  · rw [h]
    rfl
  · rw [h]

theorem Chip.hoReady_oven : s.hoReady.time.oven = s.time.oven := by
  rcases s.hoReady_eq_or with h | h
  · rw [h]
    rfl
  · rw [h]

/-- The part with y taken, and RATE_CLAMP set where it was limited (R511). -/
def Chip.yTaken (s : Chip) (v : Int) (limited : Bool) : Chip :=
  let u := s.accrue.updServo fun x => { x with y := v }
  if limited then u.raise Reg.TIME_EVENT 4 else u

theorem Chip.yTaken_servo (v : Int) (limited : Bool) : (s.yTaken v limited).time.servo = { s.time.servo with y := v } := by
  rw [← s.accrue_servo]
  cases limited <;> rfl

/-- The part with y taken and gone where OUT selects: to RATE, or to the steering port (R512, R524). -/
def Chip.yDriven (s : Chip) (v : Int) (limited : Bool) : Chip :=
  if !bit (s.act Reg.TIME_SERVO_CTRL) 5 then (s.yTaken v limited).setRate v
  else if bit (s.act Reg.TIME_STEER_CFG) 0 then (s.yTaken v limited).updTime fun t => { t with steer := some v } else s.yTaken v limited

/-- What becomes of y is nothing of the servo's. -/
theorem Chip.yDriven_servo (v : Int) (limited : Bool) : (s.yDriven v limited).time.servo = { s.time.servo with y := v } := by
  have htaken := s.yTaken_servo v limited
  unfold Chip.yDriven
  split
  · exact htaken
  · split
    · exact htaken
    · exact htaken

/-- `driveY` unfolded as a function. At an argument the kernel would work out the limited y, whose limit is scaled by 2^48, to look at the pair that it is. -/
theorem Chip.driveY_def : Chip.driveY = fun s y => match s.clampY y with
    | (v, limited) =>
      let s1 := s.accrue.updServo fun x => { x with y := v }
      let s2 := if limited then s1.raise Reg.TIME_EVENT 4 else s1
      if !bit (s.act Reg.TIME_SERVO_CTRL) 5 then s2.setRate v
      else if bit (s.act Reg.TIME_STEER_CFG) 0 then s2.updTime fun t => { t with steer := some v } else s2 := rfl

theorem Chip.driveY_eq (y : Rat) : ∃ limited, s.driveY y = s.yDriven (s.clampY y).1 limited := by
  rw [Chip.driveY_def]
  beta_reduce
  generalize s.clampY y = p
  obtain ⟨v, limited⟩ := p
  exact ⟨limited, rfl⟩

theorem Chip.driveY_servo (y : Rat) : (s.driveY y).time.servo = { s.time.servo with y := (s.clampY y).1 } := by
  obtain ⟨limited, h⟩ := s.driveY_eq y
  rw [h, Chip.yDriven_servo]

theorem Chip.updHold_servo (f : Holdover → Holdover) : (s.updHold f).time.servo = s.time.servo := rfl

/-- What y becomes in HOLDOVER: the model with D0, or the mean of LOCKED (R519). -/
def Chip.holdoverY (s : Chip) : Rat := if s.hoEn = true then s.model s.presentSecond + s.time.hold.d0 else s.time.hold.mean

theorem holdoverUpdate_updates (hstate : s.time.servo.state = 3) (hdue : s.secondSince s.time.hold.secondFrom = true) :
    (holdoverUpdate s).time.hold.secondFrom = s.frc ∧ (holdoverUpdate s).time.servo = { s.time.servo with y := (s.clampY s.holdoverY).1 } := by
  have heq : holdoverUpdate s = ((s.driveY s.holdoverY).ovenFlags.hoReady).updHold fun h => { h with secondFrom := s.frc } :=
    if_neg (by simp [hstate, hdue])
  rw [heq]
  refine ⟨rfl, ?_⟩
  rw [Chip.updHold_servo, Chip.hoReady_servo, Chip.ovenFlags_servo, Chip.driveY_servo]

/-! ### The model's coefficients (R520) -/

theorem hoCoeffWrite_denied {k : Fin 5} {v : W64} (h : s.fitEn = true) : hoCoeffWrite k v s = s.raise Reg.TIME_EVENT 12 := if_pos h

theorem hoCoeffWrite_ref {k : Fin 5} {v : W64} (h : s.fitEn = false) (hk : k.val = 4) : hoCoeffWrite k v s = s.setReg Reg.TIME_HO_REF v :=
  (if_neg (by simp [h])).trans (if_pos hk)

theorem hoCoeffWrite_coeff {k : Fin 5} {v : W64} (h : s.fitEn = false) (hk : k.val < 4) :
    hoCoeffWrite k v s = s.setReg (Reg.TIME_HO_Ck k) (w64 (fld v 47 0)) :=
  (if_neg (by simp [h])).trans (if_neg (by omega))

/-! ### The steering port (R524) -/

theorem steerWrite_none (h : s.time.steer = none) : steerWrite s = s := by
  unfold steerWrite
  rw [h]

/-- The word that steers by y. -/
def Chip.steerWord (s : Chip) (y : Int) : Nat :=
  let f := s.act Reg.TIME_STEER_WORD
  let k := roundDiv (y * 256) (fld (s.act Reg.TIME_STEER_UNIT) 31 0)
  wrapInt (8 * fld f 37 35) (satInt (8 * fld f 37 35) (if bit f 38 = true then -k else k))

/-- What leaves the port with a steering word. -/
def Chip.steerOut (s : Chip) (y : Int) : Out :=
  let f := s.act Reg.TIME_STEER_WORD
  .steer s.spiMode s.spiDiv ((bytesBE 4 (fld f 31 0)).take (fld f 34 32) ++ bytesBE (fld f 37 35) (s.steerWord y))

theorem steerWrite_some {y : Int} (h : s.time.steer = some y) (hon : bit (s.act Reg.TIME_STEER_CFG) 0 = true) :
    steerWrite s = (((s.updTime fun t => { t with steer := none }).emit (s.steerOut y)).bump Reg.TIME_STEER_SENT).setReg Reg.TIME_STEER_LAST
      (w64 (s.steerWord y)) := by
  unfold steerWrite
  rw [h]
  dsimp only
  rw [if_neg (by simp [hon])]
  rfl

theorem steerWrite_sends {y : Int} (h : s.time.steer = some y) (hon : bit (s.act Reg.TIME_STEER_CFG) 0 = true) :
    (steerWrite s).time.steer = none ∧ (steerWrite s).reg Reg.TIME_STEER_LAST = w64 (s.steerWord y) ∧ (steerWrite s).out = s.steerOut y :: s.out := by
  rw [steerWrite_some s h hon]
  refine ⟨?_, Chip.reg_setReg_self _ _ _, ?_⟩
  · exact congrArg TimeState.steer (Chip.bump_time _ _ _)
  · change (Chip.bump _ _).out = _
    simp [Chip.emit]

/-- Whatever waits for the bus, the oven, FRC and the applied values stay. -/
theorem steerWrite_keeps : (steerWrite s).time.oven = s.time.oven ∧ (steerWrite s).frc = s.frc ∧ (steerWrite s).active = s.active := by
  unfold steerWrite
  split
  · exact ⟨rfl, rfl, rfl⟩
  · dsimp only
    split
    · exact ⟨rfl, rfl, rfl⟩
    · change (Chip.bump _ _).time.oven = _ ∧ (Chip.bump _ _).frc = _ ∧ (Chip.bump _ _).active = _
      simp [Chip.emit, Chip.updTime]

/-! ### The oscillator's temperature (R525) -/

/-- The temperature that a reading holds. -/
def Chip.rawTemp (s : Chip) (raw : BitVec 32) : Int := s.sensorTemp (raw.toNat % 2 ^ (8 * fld (s.act Reg.TIME_TEMP_CFG) 37 35))

theorem tempRead_notDue {raw : BitVec 32} (h : bit (s.act Reg.TIME_STEER_CFG) 11 = false ∨ s.time.oven.readAt.all s.secondSince = false) :
    tempRead raw s = s :=
  if_pos (by simpa using h)

/-- Why a reading is discarded: it is out of the sensor's range, or more than 2 K off the last good one. -/
def Chip.tempDiscards (s : Chip) (x : Int) : Prop :=
  150 * 65536 < x ∨ x < -60 * 65536 ∨ (s.time.oven.seen = true ∧ 131072 < (x - s.time.oven.temp).natAbs)

/-- The part with a reading accepted: the readings of the last minute are kept, with the newest of the older ones (R521). -/
def Chip.tempKept (s : Chip) (x : Int) : Chip :=
  let o := s.time.oven
  let keep := (o.recent.filter fun r => !lasts (s.frc - r.1) 60000000000) ++ (o.recent.filter fun r => lasts (s.frc - r.1) 60000000000).take 1
  s.updTime fun t => { t with oven := { o with temp := x, seen := true, valid := true, bad := 0, recent := (s.frc, x) :: keep } }

theorem Chip.tempTake_good {raw : BitVec 32} (h : ¬s.tempDiscards (s.rawTemp raw)) :
    s.tempTake raw = (s.tempKept (s.rawTemp raw)).ovenFlags.hoReady :=
  if_neg (by simpa [Chip.tempDiscards, Chip.rawTemp, or_assoc, or_left_comm] using h)

theorem Chip.ovenFlags_event {k : Nat} (hk : k < 64) (h6 : k ≠ 6) (h7 : k ≠ 7) : s.ovenFlags.flag Reg.TIME_EVENT k = s.flag Reg.TIME_EVENT k := by
  have hraise (u : Chip) {j : Nat} (hj : k ≠ j) : (u.raise Reg.TIME_EVENT j).flag Reg.TIME_EVENT k = u.flag Reg.TIME_EVENT k :=
    u.flag_setFlag_bit Reg.TIME_EVENT true hk hj
  obtain ⟨out, fast, h⟩ := s.ovenFlags_eq
  rw [h]
  cases out <;> cases fast
  · rfl
  · exact hraise _ h7
  · exact hraise _ h6
  · exact (hraise _ h7).trans (hraise _ h6)

/-- The part with a reading discarded: the third in a row clears VALID and sets TEMP_FAIL. -/
def Chip.tempDiscarded (s : Chip) : Chip :=
  let u := (s.bump Reg.TIME_TEMP_BAD).updTime fun t =>
    { t with oven := { s.time.oven with bad := s.time.oven.bad + 1, valid := s.time.oven.valid && s.time.oven.bad < 2 } }
  if s.time.oven.bad = 2 then u.raise Reg.TIME_EVENT 5 else u

theorem Chip.tempTake_bad {raw : BitVec 32} (h : s.tempDiscards (s.rawTemp raw)) : s.tempTake raw = s.tempDiscarded.ovenFlags :=
  if_pos (by simpa [Chip.tempDiscards, Chip.rawTemp, or_assoc, or_left_comm] using h)

theorem Chip.tempDiscarded_parts : s.tempDiscarded.time.oven =
      { s.time.oven with bad := s.time.oven.bad + 1, valid := s.time.oven.valid && s.time.oven.bad < 2 } ∧
    (s.time.oven.bad = 2 → s.tempDiscarded.flag Reg.TIME_EVENT 5 = true) := by
  unfold Chip.tempDiscarded
  dsimp only
  split
  · exact ⟨rfl, fun _ => Chip.flag_raise_self _ _ (by decide)⟩
  · next hbad => exact ⟨rfl, fun h => absurd h hbad⟩

/-- The part with the sensor asked: a steering word that waited has gone first (R523). -/
def Chip.tempAsked (s : Chip) : Chip :=
  let cfg := s.act Reg.TIME_TEMP_CFG
  ((steerWrite s).emit (.sense s.spiMode s.spiDiv ((bytesBE 4 (fld cfg 31 0)).take (fld cfg 34 32)) (fld cfg 37 35))).updTime fun t =>
    { t with oven := { t.oven with readAt := some s.frc } }

theorem tempRead_due {raw : BitVec 32} (hon : bit (s.act Reg.TIME_STEER_CFG) 11 = true) (hdue : s.time.oven.readAt.all s.secondSince = true) :
    tempRead raw s = s.tempAsked.tempTake raw := if_neg (by simp [hon, hdue])

theorem Chip.tempAsked_parts (raw : BitVec 32) : s.tempAsked.time.oven = { s.time.oven with readAt := some s.frc } ∧
    s.tempAsked.rawTemp raw = s.rawTemp raw := by
  obtain ⟨hoven, -, hactive⟩ := steerWrite_keeps s
  refine ⟨congrArg (fun o : Oven => { o with readAt := some s.frc }) hoven, ?_⟩
  have hact (a : Nat) : s.tempAsked.act a = s.act a := congrArg (Map.look resetW · a) hactive
  simp only [Chip.rawTemp, Chip.sensorTemp, hact]

theorem tempRead_good {raw : BitVec 32} (hon : bit (s.act Reg.TIME_STEER_CFG) 11 = true) (hdue : s.time.oven.readAt.all s.secondSince = true)
    (h : ¬s.tempDiscards (s.rawTemp raw)) :
    (tempRead raw s).time.oven.temp = s.rawTemp raw ∧ (tempRead raw s).time.oven.valid = true ∧ (tempRead raw s).time.oven.bad = 0 ∧
    (tempRead raw s).time.oven.readAt = some s.frc := by
  obtain ⟨hoven, hraw⟩ := s.tempAsked_parts raw
  have hgood : ¬s.tempAsked.tempDiscards (s.tempAsked.rawTemp raw) := by rw [hraw, Chip.tempDiscards, hoven]; exact h
  rw [tempRead_due s hon hdue, Chip.tempTake_good _ hgood, Chip.hoReady_oven, Chip.ovenFlags_oven]
  exact ⟨hraw, rfl, rfl, congrArg Oven.readAt hoven⟩

theorem tempRead_bad {raw : BitVec 32} (hon : bit (s.act Reg.TIME_STEER_CFG) 11 = true) (hdue : s.time.oven.readAt.all s.secondSince = true)
    (h : s.tempDiscards (s.rawTemp raw)) :
    (tempRead raw s).time.oven.temp = s.time.oven.temp ∧ (tempRead raw s).time.oven.readAt = some s.frc ∧
    (tempRead raw s).time.oven.bad = s.time.oven.bad + 1 ∧
    (s.time.oven.bad = 2 → (tempRead raw s).flag Reg.TIME_EVENT 5 = true ∧ (tempRead raw s).time.oven.valid = false) := by
  obtain ⟨hoven, hraw⟩ := s.tempAsked_parts raw
  have hbad : s.tempAsked.tempDiscards (s.tempAsked.rawTemp raw) := by rw [hraw, Chip.tempDiscards, hoven]; exact h
  obtain ⟨hleft, hevent⟩ := s.tempAsked.tempDiscarded_parts
  rw [hoven] at hleft hevent
  rw [tempRead_due s hon hdue, Chip.tempTake_bad _ hbad, Chip.ovenFlags_oven, Chip.ovenFlags_event _ (by decide) (by decide) (by decide), hleft]
  exact ⟨rfl, rfl, rfl, fun h2 => ⟨hevent h2, by simp [h2]⟩⟩

end
end Sys2Proof.Machine
end

section
/-! Time as it is kept: every command of TIME by the state that it finds (R489 to R526). -/
namespace Sys2Proof.Machine
open Sys2Proof.Claim

/-- Settles O42: ticks by whether the clock counts and a step waits, every other command by the lemma on its own case; a change of RATE by the two roundings that
logical time is the sum of. -/
theorem timeIsKept : Obligations.TimeIsKept := by
  intro s v n out hr c servo counting
  have hruns {i : Instr} {f : Chip → Chip} {y : Chip} (he : exec i s = s.core f) (hf : f c = y) : Runs i s y := runs_of_core_eq he hr hf
  have hticks {k : BitVec 32} {y : Chip} (h : tick k.toNat c = y) : Runs (.timeTick k) s y := congrArg (Host.Outcome.next <| s.withChip ·) h
  refine ⟨fun k hk => ?ticks, fun hcount hroom => ⟨fun x hset hadd => ⟨_, hticks rfl, tick_set c hr hcount hroom hset hadd⟩,
      fun d hset hadd => ⟨_, hticks rfl, tick_adjust c hr hcount hroom hset hadd⟩⟩,
    ⟨_, hruns rfl (timeNowRead_full c), rfl, c.nowCaptured_parts⟩, ⟨_, hruns rfl (timeNowRead_low c), rfl, c.nowCaptured_parts.1⟩, hruns rfl rfl,
    ⟨_, hruns rfl rfl, timeSet_parts c v⟩, ⟨_, hruns rfl rfl, rfl, rfl⟩, fun k => ⟨_, hruns rfl rfl, rfl⟩,
    fun howns => hruns rfl (timeRateWrite_denied c howns),
    fun hfree => ⟨_, hruns rfl (timeRateWrite_sets c hfree), c.rate_setRate _, c.logical_setRate_near _⟩,
    fun rising k => ⟨fun h => hruns rfl (tinCapture_ignored c h), fun hon hedge hservo =>
      ⟨fun hleft => ⟨_, hruns rfl rfl, tinCapture_stores c hon hedge hservo hleft⟩, fun hfull => hruns rfl (tinCapture_lost c hon hedge hservo hfull)⟩⟩,
    fun h => hruns rfl (servoInputWrite_denied c h), fun at_ h hlast hearly => hruns rfl (servoInputWrite_dropped c h hlast hearly),
    fun h hlast hstate hfew hbig => ⟨_, hruns rfl rfl, servoInputWrite_outlier c h hlast hstate hfew hbig⟩,
    fun h => hruns rfl (servoLoss_early c h), fun h => ⟨fun hstate => ⟨_, hruns rfl (servoLoss_acquire c h hstate), rfl, rfl⟩,
      fun hstate => ⟨_, hruns rfl (servoLoss_locked c h hstate), c.enterHoldover_parts⟩⟩,
    fun h => hruns rfl (fitSample_notDue c h), fun hstate hdue hfit => ⟨_, hruns rfl (fitSample_records c hstate hdue hfit), rfl, rfl, rfl, rfl, rfl⟩,
    fun h => hruns rfl (holdoverUpdate_notDue c h), fun hstate hdue => ⟨_, hruns rfl rfl, holdoverUpdate_updates c hstate hdue⟩,
    fun k => ⟨fun h => hruns rfl (hoCoeffWrite_denied c h), fun h hk => hruns rfl (hoCoeffWrite_ref c h hk), fun h hk => hruns rfl (hoCoeffWrite_coeff c h hk)⟩,
    ⟨fun hactive hnext => hruns rfl (toutEdge_idle c hactive hnext), fun e hactive hover hnext => ⟨_, hruns rfl rfl, toutEdge_ends c hactive hover hnext⟩,
      fun k hactive hnext hearly => hruns rfl (toutEdge_early c hactive hnext hearly), fun k hactive hnext hdue hon => ?driven⟩,
    ⟨fun h => hruns rfl (trigCancel_ignored c h), fun harmed hgen hearly => ?cancelled⟩,
    fun h => hruns rfl (steerWrite_none c h), fun x h hon => ⟨_, hruns rfl rfl, steerWrite_sends c h hon⟩,
    fun raw => ⟨fun h => hruns rfl (tempRead_notDue c h), fun hon hdue hlo hhi hnear => ⟨_, hruns rfl rfl, tempRead_good c hon hdue ?near⟩,
      fun hon hdue h => ⟨_, hruns rfl rfl, tempRead_bad c hon hdue h⟩⟩,
    fun r locked => ⟨fun h => hruns rfl (rclkSquelch_off c locked h), fun h => ⟨_, hruns rfl (rclkSquelch_acts c locked h),
      Chip.flag_setFlag_self _ _ _ (by decide), fun a ha => Chip.reg_setReg_other _ _ ha, rfl⟩⟩⟩
  case ticks =>
    have hpos : k.toNat ≠ 0 := fun h => hk (BitVec.eq_of_toNat_eq h)
    exact ⟨fun hstop => hticks (tick_stopped c _ hstop), fun hcount => hticks (tick_counting c _ hr hcount),
      fun hcount hstep hidle => hticks (tick_plain c hpos hr hcount hstep hidle)⟩
  case driven =>
    have hpulse := Map.get_set_self c.time.pulses out (c.pulseDriven out k)
    exact ⟨_, hruns rfl (toutEdge_drives c hactive hnext hdue hon), rfl, congrArg Pulse.last hpulse, congrArg Pulse.active hpulse, rfl⟩
  case cancelled =>
    have hfreed := Map.get_set_self c.time.trig (fld v 7 0) (c.time.trig.get (fld v 7 0)).freed
    exact ⟨_, hruns rfl (trigCancel_frees c harmed hgen hearly), congrArg Trigger.armed hfreed, congrArg Trigger.gen hfreed,
      fun j hj => Map.get_set_other _ _ hj⟩
  case near =>
    rintro (h | h | ⟨hseen, hfar⟩)
    · exact absurd hhi (not_le.mpr h)
    · exact absurd hlo (not_le.mpr h)
    · rcases hnear with hnew | hnear
      · exact absurd (hnew.symm.trans hseen) Bool.false_ne_true
      · exact absurd hnear (not_le.mpr hfar)

end Sys2Proof.Machine
end

section
/-! A held core: what a step does when the commands that wait are the core's (R688, R717). -/
namespace Sys2Proof.Machine
open Sys2Proof.Claim

/-- Settles O1: a step is its command on the queue's rest. -/
theorem frontCommandRuns : Obligations.FrontCommandRuns :=
  fun _ _ => ⟨step_cons rfl, step_empty rfl⟩

/-- A well-formed command of the core does nothing while the core is held: one that names an offset names it inside BAR0, and is the core's too. -/
theorem exec_held_of_wellFormed {i : Instr} (hcore : i.ofIsland = false) (hw : i.wellFormed = true) (s : State) (hr : s.chip.running = false) :
    exec i s = .next s := by
  cases ho : i.offset with
  | none => exact exec_held i hcore ho s hr
  | some n =>
    obtain ⟨a, f, rfl, he⟩ := exec_of_offset ho
    rw [he, State.bar0_inside s f (offset_lt_of_wellFormed hw ho), State.core_held s f hr]

/-- Settles O4: the command at the front leaves the part as it is, and what waits behind it is the core's as before. -/
theorem heldCoreKeepsThePart : Obligations.HeldCoreKeepsThePart := by
  intro x s Inv
  rintro ⟨hchip, hr, hcore⟩
  cases hp : s.pending with
  | nil =>
    refine ⟨⟨s, step_empty hp⟩, fun s' hs' => ?_⟩
    cases (step_empty hp).symm.trans hs'
    exact ⟨hchip, hr, hcore⟩
  | cons i rest =>
    obtain ⟨hi, hw⟩ := hcore i (hp ▸ List.mem_cons_self)
    have hstep : step s = .next { s with pending := rest } :=
      (step_cons hp).trans (exec_held_of_wellFormed hi hw { s with pending := rest } (hchip ▸ hr))
    refine ⟨⟨_, hstep⟩, fun s' hs' => ?_⟩
    cases hstep.symm.trans hs'
    exact ⟨hchip, hr, fun j hj => hcore j (hp ▸ List.mem_cons_of_mem i hj)⟩

end Sys2Proof.Machine
end

section
/-! The supplies, resets and clocks of the core: rails in order, what puts the core in reset and lets it out, temperature trips, and the root synthesizer (R681, R701 to R704, R717,
R718, R723, R725 to R727). -/
namespace Sys2Proof.Machine
open Sys2Proof.Claim

/-- A command of the island completes with what it does to the part. -/
theorem runs_of_act {i : Instr} {s : State} {f : Chip → Chip} {y : Chip} (he : exec i s = s.act f) (hf : f s.chip = y) : Runs i s y :=
  he.trans (congrArg (fun x => Host.Outcome.next (s.withChip x)) hf)

theorem running_of_core {s : Chip} (h : s.isl.core = 3) : s.running = true := decide_eq_true h

/-! ### Rails and resets -/

section
variable (s : Chip)

theorem Chip.flag_updIsl (f : Island → Island) (a k : Nat) : (s.updIsl f).flag a k = s.flag a k := rfl

/-- A core at reset stays so while the island's own state goes on. -/
theorem coreAsAtReset_updIsl {x : Chip} (f : Island → Island) (h : CoreAsAtReset x) : CoreAsAtReset (x.updIsl f) := h

/-- A core at reset stays so when the island writes a register of its own. -/
theorem coreAsAtReset_setReg {x : Chip} {a : Nat} (v : W64) (ha : 0x2800000 ≤ a ∧ a < 0x2900000) (h : CoreAsAtReset x) : CoreAsAtReset (x.setReg a v) := by
  obtain ⟨h1, h2, h3, h4, h5, h6, h7, h8, h9, h10, h11, h12, h13, h14, h15, h16, h17, h18, h19, h20, h21, h22, h23, h24, h25, h26, h27, hreg⟩ := h
  refine ⟨h1, h2, h3, h4, h5, h6, h7, h8, h9, h10, h11, h12, h13, h14, h15, h16, h17, h18, h19, h20, h21, h22, h23, h24, h25, h26, h27, fun b hb hc => ?_⟩
  rw [x.reg_setReg_other v (fun e => hb (by rw [e]; exact ha)), hreg b hb hc]

/-- The island as it is when the rails begin to go, with a log of its own. -/
def Island.railsGone (i : Island) (l : List LogEntry) : Island :=
  { i with core := 0, refresh := none, buffer := l, offAt := some (i.offAt.getD i.clock), step := 0, hold := false, holdEnd := none, bringUp := false
           resetDue := none }

/-- What the loss of the rails leaves (R702). -/
theorem Chip.railsOff_parts {cause : Nat} (hc : cause < 5) : ∃ l, CoreAsAtReset (s.railsOff cause) ∧ (s.railsOff cause).isl = s.isl.railsGone l ∧
    (s.railsOff cause).out = s.out ∧ (s.railsOff cause).flag Reg.GLB_RESET_CAUSE cause = true := by
  obtain ⟨l, hcore, hisl, hout, hcause, -⟩ := coreDown_parts s 0 cause hc
  refine ⟨l, hcore, ?_, hout, hcause⟩
  unfold Chip.railsOff
  rw [Chip.updIsl, hisl]
  rfl

/-- A power fault leaves what the loss of the rails does, with POWER_FAULT (R702). -/
theorem Chip.powerFault_parts (rail : Nat) : ∃ l, CoreAsAtReset (s.powerFault rail) ∧ (s.powerFault rail).isl = s.isl.railsGone l ∧
    (s.powerFault rail).out = s.out ∧ (s.powerFault rail).flag Reg.GLB_RESET_CAUSE 2 = true ∧ (s.powerFault rail).flag Reg.SBY_EVENT 5 = true := by
  obtain ⟨l, hcore, hisl, hout, hcause⟩ := s.railsOff_parts (cause := cPower) (by decide)
  obtain ⟨l', hlog⟩ := islLog_parts (s.railsOff cPower) 3 cPower [BitVec.ofNat 8 rail]
  unfold Chip.powerFault
  rw [hlog]
  refine ⟨l', coreAsAtReset_setReg _ (by decide) hcore, ?_, hout, ?_, Chip.flag_raise_self _ _ (by decide)⟩
  · change ({ (s.railsOff cPower).isl with buffer := l' } : Island) = _
    rw [hisl]
    rfl
  · exact (Chip.flag_setFlag_reg _ _ _ _ (by decide)).trans hcause

/-- The rails that are still enabled, some milliseconds after the last of them went. -/
theorem Island.enabled_after (i : Island) (k : Nat) (h : i.offAt = some i.clock) :
    ({ i with clock := i.clock + k * islTicks 1000000 } : Island).enabled = i.rails / 2 ^ (1 + k) := by
  simp only [Island.enabled, h, Nat.add_sub_cancel_left]
  rw [Nat.mul_div_cancel k (by decide)]

end

/-- What a loss of the supply or of the lock leaves of the part, but for what the island has just changed. -/
theorem Chip.coreDown_running (s : Chip) {cause : Nat} (hc : cause < 5) (h : s.isl.core = 3) :
    ∃ l, (s.coreDown 2 cause).isl = { s.isl with core := 2, refresh := none, buffer := l } ∧ (s.coreDown 2 cause).get Reg.GLB_RESET_CAUSE 4 0 = 2 ^ cause ∧
      CoreAsAtReset (s.coreDown 2 cause) ∧ (s.coreDown 2 cause).out = s.out := by
  obtain ⟨l, hcore, hisl, hout, -, hcause⟩ := coreDown_parts s 2 cause hc
  exact ⟨l, hisl, hcause h, hcore, hout⟩

theorem railPowerGood_next {s : Chip} {r : Fin 6} (hseq : s.isl.seq = true) (hcore : s.isl.core = 1) (hstep : s.isl.step = r.val) (hr : r.val < 5) :
    railPowerGood r s = { s with isl := { s.isl with good := s.isl.good ||| 2 ^ r.val, rails := s.isl.rails ||| 2 ^ (r.val + 1)
                                                     step := r.val + 1, stepAt := s.isl.clock } } := by
  unfold railPowerGood
  rw [if_neg (by simp [hseq, hcore, hstep]), if_pos hr]
  rfl

theorem railPowerGood_last {s : Chip} {r : Fin 6} (hseq : s.isl.seq = true) (hcore : s.isl.core = 1) (hstep : s.isl.step = 5) (hr : r.val = 5) :
    railPowerGood r s = { s with isl := { s.isl with good := s.isl.good ||| 2 ^ r.val, core := 2, holdEnd := some (s.isl.clock + islTicks 10000000) } } := by
  unfold railPowerGood
  rw [if_neg (by simp [hseq, hcore, hstep, hr]), if_neg (by omega)]
  rfl

theorem railPowerGood_board {s : Chip} {r : Fin 6} (hseq : s.isl.seq = false) :
    railPowerGood r s = { s with isl := { s.isl with good := s.isl.good ||| 2 ^ r.val
                                                     therm := if s.isl.good ||| 2 ^ r.val = 63 then false else s.isl.therm } } := by
  unfold railPowerGood
  rw [if_pos (by simp [hseq])]
  by_cases hgood : s.isl.good ||| 2 ^ r.val = 63
  · simp [Chip.updIsl, hseq, hgood]
  · simp [Chip.updIsl, hgood]

theorem railTimeout_late {s : Chip} (hseq : s.isl.seq = true) (hcore : s.isl.core = 1) (hgood : bitOf s.isl.good s.isl.step = false)
    (hlate : s.isl.stepAt + islTicks 10000000 ≤ s.isl.clock) : railTimeout s = s.powerFault s.isl.step :=
  if_pos (by simp [hseq, hcore, hgood, Chip.islReached, hlate])

/-- The part with a rail's power-good seen to fall. -/
def Chip.pgFallen (s : Chip) (r : Fin 6) : Chip := s.updIsl fun i => { i with good := i.good &&& (63 - 2 ^ r.val) }

theorem pgFall_sequenced {s : Chip} {r : Fin 6} (hseq : s.isl.seq = true) (hon : bitOf s.isl.enabled r.val = true) :
    pgFall r s = (s.pgFallen r).powerFault r := if_pos (by simp [hseq, hon])

theorem pgFall_board {s : Chip} {r : Fin 6} (hseq : s.isl.seq = false) (hcore : s.isl.core = 3) : pgFall r s = (s.pgFallen r).coreDown 2 cPower :=
  (if_neg (by simp [hseq])).trans (if_pos hcore)

/-- Settles O49: a good rail by the step that waits for it; a fault as a power fault leaves the island and the core. -/
theorem railsComeUpInOrderAndFailTogether : Obligations.RailsComeUpInOrderAndFailTogether := by
  refine ⟨fun s r => ⟨fun hseq hcore hstep hr => runs_of_act rfl (railPowerGood_next hseq hcore hstep hr),
    fun hseq hcore hstep hr => runs_of_act rfl (railPowerGood_last hseq hcore hstep hr), fun hseq => runs_of_act rfl (railPowerGood_board hseq)⟩,
    fun s hseq => ⟨fun hcore hgood hlate => ?late, fun r hon => ?falls⟩⟩
  case late =>
    obtain ⟨l, hreset, hisl, hout, hcause, hevent⟩ := s.chip.powerFault_parts s.chip.isl.step
    refine ⟨_, runs_of_act rfl (railTimeout_late hseq hcore hgood hlate), ?_, by rw [hisl]; rfl⟩
    refine ⟨by rw [hisl]; rfl, by rw [hisl]; rfl, fun hoff k => ?_, ?_⟩
    · rw [hisl]
      exact Island.enabled_after _ k (by simp [Island.railsGone, hoff])
    · rw [hisl]
      exact ⟨rfl, rfl, rfl, hevent, hcause, hreset, rfl, hseq, rfl, rfl, rfl, rfl, hout⟩
  case falls =>
    obtain ⟨l, hreset, hisl, hout, hcause, hevent⟩ := (s.chip.pgFallen r).powerFault_parts r
    refine ⟨_, runs_of_act rfl (pgFall_sequenced hseq hon), ?_, by rw [hisl]; rfl⟩
    refine ⟨by rw [hisl]; rfl, by rw [hisl]; rfl, fun hoff k => ?_, ?_⟩
    · rw [hisl]
      exact Island.enabled_after _ k (by simp [Island.railsGone, Chip.pgFallen, Chip.updIsl, hoff])
    · rw [hisl]
      exact ⟨rfl, rfl, rfl, hevent, hcause, hreset, rfl, hseq, rfl, rfl, rfl, rfl, hout⟩

/-! ### What puts the core in reset, and what lets it out -/

theorem porstAssert_running {s : Chip} (h : s.isl.core = 3) : porstAssert s = (s.updIsl fun i => { i with pin := true }).coreDown 2 cPin := if_pos h

theorem coreResetHold_due {s : Chip} {due : Nat} (h : s.isl.core = 3) (hdue : s.isl.resetDue = some due) (hreached : due ≤ s.isl.clock) :
    coreResetHold s =
      (s.updIsl fun i => { i with resetDue := none, hold := true, holdEnd := some (i.clock + islTicks 1000000) }).coreDown 2 cIsland := by
  unfold coreResetHold
  rw [hdue]
  dsimp only
  rw [if_neg (by simp [Chip.islReached, hreached]), if_pos h]

/-- The part held in reset for a millisecond by the loss of lock (R725). -/
theorem lockLoss_locked {s : Chip} (hlock : s.flag Reg.CLK_STATUS 0 = true) (hhold : s.flag Reg.CLK_STATUS 3 = false) :
    lockLoss s =
      ((s.coreDown 2 cLock).updIsl fun i => { i with hold := true, holdEnd := some (i.clock + islTicks 1000000) }).raise Reg.CLK_EVENT 0 :=
  if_neg (by simp [hlock, hhold])

/-- Settles O50: each by what a core reset leaves, from the island as it stands when the core goes down. -/
theorem resetsClearTheCore : Obligations.ResetsClearTheCore := by
  intro s h down
  refine ⟨?pin, fun due hdue hreached => ?hold, fun hlock hhold => ?lock, fun r hseq => ?rail⟩
  case pin =>
    obtain ⟨l, hisl, hcause, hreset, hout⟩ := (s.chip.updIsl fun i => { i with pin := true }).coreDown_running (cause := cPin) (by decide) h
    refine ⟨_, runs_of_act rfl (porstAssert_running h), ⟨by rw [hisl], hcause, hreset, ?_⟩, by rw [hisl]; rfl⟩
    rw [hisl]
    exact ⟨rfl, rfl, rfl, rfl, rfl, rfl, hout⟩
  case hold =>
    obtain ⟨l, hisl, hcause, hreset, hout⟩ := (s.chip.updIsl fun i =>
      { i with resetDue := none, hold := true, holdEnd := some (i.clock + islTicks 1000000) }).coreDown_running (cause := cIsland) (by decide) h
    refine ⟨_, runs_of_act rfl (coreResetHold_due h hdue hreached), ⟨by rw [hisl], hcause, hreset, ?_⟩, ?_⟩
    · rw [hisl]
      exact ⟨rfl, rfl, rfl, rfl, rfl, rfl, hout⟩
    · rw [hisl]
      exact ⟨rfl, rfl, rfl⟩
  case lock =>
    obtain ⟨l, hisl, hcause, hreset, -⟩ := s.chip.coreDown_running (cause := cLock) (by decide) h
    obtain ⟨-, -, -, -, -, -, -, -, -, -, htm, -, -, -, -, -, hcru, -⟩ := hreset
    refine ⟨_, runs_of_core_eq rfl (running_of_core h) (lockLoss_locked hlock hhold), ?_, ?_, Chip.flag_raise_self _ _ (by decide), rfl, ?_, hcru, htm⟩
    · exact congrArg Island.core hisl
    · exact (Chip.get_setFlag_reg _ _ _ _ _ (by decide)).trans hcause
    · have hclock : (s.chip.coreDown 2 cLock).isl.clock = s.chip.isl.clock := by rw [hisl]
      exact congrArg (fun t => some (t + islTicks 1000000)) hclock
  case rail =>
    obtain ⟨l, hisl, hcause, hreset, hout⟩ := (s.chip.pgFallen r).coreDown_running (cause := cPower) (by decide) h
    refine ⟨_, runs_of_act rfl (pgFall_board hseq h), ⟨by rw [hisl], hcause, hreset, ?_⟩, by rw [hisl]; rfl⟩
    rw [hisl]
    exact ⟨rfl, rfl, rfl, rfl, rfl, rfl, hout⟩

theorem porstRelease_free {s : Chip} {split mirror : Bool} (hcore : s.isl.core = 2) (hhold : s.isl.hold = false) (hend : s.isl.holdEnd = none)
    (hgood : s.isl.good = 63) : porstRelease true split mirror s =
      ({ s with isl := { s.isl with pin := false, core := 3, releasedAt := s.isl.clock } } : Chip).setReg Reg.GLB_STRAPS
        (w64 (ofBool split + 2 * ofBool mirror + (s.isl.node % 32) <<< 2 + ofBool s.isl.seq <<< 7)) := by
  have hover : (s.updIsl fun i => { i with pin := !true }).holdOver = s.updIsl fun i => { i with pin := !true } := by
    simp [Chip.holdOver, Chip.updIsl, hend]
  unfold porstRelease
  dsimp only
  rw [hover, if_neg (by simp [Chip.coreHeld, Chip.updIsl, hcore, hhold, hgood])]
  rfl

theorem porstRelease_held {s : Chip} {split mirror : Bool} (hhold : s.isl.hold = true) (hend : s.isl.holdEnd = none) :
    porstRelease true split mirror s = { s with isl := { s.isl with pin := false } } := by
  have hover : (s.updIsl fun i => { i with pin := !true }).holdOver = s.updIsl fun i => { i with pin := !true } := by
    simp [Chip.holdOver, Chip.updIsl, hend]
  unfold porstRelease
  dsimp only
  rw [hover, if_pos (by simp [Chip.coreHeld, Chip.updIsl, hhold])]
  rfl

/-- The island back with its supply, its straps read, before it logs that (R681, R732). -/
def Chip.islandBack (s : Chip) (node : Fin 32) (seq : Bool) : Chip :=
  s.updIsl fun i => { i with inReset := false, node := node, seq := seq, bucketAt := i.clock, nextBeat := i.clock }

theorem islandReset_back {s : Chip} {node : Fin 32} (h : s.isl.inReset = true) :
    islandReset false node true s = ((s.islandBack node true).islLog 0 0 []).railsOn := by
  unfold islandReset
  rw [if_neg Bool.false_ne_true, if_neg (by simp [h])]
  rfl

/-- Settles O51: a release by whether something still holds the core; a loss of VSTBY and its return by what the island then is. -/
theorem releaseNeedsEveryHoldGone : Obligations.ReleaseNeedsEveryHoldGone := by
  intro s split mirror
  refine ⟨fun hcore hhold hend hgood => runs_of_act rfl (porstRelease_free hcore hhold hend hgood),
    fun _ hhold hend => runs_of_act rfl (porstRelease_held hhold hend), fun node seq => ⟨_, runs_of_act rfl rfl, rfl, rfl, rfl, rfl, rfl, rfl, rfl, rfl⟩,
    fun node h => ?_⟩
  obtain ⟨l, hlog⟩ := islLog_parts (s.chip.islandBack node true) 0 0 []
  refine ⟨_, runs_of_act rfl (islandReset_back h), ?_⟩
  rw [hlog]
  exact ⟨rfl, rfl, rfl, rfl, rfl, rfl, rfl⟩

/-! ### Temperature and ageing -/

theorem temps_lt (core lineA lineB : BitVec 16) : core.toNat + lineA.toNat <<< 16 + lineB.toNat <<< 32 < 2 ^ 48 := by
  have := core.isLt
  have := lineA.isLt
  have := lineB.isLt
  simp only [Nat.shiftLeft_eq]
  omega

/-- Sensors above WARN_C raise THERM_WARN, and it stays where it was set before (R723). -/
theorem thermWarn_parts (s : Chip) (core lineA lineB : BitVec 16) :
    (thermWarn core lineA lineB s).get Reg.GLB_THERMAL 47 0 = core.toNat + lineA.toNat <<< 16 + lineB.toNat <<< 32 ∧
    (thermWarn core lineA lineB s).get Reg.GLB_THERMAL 63 48 = s.get Reg.GLB_THERMAL 63 48 ∧
    (thermWarn core lineA lineB s).flag Reg.GLB_OWN_EVENT 0 = (s.flag Reg.GLB_OWN_EVENT 0 || anyAbove (s.get Reg.GLB_THERMAL 55 48) core lineA lineB) := by
  have hshown : (s.setTemps core lineA lineB).get Reg.GLB_THERMAL 47 0 = core.toNat + lineA.toNat <<< 16 + lineB.toNat <<< 32 :=
    (s.get_setField_self _ _ (by decide)).trans (Nat.mod_eq_of_lt (temps_lt core lineA lineB))
  have hlimit : (s.setTemps core lineA lineB).get Reg.GLB_THERMAL 63 48 = s.get Reg.GLB_THERMAL 63 48 := s.get_setField_field _ _ (by decide) (by decide)
  have hevent : (s.setTemps core lineA lineB).flag Reg.GLB_OWN_EVENT 0 = s.flag Reg.GLB_OWN_EVENT 0 := s.flag_setField_reg _ _ _ _ (by decide)
  unfold thermWarn
  dsimp only
  cases anyAbove (s.get Reg.GLB_THERMAL 55 48) core lineA lineB
  · rw [if_neg Bool.false_ne_true, Bool.or_false]
    exact ⟨hshown, hlimit, hevent⟩
  · rw [if_pos rfl, Bool.or_true]
    exact ⟨(Chip.get_setFlag_reg _ _ _ _ _ (by decide)).trans hshown, (Chip.get_setFlag_reg _ _ _ _ _ (by decide)).trans hlimit,
      Chip.flag_raise_self _ _ (by decide)⟩

/-- The part with the readings shown and their cause of a reset kept, before the rails go (R723). -/
def Chip.tripped (s : Chip) (core lineA lineB : BitVec 16) : Chip := (s.setTemps core lineA lineB).setCause cTherm

theorem thermtrip_sequenced {s : Chip} {core lineA lineB : BitVec 16} (h : anyAbove 125 core lineA lineB = true) (hseq : s.isl.seq = true) :
    thermtrip core lineA lineB s = ((s.tripped core lineA lineB).railsOff cTherm).updIsl fun i => { i with therm := true } :=
  (if_neg (by simp [h])).trans (if_pos hseq)

theorem thermtrip_board {s : Chip} {core lineA lineB : BitVec 16} (h : anyAbove 125 core lineA lineB = true) (hseq : s.isl.seq = false) :
    thermtrip core lineA lineB s = (s.tripped core lineA lineB).updIsl fun i => { i with therm := true } :=
  (if_neg (by simp [h])).trans (if_neg (by simp [hseq]))

/-- GLB_AVS with a code, no AVS_LIMIT, and the slowing since start of life. -/
def Chip.avsShown (s : Chip) (vid age : Nat) : Chip := ((s.setField Reg.GLB_AVS 4 0 vid).setFlag Reg.GLB_AVS 5 false).setField Reg.GLB_AVS 31 16 age

theorem Chip.avsShown_parts (s : Chip) {vid age : Nat} (hvid : vid < 32) (hage : age < 65536) :
    (s.avsShown vid age).get Reg.GLB_AVS 4 0 = vid ∧ (s.avsShown vid age).flag Reg.GLB_AVS 5 = false ∧ (s.avsShown vid age).get Reg.GLB_AVS 31 16 = age := by
  unfold Chip.avsShown
  refine ⟨?_, ?_, ?_⟩
  · rw [Chip.get_setField_field _ _ _ (by decide) (by decide), Chip.get_setFlag_bit _ _ _ (by decide) (by decide), Chip.get_setField_self _ _ _ (by decide)]
    exact Nat.mod_eq_of_lt hvid
  · rw [Chip.flag_setField _ _ _ (by decide), if_neg (by decide), Chip.flag_setFlag_self _ _ _ (by decide)]
  · rw [Chip.get_setField_self _ _ _ (by decide)]
    exact Nat.mod_eq_of_lt hage

theorem avsStep_up {s : Chip} {lowest : Fin 32} {age : BitVec 16} (hcore : s.isl.core = 3) (hstart : s.starting = false)
    (hdue : s.isl.avsAt + islTicks 1000000 ≤ s.isl.clock) (hvid : s.get Reg.GLB_AVS 4 0 < lowest.val) (hhi : lowest.val ≤ 20) (hlo : 4 ≤ lowest.val) :
    avsStep lowest age s = (s.avsShown (s.get Reg.GLB_AVS 4 0 + 1) age.toNat).updIsl fun i => { i with avsAt := i.clock } := by
  have hgoal : max 4 (min 20 lowest.val) = lowest.val := by omega
  have hlimit : decide (20 < lowest.val) = false := decide_eq_false (by omega)
  unfold avsStep
  rw [if_neg (by simp [hstart, hcore, Chip.islReached, hdue])]
  dsimp only
  rw [hgoal, hlimit, if_pos hvid, if_neg (by simp)]
  rfl

/-- Settles O54: temperatures by their limits, the rails' loss as after a fault, VID's step upward by its code, and the supply of a slot. -/
theorem thermalAndAgeing : Obligations.ThermalAndAgeing := by
  intro s core lineA lineB shown
  refine ⟨fun hr => ⟨_, runs_of_core_eq rfl hr rfl, thermWarn_parts s.chip core lineA lineB⟩, fun h hseq => ?sequenced,
    fun h hseq => ⟨_, runs_of_act rfl (thermtrip_board h hseq), rfl, Chip.flag_setFlag_self _ _ _ (by decide)⟩,
    fun lowest age hr hstart hdue hvid hhi hlo => ?avs, fun c h => runs_of_act rfl (if_pos h)⟩
  case sequenced =>
    obtain ⟨l, hreset, hisl, -, hcause⟩ := (s.chip.tripped core lineA lineB).railsOff_parts (cause := cTherm) (by decide)
    refine ⟨_, runs_of_act rfl (thermtrip_sequenced h hseq), rfl, ?_, ?_, (Chip.flag_updIsl _ _ _ _).trans hcause, coreAsAtReset_updIsl _ hreset⟩
    · rw [Chip.updIsl, hisl]
      rfl
    · rw [Chip.updIsl, hisl]
      rfl
  case avs =>
    obtain ⟨hcode, hlimit, hage⟩ := s.chip.avsShown_parts (vid := s.chip.get Reg.GLB_AVS 4 0 + 1) (by omega) age.isLt
    exact ⟨_, runs_of_core_eq rfl hr (avsStep_up (of_decide_eq_true hr) hstart hdue hvid hhi hlo), hcode, hlimit, hage, rfl⟩

/-! ### The root synthesizer -/

/-- The part with the root synthesizer locked and MEM_MIRROR applied, before start-up moves on (R725, R736). -/
def Chip.rootLocked (s : Chip) : Chip :=
  let s1 := s.setField Reg.CLK_STATUS 1 0 3
  let cfg := setBit (s.reg Reg.MEM_CFG) 0 (s.flag Reg.GLB_STRAPS 1)
  { (s1.setReg Reg.MEM_CFG cfg) with active := s1.active.put resetW Reg.MEM_CFG cfg }

theorem rootLock_unlocked {s : Chip} (h : s.flag Reg.CLK_STATUS 0 = false) : rootLock s = s.rootLocked.startStage 1 := if_neg (by simp [h])

theorem Chip.rootLocked_parts (s : Chip) : s.rootLocked.flag Reg.CLK_STATUS 0 = true ∧ s.rootLocked.flag Reg.CLK_STATUS 1 = true ∧
    (s.rootLocked.act Reg.MEM_CFG).getLsbD 0 = s.flag Reg.GLB_STRAPS 1 := by
  have hflag (k : Nat) (hk : k < 64) : s.rootLocked.flag Reg.CLK_STATUS k = (s.setField Reg.CLK_STATUS 1 0 3).flag Reg.CLK_STATUS k :=
    congrArg (bit · k) ((s.setField Reg.CLK_STATUS 1 0 3).reg_setReg_other _ (by decide))
  refine ⟨?_, ?_, ?_⟩
  · rw [hflag 0 (by decide), s.flag_setField _ _ (by decide), if_pos (by decide)]
    decide
  · rw [hflag 1 (by decide), s.flag_setField _ _ (by decide), if_pos (by decide)]
    decide
  · rw [show s.rootLocked.act Reg.MEM_CFG = setBit (s.reg Reg.MEM_CFG) 0 (s.flag Reg.GLB_STRAPS 1) from Map.look_put_self _ _ _ _]
    exact bit_setBit_self _ _ (by decide)

theorem Chip.rootLocked_reg (s : Chip) {a : Nat} (hs : a ≠ Reg.CLK_STATUS) (hm : a ≠ Reg.MEM_CFG) : s.rootLocked.reg a = s.reg a :=
  (Chip.reg_setReg_other _ _ hm).trans (Chip.reg_setReg_other _ _ hs)

/-- Start-up's stage changes nothing but its own field. -/
theorem Chip.startStage_keeps (s : Chip) (n : Nat) : (s.startStage n).active = s.active ∧ ∀ a, a ≠ Reg.GLB_STARTUP → (s.startStage n).reg a = s.reg a := by
  unfold Chip.startStage
  split
  · exact ⟨rfl, fun a ha => Chip.reg_setReg_other _ _ ha⟩
  · exact ⟨rfl, fun _ _ => rfl⟩

theorem Chip.startStage_first {s : Chip} (hstart : s.starting = true) (hstage : s.get Reg.GLB_STARTUP 2 0 = 0) :
    (s.startStage 1).get Reg.GLB_STARTUP 2 0 = 1 := by
  unfold Chip.startStage
  rw [if_pos (by simp [hstart, hstage])]
  exact s.get_setField_self _ _ (by decide)

/-- CLK's staged settings applied: CLK_SPREAD lies among them (R727). -/
theorem clkApply_parts {s : Chip} (h : s.goPending Reg.CLK_COMMIT = true) :
    (clkApply s).goPending Reg.CLK_COMMIT = false ∧ (clkApply s).act Reg.CLK_SPREAD = s.reg Reg.CLK_SPREAD ∧
    (clkApply s).rampFrom = if bit (s.reg Reg.CLK_SPREAD) 0 = bit (s.act Reg.CLK_SPREAD) 0 then s.rampFrom else some s.frc := by
  have hspread : ((s.applyRange 0x100000 0x200000).goDone Reg.CLK_COMMIT).act Reg.CLK_SPREAD = s.reg Reg.CLK_SPREAD :=
    (s.act_applyRange _ _ _).trans (if_pos (by decide))
  have hpending := Chip.flag_goDone (s.applyRange 0x100000 0x200000) Reg.CLK_COMMIT
  unfold clkApply
  rw [if_pos h]
  dsimp only
  rw [hspread]
  split
  · exact ⟨hpending, hspread, rfl⟩
  · exact ⟨hpending, hspread, rfl⟩

/-- Settles O52: the lock by what it sets before start-up moves on, REFCLK by the bit that its loss or return finds, CLK_APPLY by its range. -/
theorem clockSupervision : Obligations.ClockSupervision := by
  intro s hr
  refine ⟨fun h => ⟨_, runs_of_core_eq rfl hr (rootLock_unlocked h), ?_⟩, fun h => runs_of_core_eq rfl hr (if_neg (by simp [h])),
    fun h => runs_of_core_eq rfl hr (if_neg (by simp [h])), fun h => ⟨_, runs_of_core_eq rfl hr rfl, clkApply_parts h⟩⟩
  obtain ⟨hlock, href, hmirror⟩ := s.chip.rootLocked_parts
  obtain ⟨hactive, hreg⟩ := s.chip.rootLocked.startStage_keeps 1
  have hstartup : s.chip.rootLocked.reg Reg.GLB_STARTUP = s.chip.reg Reg.GLB_STARTUP := s.chip.rootLocked_reg (by decide) (by decide)
  have hclk := hreg Reg.CLK_STATUS (by decide)
  refine ⟨(congrArg (bit · 0) hclk).trans hlock, (congrArg (bit · 1) hclk).trans href, ?_, fun hstart hstage => Chip.startStage_first ?_ ?_⟩
  · rw [Chip.act, hactive]
    exact hmirror
  · rw [Chip.starting, Chip.flag, Chip.flag, hstartup]
    exact hstart
  · rw [Chip.get, hstartup]
    exact hstage

end Sys2Proof.Machine
end

section
/-! Requests of side-band nodes (R692 to R706): how a new one is answered and a repeated one answered again, and what each of them does. -/
namespace Sys2Proof.Machine
open Sys2Proof.Claim

/-! ### A request's frame -/

section
variable (s : Chip)

@[simp] theorem received_isl : (received s).isl = s.isl := (s.bump_keeps _ _).1
@[simp] theorem received_hif : (received s).hif = s.hif := (s.bump_keeps _ _).2.1
@[simp] theorem received_patterns : (received s).patterns = s.patterns := (regsOnly_bump s _ _).patterns_eq

@[simp] theorem received_chan (c : Nat) : (received s).chan c = s.chan c := by
  obtain ⟨r, h⟩ := s.bump_eq Reg.SBY_RX_FRAMES 1
  rw [received, h]
  rfl

end

section
variable {s : Chip} {n : Fin 32} {q : BitVec 16} {op : Nat} {run : Chip → Nat × List Byte × Chip}

/-- A request is answered again with its kept answer, or carried out and answered (R694). -/
theorem sbRequest_eq (hin : s.isl.inReset = false) : s.sbRequest n q.toNat op run = (keptAnswer s n.val q.toNat).elim
    (answered (run (received s)).2.2 n q op (run (received s)).1 (run (received s)).2.1) fun frame => (received s).sbQueue { dest := n.val, bytes := frame } := by
  unfold Chip.sbRequest keptAnswer
  rw [if_neg (by simp [hin])]
  cases s.isl.answers.get n.val with
  | none => rfl
  | some a =>
    by_cases hagain : a.seq = q.toNat ∧ s.isl.clock < a.at_ + 622080000
    · simp only [hagain, and_self, decide_true, Bool.and_self, if_true]
      rfl
    · have hnot : ¬(decide (a.seq = q.toNat) && decide (s.isl.clock < a.at_ + 622080000)) = true := by simpa using hagain
      simp only [hnot, hagain, if_false]
      rfl

theorem sbRequest_new (hin : s.isl.inReset = false) (hkept : keptAnswer s n.val q.toNat = none) :
    s.sbRequest n q.toNat op run = answered (run (received s)).2.2 n q op (run (received s)).1 (run (received s)).2.1 := by
  rw [sbRequest_eq hin, hkept]
  rfl

theorem sbRequest_repeated {frame : List Byte} (hin : s.isl.inReset = false) (hkept : keptAnswer s n.val q.toNat = some frame) :
    s.sbRequest n q.toNat op run = (received s).sbQueue { dest := n.val, bytes := frame } := by
  rw [sbRequest_eq hin, hkept]
  rfl

/-- An answer just given is the kept one. -/
theorem keptAnswer_answered (y : Chip) (status : Nat) (data : List Byte) :
    keptAnswer (answered y n q op status data) n.val q.toNat = some (y.sbBytes n.val 2 q.toNat op status data) := by
  unfold keptAnswer answered
  simp only [Map.get_set_self]
  exact if_pos ⟨trivial, Nat.lt_add_of_pos_right (by decide)⟩

end

/-- A command is a request of a node: it is carried out or answered again by `sbRequest`. -/
def IsRequest (i : Instr) (n : Fin 32) (q : BitVec 16) (op : Nat) (run : Chip → Nat × List Byte × Chip) : Prop :=
  ∀ s : State, exec i s = s.act fun c => c.sbRequest n q.toNat op run

/-- A new request leaves what it does, answered. -/
theorem IsRequest.runs {i : Instr} {s : State} {n : Fin 32} {q : BitVec 16} {op status : Nat} {run : Chip → Nat × List Byte × Chip} {data : List Byte} {y : Chip}
    (hi : IsRequest i n q op run) (h : takesRequest s n q) (hrun : run (received s.chip) = (status, data, y)) : Runs i s (answered y n q op status data) := by
  obtain ⟨hin, hkept⟩ := h
  refine runs_of_act (hi s) ((sbRequest_new hin hkept).trans ?_)
  rw [hrun]

theorem IsRequest.runs_repeated {i : Instr} {s : State} {n : Fin 32} {q : BitVec 16} {op : Nat} {run : Chip → Nat × List Byte × Chip} {frame : List Byte}
    (hi : IsRequest i n q op run) (hin : s.chip.isl.inReset = false) (hkept : keptAnswer s.chip n.val q.toNat = some frame) :
    Runs i s ((received s.chip).sbQueue { dest := n.val, bytes := frame }) :=
  runs_of_act (hi s) (sbRequest_repeated hin hkept)

/-- Settles O58: every kind of request is carried out by `sbRequest`, which answers a new one and repeats a kept answer. -/
theorem repeatedRequestsOnlyRepeatTheAnswer : Obligations.RepeatedRequestsOnlyRepeatTheAnswer := by
  intro s n q hin i hi
  have hrequest : ∃ op run, IsRequest i n q op run := by
    rcases hi with hi | ⟨e, rfl⟩ | ⟨b, rfl⟩ | ⟨k, rfl⟩ | ⟨a, w, rfl⟩ | ⟨a, v, w, rfl⟩ | ⟨b, rfl⟩ | ⟨c, rfl⟩ | ⟨c, rfl⟩ | ⟨b, l, rfl⟩ | ⟨o, d, rfl⟩
    · simp only [List.mem_cons, List.not_mem_nil, or_false] at hi
      rcases hi with rfl | rfl | rfl | rfl | rfl | rfl | rfl | rfl <;> exact ⟨_, _, fun _ => rfl⟩
    all_goals exact ⟨_, _, fun _ => rfl⟩
  obtain ⟨op, run, hreq⟩ := hrequest
  refine ⟨fun hnew => ?_, fun frame hkept => hreq.runs_repeated hin hkept⟩
  exact ⟨_, _, _, hreq.runs ⟨hin, hnew⟩ rfl, keptAnswer_answered _ _ _, rfl⟩

/-! ### Requests answered at once -/

/-- Settles O55: each request by what it answers, as the core runs or not and as the flash and the long operation stand. -/
theorem sideBandReads : Obligations.SideBandReads := by
  intro s n q h u
  refine ⟨IsRequest.runs (fun _ => rfl) h rfl, IsRequest.runs (fun _ => rfl) h rfl, IsRequest.runs (fun _ => rfl) h rfl, fun e => ?log, fun x hx hmine => ?mine,
    fun hnone => ?ended, fun a hcore => ⟨?read, ?readSlow⟩, fun a v hcore => ⟨?write, ?writeSlow⟩, fun a v slow hcore => ⟨?readHeld, ?writeHeld⟩⟩
  case log =>
    change Runs _ s (match (received s.chip).logRead e.toNat with
      | some l => answered (received s.chip) n q 4 0 l
      | none => answered (received s.chip) n q 4 3 [])
    cases hlog : (received s.chip).logRead e.toNat with
    | none => exact IsRequest.runs (fun _ => rfl) h (by rw [hlog])
    | some l => exact IsRequest.runs (fun _ => rfl) h (by rw [hlog])
  case mine => exact IsRequest.runs (fun _ => rfl) h (by simp only [received_hif, hx, hmine, if_true]; rfl)
  case ended => exact IsRequest.runs (fun _ => rfl) h (by simp only [received_hif, hnone]; rfl)
  case read => exact IsRequest.runs (fun _ => rfl) h (by simp only [received_isl, hcore]; rfl)
  case readSlow => exact IsRequest.runs (fun _ => rfl) h (by simp only [received_isl, hcore]; rfl)
  case write => exact IsRequest.runs (fun _ => rfl) h (by simp only [received_isl, hcore]; rfl)
  case writeSlow => exact IsRequest.runs (fun _ => rfl) h (by simp only [received_isl, hcore]; rfl)
  case readHeld => exact IsRequest.runs (fun _ => rfl) h (if_pos (by rwa [received_isl]))
  case writeHeld => exact IsRequest.runs (fun _ => rfl) h (if_pos (by rwa [received_isl]))

/-! ### Requests that change something -/

/-- A long operation of a node starts where none runs, whatever else its start does, with the next TOKEN (R652, R696). -/
theorem sbLong_free {s u : Chip} {n : Fin 32} {op arg : Nat} {start : Chip → Chip} (h : u.hif = s.hif) (hnone : s.hif.long = none)
    (hstart : (start u).hif = s.hif) :
    u.sbLong n op arg start = (1, wordBytes (w64 ((s.hif.token + 1) % 4294967296)), longStarted (start u) n op arg) := by
  unfold Chip.sbLong
  rw [if_neg (by simp [h, hnone]), ← hstart]
  rfl

theorem longAbort_flashCheck {s : Chip} {n : Fin 32} {x : LongOp} (h : s.hif.long = some x) (hmine : x.by_ = .node n.val) (hop : x.op = 6) :
    s.longAbort (.node n.val) = (0, s.longEnd x 6) := by
  unfold Chip.longAbort
  rw [h]
  dsimp only
  rw [if_neg (by simp [hmine])]
  simp [hop]

theorem longAbort_none {s : Chip} {who : Starter} (h : s.hif.long = none) : s.longAbort who = (5, s) := by
  unfold Chip.longAbort
  rw [h]

theorem askReset_idle {s : Chip} (h : s.flashWriting = false) :
    s.askReset 0x3250 = (0, { s with isl := { s.isl with resetDue := some (s.isl.clock + islTicks 10000000) } }) :=
  (if_neg (by decide)).trans (if_neg (by simp [h]))

theorem askReset_writing {s : Chip} (h : s.flashWriting = true) : s.askReset 0x3250 = (5, s) := (if_neg (by decide)).trans (if_pos h)

theorem askReset_badKey {s : Chip} {key : W64} (h : key ≠ 0x3250) : s.askReset key = (3, s) := if_pos h

theorem flashWriting_received (s : Chip) : (received s).flashWriting = s.flashWriting := by
  unfold Chip.flashWriting
  rw [received_isl, received_hif]

/-- A request for a channel's slot that may be switched (R704). -/
theorem slotIdle_received (s : Chip) (c : Nat) : (received s).slotIdle c = s.slotIdle c := by
  unfold Chip.slotIdle
  rw [received_chan]

/-- Settles O56: each request by what `sbRequest` runs for it, with a long operation started where none runs. -/
theorem sideBandActions : Obligations.SideBandActions := by
  intro s n q h u
  have hhif : u.hif = s.chip.hif := received_hif s.chip
  have hisl : u.isl = s.chip.isl := received_isl s.chip
  have hpatterns : u.patterns = s.chip.patterns := received_patterns s.chip
  have hwriting : u.flashWriting = s.chip.flashWriting := flashWriting_received s.chip
  have hlong {x : Option LongOp} (hx : s.chip.hif.long = x) : u.hif.long = x := (congrArg HifState.long hhif).trans hx
  have hboard (hseq : s.chip.isl.seq = false) : (!u.isl.seq) = true := by rw [hisl, hseq]; rfl
  have hsequenced (hseq : s.chip.isl.seq = true) : ¬(!u.isl.seq) = true := by rw [hisl, hseq]; decide
  have hchannel {c : Byte} (hc : c.toNat < 8) (hidle : s.chip.slotIdle c.toNat = true) : ¬8 ≤ c.toNat ∧ ¬(!u.slotIdle c.toNat) = true :=
    ⟨by omega, by rw [slotIdle_received, hidle]; decide⟩
  refine ⟨fun hidle => IsRequest.runs (fun _ => rfl) h (congrArg (fun r : Nat × Chip => (r.1, [], r.2)) (askReset_idle (hwriting.trans hidle))),
    fun hbusy => IsRequest.runs (fun _ => rfl) h (congrArg (fun r : Nat × Chip => (r.1, [], r.2)) (askReset_writing (hwriting.trans hbusy))),
    fun key hkey => IsRequest.runs (fun _ => rfl) h (congrArg (fun r : Nat × Chip => (r.1, [], r.2)) (askReset_badKey hkey)),
    fun x hx hmine hop => IsRequest.runs (fun _ => rfl) h (congrArg (fun r : Nat × Chip => (r.1, [], r.2)) (longAbort_flashCheck (hlong hx) hmine hop)),
    fun hnone => IsRequest.runs (fun _ => rfl) h (congrArg (fun r : Nat × Chip => (r.1, [], r.2)) (longAbort_none (hlong hnone))),
    fun hseq hcore => IsRequest.runs (fun _ => rfl) h ((if_neg (hsequenced hseq)).trans (congrArg (fun y => (0, [], y)) (if_neg (by rwa [received_isl])))),
    fun hseq hcore hnone => IsRequest.runs (fun _ => rfl) h ((if_neg (hsequenced hseq)).trans ?on),
    fun hseq => ⟨IsRequest.runs (fun _ => rfl) h (if_pos (hboard hseq)), IsRequest.runs (fun _ => rfl) h (if_pos (hboard hseq))⟩,
    fun c hc hidle => ?dimm,
    fun slot hslot hnone => ⟨IsRequest.runs (fun _ => rfl) h ((if_neg (Nat.not_lt.mpr (Nat.le_of_lt_succ hslot))).trans (sbLong_free hhif hnone hhif)),
      fun hcore hloader => IsRequest.runs (fun _ => rfl) h ?load⟩⟩
  case on =>
    have hstart : (if (u.isl.core = 0 && u.isl.enabled = 0) = true then u.railsOn else u) = if s.chip.isl.enabled = 0 then u.railsOn else u := by
      simp [hisl, hcore]
    have hkeeps : (if s.chip.isl.enabled = 0 then u.railsOn else u).hif = s.chip.hif := by
      split
      · exact hhif
      · exact hhif
    have hrun := sbLong_free (n := n) (op := 0x14) (arg := 1) (start := fun v => if (v.isl.core = 0 && v.isl.enabled = 0) = true then v.railsOn else v) hhif hnone
      (hstart ▸ hkeeps)
    rw [hstart] at hrun
    exact hrun
  case dimm =>
    obtain ⟨hnum, hslot⟩ := hchannel hc hidle
    exact ⟨IsRequest.runs (fun _ => rfl) h ((if_neg hnum).trans (if_neg hslot)), IsRequest.runs (fun _ => rfl) h ((if_neg hnum).trans (if_neg hslot))⟩
  case load =>
    have hidle : u.patterns.loader.busy = false := hpatterns ▸ hloader
    have hkeeps : (u.loadStart true 0 (slot.toNat + 1)).hif = s.chip.hif := by rw [u.loadStart_idle true 0 _ hidle]; exact hhif
    exact ((if_neg (by rw [received_isl]; exact not_not.mpr hcore)).trans (if_neg (by omega))).trans
      ((if_neg (by rw [hpatterns, hloader]; decide)).trans (sbLong_free hhif hnone hkeeps))

/-! ### A flash write -/

/-- What the images of a slot are is told by the flash alone. -/
theorem slotImages_congr {s u : Chip} (h : u.isl.flash = s.isl.flash) (b : Bool) : ∀ n off, u.slotImages b n off = s.slotImages b n off := by
  have hread (a k : Nat) : u.flashRead a k = s.flashRead a k := by simp only [Chip.flashRead, Chip.flashByte, h]
  intro n
  induction n with
  | zero => exact fun _ => rfl
  | succ n ih =>
    intro off
    simp only [Chip.slotImages, Chip.slotImage, hread, ih]

theorem slotGuarded_congr {s u : Chip} (h : u.isl.flash = s.isl.flash) (b : Bool) : u.slotGuarded b = s.slotGuarded b := by
  simp only [Chip.slotGuarded, Chip.slotPasses, Chip.slotList, slotImages_congr h]

/-- Data of 32 bytes are written as they are. -/
theorem take_of_length {data : List Byte} {n : Nat} (h : data.length = n) : (data ++ List.replicate n 0).take n = data := by
  rw [List.take_append_of_le_length h.ge, List.take_of_length_le h.le]

/-- The part with a slot erased and being written, so many bytes long (R706). -/
def Chip.slotWritten (s : Chip) (slot length : Nat) : Chip :=
  (s.flashErase (slotBase (decide (slot = 1))) 0x200000).updIsl fun i => { i with writeSlot := some (slot, length) }

theorem Chip.slotWritten_hif (s : Chip) (slot length : Nat) : (s.slotWritten slot length).hif = s.hif := rfl

/-- Settles O57: BEGIN by whether it takes away the last slot that passes, DATA and END by whether a slot is being written. -/
theorem sideBandFlashWrite : Obligations.SideBandFlashWrite := by
  intro s n q h u token
  have hhif : u.hif = s.chip.hif := received_hif s.chip
  have hguard (b : Bool) : u.slotGuarded b = s.chip.slotGuarded b := slotGuarded_congr (congrArg Island.flash (received_isl s.chip)) b
  refine ⟨fun slot length hslot hpos hlen hnone => ?begin, fun slot len offset data hwrite hdata hoff hlt => IsRequest.runs (fun _ => rfl) h ?data,
    fun slot len hwrite hnone => IsRequest.runs (fun _ => rfl) h ?done,
    fun hwrite => ⟨IsRequest.runs (fun _ => rfl) h ?noEnd, fun offset data => IsRequest.runs (fun _ => rfl) h ?noData⟩⟩
  case begin =>
    intro b
    have hargs : ¬(decide (1 < slot.toNat) || decide (length.toNat = 0) || decide (0x200000 < length.toNat)) = true := by
      simp only [Bool.or_eq_true, decide_eq_true_eq]
      omega
    have hlong : ¬u.hif.long.isSome = true := by rw [hhif, hnone]; decide
    have hrun := sbLong_free (u := received s.chip) (n := n) (op := 0x15) (arg := slot.toNat) (start := fun v => v.slotWritten slot.toNat length.toNat) hhif hnone
      ((Chip.slotWritten_hif _ _ _).trans hhif)
    refine ⟨fun hfree => IsRequest.runs (fun _ => rfl) h ((if_neg hargs).trans ((if_neg hlong).trans ((if_neg ?_).trans hrun))),
      fun hlast => IsRequest.runs (fun _ => rfl) h ((if_neg hargs).trans ((if_neg hlong).trans (if_pos ((hguard b).trans hlast))))⟩
    rw [hguard, hfree]
    decide
  case data =>
    have hargs : ¬(decide (offset.toNat % 32 ≠ 0) || decide (len ≤ offset.toNat)) = true := by
      simp only [Bool.or_eq_true, decide_eq_true_eq]
      omega
    simp only [received_isl, hwrite, take_of_length hdata]
    exact if_neg hargs
  case done =>
    have hrun := sbLong_free (u := received s.chip) (n := n) (op := 0x17) (arg := slot) (start := id) hhif hnone hhif
    simp only [received_isl, hwrite, hrun, if_true]
    rfl
  case noEnd =>
    simp only [received_isl, hwrite]
    rfl
  case noData =>
    simp only [received_isl, hwrite]
    rfl

end Sys2Proof.Machine
end

section
/-! Frames and heartbeats on the side band (R684 to R691, R710), and the island's log, time and long operations (R652, R653, R708, R709). -/
namespace Sys2Proof.Machine
open Sys2Proof.Claim

/-! ### Frames -/

section
variable {s : Chip}

/-- The part after the frame at the front of the bus's queue has left (R684, R685). -/
def Chip.frontSent (s : Chip) (f : SbFrame) (rest : List SbFrame) : Chip :=
  ({ s with isl := { s.isl with queue := rest }, out := .sideBand f.dest (f.bytes ++ ethFcs f.bytes false) :: s.out } : Chip).bump Reg.SBY_TX_FRAMES

theorem Chip.sendFront_cons {f : SbFrame} {rest : List SbFrame} (h : s.isl.queue = f :: rest) :
    s.sendFront = if f.app = true then (s.frontSent f rest).appDone 0 else s.frontSent f rest := by
  unfold Chip.sendFront
  rw [h]
  rfl

theorem Chip.dropFront_plain {f : SbFrame} {rest : List SbFrame} (h : s.isl.queue = f :: rest) (happ : f.app = false) :
    s.dropFront = (({ s with isl := { s.isl with queue := rest } } : Chip).bump Reg.SBY_TX_ABANDONED).raise Reg.SBY_EVENT 1 := by
  unfold Chip.dropFront
  rw [h]
  exact if_neg (by simp [happ])

/-- With no heartbeat waiting, the end of deference lets the front frame go once every frame's back-off is over (R684). -/
theorem deferenceEnd_frames (hin : s.isl.inReset = false) (hwait : s.isl.waiting = none) :
    deferenceEnd s = if (∀ g ∈ s.isl.queue, g.from_ ≤ s.isl.clock) then s.sendFront else s := by
  unfold deferenceEnd
  rw [if_neg (by simp [hin]), hwait]
  simp [Chip.islReached]

theorem sbFrameRetry_cons {f : SbFrame} {rest : List SbFrame} (hin : s.isl.inReset = false) (hwait : s.isl.waiting = none)
    (h : s.isl.queue = f :: rest) : sbFrameRetry s = if s.isl.clock < f.from_ then s else if 16 ≤ f.attempts then s.dropFront else s.sendFront := by
  unfold sbFrameRetry
  rw [if_neg (by simp [hin, hwait]), h]
  simp [Chip.islReached]

theorem collision_cons {f : SbFrame} {rest : List SbFrame} (hin : s.isl.inReset = false) (hwait : s.isl.waiting = none) (h : s.isl.queue = f :: rest) :
    collision s = if 16 ≤ f.attempts + 1 then (s.bump Reg.SBY_COLLISIONS).dropFront
      else (s.bump Reg.SBY_COLLISIONS).tick.2.updIsl fun i => { i with queue :=
        { f with attempts := f.attempts + 1, from_ := i.clock + backOffTicks (s.bump Reg.SBY_COLLISIONS).fresh (f.attempts + 1) } :: rest } := by
  unfold collision
  rw [if_neg (by simp [hin]), hwait, h]
  rfl

theorem ceilDiv_mono {a b : Nat} (n : Nat) (h : a ≤ b) : ceilDiv a n ≤ ceilDiv b n := Nat.div_le_div_right (by omega)

/-- A back-off lasts no longer than its slots allow (R684). -/
theorem backOffTicks_le (choice attempts : Nat) : backOffTicks choice attempts ≤ islTicks (2 ^ min 10 attempts * 51200) :=
  ceilDiv_mono _ (Nat.mul_le_mul_right _ (Nat.mul_le_mul_right _ (Nat.mod_lt _ (Nat.two_pow_pos _)).le))

theorem sbAppSend_free {dest : Fin 32} (h : s.flag Reg.SBY_APP_CTRL 6 = false) :
    sbAppSend dest s = ((s.setField Reg.SBY_APP_CTRL 4 0 dest).setFlag Reg.SBY_APP_CTRL 6 true).sbQueue
      { dest := dest, bytes := s.sbBytes dest 3 0 0 0 ((List.range 5).flatMap fun k => wordBytes (s.reg (Reg.SBY_APP_TXi k))), app := true } :=
  if_neg (by simp [h])

/-- An APP frame of 40 bytes that comes while the core runs, by where its destination says (R710). -/
theorem sbAppReceive_running {node : Fin 32} {data : List Byte} (hin : s.isl.inReset = false) (hcore : s.isl.core = 3) (hdata : data.length = 40) :
    sbAppReceive node data s = match (received s).sendDest (s.reg Reg.SBY_APP_DEST) (deviceSource 16 0) ([BitVec.ofNat 8 node.val] ++ List.replicate 7 0 ++ data) with
      | some (true, u) => u
      | some (false, u) => u.raise Reg.SBY_EVENT 3
      | none => (received s).raise Reg.SBY_EVENT 3 := by
  unfold sbAppReceive
  rw [if_neg (by simp [hin]), take_of_length hdata]
  dsimp only
  rw [if_neg (by simp [hcore])]
  rfl

end

/-! ### Heartbeats -/

section
variable {s : Chip}

/-- A heartbeat that starts at its instant: its frame with LATE 0 (R687). -/
theorem Chip.beatStart_onTime {h w : W64} (hready : s.beatReady = some (h, w)) :
    let mate := s.get Reg.SBY_HB_CFG 4 0
    let frame := s.sbBytes mate 0 0 0 0 (bytesBE 2 h.toNat ++ wordBytes w ++ [0])
    (s.beatStart s.isl.clock).isl = s.isl ∧ (s.beatStart s.isl.clock).out = .sideBand mate (frame ++ ethFcs frame false) :: s.out ∧
    (s.beatStart s.isl.clock).get Reg.SBY_HB_STATUS 7 0 = 0 := by
  intro mate frame
  have hlate : s.lateBy s.isl.clock = 0 := by simp [Chip.lateBy]
  have heq : s.beatStart s.isl.clock = ((s.sbEmit mate frame).bump Reg.SBY_HB_SENT).setField Reg.SBY_HB_STATUS 7 0 0 := by
    unfold Chip.beatStart
    rw [hready]
    dsimp only
    rw [hlate]
    rfl
  rw [heq]
  refine ⟨?_, ?_, Chip.get_setField_self _ _ _ (by decide)⟩
  · change (Chip.bump _ _).isl = _
    simp [Chip.sbEmit]
  · change (Chip.bump _ _).out = _
    simp [Chip.sbEmit, Chip.emit]

/-- The part at a heartbeat's instant, with the next one a period later. -/
def Chip.beatNext (s : Chip) : Chip := { s with isl := { s.isl with nextBeat := s.isl.clock + beatPeriod } }

/-- A heartbeat's instant changes nothing of what its frame holds. -/
theorem Chip.beatNext_frame (s : Chip) : s.beatNext.sbBytes = s.sbBytes ∧ s.beatNext.get = s.get ∧ s.beatNext.out = s.out := ⟨rfl, rfl, rfl⟩

theorem sbHeartbeatSend_ready {h w : W64} {busy : Bool} (hin : s.isl.inReset = false) (hwait : s.isl.waiting = none) (hnow : s.isl.nextBeat = s.isl.clock)
    (hready : s.beatReady = some (h, w)) :
    sbHeartbeatSend busy s = if busy = true then s.beatNext.updIsl fun i => { i with waiting := some s.isl.clock } else s.beatNext.beatTry s.isl.clock := by
  have hready' : s.beatNext.beatReady.isNone = false := by
    rw [show s.beatNext.beatReady = s.beatReady from rfl, hready]
    rfl
  have hinstant : s.isl.nextBeat + (s.isl.clock - s.isl.nextBeat) / beatPeriod * beatPeriod = s.isl.clock := by rw [hnow]; simp
  unfold sbHeartbeatSend
  rw [if_neg (by simp [hin, hnow, Chip.islReached]), hinstant, hwait]
  change (if s.beatNext.beatReady.isNone = true then s.beatNext
    else if busy = true then s.beatNext.updIsl fun i => { i with waiting := some s.isl.clock } else s.beatNext.beatTry s.isl.clock) = _
  rw [hready', if_neg Bool.false_ne_true]

theorem Chip.beatTry_onTime (hwait : s.isl.waiting = none) : s.beatTry s.isl.clock = s.beatStart s.isl.clock := by
  have hsame : (s.updIsl fun i => { i with waiting := none }) = s := by
    unfold Chip.updIsl
    rw [← hwait]
  unfold Chip.beatTry
  rw [if_neg (by simp), hsame]

theorem sbHeartbeatAbandon_collided {t : Nat} (h : s.isl.waiting = some t) : sbHeartbeatAbandon true s =
    (({ s.bump Reg.SBY_COLLISIONS with isl := { s.isl with waiting := none } } : Chip).bump Reg.SBY_HB_ABANDONED).raise Reg.SBY_EVENT 0 := by
  have hisl : (s.bump Reg.SBY_COLLISIONS).isl = s.isl := (s.bump_keeps _ _).1
  unfold sbHeartbeatAbandon
  rw [h]
  dsimp only
  rw [if_pos rfl, Chip.beatAbandon, Chip.updIsl, hisl]

theorem sbHeartbeatAbandon_late {t : Nat} (h : s.isl.waiting = some t) (hlate : islTicks 88000 < s.isl.clock - t) :
    sbHeartbeatAbandon false s = s.beatAbandon := by
  unfold sbHeartbeatAbandon
  rw [h]
  exact (if_neg Bool.false_ne_true).trans (if_pos hlate)

theorem Chip.get_updIsl (f : Island → Island) (a hi lo : Nat) : (s.updIsl f).get a hi lo = s.get a hi lo := rfl

/-- The part with a heartbeat counted and shown that came from the mate with the higher UNIT, which follows this part's schedule (R689, R691). -/
def Chip.beatShown (s : Chip) (late : Byte) : Chip :=
  ((((s.bump Reg.SBY_RX_FRAMES).bump Reg.SBY_HB_RECEIVED).setField Reg.SBY_HB_STATUS 15 8 late.toNat).updIsl fun i =>
    { i with leaderAt := none }).setField Reg.SBY_HB_STATUS 17 16 1

theorem sbHeartbeatReceive_leads {heat : BitVec 16} {word : W64} {late : Byte} (hin : s.isl.inReset = false) (hcore : s.isl.core = 3)
    (hmate : s.mateOn = true) (hunit : heat.toNat % 16 = fld (s.act Reg.GLK_MATE_CFG) 16 13 + 1) :
    sbHeartbeatReceive heat word late s = (s.beatShown late).heartbeat 2 heat.toNat word := by
  have hlower : decide (fld (s.act Reg.GLK_MATE_CFG) 16 13 + 1 < fld (s.act Reg.GLK_MATE_CFG) 16 13) = false := decide_eq_false (by omega)
  have hhigher : decide (fld (s.act Reg.GLK_MATE_CFG) 16 13 < fld (s.act Reg.GLK_MATE_CFG) 16 13 + 1) = true := decide_eq_true (by omega)
  unfold sbHeartbeatReceive
  rw [if_neg (by simp [hin])]
  simp only [hmate, hunit, hlower, hhigher, hcore, Bool.and_self, Bool.and_false, Bool.false_eq_true, if_true, if_false]
  rfl

theorem Chip.beatShown_parts (late : Byte) : (s.beatShown late).get Reg.SBY_HB_STATUS 15 8 = late.toNat ∧
    (s.beatShown late).get Reg.SBY_HB_STATUS 17 16 = 1 ∧ (s.beatShown late).isl = { s.isl with leaderAt := none } := by
  unfold Chip.beatShown
  refine ⟨?_, Chip.get_setField_self _ _ _ (by decide), ?_⟩
  · rw [Chip.get_setField_field _ _ _ (by decide) (by decide), Chip.get_updIsl]
    exact (Chip.get_setField_self _ _ _ (by decide)).trans (Nat.mod_eq_of_lt late.isLt)
  · simp [Chip.updIsl]

end

/-- Settles O59: frames by what stands at the front of the queue, heartbeats by whether one waits and how late it is. -/
theorem sideBandFramesAndHeartbeats : Obligations.SideBandFramesAndHeartbeats := by
  refine ⟨fun s hin => ⟨runs_of_act rfl (if_neg (by simp [hin])), fun f rest hwait hqueue => ?frames, fun dest hr hbusy => ?appSend,
    fun node data hcore hdata => ?appReceive⟩, fun s hin => ⟨fun h w hwait hnow hready => ?send, fun t hwait => ?abandon, fun heat word late hcore hmate hunit => ?receive,
      fun hr hrecent hsome => ?recent, fun hr hold => ?refresh⟩⟩
  case frames =>
    intro left u
    have hall : (∀ g ∈ f :: rest, g.from_ ≤ s.chip.isl.clock) → deferenceEnd s.chip = s.chip.sendFront := fun h =>
      (deferenceEnd_frames hin hwait).trans (if_pos (by rwa [hqueue]))
    have hu : u.isl = s.chip.isl := (s.chip.bump_keeps _ _).1
    refine ⟨fun ⟨g, hg, hlt⟩ => runs_of_act rfl ((deferenceEnd_frames hin hwait).trans (if_neg ?_)), fun hlt => runs_of_act rfl ((sbFrameRetry_cons hin hwait hqueue).trans (if_pos hlt)),
      fun happ h => runs_of_act rfl ?_, fun happ hfrom hfew => runs_of_act rfl ?_, fun happ h => runs_of_act rfl ?_, fun hfew => runs_of_act rfl ?_,
      backOffTicks_le _ _, fun hmany happ => runs_of_act rfl ?_⟩
    · rw [hqueue]
      exact fun h => absurd (h g hg) (Nat.not_le.mpr hlt)
    · rw [hall h, Chip.sendFront_cons hqueue, if_neg (by simp [happ])]
      rfl
    · rw [sbFrameRetry_cons hin hwait hqueue, if_neg (by omega), if_neg (by omega), Chip.sendFront_cons hqueue, if_neg (by simp [happ])]
      rfl
    · rw [hall h, Chip.sendFront_cons hqueue, if_pos happ]
      rfl
    · rw [collision_cons hin hwait hqueue, if_neg (by omega)]
      rfl
    · rw [collision_cons hin hwait hqueue, if_pos hmany, Chip.dropFront_plain (f := f) (rest := rest) (by rw [hu, hqueue]) happ]
  case appSend =>
    refine ⟨_, runs_of_core_eq rfl hr (sbAppSend_free hbusy), Chip.flag_setFlag_self _ _ _ (by decide), ?_, rfl⟩
    change (Chip.setFlag _ _ _ _).get _ _ _ = _
    rw [Chip.get_setFlag_bit _ _ _ (by decide) (by decide), Chip.get_setField_self _ _ _ (by decide)]
    exact Nat.mod_eq_of_lt dest.isLt
  case appReceive =>
    intro dest r
    refine ⟨fun hon => runs_of_act rfl ((sbAppReceive_running hin hcore hdata).trans ?_), fun hoff => runs_of_act rfl ((sbAppReceive_running hin hcore hdata).trans ?_)⟩
    · rw [Chip.sendDest_enabled _ _ _ hon]
      change (match some r with | some (true, u) => u | some (false, u) => u.raise Reg.SBY_EVENT 3 | none => (received s.chip).raise Reg.SBY_EVENT 3) = _
      obtain ⟨sent, u⟩ := r
      cases sent <;> rfl
    · rw [Chip.sendDest_disabled _ _ _ hoff]
  case send =>
    obtain ⟨hisl, hout, hlate⟩ := s.chip.beatNext.beatStart_onTime hready
    obtain ⟨hbytes, hget, hsent⟩ := s.chip.beatNext_frame
    rw [hbytes, hget, hsent] at hout
    refine ⟨⟨_, runs_of_act rfl ((sbHeartbeatSend_ready hin hwait hnow hready).trans ((if_neg Bool.false_ne_true).trans (Chip.beatTry_onTime hwait))), hisl, hout, hlate⟩,
      runs_of_act rfl ((sbHeartbeatSend_ready hin hwait hnow hready).trans (if_pos rfl))⟩
  case abandon =>
    exact ⟨runs_of_act rfl (sbHeartbeatAbandon_collided hwait), fun hlate => runs_of_act rfl (sbHeartbeatAbandon_late hwait hlate)⟩
  case receive =>
    obtain ⟨hlate, hlead, hisl⟩ := s.chip.beatShown_parts late
    exact ⟨_, runs_of_act rfl (sbHeartbeatReceive_leads hin hcore hmate hunit), hlate, hlead, hisl⟩
  case recent =>
    obtain ⟨r, hr'⟩ := Option.ne_none_iff_exists'.mp hsome
    exact runs_of_core_eq rfl hr (if_pos (by simpa [hr'] using hrecent r hr'))
  case refresh =>
    refine runs_of_core_eq rfl hr (if_neg ?_)
    cases hrefresh : s.chip.isl.refresh with
    | none => simp
    | some r => simpa using hold r hrefresh

/-! ### The log, time, and the end of a long operation -/

section
variable {s : Chip}

/-- A bucket that has refilled changes its own two fields only. -/
theorem Island.refilled_eq (i : Island) : ∃ b t, i.refilled = { i with bucket := b, bucketAt := t } := by
  unfold Island.refilled
  dsimp only
  split
  · exact ⟨_, _, rfl⟩
  · exact ⟨_, _, rfl⟩

theorem logWrite_put {e : LogEntry} {rest : List LogEntry} (hbuf : s.isl.buffer = e :: rest) (hsup : s.isl.suppressed = []) (hroom : s.isl.refilled.bucket < 4096) :
    logWrite s = ({ s with isl := { s.isl.refilled with buffer := rest } } : Chip).logPut e := by
  obtain ⟨b, t, h⟩ := s.isl.refilled_eq
  have hb : b < 4096 := by rwa [h] at hroom
  unfold logWrite
  simp only [Chip.updIsl, h, hbuf, hsup, hb, if_true]

/-- The part with an entry that the bucket does not let through counted instead (R709). -/
def Chip.logSuppressed (s : Chip) (e : LogEntry) (rest : List LogEntry) : Chip :=
  (((s.updIsl Island.refilled).updIsl fun i => { i with buffer := rest, suppressed := i.suppressed.upd (e.source * 256 + e.kind) (· + 1) }).bump
    Reg.SBY_LOG_SUPPRESSED).raise Reg.SBY_EVENT 6

theorem logWrite_suppressed {e : LogEntry} {rest : List LogEntry} (hbuf : s.isl.buffer = e :: rest) (hempty : 4096 ≤ s.isl.refilled.bucket) :
    logWrite s = s.logSuppressed e rest := by
  obtain ⟨b, t, h⟩ := s.isl.refilled_eq
  have hb : ¬b < 4096 := by rw [h] at hempty; exact Nat.not_lt.mpr hempty
  unfold logWrite Chip.logSuppressed
  simp only [Chip.updIsl, h, hbuf, hb, if_false]

theorem Chip.logSuppressed_parts (e : LogEntry) (rest : List LogEntry) : (s.logSuppressed e rest).isl.buffer = rest ∧
    (s.logSuppressed e rest).isl.flash = s.isl.flash ∧ (s.logSuppressed e rest).isl.logSeq = s.isl.logSeq ∧
    (s.logSuppressed e rest).isl.suppressed.get (e.source * 256 + e.kind) = s.isl.suppressed.get (e.source * 256 + e.kind) + 1 ∧
    (s.logSuppressed e rest).flag Reg.SBY_EVENT 6 = true := by
  obtain ⟨b, t, h⟩ := s.isl.refilled_eq
  have hisl : (s.logSuppressed e rest).isl =
      { s.isl.refilled with buffer := rest, suppressed := s.isl.refilled.suppressed.upd (e.source * 256 + e.kind) (· + 1) } := by
    unfold Chip.logSuppressed
    exact (Chip.bump_keeps _ _ _).1
  have hcount := Map.get_upd_self s.isl.suppressed (e.source * 256 + e.kind) (· + 1)
  rw [hisl, h]
  exact ⟨rfl, rfl, rfl, hcount, Chip.flag_raise_self _ _ (by decide)⟩

theorem longOpDone_ends {x : LongOp} {r : Nat} {y : Chip} (h : s.hif.long = some x) (hr : s.longResult x = some (r, y)) : longOpDone 1000 s = y.longEnd x r := by
  unfold longOpDone
  rw [h]
  dsimp only
  rw [if_pos (by decide), hr]

theorem longOpDone_moves {x : LongOp} {n : Nat} {p : Fin 1001} (h : s.hif.long = some x) (hmine : x.by_ = .node n) (hop : x.op ≠ 5) (hp : p.val < 1000) :
    longOpDone p s = { s with hif := { s.hif with long := some { x with progress := p.val } } } := by
  unfold longOpDone
  rw [h]
  dsimp only
  rw [if_neg (by omega), hmine, if_neg (by simp [hop])]

end

/-- Settles O60: the log by whether its bucket lets an entry through, time by its second, and a long operation by how far it has come. -/
theorem islandLogAndLongOperations : Obligations.IslandLogAndLongOperations := fun s =>
  ⟨fun _ _ hbuf hsup hroom => runs_of_act rfl (logWrite_put hbuf hsup hroom),
    fun e rest hbuf hempty => ⟨_, runs_of_act rfl (logWrite_suppressed hbuf hempty), s.chip.logSuppressed_parts e rest⟩,
    fun hcore hdue => runs_of_act rfl (if_pos (by simpa [hcore, Chip.islReached] using hdue)),
    fun _ _ _ h hr => runs_of_act rfl (longOpDone_ends h hr), fun _ _ h hmine hop _ hp => runs_of_act rfl (longOpDone_moves h hmine hop hp)⟩

end Sys2Proof.Machine
end

section
/-! MEM (R572 to R580, R587, R704): on-die words and DDR5 lines as the scrubber finds them, the commands on channels, and how a channel trains and resilvers. -/
namespace Sys2Proof.Machine
open Sys2Proof.Claim

/-! ### Self-demotion leaves MEM alone -/

section
variable (s : Chip)

/-- What the part does to itself, its roles and its permit, reaches neither MEM nor any register but GLK's events and takeovers. -/
def GlkOnly (s u : Chip) : Prop := u.mem = s.mem ∧ ∀ a, a ≠ Reg.GLK_EVENT → a ≠ Reg.GLK_TAKEOVERS → u.reg a = s.reg a

theorem GlkOnly.refl : GlkOnly s s := ⟨rfl, fun _ _ _ => rfl⟩

theorem GlkOnly.trans {s t u : Chip} (h : GlkOnly s t) (g : GlkOnly t u) : GlkOnly s u :=
  ⟨g.1.trans h.1, fun a he ht => (g.2 a he ht).trans (h.2 a he ht)⟩

theorem glkOnly_raise {u : Chip} (k : Nat) (h : GlkOnly s u) : GlkOnly s (u.raise Reg.GLK_EVENT k) :=
  ⟨h.1, fun a he ht => (Chip.reg_setReg_other _ _ he).trans (h.2 a he ht)⟩

theorem glkOnly_bump {u : Chip} (h : GlkOnly s u) : GlkOnly s (u.bump Reg.GLK_TAKEOVERS) := by
  refine ⟨?_, fun a he ht => (Chip.reg_bump_other _ 1 ht fun e k hk => ?_).trans (h.2 a he ht)⟩
  · rw [(u.bump_keeps _ _).2.2.2.2.1]
    exact h.1
  · obtain ⟨rfl, -⟩ := Prod.mk.inj (Option.some.inj (hk.symm.trans (show halfEvent Reg.GLK_TAKEOVERS = some (Reg.GLK_EVENT, 13) by decide)))
    exact he

theorem glkOnly_evalPermit : GlkOnly s s.evalPermit := by
  unfold Chip.evalPermit
  split
  · exact GlkOnly.refl s
  · dsimp only
    split
    · exact glkOnly_raise s _ ⟨rfl, fun _ _ _ => rfl⟩
    · split
      · exact glkOnly_bump s (glkOnly_raise s _ ⟨rfl, fun _ _ _ => rfl⟩)
      · exact ⟨rfl, fun _ _ _ => rfl⟩

theorem glkOnly_selfDemote (k : Nat) : GlkOnly s (s.selfDemote k) := by
  unfold Chip.selfDemote
  split
  · exact (glkOnly_raise s 1 ⟨rfl, fun _ _ _ => rfl⟩).trans (glkOnly_evalPermit _)
  · exact GlkOnly.refl s

theorem glkOnly_demotions (u : Chip) : GlkOnly u (s.demotions u) := by
  have hstep (v : Chip) (b : Bool) (k : Nat) : GlkOnly v (if b = true then v.selfDemote k else v) := by
    cases b
    · exact GlkOnly.refl v
    · exact glkOnly_selfDemote v k
  exact ((hstep _ _ 1).trans (hstep _ _ 2)).trans (hstep _ _ 3)

variable {s}

theorem GlkOnly.chan {u : Chip} (h : GlkOnly s u) (c : Nat) : u.chan c = s.chan c := congrArg (fun m : MemState => m.chans.get c) h.1

theorem GlkOnly.isPrimary {u : Chip} (h : GlkOnly s u) (c : Nat) : u.isPrimary c = s.isPrimary c := by
  rw [Chip.isPrimary, Chip.isPrimary, h.1]

theorem GlkOnly.memEvent {u : Chip} (h : GlkOnly s u) (k : Nat) : u.flag Reg.MEM_EVENT k = s.flag Reg.MEM_EVENT k :=
  congrArg (bit · k) (h.2 _ (by decide) (by decide))

end

/-! ### Channels and the roles of a pair -/

section
variable (s : Chip) (c : Nat)

@[simp] theorem Chip.chan_setField (a hi lo x : Nat) : (s.setField a hi lo x).chan c = s.chan c := rfl

@[simp] theorem Chip.mirrored_setField (a hi lo x : Nat) : (s.setField a hi lo x).mirrored = s.mirrored := rfl

theorem Chip.chan_updChan_self (f : Channel → Channel) : (s.updChan c f).chan c = f (s.chan c) := Map.get_upd_self s.mem.chans c f

theorem Chip.chan_updChan_other (f : Channel → Channel) {d : Nat} (h : d ≠ c) : (s.updChan c f).chan d = s.chan d := Map.get_set_other s.mem.chans _ h

/-- A channel's update in which its state stays the same leaves the states of all channels. -/
theorem Chip.state_updChan (f : Channel → Channel) (h : (f (s.chan c)).state = (s.chan c).state) (d : Nat) :
    ((s.updChan c f).chan d).state = (s.chan d).state := by
  by_cases hd : d = c
  · rw [hd, Chip.chan_updChan_self, h]
  · rw [Chip.chan_updChan_other _ _ _ hd]

theorem Chip.chan_makePrimary (d : Nat) : (s.makePrimary c).chan d = s.chan d := rfl

theorem Chip.isPrimary_makePrimary : (s.makePrimary c).isPrimary c = true := by
  have hrole := Map.get_set_self s.mem.swapped (c / 2) (decide (c % 2 = 1))
  exact decide_eq_true hrole.symm

/-- What no channel holds any more leaves DDR5 alone changed. -/
theorem Chip.ddrForget_keeps : s.ddrForget.mem = s.mem ∧ s.ddrForget.regs = s.regs := ⟨rfl, rfl⟩

/-- A FAILED channel (R577). -/
def Channel.failed (x : Channel) : Channel := { x with state := 5, progress := 0 }

/-- A failing channel as it is marked, its partner primary, before the event (R577). -/
def Chip.chanFailed : Chip := (s.updChan c Channel.failed).makePrimary (partner c)

theorem Chip.chanFail_mem : (s.chanFail c).mem = (s.chanFailed c).mem := rfl

theorem Chip.chanFail_flag (k : Nat) : (s.chanFail c).flag Reg.MEM_EVENT k = (s.raise Reg.MEM_EVENT 3).flag Reg.MEM_EVENT k := rfl

/-- A channel that fails is FAILED, its partner primary, and every other channel as before (R577). -/
theorem Chip.chanFail_parts : ((s.chanFail c).chan c).state = 5 ∧ (s.chanFail c).isPrimary (partner c) = true ∧
    (s.chanFail c).flag Reg.MEM_EVENT 3 = true ∧ ∀ d, d ≠ c → (s.chanFail c).chan d = s.chan d := by
  refine ⟨?_, ?_, ?_, fun d hd => ?_⟩
  · rw [Chip.chan, Chip.chanFail_mem]
    exact congrArg Channel.state (s.chan_updChan_self c Channel.failed)
  · rw [Chip.isPrimary, Chip.chanFail_mem]
    exact Chip.isPrimary_makePrimary _ (partner c)
  · rw [Chip.chanFail_flag]
    exact Chip.flag_raise_self _ _ (by decide)
  · rw [Chip.chan, Chip.chanFail_mem]
    exact s.chan_updChan_other c Channel.failed hd

end

/-! ### On-die words (R572) -/

/-- W20 corrects a word in which one bit is wrong. -/
theorem w20Check_one_bit : ∀ j : Fin 160, w20Check (1 <<< j.val) = .corrected := by decide +kernel

/-! ### DDR5 lines (R572, R575, R576) -/

section
variable (s : Chip)

/-- A line of which one copy alone is read: corrected, turned where decoding leaves bits wrong, or poisoned. -/
def Chip.scrubAlone (c line : Nat) (wrong : BitVec 640) : Chip :=
  if lineCount .uncorrectable wrong = 0 then (s.checkCopy c line wrong).ddrTurn line wrong else (s.checkCopy c line wrong).poisonLine line

variable {s} {line : Nat} {a b : BitVec 640} {differ : Bool}

theorem ddrScrub_absent (h : s.ddrHas (line * 64) 64 = false) : ddrScrub line a b differ false s = s := by
  unfold ddrScrub
  dsimp only
  rw [if_neg Bool.false_ne_true, if_neg (by simp [h])]

theorem ddrScrub_independent (h : s.ddrHas (line * 64) 64 = true) (hmode : s.mirrored = false) :
    ddrScrub line a b differ false s = s.demotions (s.scrubAlone (channelOf (line / 4)).1 line a) := by
  unfold ddrScrub
  dsimp only
  rw [if_neg Bool.false_ne_true, if_pos h, if_pos (by simp [hmode])]
  rfl

theorem Chip.checkCopy_sound {c : Nat} (hlost : lineCount .uncorrectable a = 0) :
    s.checkCopy c line a = if lineCount .corrected a = 0 then s else s.bump (Reg.MEM_CORRc c) (lineCount .corrected a) := by
  rw [Chip.checkCopy, hlost]
  rfl

theorem Chip.ddrTurn_none (hleft : lineLeft a = 0) : s.ddrTurn line a = s := if_pos hleft

/-- The part with uncorrectable codewords of a channel counted, before they may make it FAILED (R575, R577). -/
def Chip.uncorrCounted (s : Chip) (c line n : Nat) : Chip :=
  (((s.bump (Reg.MEM_UNCORRc c) n).raise Reg.MEM_EVENT 0).setReg Reg.MEM_ERR_ADDR (w64 (line % 1099511627776 + c <<< 40))).updMem fun m =>
    { m with uncorrs := m.uncorrs.set c ((s.mem.uncorrs.get c).filter (· = s.minute) ++ List.replicate n s.minute) }

theorem Chip.uncorrCounted_parts (c n : Nat) : (s.uncorrCounted c line n).flag Reg.MEM_EVENT 0 = true ∧
    (s.uncorrCounted c line n).mem.poison = s.mem.poison := by
  have hmem : (s.bump (Reg.MEM_UNCORRc c) n).mem = s.mem := (s.bump_keeps _ _).2.2.2.2.1
  unfold Chip.uncorrCounted
  generalize s.bump (Reg.MEM_UNCORRc c) n = u at hmem ⊢
  refine ⟨?_, ?_⟩
  · rw [(Chip.updMem_registers _ _).2.2.2, Chip.flag, Chip.reg_setReg_other _ _ (by decide)]
    exact Chip.flag_raise_self _ _ (by decide)
  · simp only [Chip.updMem, Chip.raise, Chip.setFlag, Chip.setReg_keeps, hmem]

/-- Uncorrectable codewords raise ECC_UNCORR and poison nothing by themselves, whether or not their channel fails (R575, R577). -/
theorem Chip.chanUncorr_parts {c n : Nat} (hn : n ≠ 0) : (s.chanUncorr c line n).flag Reg.MEM_EVENT 0 = true ∧
    (s.chanUncorr c line n).mem.poison = s.mem.poison := by
  obtain ⟨hevent, hpoison⟩ := s.uncorrCounted_parts (line := line) c n
  have heq : s.chanUncorr c line n =
      if (8 < ((s.mem.uncorrs.get c).filter (· = s.minute) ++ List.replicate n s.minute).length && (s.chan c).serves) = true
      then (s.uncorrCounted c line n).chanFail c else s.uncorrCounted c line n := if_neg hn
  rw [heq]
  split
  · refine ⟨?_, ?_⟩
    · rw [Chip.chanFail_flag]
      exact (Chip.flag_setFlag_bit _ _ _ (by decide) (by decide)).trans hevent
    · rw [Chip.chanFail_mem]
      exact hpoison
  · exact ⟨hevent, hpoison⟩

theorem Chip.poisonLine_parts : (line ∈ (s.poisonLine line).mem.poison ∨ 1024 ≤ (s.poisonLine line).mem.poison.length) ∧
    (s.poisonLine line).flag Reg.MEM_EVENT 0 = s.flag Reg.MEM_EVENT 0 := by
  unfold Chip.poisonLine
  split
  · next h =>
    rw [Bool.or_eq_true, List.contains_iff_mem, decide_eq_true_eq] at h
    exact ⟨h, rfl⟩
  · exact ⟨.inl (List.mem_append_right _ (List.mem_singleton_self line)), Chip.flag_setFlag_bit _ _ _ (by decide) (by decide)⟩

/-- A line that its one copy cannot give is poisoned, or the list of poisoned lines is full (R572). -/
theorem Chip.scrubAlone_lost {c : Nat} (hlost : lineCount .uncorrectable a ≠ 0) :
    (line ∈ (s.scrubAlone c line a).mem.poison ∨ 1024 ≤ (s.scrubAlone c line a).mem.poison.length) ∧ (s.scrubAlone c line a).flag Reg.MEM_EVENT 0 = true := by
  have heq : s.scrubAlone c line a = (s.checkCopy c line a).poisonLine line := if_neg hlost
  obtain ⟨hline, hevent⟩ := (s.checkCopy c line a).poisonLine_parts (line := line)
  rw [heq]
  exact ⟨hline, hevent.trans (Chip.chanUncorr_parts hlost).1⟩

/-- The even channel of a pair, or the odd one while the roles are exchanged: the copy that is read first. -/
def Chip.firstCopy (s : Chip) (line : Nat) : Nat := if s.isPrimary (2 * (line / 4 % 4)) = true then 2 * (line / 4 % 4) else 2 * (line / 4 % 4) + 1

/-- A line of which both copies are clean: they may differ (R576). -/
theorem ddrScrub_mirrored_clean (h : s.ddrHas (line * 64) 64 = true) (hmode : s.mirrored = true) (hfirst : (s.chan (s.firstCopy line)).serves = true)
    (hsecond : (s.chan (partner (s.firstCopy line))).serves = true) (hlostA : lineCount .uncorrectable a = 0) (hlostB : lineCount .uncorrectable b = 0)
    (hleftA : lineLeft a = 0) (hleftB : lineLeft b = 0) (hcorrA : lineCount .corrected a = 0) (hcorrB : lineCount .corrected b = 0) :
    ddrScrub line a b differ false s = s.demotions (if differ = true then s.mismatch (line / 4 % 4) line else s) := by
  have hcopyA (c : Nat) : s.checkCopy c line a = s := (Chip.checkCopy_sound hlostA).trans (if_pos hcorrA)
  have hcopyB (c : Nat) : s.checkCopy c line b = s := (Chip.checkCopy_sound hlostB).trans (if_pos hcorrB)
  unfold Chip.firstCopy at hfirst hsecond
  unfold ddrScrub
  dsimp only
  rw [if_neg Bool.false_ne_true, if_pos h, if_neg (by simp [hmode]), if_neg (by rw [hfirst]; decide), if_neg (by rw [hsecond]; decide), hlostA, hlostB,
    hcopyA, hcopyB, Chip.ddrTurn_none hleftA, hleftA, hleftB]
  simp

/-- The part does not demote itself where no unit, channel or link has changed its state (R596). -/
theorem Chip.demotions_quiet {s u : Chip} (hciph : u.ciph = s.ciph) (hactive : u.active = s.active) (hsubs : u.subs = s.subs)
    (hstate : ∀ c, (u.chan c).state = (s.chan c).state) : s.demotions u = u := by
  have hlow : u.pairsLow = s.pairsLow := by rw [Chip.pairsLow, Chip.pairsLow, hciph]
  have hlinks : u.linksLost = s.linksLost := by rw [Chip.linksLost, Chip.linksLost, hsubs]
  have hchan : ∀ c, (u.mem.chans.get c).state = (s.mem.chans.get c).state := hstate
  have hddr : u.ddrFailed = s.ddrFailed := by 
    simp only [Chip.ddrFailed, Chip.act, hactive, hchan]
    rfl
  simp only [Chip.demotions, hlow, hddr, hlinks, Bool.and_not_self, Bool.false_eq_true, if_false]

/-- A mismatch counted, raised and logged, before it may mark the secondary (R576). -/
def Chip.mismatchCounted (s : Chip) (p line : Nat) : Chip :=
  ((s.bump Reg.MEM_MISMATCH).raise Reg.MEM_EVENT 1).updMem fun m =>
    { m with mismatches := m.mismatches.set p (((s.mem.mismatches.get p).filter fun m => s.minute < m + 60) ++ [s.minute])
             log := if 64 ≤ m.log.length then m.log else m.log ++ [w64 (line % 1099511627776 + p <<< 40 + 9223372036854775808)] }

theorem Chip.mismatchCounted_parts (p : Nat) : (s.mismatchCounted p line).flag Reg.MEM_EVENT 1 = true ∧
    (s.mismatchCounted p line).mem.chans = s.mem.chans ∧ (s.mismatchCounted p line).ciph = s.ciph ∧ (s.mismatchCounted p line).active = s.active ∧
    (s.mismatchCounted p line).subs = s.subs := by
  have hsubs : (s.bump Reg.MEM_MISMATCH).subs = s.subs := by
    obtain ⟨r, h⟩ := s.bump_eq Reg.MEM_MISMATCH 1
    rw [h]
  unfold Chip.mismatchCounted
  refine ⟨?_, ?_, ?_, ?_, ?_⟩
  · rw [(Chip.updMem_registers _ _).2.2.2]
    exact Chip.flag_raise_self _ _ (by decide)
  · simp only [Chip.updMem, Chip.raise, Chip.setFlag, Chip.setReg_keeps, Chip.bump_keeps]
  · simp only [Chip.updMem, Chip.raise, Chip.setFlag, Chip.setReg_keeps, Chip.bump_keeps]
  · simp only [Chip.updMem, Chip.raise, Chip.setFlag, Chip.setReg_keeps, Chip.bump_keeps]
  · simp only [Chip.updMem, Chip.raise, Chip.setFlag, Chip.setReg_keeps, hsubs]

/-- A SUSPECT channel (R576). -/
def Channel.suspected (x : Channel) : Channel := { x with suspect := true }

/-- A mismatch marks one channel at most, as SUSPECT. -/
theorem Chip.mismatch_eq (p : Nat) : s.mismatch p line = s.mismatchCounted p line ∨
    ∃ second, s.mismatch p line = ((s.mismatchCounted p line).updChan second Channel.suspected).raise Reg.MEM_EVENT 2 := by
  unfold Chip.mismatch
  exact (ite_eq_or_eq _ _ _).symm.imp id fun h => ⟨_, h⟩

/-- A mismatch leaves every channel's state, so that the part does not demote itself for it (R576, R596). -/
theorem Chip.mismatch_parts (p : Nat) : (s.mismatch p line).flag Reg.MEM_EVENT 1 = true ∧ s.demotions (s.mismatch p line) = s.mismatch p line := by
  obtain ⟨hevent, hchans, hciph, hactive, hsubs⟩ := s.mismatchCounted_parts (line := line) p
  have hchan (c : Nat) : (s.mismatchCounted p line).chan c = s.chan c := congrArg (·.get c) hchans
  rcases s.mismatch_eq (line := line) p with h | ⟨second, h⟩
  · rw [h]
    exact ⟨hevent, Chip.demotions_quiet hciph hactive hsubs fun c => congrArg Channel.state (hchan c)⟩
  · rw [h]
    refine ⟨(Chip.flag_setFlag_bit _ _ _ (by decide) (by decide)).trans hevent, Chip.demotions_quiet hciph hactive hsubs fun c => ?_⟩
    exact ((s.mismatchCounted p line).state_updChan second Channel.suspected rfl c).trans (congrArg Channel.state (hchan c))

end

/-! ### Commands on channels (R574, R578, R579, R585, R587) -/

section
variable {s : Chip}

theorem chanCmd_running {op : Nat} {run : Chip → Nat → Nat × Chip} (h : s.mem.command.isSome = true) : s.chanCmd op run = s.raise Reg.MEM_EVENT 6 := if_pos h

/-- The selected channel. -/
def Chip.selChan (s : Chip) : Nat := s.get Reg.MEM_CHAN_SEL 2 0

/-- A command that is taken reports the status that it ends with. -/
theorem chanCmd_idle {op status : Nat} {run : Chip → Nat → Nat × Chip} {y : Chip} (h : s.mem.command = none)
    (hrun : run (s.setField Reg.MEM_CHAN_CMD 2 0 op) s.selChan = (status, y)) : s.chanCmd op run = y.setField Reg.MEM_CHAN_CMD 7 5 status := by
  unfold Chip.selChan at hrun
  unfold Chip.chanCmd
  rw [if_neg (by simp [h])]
  dsimp only
  rw [hrun]

/-- The part with a command's operation shown. -/
def Chip.commanded (s : Chip) (op : Nat) : Chip := s.setField Reg.MEM_CHAN_CMD 2 0 op

/-- A channel taken off line, its partner primary (R578). -/
def Channel.offline (x : Channel) : Channel := { x with state := 1, progress := 0 }

/-- A channel that trains (R579). -/
def Channel.training (x : Channel) : Channel := { x with state := 2 }

/-- A channel that is not SUSPECT any more (R587). -/
def Channel.cleared (x : Channel) : Channel := { x with suspect := false }

/-- The status a command ends with, as MEM_CHAN_CMD reports it. -/
theorem Chip.status_reported (y : Chip) {status : Nat} (h : status < 8) : (y.setField Reg.MEM_CHAN_CMD 7 5 status).get Reg.MEM_CHAN_CMD 7 5 = status :=
  (y.get_setField_self _ _ (by decide)).trans (Nat.mod_eq_of_lt h)

theorem partner_ne (c : Nat) : partner c ≠ c := by
  unfold partner
  split <;> omega

theorem chanOffline_refused (h : s.mem.command = none) (h3 : (s.chan s.selChan).state ≠ 3) (h4 : (s.chan s.selChan).state ≠ 4)
    (h5 : (s.chan s.selChan).state ≠ 5) : chanOffline s = (s.commanded 0).setField Reg.MEM_CHAN_CMD 7 5 4 :=
  chanCmd_idle h (if_pos (by simp [h3, h4, h5]))

theorem chanOffline_alone (h : s.mem.command = none) (h3 : (s.chan s.selChan).state = 3)
    (halone : s.mirrored = false ∨ (s.chan (partner s.selChan)).state ≠ 3) : chanOffline s = (s.commanded 0).setField Reg.MEM_CHAN_CMD 7 5 1 :=
  chanCmd_idle h ((if_neg (by simp [h3])).trans (if_pos (by rcases halone with h | h <;> simp [h])))

theorem chanOffline_done (h : s.mem.command = none) (h3 : (s.chan s.selChan).state = 3) (hmode : s.mirrored = true)
    (hpartner : (s.chan (partner s.selChan)).state = 3) :
    chanOffline s = (((s.commanded 0).updChan s.selChan Channel.offline).makePrimary (partner s.selChan)).setField Reg.MEM_CHAN_CMD 7 5 0 :=
  chanCmd_idle h ((if_neg (by simp [h3])).trans (if_neg (by simp [hmode, hpartner])))

theorem chanOnline_refused (h : s.mem.command = none) (h0 : (s.chan s.selChan).state ≠ 0) (h1 : (s.chan s.selChan).state ≠ 1)
    (h5 : (s.chan s.selChan).state ≠ 5) : chanOnline s = (s.commanded 1).setField Reg.MEM_CHAN_CMD 7 5 4 :=
  chanCmd_idle h (if_pos (by simp [h0, h1, h5]))

/-- The part with a channel's slot supplied and the channel in training (R579, R704). -/
def Chip.trained (s : Chip) (c : Nat) : Chip :=
  let v := (s.updChan c Channel.training).setFlag Reg.MEM_CHAN_CMD 4 true
  { v with isl := { v.isl with dimms := v.isl.dimms ||| 2 ^ c }, mem := { v.mem with command := some c } }

theorem chanOnline_trains (h : s.mem.command = none) (hst : (s.chan s.selChan).state = 0 ∨ (s.chan s.selChan).state = 1 ∨ (s.chan s.selChan).state = 5) :
    chanOnline s = ((s.commanded 1).trained s.selChan).setField Reg.MEM_CHAN_CMD 7 5 0 := by
  refine chanCmd_idle h (if_neg ?_)
  rw [show ((s.setField Reg.MEM_CHAN_CMD 2 0 1).chan s.selChan) = s.chan s.selChan from rfl]
  rcases hst with h | h | h <;> simp [h]

theorem makePrimary_refused (h : s.mem.command = none) (hst : s.mirrored = false ∨ (s.chan s.selChan).state ≠ 3) :
    makePrimary s = (s.commanded 2).setField Reg.MEM_CHAN_CMD 7 5 4 := chanCmd_idle h (if_pos (by rcases hst with h | h <;> simp [h]))

theorem makePrimary_done (h : s.mem.command = none) (hmode : s.mirrored = true) (h3 : (s.chan s.selChan).state = 3) :
    makePrimary s = ((s.commanded 2).makePrimary s.selChan).setField Reg.MEM_CHAN_CMD 7 5 0 := chanCmd_idle h (if_neg (by simp [hmode, h3]))

theorem clearSuspect_refused (h : s.mem.command = none) (hclear : (s.chan s.selChan).suspect = false) :
    clearSuspect s = (s.commanded 3).setField Reg.MEM_CHAN_CMD 7 5 4 := chanCmd_idle h (if_pos (by simpa using hclear))

theorem clearSuspect_done (h : s.mem.command = none) (hsuspect : (s.chan s.selChan).suspect = true) :
    clearSuspect s = (((s.commanded 3).updChan s.selChan Channel.cleared).updMem fun m =>
      { m with mismatches := m.mismatches.set (s.selChan / 2) [] }).setField Reg.MEM_CHAN_CMD 7 5 0 := chanCmd_idle h (if_neg (by simpa using hsuspect))

end

/-! ### Training and resilvering (R577, R579, R580) -/

section
variable {s : Chip} {c : Fin 8}

theorem startupTraining_started {a b : Bool} {g : Fin 256} (h : s.starting = false) : startupTraining c a b g s = trainingDone c a b g s := by
  simp [startupTraining, h]

/-- Nothing comes of a training that is not under way, unless it says that a channel that serves has failed. -/
theorem trainingDone_idle {a b : Bool} {g : Fin 256} (hstart : s.starting = false) (hst : (s.chan c).state ≠ 2) (h : a = true ∨ (s.chan c).serves = false) :
    trainingDone c a b g s = s := by
  unfold trainingDone
  rw [if_pos (by simp [hstart, hst]), if_neg (by rcases h with h | h <;> simp [h])]

theorem trainingDone_fails {b : Bool} {g : Fin 256} (hstart : s.starting = false) (h3 : (s.chan c).state = 3) :
    trainingDone c false b g s = s.demotions (s.chanFail c) := by
  unfold trainingDone
  rw [if_pos (by simp [hstart, h3]), if_pos (by simp [Channel.serves, h3])]

/-- A channel whose DIMM's SPD is refused (R579). -/
def Channel.rejected (capacity : Nat) (x : Channel) : Channel := { x with state := 1, capacity := capacity }

/-- A trained channel: ONLINE, or RESILVERING from its partner (R579). -/
def Channel.joined (state capacity : Nat) (x : Channel) : Channel := { x with state := state, capacity := capacity, progress := 0, suspect := false }

/-- The part with an ONLINE command at its end (R585). -/
def Chip.trainingEnded (s : Chip) (status : Nat) : Chip :=
  ((s.setField Reg.MEM_CHAN_CMD 7 5 status).setFlag Reg.MEM_CHAN_CMD 4 false).updMem fun m => { m with command := none }

theorem Chip.trainingEnded_parts (s : Chip) {status : Nat} (h : status < 8) : (s.trainingEnded status).get Reg.MEM_CHAN_CMD 7 5 = status ∧
    (s.trainingEnded status).flag Reg.MEM_CHAN_CMD 4 = false ∧ (s.trainingEnded status).mem.command = none := by
  unfold Chip.trainingEnded
  refine ⟨?_, ?_, rfl⟩
  · rw [(Chip.updMem_registers _ _).2.2.1, Chip.get_setFlag_bit _ _ _ (by decide) (by decide)]
    exact s.status_reported h
  · rw [(Chip.updMem_registers _ _).2.2.2]
    exact Chip.flag_setFlag_self _ _ _ (by decide)

theorem Chip.trainingEnded_keeps (s : Chip) (status : Nat) : (s.trainingEnded status).mem.chans = s.mem.chans ∧
    (s.trainingEnded status).mem.swapped = s.mem.swapped := ⟨rfl, rfl⟩

theorem trainingDone_rejected {g : Fin 256} (hstart : s.starting = false) (h2 : (s.chan c).state = 2) (hcmd : s.mem.command = some c.val) :
    trainingDone c true false g s = (s.updChan c (Channel.rejected g)).trainingEnded 3 := by
  unfold trainingDone
  rw [if_neg (by simp [h2])]
  simp only [hstart, hcmd, Bool.false_and, Bool.not_true, Bool.not_false, Bool.true_or, Bool.false_eq_true, if_true, if_false]
  rfl

theorem trainingDone_alone {g : Fin 256} (hstart : s.starting = false) (h2 : (s.chan c).state = 2) (hcmd : s.mem.command = some c.val)
    (hmode : s.mirrored = false) : trainingDone c true true g s = (s.updChan c (Channel.joined 3 g)).trainingEnded 0 := by
  unfold trainingDone
  rw [if_neg (by simp [h2])]
  simp only [hstart, hcmd, hmode, Bool.false_and, Bool.not_true, Bool.or_self, Bool.false_eq_true, if_true, if_false]
  rfl

theorem trainingDone_resilvers {g : Fin 256} (hstart : s.starting = false) (h2 : (s.chan c).state = 2) (hcmd : s.mem.command = some c.val)
    (hmode : s.mirrored = true) (hpartner : (s.chan (partner c)).state = 3) (hroom : (s.chan (partner c)).capacity ≤ g.val) :
    trainingDone c true true g s = ((s.updChan c (Channel.joined 4 g)).makePrimary (partner c)).trainingEnded 0 := by
  have hserves : (s.chan (partner c)).serves = true := by simp [Channel.serves, hpartner]
  have hfits : decide (g.val < (s.chan (partner c)).capacity) = false := decide_eq_false (by omega)
  unfold trainingDone
  rw [if_neg (by simp [h2])]
  simp only [hstart, hcmd, hmode, hserves, hfits, Bool.false_and, Bool.and_self, Bool.and_true, Bool.not_true, Bool.not_false, Bool.false_eq_true,
    if_true, if_false]
  rfl

/-- A RESILVERING channel as far as it has come (R579). -/
def Channel.resilvered (progress : Nat) (x : Channel) : Channel := { x with progress := progress }

/-- A channel whose copying is complete (R579). -/
def Channel.restored (x : Channel) : Channel := { x with state := 3, progress := 0 }

theorem resilverDone_moves {p : Fin 1001} (h4 : (s.chan c).state = 4) (hp : p.val ≠ 1000) : resilverDone c p s = s.updChan c (Channel.resilvered p) :=
  (if_neg (by simp [h4])).trans (if_neg hp)

theorem resilverDone_ends {p : Fin 1001} (h4 : (s.chan c).state = 4) (hp : p.val = 1000) :
    resilverDone c p s = ((s.updChan c Channel.restored).makePrimary (partner c)).raise Reg.MEM_EVENT 4 :=
  (if_neg (by simp [h4])).trans (if_pos hp)

end

/-! ### The statement's clauses -/

section
variable {s : State}

/-- The scrubber's word by what W20 makes of it (R570, R572). -/
theorem sramScrub_runs (w : SramWord) (hr : s.chip.running = true) (bad : BitVec 160) (last : Bool) :
    let c := s.chip
    let all := c.sramWrong bad w
    let ends := fun (u : Chip) => if last then u.setField Reg.MEM_SCRUB_STATUS 31 0 (u.get Reg.MEM_SCRUB_STATUS 31 0 + 1) else u
    (w20Check all = .clean → Runs (.sramScrub w bad last) s (ends (c.sramBack (w20Left all) false w))) ∧
    (w20Check all = .corrected → Runs (.sramScrub w bad last) s (ends ((c.bump Reg.MEM_SRAM_CORR).sramBack (w20Left all) true w))) ∧
    (w20Check all = .uncorrectable → Runs (.sramScrub w bad last) s (ends (((c.bump Reg.MEM_SRAM_UNCORR).raise Reg.MEM_EVENT 0).sramLost w))) := by
  refine ⟨fun h => runs_of_core_eq rfl hr ?_, fun h => runs_of_core_eq rfl hr ?_, fun h => runs_of_core_eq rfl hr ?_⟩
  · simp only [sramScrub, h]
  · simp only [sramScrub, h]
  · simp only [sramScrub, h]

/-- A command on a channel while another is under way sets CMD_ERR (R585). -/
theorem chanCommands_running (hr : s.chip.running = true) (h : s.chip.mem.command.isSome = true) :
    Runs .chanOffline s (s.chip.raise Reg.MEM_EVENT 6) ∧ Runs .chanOnline s (s.chip.raise Reg.MEM_EVENT 6) ∧
    Runs .makePrimary s (s.chip.raise Reg.MEM_EVENT 6) ∧ Runs .clearSuspect s (s.chip.raise Reg.MEM_EVENT 6) :=
  ⟨runs_of_core_eq rfl hr (chanCmd_running h), runs_of_core_eq rfl hr (chanCmd_running h), runs_of_core_eq rfl hr (chanCmd_running h),
    runs_of_core_eq rfl hr (chanCmd_running h)⟩

end

/-- Settles O44: a word or line by what W20 makes of it, a command by the state of the selected channel, training by the state of the channel. -/
theorem memoryIsScrubbedAndServed : Obligations.MemoryIsScrubbedAndServed := by
  intro s w ch hr c k pass cmd done beats
  have hscrub := @sramScrub_runs s
  have hother (bad : BitVec 160) := hscrub .other hr bad false
  refine ⟨hscrub w hr, fun j => (hother _).2.1 (w20Check_one_bit j), fun bad h => (hother bad).2.2 h,
    fun i v bad h => ⟨_, (hscrub (.iram i v) hr bad false).2.2 h, List.mem_cons_self, (c.bump_keeps _ _).2.2.1⟩,
    fun line a b differ h => runs_of_core_eq rfl hr (ddrScrub_absent h), fun line a b differ h hmode hcorr hlost hleft => runs_of_core_eq rfl hr ?corrected,
    fun line a b differ hmode hcorr hlost hleft => runs_of_core_eq rfl hr ?clean,
    fun line a b differ h hmode hlost => ⟨_, runs_of_core_eq rfl hr (ddrScrub_independent h hmode), ?poisoned⟩, ?mirrored, chanCommands_running hr,
    fun h => ?commands,
    fun hst hstart a b g h => runs_of_core_eq rfl hr ((startupTraining_started hstart).trans (trainingDone_idle hstart hst h)),
    fun h3 hstart b g => ⟨_, runs_of_core_eq rfl hr ((startupTraining_started hstart).trans (trainingDone_fails hstart h3)), ?failed⟩,
    fun h2 hstart hcmd => ⟨fun g => ?rejected, fun g hmode => ?alone, fun g hmode hpartner hroom => ?resilvers⟩,
    fun hst p => runs_of_core_eq rfl hr (if_pos hst), fun h4 => ⟨fun p hp => ⟨_, runs_of_core_eq rfl hr (resilverDone_moves h4 hp), c.chan_updChan_self ch (Channel.resilvered p), rfl⟩,
      fun p hp => ⟨_, runs_of_core_eq rfl hr (resilverDone_ends h4 hp), c.chan_updChan_self ch Channel.restored, Chip.isPrimary_makePrimary _ _, Chip.flag_raise_self _ _ (by decide)⟩⟩⟩
  case corrected =>
    rw [ddrScrub_independent h hmode, Chip.scrubAlone, if_pos hlost, Chip.checkCopy_sound hlost, if_neg hcorr, Chip.ddrTurn_none hleft]
    obtain ⟨r, hbump⟩ := c.bump_eq (Reg.MEM_CORRc (channelOf (line.toNat / 4)).1) (lineCount .corrected a)
    rw [hbump]
    exact Chip.demotions_quiet rfl rfl rfl fun _ => rfl
  case clean =>
    by_cases h : c.ddrHas (beats line) 64 = true
    · rw [ddrScrub_independent h hmode, Chip.scrubAlone, if_pos hlost, Chip.checkCopy_sound hlost, if_pos hcorr, Chip.ddrTurn_none hleft]
      exact Chip.demotions_quiet rfl rfl rfl fun _ => rfl
    · exact ddrScrub_absent (Bool.eq_false_iff.mpr h)
  case poisoned =>
    obtain ⟨hline, hevent⟩ := c.scrubAlone_lost (c := (channelOf (line.toNat / 4)).1) (line := line.toNat) hlost
    have hself := glkOnly_demotions c (c.scrubAlone (channelOf (line.toNat / 4)).1 line.toNat a)
    exact ⟨by rw [hself.1]; exact hline, (hself.memEvent 0).trans hevent⟩
  case mirrored =>
    intro p first line a b h hmode hfirst hsecond hlostA hlostB hleftA hleftB hcorrA hcorrB
    have hclean (differ : Bool) := ddrScrub_mirrored_clean (differ := differ) h hmode hfirst hsecond hlostA hlostB hleftA hleftB hcorrA hcorrB
    obtain ⟨hevent, hquiet⟩ := c.mismatch_parts (line := line.toNat) (line.toNat / 4 % 4)
    exact ⟨runs_of_core_eq rfl hr ((hclean false).trans (Chip.demotions_quiet rfl rfl rfl fun _ => rfl)),
      _, runs_of_core_eq rfl hr ((hclean true).trans hquiet), hevent, rfl⟩
  case commands =>
    intro st
    refine ⟨fun h3 h4 h5 => runs_of_core_eq rfl hr (chanOffline_refused h h3 h4 h5), fun h3 halone => runs_of_core_eq rfl hr (chanOffline_alone h h3 halone),
      fun h3 hmode hpartner => ⟨_, runs_of_core_eq rfl hr (chanOffline_done h h3 hmode hpartner), ?_, Chip.isPrimary_makePrimary _ _,
        Chip.status_reported _ (by decide), fun j hj => (c.commanded 0).chan_updChan_other k Channel.offline hj⟩,
      fun h0 h1 h5 => runs_of_core_eq rfl hr (chanOnline_refused h h0 h1 h5),
      fun hst => ⟨_, runs_of_core_eq rfl hr (chanOnline_trains h hst), ?_, ?_, rfl, rfl, fun j hj => (c.commanded 1).chan_updChan_other k Channel.training hj⟩,
      fun hst => runs_of_core_eq rfl hr (makePrimary_refused h hst),
      fun hmode h3 => ⟨_, runs_of_core_eq rfl hr (makePrimary_done h hmode h3), Chip.isPrimary_makePrimary _ _, Chip.status_reported _ (by decide), rfl⟩,
      fun hclear => runs_of_core_eq rfl hr (clearSuspect_refused h hclear),
      fun hsuspect => ⟨_, runs_of_core_eq rfl hr (clearSuspect_done h hsuspect), (c.commanded 3).chan_updChan_self k Channel.cleared, ?_,
        Chip.status_reported _ (by decide)⟩⟩
    · exact congrArg Channel.state ((c.commanded 0).chan_updChan_self k Channel.offline)
    · exact congrArg Channel.state ((c.commanded 1).chan_updChan_self k Channel.training)
    · rw [Chip.flag_setField _ _ _ (by decide), if_neg (by decide)]
      exact Chip.flag_setFlag_self _ _ _ (by decide)
    · exact Map.get_set_self c.mem.mismatches (k / 2) []
  case failed =>
    obtain ⟨hst, hrole, hevent, hothers⟩ := c.chanFail_parts ch
    have hself := glkOnly_demotions c (c.chanFail ch)
    exact ⟨by rw [hself.chan]; exact hst, by rw [hself.isPrimary]; exact hrole, (hself.memEvent 3).trans hevent, fun j hj => (hself.chan j).trans (hothers j hj)⟩
  case rejected =>
    obtain ⟨hstatus, hflag, hnone⟩ := (c.updChan ch (Channel.rejected g)).trainingEnded_parts (status := 3) (by decide)
    exact ⟨_, runs_of_core_eq rfl hr ((startupTraining_started hstart).trans (trainingDone_rejected hstart h2 hcmd)), c.chan_updChan_self ch (Channel.rejected g), hstatus, hflag, hnone⟩
  case alone =>
    obtain ⟨hstatus, hflag, hnone⟩ := (c.updChan ch (Channel.joined 3 g)).trainingEnded_parts (status := 0) (by decide)
    exact ⟨_, runs_of_core_eq rfl hr ((startupTraining_started hstart).trans (trainingDone_alone hstart h2 hcmd hmode)), c.chan_updChan_self ch (Channel.joined 3 g), hstatus, hflag, hnone⟩
  case resilvers =>
    obtain ⟨hstatus, -, -⟩ := ((c.updChan ch (Channel.joined 4 g)).makePrimary (partner ch)).trainingEnded_parts (status := 0) (by decide)
    exact ⟨_, runs_of_core_eq rfl hr ((startupTraining_started hstart).trans (trainingDone_resilvers hstart h2 hcmd hmode hpartner hroom)),
      c.chan_updChan_self ch (Channel.joined 4 g), Chip.isPrimary_makePrimary _ _, hstatus⟩

end Sys2Proof.Machine
end

section
/-! The mailboxes (R650 to R654, R696): how a command is taken, answered or refused, and what each command answers. -/
namespace Sys2Proof.Machine
open Sys2Proof.Claim

/-! ### A mailbox's registers -/

/-- The registers of a mailbox are apart from one another and from the host interface's events. -/
theorem mailbox_registers (e : Ep) (i : Fin 4) : Reg.HIF_MB_ARGi e i ≠ Reg.HIF_MB_CMD e ∧ Reg.HIF_MB_STATUS e ≠ Reg.HIF_EVENT ∧
    Reg.HIF_MB_RSP e ≠ Reg.HIF_EVENT ∧ Reg.HIF_MB_RSP e ≠ Reg.HIF_MB_STATUS e ∧ Reg.HIF_MB_RSP e ≠ Reg.HIF_MB_DATA0 e ∧
    Reg.HIF_MB_RSP e ≠ Reg.HIF_MB_DATA1 e ∧ Reg.HIF_MB_DATA0 e ≠ Reg.HIF_EVENT ∧ Reg.HIF_MB_DATA0 e ≠ Reg.HIF_MB_STATUS e ∧
    Reg.HIF_MB_DATA0 e ≠ Reg.HIF_MB_DATA1 e := by
  revert e i
  decide

section
variable (s : Chip) (e : Ep) (seq status : Nat) (d0 d1 : W64)

theorem Chip.mbAnswer_keeps : (s.mbAnswer e seq status d0 d1).isl = s.isl ∧ (s.mbAnswer e seq status d0 d1).hif = s.hif := ⟨rfl, rfl⟩

/-- What a mailbox shows of an answer (R650). -/
theorem Chip.mbAnswer_parts : (s.mbAnswer e seq status d0 d1).reg (Reg.HIF_MB_RSP e) = w64 (status + seq <<< 8) ∧
    (s.mbAnswer e seq status d0 d1).reg (Reg.HIF_MB_DATA0 e) = d0 ∧ (s.mbAnswer e seq status d0 d1).flag (Reg.HIF_MB_STATUS e) 27 = true ∧
    (s.mbAnswer e seq status d0 d1).flag Reg.HIF_EVENT 6 = true := by
  obtain ⟨-, hevent, hrspEvent, hrspStatus, hrsp0, hrsp1, h0Event, h0Status, h01⟩ := mailbox_registers e 0
  unfold Chip.mbAnswer
  refine ⟨?_, ?_, ?_, Chip.flag_raise_self _ _ (by decide)⟩
  · rw [Chip.raise, Chip.setFlag, Chip.reg_setReg_other _ _ hrspEvent, Chip.setFlag, Chip.reg_setReg_other _ _ hrspStatus, Chip.reg_setReg_other _ _ hrsp1,
      Chip.reg_setReg_other _ _ hrsp0, Chip.reg_setReg_self]
  · rw [Chip.raise, Chip.setFlag, Chip.reg_setReg_other _ _ h0Event, Chip.setFlag, Chip.reg_setReg_other _ _ h0Status, Chip.reg_setReg_other _ _ h01,
      Chip.reg_setReg_self]
  · rw [Chip.raise, Chip.flag_setFlag_reg _ _ _ _ hevent]
    exact Chip.flag_setFlag_self _ _ _ (by decide)

/-! ### Commands -/

/-- The part with a command's OP and SEQ kept (R650). -/
def Chip.mbBegun (op : Nat) : Chip := s.setReg (Reg.HIF_MB_CMD e) (w64 (op + seq <<< 8))

/-- A command's arguments are as they were written. -/
theorem Chip.argReg_mbBegun (op : Nat) {i : Nat} (hi : i < 4) : (s.mbBegun e seq op).reg (Reg.HIF_MB_ARGi e i) = s.reg (Reg.HIF_MB_ARGi e i) :=
  Chip.reg_setReg_other _ _ (mailbox_registers e ⟨i, hi⟩).1

theorem Chip.mbArg_mbBegun (op : Nat) {i : Nat} (hi : i < 4) : (s.mbBegun e seq op).mbArg e i = s.mbArg e i :=
  congrArg BitVec.toNat (s.argReg_mbBegun e seq op hi)

end

/-- A command of a mailbox is carried out by `mbRun` while the core runs. -/
def IsMailbox (i : Instr) (e : Ep) (seq : Byte) (op : Nat) (run : Chip → Nat × W64 × W64 × Chip) : Prop :=
  ∀ s : State, exec i s = s.core fun c => c.mbRun e seq.toNat op run

section
variable {i : Instr} {s : State} {e : Ep} {seq : Byte} {op : Nat} {run : Chip → Nat × W64 × W64 × Chip}

/-- A command while another is under way sets CMD_ERR. -/
theorem IsMailbox.runs_busy (hi : IsMailbox i e seq op run) (hr : s.chip.running = true) (h : s.chip.flag (Reg.HIF_MB_CMD e) 17 = true) :
    Runs i s (s.chip.raise Reg.HIF_EVENT 8) := runs_of_core_eq (hi s) hr (if_pos h)

/-- A command that is taken is answered with what it comes to. -/
theorem IsMailbox.runs {status : Nat} {d0 d1 : W64} {y : Chip} (hi : IsMailbox i e seq op run) (hr : s.chip.running = true)
    (hfree : s.chip.flag (Reg.HIF_MB_CMD e) 17 = false) (hin : s.chip.isl.inReset = false) (hrun : run (s.chip.mbBegun e seq.toNat op) = (status, d0, d1, y)) :
    Runs i s (y.mbAnswer e seq.toNat status d0 d1) := by
  unfold Chip.mbBegun at hrun
  refine runs_of_core_eq (hi s) hr ?_
  unfold Chip.mbRun
  rw [if_neg (by simp [hfree])]
  dsimp only
  rw [if_neg (by simp [hin]), hrun]

end

section
variable {s : Chip} {e : Nat} {x : LongOp}

theorem mbLong_busy (h : s.hif.long.isSome = true) : s.mbLong e x = (4, 0, 0, s) := if_pos h

/-- A long operation of a mailbox starts where none runs, with the next TOKEN (R652). -/
theorem mbLong_free (h : s.hif.long = none) : ∃ y, s.mbLong e x = (1, w64 ((s.hif.token + 1) % 4294967296), 0, y) ∧
    y.hif.long = some { x with by_ := .mailbox e, token := (s.hif.token + 1) % 4294967296 } :=
  ⟨_, if_neg (by simp [h]), rfl⟩

end

/-- A command that starts a long operation is answered with STARTED and its TOKEN (R652). -/
theorem IsMailbox.starts {i : Instr} {s : State} {e : Ep} {seq : Byte} {op : Nat} {run : Chip → Nat × W64 × W64 × Chip} {x : LongOp}
    (hi : IsMailbox i e seq op run) (hr : s.chip.running = true) (hfree : s.chip.flag (Reg.HIF_MB_CMD e) 17 = false) (hin : s.chip.isl.inReset = false)
    (hnone : s.chip.hif.long = none) (hrun : run (s.chip.mbBegun e seq.toNat op) = (s.chip.mbBegun e seq.toNat op).mbLong e x) :
    ∃ y, Runs i s y ∧ y.hif.long = some { x with by_ := .mailbox e, token := (s.chip.hif.token + 1) % 4294967296 } ∧
      y.reg (Reg.HIF_MB_RSP e) = w64 (1 + seq.toNat <<< 8) ∧ y.reg (Reg.HIF_MB_DATA0 e) = w64 ((s.chip.hif.token + 1) % 4294967296) := by
  obtain ⟨y, hy, hlong⟩ := mbLong_free (s := s.chip.mbBegun e seq.toNat op) (e := e) (x := x) hnone
  obtain ⟨hrsp, hdata, -, -⟩ := y.mbAnswer_parts e seq.toNat 1 (w64 ((s.chip.hif.token + 1) % 4294967296)) 0
  exact ⟨_, hi.runs hr hfree hin (hrun.trans hy), hlong, hrsp, hdata⟩

/-- The arguments of FLASH_WRITE that are in range (R653). -/
theorem flashWrite_inRange {slot n : Nat} (hslot : slot ≤ 1) (h1 : 1 ≤ n) (hmax : n ≤ 0x200000) :
    ¬(decide (1 < slot) || decide (n = 0) || decide (0x200000 < n)) = true := by
  simp only [Bool.or_eq_true, decide_eq_true_eq]
  omega

/-- Data are cut, or filled with zeros, to the length that a FLASH_WRITE names. -/
theorem length_dataOf (l : List Byte) (n : Nat) : ((l ++ List.replicate (n - l.length) 0).take n).length = n := by
  rw [List.length_take, List.length_append, List.length_replicate]
  omega

/-- Settles O47: a busy mailbox by its BUSY bit, every other command by what `mbRun` runs for it, a read of the answer by the bit that it clears. -/
theorem mailboxesAnswer : Obligations.MailboxesAnswer := by
  intro s e seq hr c begun answers
  refine ⟨fun h => ⟨IsMailbox.runs_busy (fun _ => rfl) hr h, IsMailbox.runs_busy (fun _ => rfl) hr h, IsMailbox.runs_busy (fun _ => rfl) hr h,
    IsMailbox.runs_busy (fun _ => rfl) hr h, IsMailbox.runs_busy (fun _ => rfl) hr h, IsMailbox.runs_busy (fun _ => rfl) hr h⟩, fun hfree hin => ?taken,
    ⟨_, runs_of_core_eq rfl hr rfl, rfl, Chip.flag_setFlag_self _ _ _ (by decide), fun a ha => Chip.reg_setReg_other _ _ ha⟩,
    ⟨_, runs_of_core_eq rfl hr rfl, rfl, Chip.flag_setFlag_self _ _ _ (by decide)⟩⟩
  have harg (op : Nat) {i : Nat} (hi : i < 4) : (c.mbBegun e seq.toNat op).mbArg e i = c.mbArg e i := c.mbArg_mbBegun e seq.toNat op hi
  have h0 (op : Nat) := harg op (i := 0) (by decide)
  have h1 (op : Nat) := harg op (i := 1) (by decide)
  have h2 (op : Nat) := harg op (i := 2) (by decide)
  have hidle (hlong : c.hif.long = none) : ¬c.hif.long.isSome = true := by simp [hlong]
  obtain ⟨hrsp, hdata, hnotify, hdone⟩ := (c.mbBegun e seq.toNat 1).mbAnswer_parts e seq.toNat 0 0 0
  rw [Nat.zero_add] at hrsp
  refine ⟨⟨_, IsMailbox.runs (fun _ => rfl) hr hfree hin rfl, hrsp, hdata, hnotify, hdone, rfl⟩, IsMailbox.runs (fun _ => rfl) hr hfree hin rfl,
    IsMailbox.runs (fun _ => rfl) hr hfree hin rfl,
    fun h ok => IsMailbox.runs (fun _ => rfl) hr hfree hin ?logBad, fun hmin h256 => IsMailbox.runs (fun _ => rfl) hr hfree hin ?logFailed,
    fun hmin h256 hbme => IsMailbox.runs (fun _ => rfl) hr hfree hin ?logSent,
    fun h => ⟨fun data => IsMailbox.runs (fun _ => rfl) hr hfree hin ?writeBad, IsMailbox.runs (fun _ => rfl) hr hfree hin ?checkBad⟩,
    fun h hlong => IsMailbox.runs (fun _ => rfl) hr hfree hin ?checkBusy, fun h hmin hmax hlong data => IsMailbox.runs (fun _ => rfl) hr hfree hin ?writeBusy,
    fun h hmin hmax hlong hguard data => IsMailbox.runs (fun _ => rfl) hr hfree hin ?writeGuarded, fun data h hmin hmax hlong hguard => ?writeStarts,
    fun ok h256 h4096 hlong => ?logStarts, fun h hlong => ?checkStarts, IsMailbox.runs (fun _ => rfl) hr hfree hin ?reset, IsMailbox.runs (fun _ => rfl) hr hfree hin rfl⟩
  case logBad =>
    dsimp only
    rw [h1]
    exact if_pos (by simpa using h)
  case logFailed =>
    dsimp only
    rw [h1]
    exact (if_neg (by simp; omega)).trans ((if_neg (by omega)).trans (if_pos rfl))
  case logSent =>
    have hbme' : ((c.mbBegun e seq.toNat 4).endpoint e).bme = true := hbme
    dsimp only
    rw [h0, h1, h2]
    exact (if_neg (by simp; omega)).trans ((if_neg (by omega)).trans (if_neg (by rw [hbme']; decide)))
  case writeBad =>
    dsimp only
    rw [h0]
    exact if_pos (by simp [h])
  case checkBad =>
    rw [h0]
    exact if_pos h
  case checkBusy =>
    rw [h0]
    exact (if_neg (by omega)).trans (mbLong_busy hlong)
  case writeBusy =>
    dsimp only
    rw [h0, h2]
    exact (if_neg (flashWrite_inRange h hmin hmax)).trans (if_pos hlong)
  case writeGuarded =>
    dsimp only
    rw [h0, h2]
    exact (if_neg (flashWrite_inRange h hmin hmax)).trans ((if_neg (hidle hlong)).trans (if_pos hguard))
  case writeStarts =>
    obtain ⟨y, hy, hop, hrsp, htoken⟩ := IsMailbox.starts (i := .mbFlashWrite e seq data) (fun _ => rfl) hr hfree hin hlong
      (x := { op := 5, arg := c.mbArg e 0, arg1 := c.mbArg e 1, arg2 := c.mbArg e 2, dmaOk := data.isSome && (c.endpoint e).bme
              bytes := (data.getD [] ++ List.replicate (c.mbArg e 2 - (data.getD []).length) 0).take (c.mbArg e 2) })
      (by
        dsimp only
        rw [h0, h1, h2]
        exact (if_neg (flashWrite_inRange h hmin hmax)).trans ((if_neg (hidle hlong)).trans (if_neg (Bool.eq_false_iff.mp hguard))))
    refine ⟨y, hy, ?_, hrsp, htoken⟩
    rw [hop, Option.map_some, length_dataOf]
  case logStarts =>
    obtain ⟨y, hy, hop, hrsp, -⟩ := IsMailbox.starts (i := .mbLogRead e seq ok) (fun _ => rfl) hr hfree hin hlong
      (x := { op := 4, arg := c.mbArg e 0, arg1 := c.mbArg e 1, arg2 := c.mbArg e 2, dmaOk := ok && (c.endpoint e).bme })
      (by dsimp only; rw [h0, h1, h2]; exact (if_neg (by simp; omega)).trans (if_pos h256))
    exact ⟨y, hy, by rw [hop]; rfl, hrsp⟩
  case checkStarts =>
    exact IsMailbox.starts (fun _ => rfl) hr hfree hin hlong (x := { op := 6, arg := c.mbArg e 0 }) (by rw [h0]; exact if_neg (by omega))
  case reset =>
    dsimp only
    rw [c.argReg_mbBegun e seq.toNat 7 (by decide)]
    rfl

end Sys2Proof.Machine
end

section
/-! Rings, vectors and endpoints (R629 to R649): how posted descriptors are given, filled and written back, and what a reset of a function clears. -/
namespace Sys2Proof.Machine
open Sys2Proof.Claim

/-! ### A table changed twice at one key -/

section
variable {α : Type}

theorem Map.drop_drop (m : Map α) (k : Nat) : (m.drop k).drop k = m.drop k := by
  induction m with
  | nil => rfl
  | cons e m ih =>
    obtain ⟨j, v⟩ := e
    by_cases hj : j = k
    · rw [Map.drop, if_pos hj, ih]
    · rw [Map.drop, if_neg hj, Map.drop, if_neg hj, ih]

theorem Map.drop_insert (m : Map α) (k : Nat) (x : α) : (m.insert k x).drop k = m.drop k := by
  induction m with
  | nil => exact if_pos rfl
  | cons e m ih =>
    obtain ⟨j, v⟩ := e
    unfold Map.insert
    split
    · exact if_pos rfl
    · rw [Map.drop, Map.drop, ih]

variable [DecidableEq α]

theorem Map.put_put (d : Nat → α) (m : Map α) (k : Nat) (x y : α) : (m.put d k x).put d k y = m.put d k y := by
  have hdrop : (m.put d k x).drop k = m.drop k := by
    unfold Map.put
    split
    · exact m.drop_drop k
    · rw [Map.drop_insert, Map.drop_drop]
  rw [Map.put, hdrop]
  rfl

theorem Map.upd_upd [Inhabited α] (m : Map α) (k : Nat) (f g : α → α) : (m.upd k f).upd k g = m.upd k (g ∘ f) := by
  rw [Map.upd, Map.get_upd_self]
  exact Map.put_put _ m k _ _

end

/-! ### Rings -/

section
variable (s : Chip) (r : Nat)

theorem Chip.ring_updRing_self (f : Ring → Ring) : (s.updRing r f).ring r = f (s.ring r) := Map.get_upd_self s.rings r f

theorem Chip.ring_updRing_other (f : Ring → Ring) {k : Nat} (h : k ≠ r) : (s.updRing r f).ring k = s.ring k := Map.get_set_other s.rings _ h

theorem Chip.updRing_updRing (f g : Ring → Ring) : (s.updRing r f).updRing r g = s.updRing r (g ∘ f) := by
  rw [Chip.updRing, Chip.updRing, Map.upd_upd]
  rfl

@[simp] theorem Chip.ring_bump (a n : Nat) : (s.bump a n).ring r = s.ring r := by
  obtain ⟨x, h⟩ := s.bump_eq a n
  rw [h]
  rfl

theorem Chip.out_bump (a n : Nat) : (s.bump a n).out = s.out := by
  obtain ⟨x, h⟩ := s.bump_eq a n
  rw [h]

theorem Chip.subs_bump (a n : Nat) : (s.bump a n).subs = s.subs := by
  obtain ⟨x, h⟩ := s.bump_eq a n
  rw [h]

/-- The descriptors of a ring that HIF has taken and not written back. -/
def Chip.ringTaken : Nat := ((s.ring r).open_.map fun o => o.descs.length).sum

/-- How far a TAIL lies ahead of a ring's HEAD (R635). -/
def Chip.tailAhead (tail : Nat) : Nat := (tail + 65536 - (s.ring r).head) % 65536

variable {s r} {tail : Nat} {descs : List Desc}

theorem tailWrite_refused (h : s.ringSize r < s.tailAhead r tail) : s.tailWrite r tail descs = s.raise Reg.HIF_EVENT 1 := if_pos h

/-- A TAIL beyond no more than the descriptors that the host wrote gives HIF those, after the ones that it keeps. -/
theorem tailWrite_taken (h : s.tailAhead r tail ≤ s.ringSize r) (hgiven : s.tailAhead r tail - s.ringTaken r - (s.ring r).posted.length ≤ descs.length) :
    s.tailWrite r tail descs = s.tick.2.updRing r fun y =>
      { y with tail := tail, posted := y.posted.take (s.tailAhead r tail - s.ringTaken r)
        ++ descs.take (s.tailAhead r tail - s.ringTaken r - (s.ring r).posted.length) } := by
  have hopen : s.tailAhead r tail - s.ringTaken r - (s.ring r).posted.length
      - (descs.take (s.tailAhead r tail - s.ringTaken r - (s.ring r).posted.length)).length = 0 := by
    rw [List.length_take]
    omega
  refine (if_neg (Nat.not_lt.mpr h)).trans (congrArg (s.tick.2.updRing r) (funext fun y => ?_))
  unfold Chip.tailAhead Chip.ringTaken at hopen ⊢
  rw [hopen, List.range_zero, List.map_nil, List.append_nil]

/-- Where the host wrote each descriptor up to the TAIL, all of them are posted (R635). -/
theorem tailWrite_given (h : s.tailAhead r tail ≤ s.ringSize r) (hlen : (s.ring r).posted.length + s.ringTaken r + descs.length = s.tailAhead r tail) :
    (s.tailWrite r tail descs).ring r = { s.ring r with tail := tail, posted := (s.ring r).posted ++ descs } ∧
      (∀ k, k ≠ r → (s.tailWrite r tail descs).ring k = s.ring k) ∧ (s.tailWrite r tail descs).regs = s.regs := by
  rw [tailWrite_taken h (by omega)]
  refine ⟨?_, fun k hk => Chip.ring_updRing_other _ r _ hk, rfl⟩
  rw [Chip.ring_updRing_self, List.take_of_length_le (l := descs) (by omega)]
  have hkept : (s.ring r).posted.take (s.tailAhead r tail - s.ringTaken r) = (s.ring r).posted := List.take_of_length_le (by omega)
  exact congrArg (fun l => { s.ring r with tail := tail, posted := l ++ descs }) hkept

/-- A TAIL that goes back keeps the first of the posted descriptors (R635). -/
theorem tailWrite_back (h : s.tailAhead r tail ≤ s.ringSize r) (hlen : s.tailAhead r tail ≤ s.ringTaken r + (s.ring r).posted.length) :
    (s.tailWrite r tail descs).ring r =
      { s.ring r with tail := tail, posted := (s.ring r).posted.take (s.tailAhead r tail - s.ringTaken r) } := by
  have hnone : s.tailAhead r tail - s.ringTaken r - (s.ring r).posted.length = 0 := by omega
  rw [tailWrite_taken h (by omega), Chip.ring_updRing_self, hnone]
  exact congrArg (fun l => { s.ring r with tail := tail, posted := l }) (List.append_nil _)

/-! ### Settings (R637) -/

theorem Chip.clearRing_self (s : Chip) (r : Nat) : (s.clearRing r).ring r = {} := Chip.ring_updRing_self _ _ _

variable {v : W64}

theorem ringCfgWrite_base (h : bit (s.ringReg s.selRing 1) 0 = false) :
    ringCfgWrite true v s = s.setReg (Cell.hifRing s.selRing 0) (w64 (fld v 63 12 <<< 12)) := if_neg (Bool.eq_false_iff.mp h)

theorem ringCfgWrite_base_enabled (h : bit (s.ringReg s.selRing 1) 0 = true) : ringCfgWrite true v s = s.raise Reg.HIF_EVENT 2 := if_pos h

theorem ringCfgWrite_fixed (h : bit (s.ringReg s.selRing 1) 0 = true)
    (hfld : fld (s.ringReg s.selRing 1) 5 1 ≠ fld (s.ringCfgAfter (s.ringReg s.selRing 1) v) 5 1) : ringCfgWrite false v s = s.raise Reg.HIF_EVENT 2 :=
  if_pos (by simp [h, hfld])

theorem ringCfgWrite_stopped (h : bit (s.ringReg s.selRing 1) 0 = false) (hnew : bit (s.ringCfgAfter (s.ringReg s.selRing 1) v) 0 = false) :
    ringCfgWrite false v s = s.setReg (Cell.hifRing s.selRing 1) (s.ringCfgAfter (s.ringReg s.selRing 1) v) :=
  (if_neg (by simp [h])).trans (if_neg (by simp [hnew]))

theorem ringCfgWrite_started (h : bit (s.ringReg s.selRing 1) 0 = false) (hnew : bit (s.ringCfgAfter (s.ringReg s.selRing 1) v) 0 = true) :
    ringCfgWrite false v s = (s.setReg (Cell.hifRing s.selRing 1) (s.ringCfgAfter (s.ringReg s.selRing 1) v)).clearRing s.selRing :=
  (if_neg (by simp [h])).trans (if_pos (by simp [h, hnew]))

end

/-! ### Write-backs (R636) -/

section
variable (s : Chip) (r : Nat)

/-- One descriptor written back at HEAD. -/
theorem Chip.writeBack_one (d : Desc) : (s.writeBack r [d]).out =
      .dma (s.ringEp r) ((s.ringReg r 0).toNat + 32 * ((s.ring r).head % s.ringSize r)) (descBytes d) :: s.out ∧
    (s.writeBack r [d]).regs = s.regs ∧
    ∃ n t, (s.writeBack r [d]).ring r = { s.ring r with head := ((s.ring r).head + 1) % 65536, unsignalled := n, oldest := t } :=
  ⟨rfl, rfl, _, _, Chip.ring_updRing_self _ _ _⟩

end

/-! ### Receive (R638 to R642) -/

section
variable {s : Chip} {ring : Fin 4096} {it : RxItem} {rest : List RxItem}

theorem rxDeliver_none (hin : (s.ring (ringKey 0 ring)).inbox = []) (hframe : s.hostFrame ring = none) : rxDeliver ring s = s := by
  unfold rxDeliver
  dsimp only
  rw [hin, hframe]

theorem rxDeliver_waits (hin : (s.ring (ringKey 0 ring)).inbox = it :: rest) (hbme : (s.endpoint (s.ringEp (ringKey 0 ring))).bme = false) :
    rxDeliver ring s = s := by
  unfold rxDeliver
  dsimp only
  rw [hin]
  exact if_pos (by rw [hbme]; rfl)

theorem rxDeliver_writes (hin : (s.ring (ringKey 0 ring)).inbox = it :: rest) (hbme : (s.endpoint (s.ringEp (ringKey 0 ring))).bme = true) :
    rxDeliver ring s = (s.updRing (ringKey 0 ring) fun x => { x with inbox := rest }).rxWrite (ringKey 0 ring) it := by
  unfold rxDeliver
  dsimp only
  rw [hin]
  exact if_neg (by rw [hbme]; decide)

theorem rxDeliver_forward_paused {ch k : Nat} {x : TmFrame} (hin : (s.ring (ringKey 0 ring)).inbox = []) (hframe : s.hostFrame ring = some (ch, k, x))
    (hruns : s.ringRuns (ringKey 0 ring) = false) :
    rxDeliver ring s = (s.updTm fun t => { t with egress := t.egress.upd ch (·.eraseIdx k) }).rxDrop (ringKey 0 ring) (forwardedItem x) := by
  unfold rxDeliver
  dsimp only
  rw [hin, hframe]
  exact if_neg (Bool.eq_false_iff.mp hruns)

/-- An item that finds no buffer is dropped (R641). -/
theorem Chip.rxWrite_none (r : Nat) (h : (s.ring r).posted = []) : s.rxWrite r it = s.rxDrop r it := by
  unfold Chip.rxWrite
  dsimp only
  rw [h]
  rfl

/-- An item that one posted buffer holds (R639). -/
def Chip.rxOneBuffer (s : Chip) (r : Nat) (it : RxItem) (d : Desc) : Chip :=
  (((s.emit (.dma (s.ringEp r) d.w3.toNat it.data)).updRing r fun y => { y with posted := y.posted.drop 1 }).writeBack r
    [rxDone it d it.data.length true true false false])

theorem fillChunks_one {d : Desc} (ds : List Desc) {l : List Byte} (hne : l ≠ []) (hlen : l.length ≤ fld d.w2 15 0) :
    fillChunks (d :: ds) l = [(d, l)] := by
  rw [fillChunks, if_neg hne, List.take_of_length_le hlen, List.drop_of_length_le hlen]
  cases ds with
  | nil => rfl
  | cons e es => rw [fillChunks, if_pos rfl]

theorem Chip.rxWrite_one (r : Nat) {d : Desc} {ds : List Desc} (h : (s.ring r).posted = d :: ds) (hne : it.data ≠ [])
    (hlen : it.data.length ≤ fld d.w2 15 0) (hheld : it.held = none) (hframe : it.frame = none) :
    s.rxWrite r it = ((s.rxOneBuffer r it d).bump (Cell.hifRing r 3)).bump (Cell.hifRing r 4) it.data.length := by
  unfold Chip.rxWrite Chip.rxGone
  dsimp only
  rw [h, fillChunks_one ds hne hlen, hheld, hframe]
  have hwhole : decide ((([(d, it.data)] : List (Desc × List Byte)).map fun p => p.2.length).sum < it.data.length) = false := by simp
  rw [hwhole]
  rfl

theorem Chip.rxOneBuffer_parts (r : Nat) {d : Desc} {ds : List Desc} (h : (s.ring r).posted = d :: ds) :
    ((s.rxOneBuffer r it d).ring r).posted = ds ∧ ((s.rxOneBuffer r it d).ring r).inbox = (s.ring r).inbox ∧
      ((s.rxOneBuffer r it d).ring r).head = ((s.ring r).head + 1) % 65536 ∧
      (s.rxOneBuffer r it d).out = .dma (s.ringEp r) ((s.ringReg r 0).toNat + 32 * ((s.ring r).head % s.ringSize r))
        (descBytes (rxDone it d it.data.length true true false false)) :: .dma (s.ringEp r) d.w3.toNat it.data :: s.out := by
  obtain ⟨hout, -, n, t, hring⟩ := ((s.emit (.dma (s.ringEp r) d.w3.toNat it.data)).updRing r fun y => { y with posted := y.posted.drop 1 }).writeBack_one r
    (rxDone it d it.data.length true true false false)
  have hposted := (s.emit (.dma (s.ringEp r) d.w3.toNat it.data)).ring_updRing_self r fun y => { y with posted := y.posted.drop 1 }
  rw [hposted] at hout hring
  unfold Chip.rxOneBuffer
  rw [hring, hout]
  exact ⟨congrArg (List.drop 1) h, rfl, rfl, rfl⟩

end

/-! ### Transmit (R643 to R646) -/

section
variable {s : Chip} {ring : Fin 4096} {l : List Desc}

/-- A transmit ring whose run has been taken, with the status that is known of it. -/
def Chip.runTaken (s : Chip) (r : Nat) (l : List Desc) (status : Nat) : Chip :=
  s.updRing r fun x => { x with posted := x.posted.drop l.length, open_ := x.open_ ++ [{ descs := l, timed := false, status := some status }] }

theorem Chip.runTaken_eq (s : Chip) (r : Nat) (l : List Desc) (status : Nat) :
    ((s.updRing r fun x => { x with posted := x.posted.drop l.length }).updRing r fun x =>
      { x with open_ := x.open_ ++ [{ descs := l, timed := false, status := some status }] }) = s.runTaken r l status := s.updRing_updRing r _ _

theorem txFetch_none (h : s.ringRuns (ringKey 1 ring) = false ∨ nextRun (s.ring (ringKey 1 ring)).posted = none) (data : Option (List Byte)) :
    txFetch ring data s = s := by
  unfold txFetch
  dsimp only
  split
  · rfl
  · next hruns =>
    have hruns' : s.ringRuns (ringKey 1 ring) = true := by simpa using hruns
    rw [h.resolve_left (by rw [hruns']; decide)]

variable (hruns : s.ringRuns (ringKey 1 ring) = true) (hrun : nextRun (s.ring (ringKey 1 ring)).posted = some l)
include hruns hrun

theorem txFetch_badDesc (hok : runOk l = false) (data : Option (List Byte)) :
    txFetch ring data s = (s.runTaken (ringKey 1 ring) l 4).raise Reg.HIF_EVENT 5 := by
  unfold txFetch
  dsimp only
  rw [hrun]
  refine (if_neg (by simp [hruns])).trans ((if_pos (by simp [hok])).trans ?_)
  rw [Chip.runTaken_eq]

theorem txFetch_unread (hok : runOk l = true) : txFetch ring none s = (s.runTaken (ringKey 1 ring) l 5).raise Reg.HIF_EVENT 3 := by
  unfold txFetch
  dsimp only
  rw [hrun]
  refine (if_neg (by simp [hruns])).trans ((if_neg (by simp [hok])).trans ?_)
  rw [Chip.runTaken_eq]

theorem txFetch_noRoom (hok : runOk l = true) (bytes : List Byte)
    (hroom : s.freeCells < fld (s.act Reg.TM_BUF_CFG) 19 0 + 64 + cellsOf (runBytes l)) : txFetch ring (some bytes) s = s := by
  unfold txFetch
  dsimp only
  rw [hrun]
  exact (if_neg (by simp [hruns])).trans ((if_neg (by simp [hok])).trans (if_pos hroom))

theorem txFetch_enters (hok : runOk l = true) {bytes : List Byte} (hlen : bytes.length = runBytes l) (htimed : bit (l.headD {}).w0 19 = false)
    (hroom : fld (s.act Reg.TM_BUF_CFG) 19 0 + 64 + cellsOf (runBytes l) ≤ s.freeCells) : txFetch ring (some bytes) s =
      ((s.runTaken (ringKey 1 ring) l 0).takeCells (cellsOf (runBytes l))).enterPipe (2 * fld (s.ringReg (ringKey 1 ring) 1) 43 42)
        (s.txFrame ring (l.headD {}) bytes) := by
  have hbody : (bytes ++ List.replicate (runBytes l - bytes.length) 0).take (runBytes l) = bytes := by
    rw [hlen, Nat.sub_self, List.replicate_zero, List.append_nil, ← hlen, List.take_length]
  unfold txFetch
  dsimp only
  rw [hrun]
  refine (if_neg (by simp [hruns])).trans ((if_neg (by simp [hok])).trans ((if_neg (Nat.not_lt.mpr hroom)).trans ?_))
  rw [hbody, htimed, if_neg Bool.false_ne_true, Chip.runTaken_eq]

end

section
variable {s : Chip} {ring : Fin 4096} {o : TxOpen} {rest : List TxOpen}

theorem txWriteback_none (h : (s.ring (ringKey 1 ring)).open_ = []) : txWriteback ring s = s := by
  unfold txWriteback
  dsimp only
  rw [h]

variable (h : (s.ring (ringKey 1 ring)).open_ = o :: rest)
include h

theorem txWriteback_waits (hstatus : o.status = none) : txWriteback ring s = s := by
  unfold txWriteback
  dsimp only
  rw [h]
  dsimp only
  rw [hstatus]

/-- A run refused by BAD_DESC is written back and not counted (R644, R646). -/
theorem txWriteback_badDesc (hstatus : o.status = some 4) (hbme : (s.endpoint (s.ringEp (ringKey 1 ring))).bme = true) :
    txWriteback ring s = (s.updRing (ringKey 1 ring) fun x => { x with open_ := rest }).writeBack (ringKey 1 ring) (o.descs.map (txDone 4)) := by
  unfold txWriteback
  dsimp only
  rw [h]
  dsimp only
  rw [hstatus]
  exact if_neg (by simp [hbme])

end

/-! ### Vectors (R648, R649) -/

section
variable {s : Chip}

theorem modTimeout_not {b : Bool} {ring : Fin 4096} (h : (s.ring (ringKey (ofBool b) ring)).unsignalled = 0 ∨ s.ringAged (ringKey (ofBool b) ring) = false) :
    modTimeout b ring s = s := if_neg (by rcases h with h | h <;> simp [h])

theorem modTimeout_due {b : Bool} {ring : Fin 4096} (h : (s.ring (ringKey (ofBool b) ring)).unsignalled ≠ 0)
    (haged : s.ringAged (ringKey (ofBool b) ring) = true) : modTimeout b ring s = s.updRing (ringKey (ofBool b) ring) fun y => { y with due := true } :=
  if_pos (by simp [h, haged])

variable {v : Nat}

theorem Chip.vectorTry_quiet (h : s.hif.disarmed.get v = true ∨ s.vectorActive v = false) : s.vectorTry v = s :=
  if_pos (by rcases h with h | h <;> simp [h])

theorem Chip.vectorTry_masked (harmed : s.hif.disarmed.get v = false) (hactive : s.vectorActive v = true) (hmask : s.hif.unmasked.get v = false) :
    s.vectorTry v = s.updHif fun h => { h with pending := h.pending.set v true } := (if_neg (by simp [harmed, hactive])).trans (if_pos (by simp [hmask]))

theorem Chip.vectorTry_fires (harmed : s.hif.disarmed.get v = false) (hactive : s.vectorActive v = true) (hmask : s.hif.unmasked.get v = true) :
    s.vectorTry v = s.vectorFire v := (if_neg (by simp [harmed, hactive])).trans (if_neg (by simp [hmask]))

/-- Rings changed one after the other change nothing else. -/
theorem Chip.foldl_updRing_parts (f : Ring → Ring) (l : List Nat) : ∀ u : Chip, (l.foldl (fun u r => u.updRing r f) u).hif = u.hif ∧
    (l.foldl (fun u r => u.updRing r f) u).regs = u.regs ∧ (l.foldl (fun u r => u.updRing r f) u).out = u.out := by
  induction l with
  | nil => exact fun _ => ⟨rfl, rfl, rfl⟩
  | cons r l ih => exact fun u => ih (u.updRing r f)

/-- A message clears ARMED and the pending bit (R649). -/
theorem Chip.vectorFire_parts (hbme : (s.endpoint (s.vectorEp v)).bme = true) : (s.vectorFire v).hif.disarmed.get v = true ∧
    (s.vectorFire v).hif.pending.get v = false ∧ (s.vectorFire v).regs = s.regs ∧
    (s.vectorFire v).out = .msix (s.vectorEp v) (if s.vectorEp v = 1 then v - 1024 else v) :: s.out := by
  unfold Chip.vectorFire
  dsimp only
  rw [if_neg (by rw [hbme]; decide)]
  obtain ⟨hhif, hregs, hout⟩ := Chip.foldl_updRing_parts (fun x => { x with unsignalled := 0, oldest := 0, due := false }) (s.vectorRings v)
    ((s.emit (.msix (s.vectorEp v) (if s.vectorEp v = 1 then v - 1024 else v))).updHif fun h =>
      { h with disarmed := h.disarmed.set v true, pending := h.pending.set v false })
  rw [hhif, hregs, hout]
  exact ⟨Map.get_set_self s.hif.disarmed v true, Map.get_set_self s.hif.pending v false, rfl, rfl⟩

end

/-! ### Endpoints (R631, R632, R739) -/

section
variable (s : Chip) (e : Ep)

theorem Chip.endpoint_updEndpoint (e : Nat) (f : Endpoint → Endpoint) : (s.updEndpoint e f).endpoint e = f (s.endpoint e) := Map.get_upd_self s.hif.eps e f

theorem Chip.loadEnd_hif (result : Nat) : (s.loadEnd result).hif = s.hif := by
  unfold Chip.loadEnd
  dsimp only
  obtain ⟨l, hl⟩ := islLog_parts ((s.setLoader fun x => x.ended result).raise (Reg.CRU_UC_EVENT 0) (if result = 0 then 4 else 5)) 4 0
    [BitVec.ofNat 8 (ofBool s.patterns.loader.sideBand), BitVec.ofNat 8 result]
  exact hl ▸ rfl

theorem busMasterOff_idle (h : s.patterns.loader.busy = false) : busMasterOff e s = bmeClear e s :=
  congrArg (bmeClear e) (if_neg (by simp [h]))

theorem busMasterOff_endpoint : (busMasterOff e s).endpoint e = { s.endpoint e with bme := false } := by
  unfold busMasterOff bmeClear
  rw [Chip.endpoint_updEndpoint]
  split
  · exact congrArg (fun h : HifState => ({ h.eps.get e with bme := false } : Endpoint)) (s.loadEnd_hif 1)
  · rfl

theorem perstRelease_absent (he : e.val = 1) (hsplit : s.split = false) (speed : Fin 6) (width : Fin 17) : perstRelease e speed width s = s :=
  if_pos (by simp [hsplit, Fin.ext_iff, he])

theorem perstRelease_present (h : e.val = 0 ∨ s.split = true) (speed : Fin 6) (width : Fin 17) : perstRelease e speed width s =
    s.updEndpoint e fun x => { x with up := s.flag Reg.GLB_STARTUP 3, detect := !s.flag Reg.GLB_STARTUP 3, speed := speed, width := width } :=
  if_neg (by rcases h with h | h <;> simp [h, Fin.ext_iff])

end

/-! ### A ring cleared (R632, R637) -/

theorem halfEvent_queueDrops {c q : Nat} (hc : c ≤ 32) (hq : q < 1024) : halfEvent (Cell.queueDrops c q) = some (Reg.CRU_EVENT c, 6) := by
  have hplace : Cell.queueDrops c q = 12884901888 + (c * 1024 + q) := rfl
  have hblock : (12884901888 + (c * 1024 + q)) / 4294967296 = 3 := by omega
  have hcru : (12884901888 + (c * 1024 + q)) % 4294967296 / 1024 = c := by omega
  rw [hplace]
  unfold halfEvent
  rw [if_neg (by omega), if_neg (by omega), if_neg (by omega), if_neg (by omega), if_neg (by omega), if_neg (by omega), if_neg (by omega), if_neg (by omega),
    if_neg (by omega), if_neg (by omega), if_neg (by omega), if_neg (by omega), if_neg (by omega), if_neg (by omega), if_neg (by omega), if_neg (by omega),
    if_pos hblock, hcru]

/-- A cell of a ring's registers. -/
def IsRingCell (a : Nat) : Prop := a / 4294967296 = 26

theorem isRingCell_hifRing {r k : Nat} (hr : r < 8192) (hk : k < 16) : IsRingCell (Cell.hifRing r k) := by
  unfold IsRingCell Cell.hifRing cell
  omega

/-- What giving frames' cells back leaves: the host interface, the uplinks, the rings' registers, and every ring that is clear. -/
def Chip.GivesBack (u v : Chip) : Prop :=
  v.hif = u.hif ∧ v.subs = u.subs ∧ (∀ a, IsRingCell a → v.reg a = u.reg a) ∧ ∀ r, u.ring r = {} → v.ring r = {}

theorem Chip.GivesBack.refl (u : Chip) : u.GivesBack u := ⟨rfl, rfl, fun _ _ => rfl, fun _ h => h⟩

theorem Chip.GivesBack.trans {u v w : Chip} (h : u.GivesBack v) (g : v.GivesBack w) : u.GivesBack w := by
  obtain ⟨hhif, hsubs, hreg, hring⟩ := h
  obtain ⟨ghif, gsubs, greg, gring⟩ := g
  exact ⟨ghif.trans hhif, gsubs.trans hsubs, fun a ha => (greg a ha).trans (hreg a ha), fun r hr => gring r (hring r hr)⟩

/-- A change of parts other than these. -/
theorem Chip.GivesBack.of_eq {u v : Chip} (hhif : v.hif = u.hif) (hsubs : v.subs = u.subs) (hregs : v.regs = u.regs) (hrings : v.rings = u.rings) : u.GivesBack v :=
  ⟨hhif, hsubs, fun a _ => congrArg (fun m : Map W64 => m.look resetW a) hregs, fun r h => (congrArg (fun m : Map Ring => m.get r) hrings).trans h⟩

section
variable (s : Chip)

theorem Chip.putStore_givesBack (c : Nat) (l : List Byte) : ∀ (s : Chip) (off : Nat), s.GivesBack (s.putStore c off l) := by
  induction l with
  | nil => exact fun s _ => .refl s
  | cons b l ih => exact fun s off => (Chip.GivesBack.of_eq (u := s) (v := s.setStoreByte c off b) rfl rfl rfl rfl).trans (ih _ _)

theorem Chip.queuePut_givesBack (c q source : Nat) (body : List Byte) : s.GivesBack (s.queuePut c q source body) := by
  unfold Chip.queuePut
  dsimp only
  split
  · exact .refl s
  · exact Chip.putStore_givesBack c body s _

theorem Chip.queueDrop_givesBack (c : Nat) {q : Nat} (hq : q < 1024) : s.GivesBack (s.queueDrop c q) := by
  unfold Chip.queueDrop
  split
  · next hc =>
    refine ⟨(Chip.setFlag_keeps _ _ _ _).2.2.1.trans (Chip.bump_keeps _ _ _).2.1, s.subs_bump _ _, fun a ha => ?_, fun r hr => (Chip.ring_bump s r _ _).trans hr⟩
    unfold IsRingCell at ha
    have hdrops : a ≠ Cell.queueDrops c q := by
      unfold Cell.queueDrops cell
      omega
    have hevent : a ≠ Reg.CRU_EVENT c := by
      unfold Reg.CRU_EVENT
      omega
    rw [Chip.raise, Chip.setFlag, Chip.reg_setReg_other _ _ hevent]
    refine Chip.reg_bump_other s _ hdrops fun e k h => ?_
    rw [halfEvent_queueDrops hc hq] at h
    cases h
    exact hevent
  · exact .refl s

theorem Chip.sendQueue_givesBack (c source : Nat) {q : Nat} (hq : q < 1024) (body : List Byte) : s.GivesBack (s.sendQueue c q source body).2 := by
  unfold Chip.sendQueue
  dsimp only
  split
  · exact s.queuePut_givesBack _ _ _ _
  · exact s.queueDrop_givesBack _ hq

theorem Chip.release_givesBack (c addr len : Nat) (dropped : Bool) : s.GivesBack (s.release c addr len dropped) := by
  unfold Chip.release
  dsimp only
  have hsend := (s.updTm fun t => { t with outstanding := t.outstanding.upd c (·.erase (addr, len)) }).sendQueue_givesBack (fld (s.injRegion c) 40 35)
    (deviceSource 8 0) (fld_lt (s.injRegion c) 50 41) (wordBytes (w64 (addr % 134217728 + len <<< 32 + ofBool dropped <<< 48)))
  have hsent := (Chip.GivesBack.of_eq (u := s) rfl rfl rfl rfl).trans hsend
  split
  · next h =>
    rw [h] at hsent
    exact hsent
  · next h =>
    rw [h] at hsent
    exact hsent.trans (.of_eq rfl rfl rfl rfl)

theorem Chip.dropHeld_givesBack (addr : Nat) (dropped : Bool) : s.GivesBack (s.dropHeld addr dropped) := by
  unfold Chip.dropHeld
  split
  · exact .refl s
  · dsimp only
    split
    · exact (Chip.GivesBack.of_eq (u := s) rfl rfl rfl rfl).trans (Chip.release_givesBack _ _ _ _ _)
    · exact .of_eq rfl rfl rfl rfl

theorem Chip.timedStatus_givesBack (f : PipeFrame) (status : Nat) : s.GivesBack (s.timedStatus f status) := by
  unfold Chip.timedStatus
  split
  · dsimp only
    split
    · exact .refl s
    · next r tag _ _ _ i hi =>
      refine ⟨rfl, rfl, fun _ _ => rfl, fun k hk => ?_⟩
      by_cases hkr : k = ringKey 1 r
      · have hclear : s.rings.get (ringKey 1 r) = {} := hkr ▸ hk
        rw [hclear] at hi
        cases hi
      · exact (Map.get_set_other s.rings _ hkr).trans hk
  · exact .refl s

theorem Chip.frameGone_givesBack (f : PipeFrame) (deposited dropped : Bool) : s.GivesBack (s.frameGone f deposited dropped) := by
  have hback : s.GivesBack (match f.buf with
      | .shared => if deposited then s.giveCells (cellsOf f.length) else s
      | .region c => s.release c f.addr f.length dropped
      | .held => s.dropHeld f.addr dropped
      | .fetched => s.giveCells (cellsOf f.length)) := by
    cases f.buf with
    | shared => cases deposited with
      | true => exact .of_eq rfl rfl rfl rfl
      | false => exact .refl s
    | region c => exact s.release_givesBack _ _ _ _
    | held => exact s.dropHeld_givesBack _ _
    | fetched => exact .of_eq rfl rfl rfl rfl
  unfold Chip.frameGone
  dsimp only
  split
  · exact hback.trans (Chip.timedStatus_givesBack _ _ _)
  · exact hback

end

/-! ### Function-level reset (R632) -/

section
variable {s : Chip} {r : Nat}

theorem Chip.clearRing_givesBack (s : Chip) (k : Nat) : s.GivesBack (s.clearRing k) := by
  have hback : ∀ (l : List RxItem) (u : Chip), u.GivesBack (l.foldl (fun u it => match it.frame with
      | some f => u.frameGone f true true
      | none => match it.held with
        | some a => u.dropHeld a true
        | none => u) u) := by
    intro l
    induction l with
    | nil => exact .refl
    | cons it l ih =>
      refine fun u => Chip.GivesBack.trans ?_ (ih _)
      dsimp only
      split
      · exact u.frameGone_givesBack _ _ _
      · split
        · exact u.dropHeld_givesBack _ _
        · exact .refl u
  obtain ⟨hhif, hsubs, hreg, hring⟩ := hback (s.ring k).inbox s
  refine ⟨hhif, hsubs, hreg, fun r hr => ?_⟩
  by_cases hrk : r = k
  · exact hrk ▸ s.clearRing_self k
  · exact (Chip.ring_updRing_other _ k _ hrk).trans (hring r hr)

/-- A ring of the endpoint disabled and cleared. -/
def Chip.ringOff (u : Chip) (k : Nat) : Chip := (u.setFlag (Cell.hifRing k 1) 0 false).clearRing k

theorem Chip.ringOff_hif (u : Chip) (k : Nat) : (u.ringOff k).hif = u.hif := ((u.setFlag (Cell.hifRing k 1) 0 false).clearRing_givesBack k).1

theorem Chip.ringEn_ringOff_self (u : Chip) (hr : r < 8192) : (u.ringOff r).ringEn r = false := by
  obtain ⟨-, -, hreg, -⟩ := (u.setFlag (Cell.hifRing r 1) 0 false).clearRing_givesBack r
  exact (congrArg (bit · 0) (hreg _ (isRingCell_hifRing hr (by decide)))).trans (Chip.flag_setFlag_self u (Cell.hifRing r 1) false (by decide))

/-- A ring that is disabled stays so while another, or it, is put off. -/
theorem Chip.ringEn_ringOff (u : Chip) (k : Nat) (hr : r < 8192) (h : u.ringEn r = false) : (u.ringOff k).ringEn r = false := by
  by_cases hrk : r = k
  · exact hrk ▸ u.ringEn_ringOff_self hr
  · obtain ⟨-, -, hreg, -⟩ := (u.setFlag (Cell.hifRing k 1) 0 false).clearRing_givesBack k
    have hcell : Cell.hifRing r 1 ≠ Cell.hifRing k 1 := by
      unfold Cell.hifRing cell
      omega
    exact (congrArg (bit · 0) ((hreg _ (isRingCell_hifRing hr (by decide))).trans (Chip.reg_setReg_other u _ hcell))).trans h

theorem Chip.ring_ringOff_clear (u : Chip) (k : Nat) (h : u.ring r = {}) : (u.ringOff k).ring r = {} :=
  ((u.setFlag (Cell.hifRing k 1) 0 false).clearRing_givesBack k).2.2.2 r h

theorem Chip.foldl_ringOff_hif (l : List Nat) (u : Chip) : (l.foldl Chip.ringOff u).hif = u.hif :=
  List.foldlRecOn (motive := fun v : Chip => v.hif = u.hif) l _ rfl fun v hv k _ => (v.ringOff_hif k).trans hv

theorem Chip.foldl_ringOff_disabled (hr : r < 8192) (l : List Nat) (u : Chip) (h : u.ringEn r = false) : (l.foldl Chip.ringOff u).ringEn r = false :=
  List.foldlRecOn (motive := fun v : Chip => v.ringEn r = false) l _ h fun v hv k _ => v.ringEn_ringOff k hr hv

theorem Chip.foldl_ringOff_clear (l : List Nat) (u : Chip) (h : u.ring r = {}) : (l.foldl Chip.ringOff u).ring r = {} :=
  List.foldlRecOn (motive := fun v : Chip => v.ring r = {}) l _ h fun v hv k _ => v.ring_ringOff_clear k hv

/-- A ring of the list ends disabled and clear. -/
theorem Chip.foldl_ringOff_mem (hr : r < 8192) (l : List Nat) (u : Chip) (h : r ∈ l) :
    (l.foldl Chip.ringOff u).ringEn r = false ∧ (l.foldl Chip.ringOff u).ring r = {} := by
  obtain ⟨before, after, rfl⟩ := List.append_of_mem h
  rw [List.foldl_append, List.foldl_cons]
  exact ⟨Chip.foldl_ringOff_disabled hr after _ (Chip.ringEn_ringOff_self _ hr), Chip.foldl_ringOff_clear after _ (Chip.clearRing_self _ r)⟩

/-- The rings of an endpoint whose settings are listed. -/
def Chip.epRings (s : Chip) (e : Nat) : List Nat :=
  (s.regs.filter fun (k : Nat × W64) => k.1 / 4294967296 = 26 && k.1 % 16 = 1 && fld k.2 1 1 = e).map fun k => k.1 % 4294967296 / 16

/-- What a table gives other than its default, it lists. -/
theorem Map.mem_of_look_ne {α : Type} (d : Nat → α) (m : Map α) {k : Nat} (h : m.look d k ≠ d k) : (k, m.look d k) ∈ m := by
  induction m with
  | nil => exact absurd rfl h
  | cons e m ih =>
    obtain ⟨j, v⟩ := e
    by_cases hj : j = k
    · rw [Map.look, if_pos hj, hj]
      exact List.mem_cons_self
    · rw [Map.look, if_neg hj] at h ⊢
      exact List.mem_cons_of_mem _ (ih h)

theorem reset_hifRing {r : Nat} (hr : r < 8192) : resetW (Cell.hifRing r 1) = 0 := by
  have hblock : Cell.hifRing r 1 / 4294967296 = 26 := isRingCell_hifRing hr (by decide)
  unfold resetW resetOf
  rw [if_pos (by omega), hblock]
  rfl

/-- An enabled ring is one of its endpoint's. -/
theorem Chip.mem_epRings {e : Nat} (hr : r < 8192) (hep : s.ringEp r = e) (hen : s.ringEn r = true) : r ∈ s.epRings e := by
  have hlisted : (Cell.hifRing r 1, s.ringReg r 1) ∈ s.regs := by
    refine Map.mem_of_look_ne resetW s.regs fun hreset => ?_
    have hzero : s.ringReg r 1 = 0 := hreset.trans (reset_hifRing hr)
    rw [Chip.ringEn, hzero] at hen
    exact absurd hen (by decide)
  refine List.mem_map.mpr ⟨_, List.mem_filter.mpr ⟨hlisted, ?_⟩, ?_⟩
  · have hblock : Cell.hifRing r 1 / 4294967296 = 26 := isRingCell_hifRing hr (by decide)
    have hword : Cell.hifRing r 1 % 16 = 1 := by
      unfold Cell.hifRing cell
      omega
    have hfld : fld (s.ringReg r 1) 1 1 = e := hep
    simp [hblock, hword, hfld]
  · show Cell.hifRing r 1 % 4294967296 / 16 = r
    unfold Cell.hifRing cell
    omega

theorem flr_eq (e : Ep) : flr e s = (((s.epRings e.val).foldl Chip.ringOff s).updHif fun h =>
    { h with disarmed := h.disarmed.filter fun (v : Nat × Bool) => s.vectorEp v.1 ≠ e.val }).raise Reg.HIF_EVENT 9 := rfl

theorem functionReset_idle (e : Ep) (h : s.patterns.loader.busy = false) : functionReset e s = (flr e s).setFlag (Reg.HIF_MB_CMD e) 17 false :=
  congrArg (fun u => (flr e u).setFlag (Reg.HIF_MB_CMD e) 17 false) (if_neg (by simp [h]))

theorem flr_ringEn (e : Ep) (k : Nat) :
    ((flr e s).setFlag (Reg.HIF_MB_CMD e) 17 false).ringEn k = ((s.epRings e.val).foldl Chip.ringOff s).ringEn k := by
  have hcell : ∀ a < 4294967296, Cell.hifRing k 1 ≠ a := by
    unfold Cell.hifRing cell
    omega
  rw [flr_eq]
  exact congrArg (bit · 0) ((Chip.reg_setReg_other _ _ (hcell _ (by unfold Reg.HIF_MB_CMD; omega))).trans (Chip.reg_setReg_other _ _ (hcell _ (by decide))))

/-- What a function-level reset leaves (R632). -/
theorem functionReset_parts (e : Ep) (h : s.patterns.loader.busy = false) :
    (functionReset e s).flag Reg.HIF_EVENT 9 = true ∧ (functionReset e s).flag (Reg.HIF_MB_CMD e) 17 = false ∧
    (∀ r < 8192, s.ringEp r = e.val → (functionReset e s).ringEn r = false ∧ (s.ringEn r = true → (functionReset e s).ring r = {})) ∧
    (∀ k, s.vectorEp k = e.val → (functionReset e s).hif.disarmed.get k = false) ∧
    (functionReset e s).hif.eps = s.hif.eps ∧ (functionReset e s).hif.unmasked = s.hif.unmasked := by
  rw [functionReset_idle e h]
  have hhif := Chip.foldl_ringOff_hif (s.epRings e.val) s
  have heps := congrArg HifState.eps hhif
  have hunmasked := congrArg HifState.unmasked hhif
  refine ⟨?_, Chip.flag_setFlag_self _ _ false (by decide), fun r hr hep => ⟨?_, fun hen => ?_⟩, fun k hk => ?_, ?_, ?_⟩
  · rw [Chip.flag_setFlag_reg _ _ _ _ (by unfold Reg.HIF_EVENT Reg.HIF_MB_CMD; omega), flr_eq]
    exact Chip.flag_raise_self _ _ (by decide)
  · rw [flr_ringEn e r]
    cases hen : s.ringEn r with
    | false => exact Chip.foldl_ringOff_disabled hr _ s hen
    | true => exact (Chip.foldl_ringOff_mem hr _ s (Chip.mem_epRings hr hep hen)).1
  · exact (Chip.foldl_ringOff_mem hr _ s (Chip.mem_epRings hr hep hen)).2
  · have hfilter := Map.look_filter_keys (fun _ => false) (fun v => decide (s.vectorEp v ≠ e.val)) s.hif.disarmed k
    rw [if_neg (by simp [hk])] at hfilter
    exact (congrArg (fun x : HifState => Map.look (fun _ => false) (x.disarmed.filter fun v => s.vectorEp v.1 ≠ e.val) k) hhif).trans hfilter
  · exact heps
  · exact hunmasked

end

/-- Settles O46: each command by the lemma that says what it does in the case at hand; a function-level reset by what every ring it puts off keeps. -/
theorem ringsAndVectorsServeTheHost : Obligations.RingsAndVectorsServeTheHost := by
  intro s ring e v hr c rx tx taken
  refine ⟨fun tail descs h => runs_of_core_eq rfl hr (tailWrite_refused h), fun tail descs h => runs_of_core_eq rfl hr (tailWrite_refused h),
    fun tail descs h hlen => ⟨_, runs_of_core_eq rfl hr rfl, tailWrite_given h hlen⟩, fun tail descs h hlen => ⟨_, runs_of_core_eq rfl hr rfl, tailWrite_back h hlen⟩,
    fun tail descs h hlen => ⟨_, runs_of_core_eq rfl hr rfl, tailWrite_given h hlen⟩, fun tail descs h hlen => ⟨_, runs_of_core_eq rfl hr rfl, tailWrite_back h hlen⟩,
    fun w h => runs_of_core_eq rfl hr (ringCfgWrite_base_enabled h), fun w h => runs_of_core_eq rfl hr (ringCfgWrite_base h),
    ?settings,
    fun hin hframe => runs_of_core_eq rfl hr (rxDeliver_none hin hframe), ?receive,
    fun ch k x hin hframe hruns => runs_of_core_eq rfl hr (rxDeliver_forward_paused hin hframe hruns),
    fun h data => runs_of_core_eq rfl hr (txFetch_none h data), ?run,
    fun h => runs_of_core_eq rfl hr (txWriteback_none h), fun o rest h => ⟨fun hstatus => runs_of_core_eq rfl hr (txWriteback_waits h hstatus), ?badDesc⟩,
    ?waited, fun h => runs_of_core_eq rfl hr (Chip.vectorTry_quiet h), fun harmed hactive hmask => runs_of_core_eq rfl hr (Chip.vectorTry_masked harmed hactive hmask),
    fun harmed hactive hmask hbme => ⟨_, runs_of_core_eq rfl hr (Chip.vectorTry_fires harmed hactive hmask), Chip.vectorFire_parts hbme⟩,
    ?arm, ?unmask, ⟨_, runs_of_core_eq rfl hr rfl, busMasterOff_endpoint c e, ?kept⟩,
    ⟨_, runs_of_core_eq rfl hr rfl, Chip.endpoint_updEndpoint c e.val _, rfl⟩,
    fun he hsplit speed width => runs_of_core_eq rfl hr (perstRelease_absent c e he hsplit speed width), ?perst,
    ?reset⟩
  case settings =>
    intro w new
    exact ⟨fun hnew hold => runs_of_core_eq rfl hr (ringCfgWrite_stopped hold hnew), fun hold hfld => runs_of_core_eq rfl hr (ringCfgWrite_fixed hold hfld),
      fun hnew hold => ⟨_, runs_of_core_eq rfl hr (ringCfgWrite_started hold hnew), Chip.clearRing_self _ _⟩⟩
  case receive =>
    intro it rest hin u
    have hu : u.ring rx = { c.ring rx with inbox := rest } := c.ring_updRing_self rx _
    refine ⟨fun hen hruns => runs_of_core_eq rfl hr (rxDeliver_waits hin ?_), fun hbme hposted => runs_of_core_eq rfl hr ((rxDeliver_writes hin hbme).trans ?_),
      fun d ds hbme hposted hne hlen hheld hframe => ⟨_, runs_of_core_eq rfl hr ((rxDeliver_writes hin hbme).trans
        (Chip.rxWrite_one (s := u) rx (d := d) (ds := ds) ?_ hne hlen hheld hframe)), ?_⟩⟩
    · rw [Chip.ringRuns, hen] at hruns
      exact hruns
    · exact Chip.rxWrite_none (s := u) rx (hu ▸ hposted)
    · exact hu ▸ hposted
    · obtain ⟨h1, h2, h3, h4⟩ := u.rxOneBuffer_parts (it := it) rx (d := d) (ds := ds) (hu ▸ hposted)
      rw [Chip.ring_bump, Chip.ring_bump, Chip.out_bump, Chip.out_bump, h1, h2, h3, h4, hu]
      exact ⟨rfl, rfl, rfl, rfl⟩
  case run =>
    intro l hruns hrun put
    exact ⟨fun hok data => runs_of_core_eq rfl hr (txFetch_badDesc hruns hrun hok data), fun hok => runs_of_core_eq rfl hr (txFetch_unread hruns hrun hok),
      fun bytes hok hroom => runs_of_core_eq rfl hr (txFetch_noRoom hruns hrun hok bytes hroom),
      fun bytes hok hlen htimed hroom => runs_of_core_eq rfl hr (txFetch_enters hruns hrun hok hlen htimed hroom)⟩
  case badDesc =>
    intro st d hstatus hdescs hst hbme
    rw [hst] at hstatus
    obtain ⟨hout, hregs, n, t, hring⟩ := (c.updRing tx fun x => { x with open_ := rest }).writeBack_one tx (txDone 4 d)
    rw [c.ring_updRing_self tx] at hout hring
    have hrun : txWriteback ring c = (c.updRing tx fun x => { x with open_ := rest }).writeBack tx [txDone 4 d] := by
      rw [txWriteback_badDesc h hstatus hbme, hdescs]
      rfl
    refine ⟨_, runs_of_core_eq rfl hr hrun, ?_⟩
    rw [hring, hout]
    exact ⟨rfl, rfl, hregs, rfl⟩
  case waited =>
    intro b r late
    exact ⟨fun h => runs_of_core_eq rfl hr (modTimeout_not h), fun h haged => runs_of_core_eq rfl hr (modTimeout_due h haged)⟩
  case arm =>
    intro h
    exact ⟨_, runs_of_core_eq rfl hr (Chip.vectorTry_quiet (.inr h)), Map.get_set_self c.hif.disarmed v.val false, rfl, rfl⟩
  case unmask =>
    intro h
    exact ⟨_, runs_of_core_eq rfl hr (if_neg (Bool.eq_false_iff.mp h)), Map.get_set_self c.hif.unmasked v.val true, rfl⟩
  case kept =>
    intro h
    rw [busMasterOff_idle c e h]
    rfl
  case perst =>
    intro h speed width
    exact ⟨_, runs_of_core_eq rfl hr (perstRelease_present c e h speed width), Chip.endpoint_updEndpoint c e.val _⟩
  case reset =>
    intro h
    obtain ⟨hevent, hmb, hrings, hvectors, hparts⟩ := functionReset_parts e h
    exact ⟨_, runs_of_core_eq rfl hr rfl, hevent, hmb, hrings, fun k => hvectors k, hparts⟩

end Sys2Proof.Machine
end

section
/-! The uplinks (R655 to R669, R674 to R680): frames received and sent, flow control, gate lists, verification, timestamps, links and staged values. -/
namespace Sys2Proof.Machine
open Sys2Proof.Claim

/-! ### Subports -/

section
variable (s : Chip) (k : Nat)

theorem Chip.sub_updSub_self (f : Subport → Subport) : (s.updSub k f).sub k = f (s.sub k) := Map.get_upd_self s.subs k f

theorem Chip.sub_updSub_other (f : Subport → Subport) {j : Nat} (h : j ≠ k) : (s.updSub k f).sub j = s.sub j := Map.get_set_other s.subs _ h

theorem Chip.sub_of_subs {s u : Chip} (h : u.subs = s.subs) (j : Nat) : u.sub j = s.sub j := congrArg (fun m : Map Subport => m.get j) h

theorem Chip.sub_raise (a b j : Nat) : (s.raise a b).sub j = s.sub j := rfl

/-- An increment of the registers is the same whatever else the state holds. -/
theorem Chip.regs_bump_congr {s u : Chip} (h : u.regs = s.regs) (a n : Nat) : (u.bump a n).regs = (s.bump a n).regs := by
  have hget : u.get a 47 0 = s.get a 47 0 := congrArg (fun m : Map W64 => fld (m.look resetW a) 47 0) h
  have hset (x : W64) : (u.setReg a x).regs = (s.setReg a x).regs := congrArg (fun m : Map W64 => m.put resetW a x) h
  have hraise (e b : Nat) (x : W64) : ((u.setReg a x).raise e b).regs = ((s.setReg a x).raise e b).regs :=
    congrArg (fun m : Map W64 => m.put resetW e (setBit (m.look resetW e) b true)) (hset x)
  unfold Chip.bump
  dsimp only
  rw [hget]
  split
  · exact hraise _ _ _
  · exact hset _

end

/-! ### Frames received (R656, R657, R660) -/

section
variable {s : Chip} {k : Nat} {x : EthLight}

/-- The part with the blocks of a frame counted (R619). -/
def Chip.rxSeen (s : Chip) (k : Nat) (x : EthLight) : Chip := s.pmBlocks (65 + k) 1 (ofBool (!fcsRight x))

/-- The part with a frame of more than MAX_LEN counted as cut (R656). -/
def Chip.rxCut (s : Chip) (k : Nat) (x : EthLight) (u : Chip) : Chip :=
  if s.rxMaxLen k x.tick < x.bytes.length + 4 then u.bump (Reg.ETH_RX_TRUNCATED (k / 4) (k % 4)) else u

theorem ethArrive_short (h : x.bytes.length + 4 < 64) : s.ethArrive k x = (s.rxSeen k x).bump (Reg.ETH_RX_UNDERSIZE (k / 4) (k % 4)) := if_pos h

theorem macControl_pause {bytes : List Byte} (hop : beAt bytes 14 2 = 1) : s.macControl k bytes = s.bump (Reg.ETH_RX_PAUSE_IGNORED (k / 4) (k % 4)) := by
  unfold Chip.macControl
  split
  · rfl
  · next hpfc => exact absurd (hop.symm.trans hpfc) (by decide)
  · next hother _ => exact absurd hop hother

variable (h : 64 ≤ x.bytes.length + 4)
include h

theorem ethArrive_right (htype : beAt x.bytes 12 2 ≠ 0x8808) (hfcs : fcsRight x = true) : s.ethArrive k x =
    (s.rxCut k x ((s.rxSeen k x).rxCount k (x.bytes.length + 4) (castType x.bytes))).ethEnter k (x.bytes.length + 4) x := by
  unfold Chip.ethArrive
  dsimp only
  rw [if_neg (Nat.not_lt.mpr h), if_neg htype, if_pos hfcs]
  rfl

theorem ethArrive_wrong (htype : beAt x.bytes 12 2 ≠ 0x8808) (hfcs : fcsRight x = false) : s.ethArrive k x =
    (s.rxCut k x ((s.rxSeen k x).bump (Reg.ETH_RX_FCS_ERR (k / 4) (k % 4)))).ethEnter k (x.bytes.length + 4) x := by
  unfold Chip.ethArrive
  dsimp only
  rw [if_neg (Nat.not_lt.mpr h), if_neg htype, if_neg (c := fcsRight x = true) (by rw [hfcs]; decide)]
  rfl

theorem ethArrive_pause (hmax : x.bytes.length + 4 ≤ s.rxMaxLen k x.tick) (htype : beAt x.bytes 12 2 = 0x8808) (hfcs : fcsRight x = true)
    (hop : beAt x.bytes 14 2 = 1) : s.ethArrive k x =
      ((s.rxSeen k x).rxCount k (x.bytes.length + 4) (castType x.bytes)).bump (Reg.ETH_RX_PAUSE_IGNORED (k / 4) (k % 4)) := by
  unfold Chip.ethArrive
  dsimp only
  rw [if_neg (Nat.not_lt.mpr h), if_pos htype, if_pos hfcs, if_pos hfcs, if_neg (Nat.not_lt.mpr hmax), macControl_pause hop, Chip.rxSeen]

end

/-! ### MAC merge (R665, R679) -/

theorem find_smdStart : ∀ n < 4, ((List.range 4).find? fun m => smdStart n = smdStart m) = some n := by decide
theorem find_smdStart_next : ∀ n < 4, ((List.range 4).find? fun m => smdNext n = smdStart m) = none := by decide
theorem find_smdNext : ∀ n < 4, ((List.range 4).find? fun m => smdNext n = smdNext m) = some n := by decide
theorem smd_apart : ∀ n < 4, (smdStart n ≠ smdExpress ∧ smdStart n ≠ smdVerify ∧ smdStart n ≠ smdRespond) ∧
    smdNext n ≠ smdExpress ∧ smdNext n ≠ smdVerify ∧ smdNext n ≠ smdRespond := by decide

section
variable {s : Chip} {k : Fin 32} {x : EthLight}

theorem ethRxFrame_off (h : (s.subOn k && (s.sub k).lock) = false) : ethRxFrame k x s = s := if_pos (by rw [h]; rfl)

variable (h : (s.subOn k && (s.sub k).lock) = true)
include h

theorem ethRxFrame_express (hsmd : x.smd = smdExpress) : ethRxFrame k x s = s.ethArrive k x :=
  (if_neg (by rw [h]; decide)).trans (if_pos hsmd)

theorem ethRxFrame_verify (hsmd : x.smd = smdVerify) : ethRxFrame k x s = s.mergeSend k smdRespond :=
  (if_neg (by rw [h]; decide)).trans ((if_neg (by rw [hsmd]; decide)).trans (if_pos hsmd))

theorem ethRxFrame_respond (hsmd : x.smd = smdRespond) : ethRxFrame k x s = s.verified k :=
  (if_neg (by rw [h]; decide)).trans ((if_neg (by rw [hsmd]; decide)).trans ((if_neg (by rw [hsmd]; decide)).trans (if_pos hsmd)))

theorem ethRxFrame_start {n : Nat} (hn : n < 4) (hsmd : x.smd = smdStart n) : ethRxFrame k x s = s.mergeStart k n x := by
  obtain ⟨⟨hexpress, hverify, hrespond⟩, -⟩ := smd_apart n hn
  unfold ethRxFrame
  rw [if_neg (by rw [h]; decide), hsmd, if_neg hexpress, if_neg hverify, if_neg hrespond, find_smdStart n hn]

theorem ethRxFrame_next {n : Nat} (hn : n < 4) (hsmd : x.smd = smdNext n) : ethRxFrame k x s = s.mergeNext k n x := by
  obtain ⟨-, hexpress, hverify, hrespond⟩ := smd_apart n hn
  unfold ethRxFrame
  rw [if_neg (by rw [h]; decide), hsmd, if_neg hexpress, if_neg hverify, if_neg hrespond, find_smdStart_next n hn, find_smdNext n hn]

theorem ethRxFrame_unknown (hexpress : x.smd ≠ smdExpress) (hverify : x.smd ≠ smdVerify) (hrespond : x.smd ≠ smdRespond)
    (hother : ∀ n, x.smd ≠ smdStart n ∧ x.smd ≠ smdNext n) : ethRxFrame k x s = s.bump (Reg.ETH_RX_SMD_ERR (k.val / 4) (k.val % 4)) := by
  have hstart : ((List.range 4).find? fun n => x.smd = smdStart n) = none := List.find?_eq_none.mpr fun n _ => by simp [(hother n).1]
  have hnext : ((List.range 4).find? fun n => x.smd = smdNext n) = none := List.find?_eq_none.mpr fun n _ => by simp [(hother n).2]
  unfold ethRxFrame
  rw [if_neg (by rw [h]; decide), if_neg hexpress, if_neg hverify, if_neg hrespond, hstart, hnext]

end

section
variable {s : Chip} {k n : Nat} {x : EthLight}

theorem mergeStart_begins (h : (s.sub k).assembly = none) (hcheck : mCrc x.bytes = bytesBE 4 x.check.toNat) : s.mergeStart k n x =
    s.updSub k fun y => { y with assembly := some { number := n, next := 0, bytes := x.bytes, tick := x.tick } } := by
  unfold Chip.mergeStart
  rw [h]
  exact if_pos hcheck

theorem mergeNext_lost (h : (s.sub k).assembly = none) : s.mergeNext k n x = s.assemblyLost k := by
  unfold Chip.mergeNext
  rw [h]

theorem assemblyLost_parts (s : Chip) (k : Nat) : ((s.assemblyLost k).sub k).assembly = none ∧
    (s.assemblyLost k).regs = (s.bump (Reg.ETH_RX_REASM_ERR (k / 4) (k % 4))).regs := by
  refine ⟨?_, Chip.regs_bump_congr (s := s) (u := s.updSub k fun y => { y with assembly := none }) rfl (Reg.ETH_RX_REASM_ERR (k / 4) (k % 4)) 1⟩
  rw [Chip.assemblyLost, Chip.sub_of_subs (Chip.subs_bump _ _ _), Chip.sub_updSub_self]

variable {a : Assembly} (h : (s.sub k).assembly = some a) (hnumber : a.number = n) (hcount : x.count = fragCount a.next)
include h hnumber hcount

theorem mergeNext_goesOn (hcheck : mCrc (a.bytes ++ x.bytes) = bytesBE 4 x.check.toNat) : s.mergeNext k n x =
    s.updSub k fun y => { y with assembly := some { a with next := a.next + 1, bytes := a.bytes ++ x.bytes } } := by
  unfold Chip.mergeNext
  rw [h]
  exact (if_neg (by simp [hnumber, hcount])).trans (if_pos hcheck)

theorem mergeNext_ends (hcheck : mCrc (a.bytes ++ x.bytes) ≠ bytesBE 4 x.check.toNat) : s.mergeNext k n x =
    ((s.updSub k fun y => { y with assembly := none }).bump (Reg.ETH_RX_REASM_OK (k / 4) (k % 4))).ethArrive k
      { x with bytes := a.bytes ++ x.bytes, tick := a.tick } := by
  unfold Chip.mergeNext
  rw [h]
  exact (if_neg (by simp [hnumber, hcount])).trans (if_neg hcheck)

end

/-! ### What a departure depends on (R664, R666) -/

/-- The counters of a port raise its own event register (R671). -/
theorem halfEvent_eth {i a : Nat} (hi : i < 8) (hlo : Reg.ETH_COMMIT i ≤ a) (hhi : a < Reg.ETH_COMMIT (i + 1)) : halfEvent a = some (Reg.ETH_EVENT i, 6) := by
  unfold Reg.ETH_COMMIT at hlo hhi
  have hport : (a - 0x1200000) / 0x20000 = i := by omega
  unfold halfEvent
  rw [if_neg (by omega), if_neg (by omega), if_neg (by omega), if_neg (by omega), if_neg (by omega), if_neg (by omega), if_neg (by omega), if_neg (by omega),
    if_neg (by omega), if_pos (by omega), hport]

/-- An increment of a counter of a port leaves every register but the counter and the port's events. -/
theorem Chip.reg_bump_eth (s : Chip) {i a b : Nat} (n : Nat) (hi : i < 8) (hlo : Reg.ETH_COMMIT i ≤ a) (hhi : a < Reg.ETH_COMMIT (i + 1)) (hb : b ≠ a)
    (hevent : b ≠ Reg.ETH_EVENT i) : (s.bump a n).reg b = s.reg b := by
  refine Chip.reg_bump_other s n hb fun e k he => ?_
  rw [halfEvent_eth hi hlo hhi] at he
  obtain ⟨rfl, -⟩ := Prod.mk.inj (Option.some.inj he)
  exact hevent

/-- A change of registers, rings and subports that no choice of what may leave on a subport looks at. -/
def Chip.SendsAlike (k : Nat) (s v : Chip) : Prop :=
  (∃ r g m, v = { s with regs := r, rings := g, subs := m }) ∧ v.rate = s.rate ∧ v.stagedGates k = s.stagedGates k ∧
    ∃ st n, v.sub k = { s.sub k with stamps := st, number := n }

section
variable {s v w : Chip} {k : Nat}

theorem Chip.SendsAlike.refl (s : Chip) : s.SendsAlike k s := ⟨⟨_, _, _, rfl⟩, rfl, rfl, _, _, rfl⟩

theorem Chip.SendsAlike.trans (h : s.SendsAlike k v) (g : v.SendsAlike k w) : s.SendsAlike k w := by
  obtain ⟨⟨r, ri, m, rfl⟩, hrate, hgates, st, n, hsub⟩ := h
  obtain ⟨⟨r', ri', m', rfl⟩, hrate', hgates', st', n', hsub'⟩ := g
  rw [hsub] at hsub'
  exact ⟨⟨_, _, _, rfl⟩, hrate'.trans hrate, hgates'.trans hgates, st', n', hsub'⟩

theorem Chip.SendsAlike.nowNs (h : s.SendsAlike k v) : v.nowNs = s.nowNs := by
  obtain ⟨⟨r, g, m, rfl⟩, hrate, -⟩ := h
  unfold Chip.nowNs Chip.logical Chip.logicalAt
  rw [hrate]

theorem Chip.SendsAlike.gated (h : s.SendsAlike k v) : v.gated k = s.gated k := by
  obtain ⟨⟨r, g, m, rfl⟩, -, -, st, n, hsub⟩ := h
  unfold Chip.gated
  rw [hsub]
  rfl

theorem Chip.SendsAlike.roomBefore (h : s.SendsAlike k v) (cls : Nat) : v.roomBefore k cls = s.roomBefore k cls := by
  have hnow := h.nowNs
  have hgated := h.gated
  obtain ⟨⟨r, g, m, rfl⟩, -, hgates, st, n, hsub⟩ := h
  have hcloses : Chip.closesIn { s with regs := r, rings := g, subs := m } k cls = s.closesIn k cls := by
    unfold Chip.closesIn
    rw [hgated, hnow, hgates, hsub]
  rw [Chip.roomBefore, hcloses]
  rfl

theorem Chip.SendsAlike.cuttable (h : s.SendsAlike k v) (cls : Nat) : v.cuttable k cls = s.cuttable k cls := by
  obtain ⟨⟨r, g, m, rfl⟩, -, -, st, n, hsub⟩ := h
  unfold Chip.cuttable Chip.preemptOn
  rw [hsub]
  rfl

theorem Chip.SendsAlike.ethAllows (h : s.SendsAlike k v) (cls len : Nat) : v.ethAllows k cls len = s.ethAllows k cls len := by
  have hgated := h.gated
  have hroom := h.roomBefore cls
  have hcut := h.cuttable cls
  obtain ⟨⟨r, g, m, rfl⟩, -, -, st, n, hsub⟩ := h
  unfold Chip.ethAllows Chip.gateOpen Chip.pausedClass
  rw [hgated, hroom, hcut, hsub]
  rfl

theorem Chip.SendsAlike.eligible (h : s.SendsAlike k v) : v.eligible { uplink := some k } = s.eligible { uplink := some k } := by
  have hallows := h.ethAllows
  obtain ⟨⟨r, g, m, rfl⟩, -⟩ := h
  have hmeets (f : TmFrame) : Chip.meets { s with regs := r, rings := g, subs := m } { uplink := some k } f = s.meets { uplink := some k } f := by
    unfold Chip.meets
    dsimp only
    rw [hallows]
    rfl
  unfold Chip.eligible
  simp only [hmeets]
  rfl

theorem Chip.SendsAlike.cutAt (h : s.SendsAlike k v) (cls len : Nat) : v.cutAt k cls len = s.cutAt k cls len := by
  unfold Chip.cutAt Chip.expressReady
  rw [h.cuttable, h.roomBefore, h.eligible]
  obtain ⟨⟨r, g, m, rfl⟩, -⟩ := h
  rfl

end

/-! ### The timestamp of a frame sent (R667, R669) -/

section
variable (s : Chip) {k : Nat}

theorem Chip.timedStatus_eq (f : PipeFrame) (status : Nat) : ∃ g, s.timedStatus f status = { s with rings := g } := by
  unfold Chip.timedStatus
  split
  · dsimp only
    split
    · exact ⟨_, rfl⟩
    · exact ⟨_, rfl⟩
  · exact ⟨_, rfl⟩

/-- A register that the timestamps of a subport leave as it is. -/
def OffStamps (k a : Nat) : Prop := a ≠ Reg.ETH_TS_OVERFLOW (k / 4) (k % 4) ∧ a ≠ Reg.ETH_EVENT (k / 4)

/-- Registers, rings and stamps are all that a change needs leave to a choice of what may leave. -/
theorem Chip.SendsAlike.of_offStamps (hk : k < 32) {r : Map W64} {g : Map Ring} {m : Map Subport}
    (hr : ∀ a, OffStamps k a → r.look resetW a = s.reg a) (hm : ∃ st n, m.get k = { s.sub k with stamps := st, number := n }) :
    s.SendsAlike k { s with regs := r, rings := g, subs := m } := by
  have hrate : OffStamps k Reg.TIME_RATE := by
    unfold OffStamps Reg.TIME_RATE Reg.ETH_TS_OVERFLOW Reg.ETH_EVENT
    omega
  have hcycle : OffStamps k (Reg.ETH_GCL_CYCLE (k / 4) (k % 4)) := by
    unfold OffStamps Reg.ETH_GCL_CYCLE Reg.ETH_TS_OVERFLOW Reg.ETH_EVENT
    omega
  have hbase : OffStamps k (Reg.ETH_GCL_BASE (k / 4) (k % 4)) := by
    unfold OffStamps Reg.ETH_GCL_BASE Reg.ETH_TS_OVERFLOW Reg.ETH_EVENT
    omega
  have hentry (i : Nat) : OffStamps k (Cell.gcl k i) := by
    unfold OffStamps Cell.gcl cell Reg.ETH_TS_OVERFLOW Reg.ETH_EVENT
    omega
  have hreg (a : Nat) (ha : OffStamps k a) : Chip.reg { s with regs := r, rings := g, subs := m } a = s.reg a := hr a ha
  refine ⟨⟨r, g, m, rfl⟩, ?_, ?_, hm⟩
  · rw [Chip.rate, Chip.get, hreg _ hrate]
    rfl
  · unfold Chip.stagedGates
    dsimp only
    rw [hreg _ hcycle, hreg _ hbase]
    simp only [hreg _ (hentry _)]

theorem Chip.timedStatus_sendsAlike (f : PipeFrame) (status : Nat) : s.SendsAlike k (s.timedStatus f status) := by
  obtain ⟨g, hg⟩ := s.timedStatus_eq f status
  rw [hg]
  exact ⟨⟨_, _, _, rfl⟩, rfl, rfl, _, _, rfl⟩

theorem Chip.ethEvent_sendsAlike (hk : k < 32) (b : Nat) : s.SendsAlike k (s.raise (Reg.ETH_EVENT (k / 4)) b) :=
  .of_offStamps s hk (fun _ ⟨_, hevent⟩ => Chip.reg_setReg_other s _ hevent) ⟨_, _, rfl⟩

theorem Chip.tsOverflow_sendsAlike (hk : k < 32) : s.SendsAlike k (s.bump (Reg.ETH_TS_OVERFLOW (k / 4) (k % 4))) := by
  have hregs (a : Nat) (ha : OffStamps k a) : (s.bump (Reg.ETH_TS_OVERFLOW (k / 4) (k % 4))).reg a = s.reg a := by
    obtain ⟨hcount, hevent⟩ := ha
    exact s.reg_bump_eth 1 (i := k / 4) (by omega) (by unfold Reg.ETH_TS_OVERFLOW Reg.ETH_COMMIT; omega)
      (by unfold Reg.ETH_TS_OVERFLOW Reg.ETH_COMMIT; omega) hcount hevent
  obtain ⟨r, hr⟩ := s.bump_eq (Reg.ETH_TS_OVERFLOW (k / 4) (k % 4)) 1
  rw [hr] at hregs ⊢
  exact .of_offStamps s hk hregs ⟨_, _, rfl⟩

theorem Chip.updSub_sendsAlike {f : Subport → Subport} (hf : ∃ st n, f (s.sub k) = { s.sub k with stamps := st, number := n }) :
    s.SendsAlike k (s.updSub k f) := by
  obtain ⟨st, n, hf⟩ := hf
  exact ⟨⟨_, _, _, rfl⟩, rfl, rfl, st, n, (s.sub_updSub_self k f).trans hf⟩

theorem Chip.tsAppend_sendsAlike (hk : k < 32) (x : TmFrame) : s.SendsAlike k (s.tsAppend k x) := by
  unfold Chip.tsAppend
  dsimp only
  split
  · exact .refl s
  · split
    · exact ((s.tsOverflow_sendsAlike hk).trans (Chip.ethEvent_sendsAlike _ hk 3)).trans (Chip.timedStatus_sendsAlike _ _ _)
    · split
      · exact ((s.updSub_sendsAlike ⟨_, _, rfl⟩).trans (Chip.ethEvent_sendsAlike _ hk 4)).trans (Chip.timedStatus_sendsAlike _ _ _)
      · exact (s.updSub_sendsAlike ⟨_, _, rfl⟩).trans (Chip.timedStatus_sendsAlike _ _ _)

end

/-! ### Frames sent (R658, R659, R666) -/

section
variable {s : Chip}

theorem Chip.subs_txCount (k len cast : Nat) : (s.txCount k len cast).subs = s.subs := by
  unfold Chip.txCount
  dsimp only
  rw [Chip.subs_bump, Chip.subs_bump, Chip.subs_bump, Chip.subs_bump]

theorem Chip.subs_ethSent (k : Nat) (x : TmFrame) : (s.ethSent k x).subs = s.subs := by
  have hstomped (u : Chip) : (if x.stomp then u.bump (Reg.ETH_TX_STOMPED (k / 4) (k % 4)) else u).subs = u.subs := by
    split
    · exact u.subs_bump _ _
    · rfl
  obtain ⟨-, hsubs, -⟩ := Chip.frameGone_givesBack
    (if x.stomp then (s.txCount k (wireLen x.f.bytes.length) (castType x.f.bytes)).bump (Reg.ETH_TX_STOMPED (k / 4) (k % 4))
      else s.txCount k (wireLen x.f.bytes.length) (castType x.f.bytes)) x.f true false
  exact hsubs.trans ((hstomped _).trans (Chip.subs_txCount _ _ _))

variable {k : Nat} {x : TmFrame}

theorem ethSend_tooLong (h : s.maxLen k < x.f.bytes.length + 4) :
    s.ethSend k x = (s.bump (Reg.ETH_TX_OVERSIZE_DROP (k / 4) (k % 4))).tmDiscard x.f true := if_pos h

theorem ethSend_whole (h : x.f.bytes.length + 4 ≤ s.maxLen k) (hcut : s.cuttable k x.cls = false) :
    s.ethSend k x = ((s.tsAppend k x).emit (.ethPacket k smdExpress none (wireBytes x.f.bytes x.stomp))).ethSent k x :=
  (if_neg (Nat.not_lt.mpr h)).trans (if_pos (by rw [hcut]; rfl))

/-- A preemptable frame of a subport as it begins to leave: its number taken (R665). -/
def Chip.preemptBegun (s : Chip) (k : Nat) (x : TmFrame) : Chip := (s.tsAppend k x).updSub k fun y => { y with number := (y.number + 1) % 4 }

theorem Chip.preemptBegun_sendsAlike (hk : k < 32) : s.SendsAlike k (s.preemptBegun k x) :=
  (s.tsAppend_sendsAlike hk x).trans (Chip.updSub_sendsAlike _ ⟨_, _, rfl⟩)

theorem Chip.subs_timedStatus (f : PipeFrame) (status : Nat) : (s.timedStatus f status).subs = s.subs := by
  obtain ⟨g, hg⟩ := s.timedStatus_eq f status
  rw [hg]

theorem Chip.sub_tsAppend (s : Chip) (k : Nat) (x : TmFrame) : ∃ st, (s.tsAppend k x).sub k = { s.sub k with stamps := st } := by
  unfold Chip.tsAppend
  dsimp only
  split
  · exact ⟨_, rfl⟩
  · split
    · rw [Chip.sub_of_subs (Chip.subs_timedStatus _ _), Chip.sub_raise, Chip.sub_of_subs (s.subs_bump _ _)]
      exact ⟨_, rfl⟩
    · split
      · rw [Chip.sub_of_subs (Chip.subs_timedStatus _ _), Chip.sub_raise, Chip.sub_updSub_self]
        exact ⟨_, rfl⟩
      · rw [Chip.sub_of_subs (Chip.subs_timedStatus _ _), Chip.sub_updSub_self]
        exact ⟨_, rfl⟩

theorem Chip.sub_preemptBegun : ((s.preemptBegun k x).sub k).number = ((s.sub k).number + 1) % 4 ∧
    ((s.preemptBegun k x).sub k).preempted = (s.sub k).preempted := by
  obtain ⟨st, hst⟩ := s.sub_tsAppend k x
  rw [Chip.preemptBegun, Chip.sub_updSub_self, hst]
  exact ⟨rfl, rfl⟩

/-- A preemptable frame leaves whole, or as far as its first cut, which is kept with what is left (R666). -/
theorem ethSend_cuttable (hk : k < 32) (h : x.f.bytes.length + 4 ≤ s.maxLen k) (hcut : s.cuttable k x.cls = true) :
    ((s.ethSend k x).sub k).number = ((s.sub k).number + 1) % 4 ∧
      match (s.preemptBegun k x).cutAt k x.cls (wireBytes x.f.bytes x.stomp).length with
      | some d => ((s.ethSend k x).sub k).preempted = some { frame := x, number := (s.sub k).number, sent := d, parts := 1 }
      | none => ((s.ethSend k x).sub k).preempted = (s.sub k).preempted := by
  obtain ⟨hnumber, hpreempted⟩ := s.sub_preemptBegun (k := k) (x := x)
  rw [(s.preemptBegun_sendsAlike hk).cutAt]
  unfold Chip.ethSend
  dsimp only
  rw [if_neg (Nat.not_lt.mpr h), if_neg (by rw [hcut]; decide)]
  cases s.cutAt k x.cls (wireBytes x.f.bytes x.stomp).length with
  | some d =>
    dsimp only
    rw [Chip.sub_updSub_self]
    refine ⟨?_, rfl⟩
    exact (congrArg Subport.number (Chip.sub_of_subs (Chip.subs_bump _ _ _) k)).trans hnumber
  | none =>
    dsimp only
    rw [Chip.sub_of_subs (Chip.subs_ethSent k x)]
    exact ⟨hnumber, hpreempted⟩

theorem ethResume_rest {r : Preempted} (hgate : s.gateOpen k r.frame.cls = true) (hexpress : s.expressReady k = false)
    (hroom : fitsRoom (s.roomBefore k r.frame.cls) ((wireBytes r.frame.f.bytes r.frame.stomp).length - r.sent) = true) : s.ethResume k r =
      ((s.fragmentSend k r (wireBytes r.frame.f.bytes r.frame.stomp) none).updSub k fun y => { y with preempted := none }).ethSent k r.frame :=
  (if_neg (by rw [hgate, hexpress]; decide)).trans (if_pos hroom)

end

section
variable {s : Chip} {k : Fin 32}

theorem ethTxFrame_down (h : (s.subOn k && (s.sub k).link) = false) : ethTxFrame k s = s := if_pos (by rw [h]; rfl)

variable (h : (s.subOn k && (s.sub k).link) = true)
include h

theorem ethTxFrame_resumes {r : Preempted} (hnone : s.tm.egress.get (64 + k) = []) (hr : (s.sub k).preempted = some r) :
    ethTxFrame k s = s.ethResume k r := by
  unfold ethTxFrame
  rw [if_neg (by rw [h]; decide), hnone, hr]

variable {x : TmFrame} {rest : List TmFrame} (hx : s.tm.egress.get (64 + k) = x :: rest)
include hx

theorem ethTxFrame_waits (hlen : x.f.bytes.length + 4 ≤ s.maxLen k) (hallows : s.ethAllows k x.cls x.f.length = false) : ethTxFrame k s = s := by
  unfold ethTxFrame
  rw [if_neg (by rw [h]; decide), hx]
  exact if_neg (by simp [hallows, hlen])

theorem ethTxFrame_sends (hgo : s.ethAllows k x.cls x.f.length = true ∨ s.maxLen k < x.f.bytes.length + 4) :
    ethTxFrame k s = (s.updTm fun t => { t with egress := t.egress.set (64 + k) rest }).ethSend k x := by
  unfold ethTxFrame
  rw [if_neg (by rw [h]; decide), hx]
  exact if_pos (by rcases hgo with hgo | hgo <;> simp [hgo])

end

/-! ### Flow control (R660, R661) -/

section
variable {s : Chip} {k : Fin 32}

theorem pfcReceive_off (h : (s.subOn k && (s.sub k).lock) = false) (classes : BitVec 8) (quanta : List (BitVec 16)) : pfcReceive k classes quanta s = s :=
  if_pos (by rw [h]; rfl)

/-- The part with a frame of a PFC pause received and counted (R657, R660). -/
def Chip.pfcSeen (s : Chip) (k : Nat) : Chip := (s.pmBlocks (65 + k) 1 0).rxCount k 64 1

theorem Chip.pfcSeen_eq (s : Chip) (k : Nat) : ∃ r, s.pfcSeen k = { s.pmBlocks (65 + k) 1 0 with regs := r } := by
  have hregs := (((regsOnly_bump (s.pmBlocks (65 + k) 1 0) (Reg.ETH_RX_FRAMES (k / 4) (k % 4)) 1).trans
    (regsOnly_bump _ (Reg.ETH_RX_BYTES (k / 4) (k % 4)) 64)).trans (regsOnly_bump _ (Reg.ETH_RX_SIZEk (k / 4) (k % 4) (sizeClass 64)) 1)).trans
      (regsOnly_bump _ (Reg.ETH_RX_TYPEy (k / 4) (k % 4) 1) 1)
  exact ⟨_, hregs⟩

/-- Counting a frame leaves what its effect depends on. -/
theorem Chip.pfcSeen_parts (s : Chip) (k : Nat) : (s.pfcSeen k).subCfg k = s.subCfg k ∧ (s.pfcSeen k).frc = s.frc ∧
    (∀ q, (s.pfcSeen k).quantaTicks k q = s.quantaTicks k q) ∧ (s.pfcSeen k).subs = s.subs := by
  obtain ⟨r, hr⟩ := s.pfcSeen_eq k
  rw [hr]
  exact ⟨rfl, rfl, fun _ => rfl, rfl⟩

/-- A class that a PFC frame names pauses for its quanta (R660). -/
def Chip.pauseClass (s : Chip) (k : Nat) (classes : BitVec 8) (quanta : List (BitVec 16)) (u : Chip) (c : Nat) : Chip :=
  if classes.getLsbD c then u.updSub k fun x => { x with paused := x.paused.set c (some (s.frc + s.quantaTicks k (quanta.getD c 0).toNat)) } else u

variable {classes : BitVec 8} {quanta : List (BitVec 16)}

theorem Chip.paused_pauseClass (u : Chip) (k c i : Nat) : ((s.pauseClass k classes quanta u c).sub k).paused.get i =
    if i = c ∧ classes.getLsbD c = true then some (s.frc + s.quantaTicks k (quanta.getD c 0).toNat) else (u.sub k).paused.get i := by
  unfold Chip.pauseClass
  cases hc : classes.getLsbD c with
  | false => exact (if_neg (by simp)).symm
  | true =>
    rw [if_pos rfl, Chip.sub_updSub_self, Map.get_set]
    simp

theorem Chip.paused_foldl_pauseClass (k i : Nat) (l : List Nat) : ∀ u : Chip, ((l.foldl (s.pauseClass k classes quanta) u).sub k).paused.get i =
    if i ∈ l ∧ classes.getLsbD i = true then some (s.frc + s.quantaTicks k (quanta.getD i 0).toNat) else (u.sub k).paused.get i := by
  induction l with
  | nil => exact fun u => (if_neg (by simp)).symm
  | cons c l ih =>
    intro u
    rw [List.foldl_cons, ih, Chip.paused_pauseClass]
    by_cases hl : i ∈ l ∧ classes.getLsbD i = true
    · rw [if_pos hl, if_pos ⟨List.mem_cons_of_mem _ hl.1, hl.2⟩]
    · rw [if_neg hl]
      by_cases hc : i = c ∧ classes.getLsbD c = true
      · obtain ⟨rfl, hbit⟩ := hc
        rw [if_pos ⟨rfl, hbit⟩, if_pos ⟨List.mem_cons_self, hbit⟩]
      · rw [if_neg hc, if_neg]
        rintro ⟨hmem, hbit⟩
        rcases List.mem_cons.mp hmem with rfl | hmem
        · exact hc ⟨rfl, hbit⟩
        · exact hl ⟨hmem, hbit⟩

variable (h : (s.subOn k && (s.sub k).lock) = true)
include h

theorem pfcReceive_ignored (hoff : bit (s.subCfg k) 42 = false) :
    pfcReceive k classes quanta s = (s.pfcSeen k).bump (Reg.ETH_RX_PFC (k.val / 4) (k.val % 4)) := by
  obtain ⟨hcfg, -⟩ := s.pfcSeen_parts k
  exact (if_neg (by rw [h]; decide)).trans (if_pos (by rw [← Chip.pfcSeen, hcfg, hoff]; rfl))

theorem pfcReceive_pauses (hon : bit (s.subCfg k) 42 = true) (i : Fin 8) : ((pfcReceive k classes quanta s).sub k).paused.get i =
    if classes.getLsbD i = true then some (s.frc + s.quantaTicks k (quanta.getD i 0).toNat) else (s.sub k).paused.get i := by
  obtain ⟨hcfg, hfrc, hticks, hsubs⟩ := s.pfcSeen_parts k
  have hfold : pfcReceive k classes quanta s =
      (List.range 8).foldl ((s.pfcSeen k).pauseClass k classes quanta) ((s.pfcSeen k).bump (Reg.ETH_RX_PFC (k.val / 4) (k.val % 4))) :=
    (if_neg (by rw [h]; decide)).trans (if_neg (by rw [← Chip.pfcSeen, hcfg, hon]; decide))
  rw [hfold, Chip.paused_foldl_pauseClass, hfrc, hticks, Chip.sub_of_subs ((Chip.subs_bump _ _ _).trans hsubs)]
  simp [i.isLt]

end

section
variable {s : Chip} {k : Fin 32} {p : Fin 8}

theorem pauseExpire_not {cls : Fin 8} (h : (s.sub k).paused.get cls = none ∨ s.pausedClass k cls = true) : pauseExpire k cls s = s :=
  if_neg (by rcases h with h | h <;> simp [h])

theorem pauseExpire_ends {cls : Fin 8} (h : (s.sub k).paused.get cls ≠ none) (hover : s.pausedClass k cls = false) :
    pauseExpire k cls s = s.updSub k fun x => { x with paused := x.paused.set cls none } := if_pos (by simp [h, hover])

theorem pfcXoff_one {i : Nat} (hi : s.pfcSubs p = [i]) (hfree : s.freeCells < fld (s.act (Reg.ETH_PFC_CFG p)) 27 8) (hx : (s.sub i).xoff = none) :
    pfcXoff p s = s.pfcSend i (fld (s.act (Reg.ETH_PFC_CFG p)) 63 48) true := by
  unfold pfcXoff
  dsimp only
  rw [if_neg (Nat.not_le.mpr hfree), hi, List.filter_singleton, hx]
  rfl

theorem pfcXon_one {i t : Nat} (hi : s.pfcSubs p = [i]) (hfree : fld (s.act (Reg.ETH_PFC_CFG p)) 47 28 ≤ s.freeCells) (hx : (s.sub i).xoff = some t) :
    pfcXon p s = s.pfcSend i 0 false := by
  unfold pfcXon
  rw [if_neg (Nat.not_lt.mpr hfree), hi, List.filter_singleton, hx]
  rfl

theorem pfcRefresh_one {i t : Nat} (hi : s.pfcSubs p = [i]) (hfree : s.freeCells < fld (s.act (Reg.ETH_PFC_CFG p)) 47 28) (hx : (s.sub i).xoff = some t)
    (hdue : s.quantaTicks i (fld (s.act (Reg.ETH_PFC_CFG p)) 63 48) ≤ 2 * (s.frc - t)) :
    pfcRefresh p s = s.pfcSend i (fld (s.act (Reg.ETH_PFC_CFG p)) 63 48) true := by
  unfold pfcRefresh
  dsimp only
  rw [if_neg (Nat.not_le.mpr hfree), hi, List.filter_singleton, hx]
  dsimp only
  rw [decide_eq_true hdue]
  rfl

/-! ### Staged values and gate lists (R663, R678) -/

theorem Chip.ethSettled_subs (q : Nat) : (s.ethSettled q).subs = s.subs := by
  unfold Chip.ethSettled
  split
  · rfl
  · rfl

theorem Chip.reg_ethSettled (q : Nat) {a : Nat} (ha : a ≠ Reg.ETH_COMMIT q) : (s.ethSettled q).reg a = s.reg a := by
  unfold Chip.ethSettled
  split
  · exact Chip.reg_setReg_other s _ ha
  · rfl

theorem Chip.ethSettled_active (q : Nat) : (s.ethSettled q).active = s.active := by
  unfold Chip.ethSettled
  split
  · rfl
  · rfl

theorem Chip.goAt_ethSettled (q : Nat) (h : s.goAt.get (Reg.ETH_COMMIT q) = none) : (s.ethSettled q).goAt.get (Reg.ETH_COMMIT q) = none := by
  unfold Chip.ethSettled
  split
  · exact Map.get_set_self s.goAt (Reg.ETH_COMMIT q) none
  · exact h

theorem gclApplied_none (h : (s.sub k).change = none) : gclApplied k s = s := by
  unfold gclApplied
  rw [h]

theorem gclApplied_early {t : Nat} (h : (s.sub k).change = some t) (ht : s.nowNs < t) : gclApplied k s = s := by
  unfold gclApplied
  rw [h]
  exact if_pos ht

/-- A subport with its staged list in force (R663). -/
def Chip.listInForce (s : Chip) (k t : Nat) : Subport :=
  { s.sub k with gates := s.stagedGates k, entry := (s.stagedGates k).entryNow s.nowNs, change := none, lastChange := t }

theorem gclApplied_parts {t : Nat} (h : (s.sub k).change = some t) (ht : (t : Int) ≤ s.nowNs) : (gclApplied k s).flag (Reg.ETH_EVENT (k.val / 4)) 5 = true ∧
    (gclApplied k s).sub k = s.listInForce k t ∧ ∀ j, j ≠ k.val → (gclApplied k s).sub j = s.sub j := by
  unfold gclApplied
  rw [h]
  dsimp only
  rw [if_neg (Int.not_lt.mpr ht)]
  refine ⟨?_, ?_, fun j hj => ?_⟩
  · have hevent : Reg.ETH_EVENT (k.val / 4) ≠ Reg.ETH_COMMIT (k.val / 4) := by
      unfold Reg.ETH_EVENT Reg.ETH_COMMIT
      omega
    exact (congrArg (bit · 5) (Chip.reg_ethSettled _ hevent)).trans (Chip.flag_raise_self _ _ (by decide))
  · rw [Chip.sub_of_subs (Chip.ethSettled_subs _), Chip.sub_raise, Chip.sub_updSub_self]
    rfl
  · rw [Chip.sub_of_subs (Chip.ethSettled_subs _), Chip.sub_raise, Chip.sub_updSub_other _ _ _ hj]
    rfl

/-! ### Verification (R665) -/

theorem mmVerify_idle (h : (s.sub k).verify ≠ 2) (ok : Bool) : mmVerify k ok s = s := if_pos h

variable (h : (s.sub k).verify = 2)
include h

theorem Chip.verified_now : s.verified k = s.updSub k fun y => { y with verify := 3 } := if_pos h

theorem mmVerify_ok : mmVerify k true s = s.verified k := (if_neg (not_not.mpr h)).trans (if_pos rfl)

theorem mmVerify_early (hlate : lasts (s.frc - (s.sub k).triedAt) ((fld (s.subCfg k) 40 34 + 1) * 1000000) = false) : mmVerify k false s = s :=
  (if_neg (not_not.mpr h)).trans ((if_neg (by decide)).trans (if_pos (by rw [hlate]; rfl)))

variable (hlate : lasts (s.frc - (s.sub k).triedAt) ((fld (s.subCfg k) 40 34 + 1) * 1000000) = true)
include hlate

theorem mmVerify_again (htries : (s.sub k).tries < 3) : mmVerify k false s = s.verifyTry k :=
  (if_neg (not_not.mpr h)).trans ((if_neg (by decide)).trans ((if_neg (by rw [hlate]; decide)).trans (if_pos htries)))

theorem mmVerify_fails (htries : 3 ≤ (s.sub k).tries) :
    mmVerify k false s = (s.updSub k fun y => { y with verify := 4 }).raise (Reg.ETH_EVENT (k.val / 4)) 2 :=
  (if_neg (not_not.mpr h)).trans ((if_neg (by decide)).trans ((if_neg (by rw [hlate]; decide)).trans (if_neg (Nat.not_lt.mpr htries))))

end

/-! ### Timestamps taken (R669) -/

section
variable {s : Chip} {k : Fin 32}

theorem tsFifoRead_none (h : (s.sub k).stamps = []) : tsFifoRead k .full s = (s.setReg (Reg.ETH_TS_FIFO1 (k.val / 4) (k.val % 4)) 0).answer 0 := by
  unfold tsFifoRead
  dsimp only
  rw [h]

theorem tsFifoRead_oldest {a b : W64} {rest : List (W64 × W64)} (h : (s.sub k).stamps = (a, b) :: rest) : tsFifoRead k .full s =
    ((s.updSub k fun y => { y with stamps := rest }).setReg (Reg.ETH_TS_FIFO1 (k.val / 4) (k.val % 4)) b).answer a := by
  unfold tsFifoRead
  dsimp only
  rw [h]

end

/-! ### What the part does to itself (R593 to R596) -/

section
variable (s : Chip)

theorem Chip.evalPermit_eq : ∃ r role took permit g, s.evalPermit = { s with regs := r, role := role, tookActive := took, permit := permit, glk := g } := by
  unfold Chip.evalPermit
  split
  · exact ⟨_, _, _, _, _, rfl⟩
  · dsimp only
    split
    · exact ⟨_, _, _, _, _, rfl⟩
    · split
      · obtain ⟨r, hr⟩ := (({ s with permit := s.permits }.withRole 12 (some s.frc)).raise Reg.GLK_EVENT 0).bump_eq Reg.GLK_TAKEOVERS 1
        exact ⟨_, _, _, _, _, hr⟩
      · exact ⟨_, _, _, _, _, rfl⟩

theorem Chip.selfDemote_eq (k : Nat) : ∃ r role took permit g, s.selfDemote k =
    { s with regs := r, role := role, tookActive := took, permit := permit, glk := g } := by
  unfold Chip.selfDemote
  split
  · obtain ⟨r, role, took, permit, g, h⟩ := ((s.withRole 3 none).raise Reg.GLK_EVENT 1).evalPermit_eq
    exact ⟨r, role, took, permit, g, h⟩
  · exact ⟨_, _, _, _, _, rfl⟩

/-- A demotion reaches the role, the permit, GLK and registers. -/
theorem Chip.demotions_eq (u : Chip) : ∃ r role took permit g, s.demotions u =
    { u with regs := r, role := role, tookActive := took, permit := permit, glk := g } := by
  have hstep (v : Chip) (b : Bool) (k : Nat) : ∃ r role took permit g, (if b = true then v.selfDemote k else v) =
      { v with regs := r, role := role, tookActive := took, permit := permit, glk := g } := by
    cases b with
    | false => exact ⟨_, _, _, _, _, rfl⟩
    | true => exact v.selfDemote_eq k
  unfold Chip.demotions
  obtain ⟨r1, o1, t1, p1, g1, h1⟩ := hstep u (u.pairsLow && !s.pairsLow) 1
  dsimp only
  rw [h1]
  obtain ⟨r2, o2, t2, p2, g2, h2⟩ := hstep { u with regs := r1, role := o1, tookActive := t1, permit := p1, glk := g1 } (u.ddrFailed && !s.ddrFailed) 2
  rw [h2]
  obtain ⟨r3, o3, t3, p3, g3, h3⟩ := hstep { u with regs := r2, role := o2, tookActive := t2, permit := p2, glk := g2 } (u.linksLost && !s.linksLost) 3
  exact ⟨r3, o3, t3, p3, g3, h3⟩

theorem Chip.demotions_keeps (u : Chip) : (s.demotions u).active = u.active ∧ (s.demotions u).goAt = u.goAt ∧ (s.demotions u).subs = u.subs := by
  obtain ⟨r, role, took, permit, g, h⟩ := s.demotions_eq u
  rw [h]
  exact ⟨rfl, rfl, rfl⟩

end

/-! ### Links (R680) -/

section
variable {s : Chip} {k : Nat}

/-- An event raised where a condition holds. -/
def Chip.raiseIf (s : Chip) (b : Bool) (a n : Nat) : Chip := if b then s.raise a n else s

theorem Chip.raiseIf_regsOnly (s : Chip) (b : Bool) (a n : Nat) : ∃ r, s.raiseIf b a n = { s with regs := r } := by
  cases b with
  | false => exact ⟨_, rfl⟩
  | true => exact ⟨_, rfl⟩

/-- An event bit that is set stays set. -/
theorem Chip.flag_raiseIf {j n a : Nat} (b : Bool) (hj : j < 64) (h : s.flag a j = true) : (s.raiseIf b a n).flag a j = true := by
  cases b with
  | false => exact h
  | true =>
    by_cases hn : j = n
    · exact hn ▸ Chip.flag_raise_self s a (hn ▸ hj)
    · exact (Chip.flag_setFlag_bit s a true hj hn).trans h

/-- A subport as it settles: down where it is `off`, and its verification as its settings and link leave it (R665, R680). -/
def Subport.settled (off : Bool) (cfg : W64) (y : Subport) : Subport :=
  let y := if off then { y with lock := false, link := false, localFault := false, remoteFault := false, assembly := none } else y
  if !bit cfg 30 || bit cfg 31 then { y with verify := 0, tries := 0 } else if !y.link then { y with verify := 1, tries := 0 } else y

theorem Subport.settled_on (cfg : W64) (y : Subport) : ∃ v t, y.settled false cfg = { y with verify := v, tries := t } := by
  unfold Subport.settled
  rw [if_neg Bool.false_ne_true]
  dsimp only
  split
  · exact ⟨_, _, rfl⟩
  · split
    · exact ⟨_, _, rfl⟩
    · exact ⟨_, _, rfl⟩

/-- A subport settled, before its verification begins. -/
def Chip.subCalm (s : Chip) (k : Nat) : Chip :=
  (s.raiseIf (!s.subOn k && (s.sub k).link) (Reg.ETH_EVENT (k / 4)) 0).updSub k (Subport.settled (!s.subOn k) (s.subCfg k))

theorem Chip.subSettled_eq (s : Chip) (k : Nat) : s.subSettled k = s.subCalm k ∨ s.subSettled k = (s.subCalm k).verifyTry k :=
  (ite_eq_or_eq _ _ _).symm

/-- An attempt of the verification changes its subport and sends an mPacket. -/
theorem Chip.verifyTry_eq (s : Chip) (k : Nat) : ∃ m o, s.verifyTry k = { s with subs := m, out := o } := by
  unfold Chip.verifyTry Chip.mergeSend Chip.emit Chip.updSub
  exact ⟨_, _, rfl⟩

/-- A subport as an attempt of its verification begins (R665). -/
def Subport.tried (frc : Nat) (y : Subport) : Subport := { y with verify := 2, tries := y.tries + 1, triedAt := frc }

theorem Chip.sub_verifyTry_self (s : Chip) (k : Nat) : (s.verifyTry k).sub k = (s.sub k).tried s.frc := s.sub_updSub_self k (Subport.tried s.frc)

theorem Chip.sub_verifyTry_other (s : Chip) (k : Nat) {j : Nat} (hj : j ≠ k) : (s.verifyTry k).sub j = s.sub j :=
  s.sub_updSub_other k (Subport.tried s.frc) hj

theorem Chip.sub_raiseIf (s : Chip) (b : Bool) (a n j : Nat) : (s.raiseIf b a n).sub j = s.sub j := by
  obtain ⟨r, hr⟩ := s.raiseIf_regsOnly b a n
  rw [hr]
  rfl

theorem Chip.sub_subCalm_on (h : s.subOn k = true) : ∃ v t, (s.subCalm k).sub k = { s.sub k with verify := v, tries := t } := by
  rw [Chip.subCalm, Chip.sub_updSub_self, Chip.sub_raiseIf, h]
  exact Subport.settled_on _ _

/-- An enabled subport settles in its verification only. -/
theorem Chip.sub_subSettled_on (h : s.subOn k = true) : ∃ v t a, (s.subSettled k).sub k = { s.sub k with verify := v, tries := t, triedAt := a } := by
  obtain ⟨v, t, hcalm⟩ := Chip.sub_subCalm_on h
  rcases s.subSettled_eq k with heq | heq
  · rw [heq, hcalm]
    exact ⟨_, _, _, rfl⟩
  · rw [heq, Chip.sub_verifyTry_self, hcalm]
    exact ⟨_, _, _, rfl⟩

theorem Chip.sub_subSettled_other (s : Chip) (k : Nat) {j : Nat} (hj : j ≠ k) : (s.subSettled k).sub j = s.sub j := by
  have hcalm : (s.subCalm k).sub j = s.sub j := (Chip.sub_updSub_other _ k _ hj).trans (Chip.sub_raiseIf _ _ _ _ _)
  rcases s.subSettled_eq k with heq | heq
  · rw [heq, hcalm]
  · rw [heq, Chip.sub_verifyTry_other _ _ hj, hcalm]

/-- Whatever a subport's settings, settling it changes registers, subports and what leaves. -/
theorem Chip.subSettled_parts (s : Chip) (k : Nat) : ∃ m o, s.subSettled k =
    { s.raiseIf (!s.subOn k && (s.sub k).link) (Reg.ETH_EVENT (k / 4)) 0 with subs := m, out := o } := by
  rcases s.subSettled_eq k with heq | heq
  · exact ⟨_, _, heq⟩
  · obtain ⟨m, o, hmo⟩ := (s.subCalm k).verifyTry_eq k
    rw [heq, hmo]
    exact ⟨_, _, rfl⟩

theorem Chip.subSettled_applied (s : Chip) (k : Nat) : (s.subSettled k).active = s.active ∧ (s.subSettled k).goAt = s.goAt := by
  obtain ⟨m, o, hmo⟩ := s.subSettled_parts k
  obtain ⟨r, hr⟩ := s.raiseIf_regsOnly (!s.subOn k && (s.sub k).link) (Reg.ETH_EVENT (k / 4)) 0
  rw [hmo, hr]
  exact ⟨rfl, rfl⟩

theorem Chip.flag_subSettled (h : s.flag (Reg.ETH_EVENT (k / 4)) 0 = true) : (s.subSettled k).flag (Reg.ETH_EVENT (k / 4)) 0 = true := by
  obtain ⟨m, o, hmo⟩ := s.subSettled_parts k
  rw [hmo]
  exact Chip.flag_raiseIf (!s.subOn k && (s.sub k).link) (by decide) h

variable {lock link lf rf : Bool}

theorem linkChange_off {k : Fin 32} (h : s.subOn k = false) : linkChange k lock link lf rf s = s := if_pos (by rw [h]; rfl)

/-- The events of a change of lock, link and faults (R680). -/
def Chip.linkRaised (s : Chip) (k : Nat) (link lf rf : Bool) : Chip :=
  (s.raiseIf ((s.sub k).link != link) (Reg.ETH_EVENT (k / 4)) 0).raiseIf ((lf && !(s.sub k).localFault) || (rf && !(s.sub k).remoteFault))
    (Reg.ETH_EVENT (k / 4)) 1

/-- The part as the lock, link and faults of a subport have changed (R680). -/
def Chip.linkSeen (s : Chip) (k : Nat) (lock link lf rf : Bool) : Chip :=
  ((s.linkRaised k link lf rf).updSub k fun y => { y with lock := lock, link := link, localFault := lf, remoteFault := rf }).pmDefect (65 + k) (!lock || rf)

theorem linkChange_on {k : Fin 32} (h : s.subOn k = true) : linkChange k lock link lf rf s = s.demotions ((s.linkSeen k lock link lf rf).subSettled k) :=
  if_neg (by rw [h]; decide)

theorem Chip.linkRaised_regsOnly (s : Chip) (k : Nat) (link lf rf : Bool) : ∃ r, s.linkRaised k link lf rf = { s with regs := r } := by
  obtain ⟨r, hr⟩ := s.raiseIf_regsOnly ((s.sub k).link != link) (Reg.ETH_EVENT (k / 4)) 0
  unfold Chip.linkRaised
  rw [hr]
  exact Chip.raiseIf_regsOnly _ _ _ _

theorem Chip.flag_linkRaised (h : (s.sub k).link ≠ link) : (s.linkRaised k link lf rf).flag (Reg.ETH_EVENT (k / 4)) 0 = true := by
  refine Chip.flag_raiseIf _ (by decide) ?_
  rw [Chip.raiseIf, if_pos (by simpa using h)]
  exact Chip.flag_raise_self s _ (by decide)

theorem Chip.subOn_linkSeen (s : Chip) (k : Nat) : (s.linkSeen k lock link lf rf).subOn k = s.subOn k := by
  obtain ⟨r, hr⟩ := s.linkRaised_regsOnly k link lf rf
  unfold Chip.linkSeen
  rw [hr]
  rfl

theorem Chip.sub_linkSeen_self (s : Chip) (k : Nat) : (s.linkSeen k lock link lf rf).sub k =
    { s.sub k with lock := lock, link := link, localFault := lf, remoteFault := rf } := by
  obtain ⟨r, hr⟩ := s.linkRaised_regsOnly k link lf rf
  unfold Chip.linkSeen
  rw [hr]
  exact Chip.sub_updSub_self { s with regs := r } k fun y => { y with lock := lock, link := link, localFault := lf, remoteFault := rf }

theorem Chip.sub_linkSeen_other (s : Chip) (k : Nat) {j : Nat} (hj : j ≠ k) : (s.linkSeen k lock link lf rf).sub j = s.sub j := by
  obtain ⟨r, hr⟩ := s.linkRaised_regsOnly k link lf rf
  unfold Chip.linkSeen
  rw [hr]
  exact Chip.sub_updSub_other { s with regs := r } k (fun y => { y with lock := lock, link := link, localFault := lf, remoteFault := rf }) hj

/-- What an enabled subport shows after a change of its link (R680). -/
theorem linkChange_parts {k : Fin 32} (h : s.subOn k = true) : ((linkChange k lock link lf rf s).sub k).lock = lock ∧
    ((linkChange k lock link lf rf s).sub k).link = link ∧ ((linkChange k lock link lf rf s).sub k).localFault = lf ∧
    ((linkChange k lock link lf rf s).sub k).remoteFault = rf ∧
    ((s.sub k).link ≠ link → (linkChange k lock link lf rf s).flag (Reg.ETH_EVENT (k.val / 4)) 0 = true) ∧
    ∀ j, j ≠ k.val → (linkChange k lock link lf rf s).sub j = s.sub j := by
  rw [linkChange_on h]
  obtain ⟨-, -, hsubs⟩ := s.demotions_keeps ((s.linkSeen k lock link lf rf).subSettled k)
  obtain ⟨v, t, a, hself⟩ := Chip.sub_subSettled_on ((s.subOn_linkSeen (lock := lock) (link := link) (lf := lf) (rf := rf) k).trans h)
  rw [Chip.sub_of_subs hsubs, hself, Chip.sub_linkSeen_self]
  refine ⟨rfl, rfl, rfl, rfl, fun hlink => ?_, fun j hj => ?_⟩
  · obtain ⟨-, hreg⟩ := glkOnly_demotions s ((s.linkSeen k lock link lf rf).subSettled k)
    have hevent : Reg.ETH_EVENT (k.val / 4) ≠ Reg.GLK_EVENT ∧ Reg.ETH_EVENT (k.val / 4) ≠ Reg.GLK_TAKEOVERS := by
      unfold Reg.ETH_EVENT Reg.GLK_EVENT Reg.GLK_TAKEOVERS
      omega
    exact (congrArg (bit · 0) (hreg _ hevent.1 hevent.2)).trans (Chip.flag_subSettled (Chip.flag_linkRaised hlink))
  · rw [Chip.sub_of_subs hsubs, Chip.sub_subSettled_other _ _ hj, Chip.sub_linkSeen_other _ _ hj]

end

/-! ### Staged values of a port in force (R678) -/

section
variable {s : Chip} {p : Fin 8}

theorem ethApply_none (h : s.goPending (Reg.ETH_COMMIT p) = false ∨ s.goAt.get (Reg.ETH_COMMIT p) = none) : ethApply p s = s :=
  if_pos (by rcases h with h | h <;> simp [h])

/-- A subport of a port as the port's staged values come into force: its list, where none waits for its time, and its MAX_LEN before (R663, R678). -/
def Chip.subApplied (s : Chip) (q : Nat) (u : Chip) (i : Nat) : Chip :=
  let k := 4 * q + i
  let v := if bit (u.subCfg k) 41 then u
    else (u.applyRange (Cell.gcl k 0) (Cell.gcl (k + 1) 0)).updSub k fun x => { x with gates := { x.gates with on := false }, entry := 0 }
  (v.updSub k fun x => { x with maxBefore := s.maxLen k, appliedAt := s.frc }).subSettled k

/-- The part with a port's staged values in force (R678). -/
def Chip.portApplied (s : Chip) (q : Nat) : Chip :=
  (List.range 4).foldl (s.subApplied q) (s.applyRange (Reg.ETH_COMMIT q) (Reg.ETH_COMMIT (q + 1)))

theorem ethApply_applies (h : s.goPending (Reg.ETH_COMMIT p) = true) (hgo : s.goAt.get (Reg.ETH_COMMIT p) ≠ none) : ethApply p s =
    s.demotions ({ s.portApplied p with goAt := (s.portApplied p).goAt.set (Reg.ETH_COMMIT p) none }.ethSettled p) :=
  if_neg (by simp [h, hgo])

/-- A subport's part of it leaves every applied register: its list lies in a table. -/
theorem Chip.act_subApplied (s : Chip) (q i : Nat) (u : Chip) {a : Nat} (ha : a < 4294967296) : (s.subApplied q u i).act a = u.act a := by
  have hlist (k : Nat) : (u.applyRange (Cell.gcl k 0) (Cell.gcl (k + 1) 0)).act a = u.act a := by
    rw [Chip.act_applyRange]
    refine if_neg fun hin => ?_
    unfold Cell.gcl cell at hin
    omega
  unfold Chip.subApplied
  dsimp only
  rw [Chip.act, (Chip.subSettled_applied _ _).1]
  split
  · rfl
  · exact hlist _

theorem Chip.act_portApplied (s : Chip) (q : Nat) {a : Nat} (ha : a < 4294967296) :
    (s.portApplied q).act a = (s.applyRange (Reg.ETH_COMMIT q) (Reg.ETH_COMMIT (q + 1))).act a :=
  List.foldlRecOn (motive := fun u : Chip => u.act a = (s.applyRange (Reg.ETH_COMMIT q) (Reg.ETH_COMMIT (q + 1))).act a) (List.range 4) (s.subApplied q) rfl
    fun u hu i _ => (s.act_subApplied q i u ha).trans hu

/-- What a port shows once its staged values are in force. -/
theorem ethApply_parts (h : s.goPending (Reg.ETH_COMMIT p) = true) (hgo : s.goAt.get (Reg.ETH_COMMIT p) ≠ none) :
    (∀ a, Reg.ETH_COMMIT p ≤ a → a < Reg.ETH_COMMIT (p + 1) → stagedBits a ≠ 0 → (ethApply p s).act a = s.reg a) ∧
    (ethApply p s).goAt.get (Reg.ETH_COMMIT p) = none := by
  rw [ethApply_applies h hgo]
  obtain ⟨hactive, hgoAt, -⟩ := s.demotions_keeps
    ({ s.portApplied p with goAt := (s.portApplied p).goAt.set (Reg.ETH_COMMIT p) none }.ethSettled p)
  refine ⟨fun a hlo hhi hstaged => ?_, ?_⟩
  · have hregister : a < 4294967296 := by
      unfold Reg.ETH_COMMIT at hhi
      omega
    rw [Chip.act, hactive, Chip.ethSettled_active]
    refine (s.act_portApplied p hregister).trans ?_
    rw [Chip.act_applyRange, if_pos ⟨hlo, hhi, hstaged⟩]
  · rw [hgoAt]
    exact Chip.goAt_ethSettled _ (Map.get_set_self (s.portApplied p).goAt (Reg.ETH_COMMIT p) none)

theorem staged_portCfg : ∀ p : Fin 8, stagedBits (Reg.ETH_PORT_CFG p) ≠ 0 := by decide
theorem staged_subCfg : ∀ (p : Fin 8) (i : Fin 4), stagedBits (Reg.ETH_SUB_CFG p i) ≠ 0 := by decide

end

/-- Settles O48: each command by the lemma that says what it does in the case at hand. -/
theorem uplinksSendAndReceive : Obligations.UplinksSendAndReceive := by
  intro s k p hr c x port lane up free pfc
  refine ⟨fun h => runs_of_core_eq rfl hr (ethApply_none h), ?apply,
    fun h => ⟨fun r => runs_of_core_eq rfl hr (ethRxFrame_off h), fun classes quanta => runs_of_core_eq rfl hr (pfcReceive_off h classes quanta)⟩, ?receive,
    fun h => runs_of_core_eq rfl hr (ethTxFrame_down h), ?transmit, ?resume,
    fun classes quanta h hoff => runs_of_core_eq rfl hr (pfcReceive_ignored h hoff),
    fun classes quanta h hon => ⟨_, runs_of_core_eq rfl hr rfl, pfcReceive_pauses h hon⟩,
    fun cls => ⟨fun h => runs_of_core_eq rfl hr (pauseExpire_not h), fun h hover => ⟨_, runs_of_core_eq rfl hr (pauseExpire_ends h hover), ?expired, rfl⟩⟩,
    fun h => runs_of_core_eq rfl hr (if_pos h), fun h => runs_of_core_eq rfl hr (if_pos h), fun h => runs_of_core_eq rfl hr (if_pos h),
    fun i hi => ⟨fun hfree hx => runs_of_core_eq rfl hr (pfcXoff_one hi hfree hx), fun t hfree hx hdue => runs_of_core_eq rfl hr (pfcRefresh_one hi hfree hx hdue),
      fun t hfree hx => runs_of_core_eq rfl hr (pfcXon_one hi hfree hx)⟩,
    fun h => runs_of_core_eq rfl hr (if_neg (Bool.eq_false_iff.mp h)), fun h => runs_of_core_eq rfl hr (if_pos h),
    fun h => runs_of_core_eq rfl hr (gclApplied_none h), fun t h ht => runs_of_core_eq rfl hr (gclApplied_early h ht),
    fun t h ht => ⟨_, runs_of_core_eq rfl hr rfl, gclApplied_parts h ht⟩,
    fun h ok => runs_of_core_eq rfl hr (mmVerify_idle h ok), ?verify, runs_of_core_eq rfl hr rfl,
    fun h => ⟨_, runs_of_core_eq rfl hr (tsFifoRead_none h), rfl, Chip.reg_setReg_self c _ _⟩, ?stamp,
    fun h lock link lf rf => runs_of_core_eq rfl hr (linkChange_off h), fun h lock link lf rf => ⟨_, runs_of_core_eq rfl hr rfl, linkChange_parts h⟩⟩
  case apply =>
    intro h hgo
    obtain ⟨hact, hdone⟩ := ethApply_parts h hgo
    refine ⟨_, runs_of_core_eq rfl hr rfl, hact _ ?_ ?_ (staged_portCfg p), fun i hi => hact _ ?_ ?_ (staged_subCfg p ⟨i, hi⟩), hdone⟩
    · unfold Reg.ETH_COMMIT Reg.ETH_PORT_CFG
      omega
    · unfold Reg.ETH_COMMIT Reg.ETH_PORT_CFG
      omega
    · unfold Reg.ETH_COMMIT Reg.ETH_SUB_CFG
      omega
    · unfold Reg.ETH_COMMIT Reg.ETH_SUB_CFG
      omega
  case receive =>
    intro h r len seen
    refine ⟨fun hsmd hlen => runs_of_core_eq rfl hr ((ethRxFrame_express h hsmd).trans (ethArrive_short hlen)),
      fun hsmd hlen htype => ?whole, fun hsmd hlen hmax htype hfcs hop => runs_of_core_eq rfl hr ((ethRxFrame_express h hsmd).trans
        (ethArrive_pause hlen hmax htype hfcs hop)),
      fun hsmd => runs_of_core_eq rfl hr (ethRxFrame_verify h hsmd),
      fun hsmd hverify => runs_of_core_eq rfl hr ((ethRxFrame_respond h hsmd).trans (Chip.verified_now hverify)),
      fun hexpress hverify hrespond hother => runs_of_core_eq rfl hr (ethRxFrame_unknown h hexpress hverify hrespond hother),
      fun n hn hsmd hnone hcheck => runs_of_core_eq rfl hr ((ethRxFrame_start h hn hsmd).trans (mergeStart_begins hnone hcheck)),
      fun n hn hsmd hnone => ⟨_, runs_of_core_eq rfl hr ((ethRxFrame_next h hn hsmd).trans (mergeNext_lost hnone)), assemblyLost_parts c k⟩,
      fun n hn b hsmd hb hnumber hcount => ⟨fun hcheck => runs_of_core_eq rfl hr ((ethRxFrame_next h hn hsmd).trans
          (mergeNext_goesOn hb hnumber hcount hcheck)),
        fun hcheck => runs_of_core_eq rfl hr ((ethRxFrame_next h hn hsmd).trans (mergeNext_ends hb hnumber hcount hcheck))⟩⟩
    intro cut
    exact ⟨fun hfcs => runs_of_core_eq rfl hr ((ethRxFrame_express h hsmd).trans (ethArrive_right hlen htype hfcs)),
      fun hfcs => runs_of_core_eq rfl hr ((ethRxFrame_express h hsmd).trans (ethArrive_wrong hlen htype hfcs))⟩
  case transmit =>
    intro f rest h hf u
    refine ⟨fun hlong => runs_of_core_eq rfl hr ((ethTxFrame_sends h hf (.inr hlong)).trans (ethSend_tooLong (s := u) hlong)),
      fun hlen hallows => runs_of_core_eq rfl hr (ethTxFrame_waits h hf hlen hallows),
      fun hlen hallows hcut => runs_of_core_eq rfl hr ((ethTxFrame_sends h hf (.inl hallows)).trans (ethSend_whole (s := u) hlen hcut)),
      fun hlen hallows hcut => ?cut⟩
    exact ⟨_, runs_of_core_eq rfl hr (ethTxFrame_sends h hf (.inl hallows)), ethSend_cuttable (s := u) k.isLt hlen hcut⟩
  case resume =>
    intro r h hnone hpreempted hgate hexpress wire hroom
    exact runs_of_core_eq rfl hr ((ethTxFrame_resumes h hnone hpreempted).trans (ethResume_rest hgate hexpress hroom))
  case expired =>
    rw [Chip.sub_updSub_self]
    exact Map.get_set_self x.paused cls.val none
  case verify =>
    intro h
    refine ⟨runs_of_core_eq rfl hr ((mmVerify_ok h).trans (Chip.verified_now h)), ?late⟩
    intro late
    exact ⟨fun hlate => runs_of_core_eq rfl hr (mmVerify_early h hlate), fun hlate htries => runs_of_core_eq rfl hr (mmVerify_again h hlate htries),
      fun hlate htries => runs_of_core_eq rfl hr (mmVerify_fails h hlate htries)⟩
  case stamp =>
    intro a b rest h
    exact ⟨_, runs_of_core_eq rfl hr (tsFifoRead_oldest h), rfl, Chip.reg_setReg_self _ _ _, c.sub_updSub_self k fun y => { y with stamps := rest }⟩

end Sys2Proof.Machine
end

section
/-! The lanes of the Gulrov link (R610, R611): a change of them does not reach the state after the command. -/
namespace Sys2Proof.Machine
open Sys2Proof.Claim

/-- What follows a change of the lanes is worked out on its second state, and leaves the lanes of that one. -/
theorem Chip.lanes_lanesChanged (old s : Chip) : (old.lanesChanged s).glk.link.lanes = s.glk.link.lanes := by
  have hlost : (if old.linkAligned && !s.linkAligned then
      if s.glk.link.rxQuiet then s.updLink fun l => { l with expect := none, rows := [], next := none }
      else (s.updLink fun l => { l with expect := none, rows := [], next := none }).raise Reg.GLK_EVENT 4
    else s).glk.link.lanes = s.glk.link.lanes := by
    split
    · split
      · rfl
      · rfl
    · rfl
  unfold Chip.lanesChanged
  dsimp only
  split
  · exact hlost
  · exact hlost

/-- Sync headers leave every lane as it was: BLOCK_LOCK gives the changed state as the first one of `Chip.lanesChanged`, and the state that it began
with as the second. -/
theorem blockLock_lanes (lane : Fin 8) (headers : List (BitVec 2)) (s : Chip) : (blockLock lane headers s).glk.link.lanes = s.glk.link.lanes :=
  Chip.lanes_lanesChanged _ s

/-- Refutes O45: of a part at reset, one valid sync header on lane 0 is to leave a run of 1 there (R611); the lane still has a run of 0. -/
theorem not_theLinkCarriesRecords : ¬ Obligations.TheLinkCarriesRecords := by
  intro h
  obtain ⟨-, -, -, -, -, -, -, -, -, -, -, -, hlock, -⟩ := h State.reset 0 0 0 rfl
  obtain ⟨y, hy, hlane, -⟩ := hlock [1]
  have hrun : y = blockLock 0 [1] State.reset.chip := runs_unique hy (runs_of_core rfl rfl)
  have hkept : y.glk.link.lanes = State.reset.chip.glk.link.lanes := hrun ▸ blockLock_lanes 0 [1] State.reset.chip
  rw [hkept] at hlane
  exact absurd hlane (by decide)

end Sys2Proof.Machine
end
